-- ==== Sys2Proof/Word.lean ====
section
/-!
DEFINITION. The word types of the IXM9640 model and its sparse table type, as plain data.
Register contents, addresses in an operand and fields of words are bit vectors; counts, indices and times are numbers.
-/
namespace Sys2Proof

/-- One byte of a memory or a frame. -/
abbrev Byte := BitVec 8

/-- A 32-bit register word (every register of the map is 32 bits wide, `spec/00_scope.md` R13). -/
abbrev Word := BitVec 32

/-- A 64-bit value: a doorbell pair, a UID, a serial number. -/
abbrev DWord := BitVec 64

/-- A sparse table from a number to a value, as plain data: keys strictly rising, no entry equal to the value an
unlisted key reads as. The operations over it are in `Machine/Table.lean`. -/
abbrev Table (α : Type) := List (Nat × α)

/-- A floating-point value. Zero has no sign: no output of the device is −0 and an operand −0 reads as zero (R196,
R207). -/
inductive FVal where
  | nan
  | inf (neg : Bool)
  | fin (q : Rat)
deriving DecidableEq, Repr

end Sys2Proof
end

