-- ==== Sys2Proof/Syntax.lean ====
section
/-!
DEFINITION. The commands of the IXM9640 taken as a block: one constructor of `Instr` per row of `spec/opcode_table.json`,
in the table's order, with the operand types they carry. A command is a register access, a mailbox command, a frame or
word that arrives, an event on a pin, or a moment the spec names; facts the device cannot compute (measured levels,
deviations, host memory contents, sensed fuses) are operands.
-/
namespace Sys2Proof

/-! ### Operands of `spec/00_scope.md` -/

/-- Who makes a register access: a host function (function 0 is PF0, function n is VFn, R488) with or without the T bit of
its IDE stream (R381), or the Ngabex firmware on a control core. -/
inductive Agent where
  | host (fn : Fin 8) (tbit : Bool)
  | fw (core : Fin 16)
deriving DecidableEq, Repr

/-- One of the two 25 MHz references (R39). -/
inductive RefId where
  | A | B
deriving DecidableEq, Repr

/-! ### Operands of `spec/02_time_base.md` -/

/-- What one grading window measured (R63, R64): signed deviations in ppb of REFA and REFB from the grading base, of REFA
from REFB, and of each from the AON oscillator; and whether each reference showed edges throughout the window. -/
structure RefMeas where
  devA : Int
  devB : Int
  devAB : Int
  oscA : Int
  oscB : Int
  edgesA : Bool
  edgesB : Bool
deriving DecidableEq, Repr

/-- PTP transports (Table TB-4); IPv6 is one that is not supported. -/
inductive PtpTransport where
  | layer2 | udp4 | udp6
deriving DecidableEq, Repr

/-- The parts of a received PTP message that Table TB-4 tests: the UDP port where it came over UDP, the sending port, its
logMessageInterval; and the servo's offset estimate in ns when it is a Sync (the servo's arithmetic is firmware the spec does not
give, so its estimate is an outside fact). -/
structure PtpMsg where
  transport : PtpTransport
  udpPort : BitVec 16
  source : BitVec 80
  msgType : BitVec 4
  logInterval : BitVec 8
  domain : BitVec 8
  unicast : Bool
  authTlv : Bool
  mgmtSet : Bool
  servoOffset : Int
deriving DecidableEq, Repr

/-- PTP port states (Table TB-10). -/
inductive PtpState where
  | initializing | faulty | disabled | listening | uncalibrated | slave | passive
deriving DecidableEq, Repr

/-! ### Operands of `spec/03_wayline_link.md` -/

/-- Kinds of a Wayline block that is discarded (R77). -/
inductive BadBlock where
  | syncHeader | blockType
deriving DecidableEq, Repr

/-! ### Operands of `spec/04_module_identity.md` -/

/-- The medium of an identity operation: a head by its slot, or the tag in the Hatband field. -/
inductive Medium where
  | head (slot : Fin 256)
  | tag
deriving DecidableEq, Repr

/-- How a tag command or a frame write ended (R129, R131): answered well, with an ISO/IEC 15693 error code, or, on a
head, with WRITE_PROTECT or I2C_NAK. -/
inductive IdAnswer where
  | ok
  | tagError (code : Byte)
  | writeProtect
  | i2cNak
deriving DecidableEq, Repr

/-- What an Inventory meets beside the UIDs (R123, Table ID-9): the carrier amplitude, and the slots with a collision and with a
frame of a bad CRC. -/
structure PollAir where
  amplitude : BitVec 12
  collisions : Fin 17
  badCrcs : Fin 17
deriving DecidableEq, Repr

/-- How a command to a tag fails (R124, Table ID-9): no response, a response with a bad CRC, an error response. -/
inductive TagFail where
  | none | badCrc | error
deriving DecidableEq, Repr

/-- A command to a tag that has failed: the tag, the code and its argument, and how. -/
structure TagMiss where
  uid : DWord
  code : Byte
  arg : Nat
  why : TagFail
deriving DecidableEq, Repr

/-! ### Operands of `spec/05_carding_and_queues.md` -/

/-- What the SECDED of the carding tables found on an event's accesses (R146). -/
inductive EccResult where
  | clean | corrected
  /-- The address of the word. -/
  | uncorrectable (addr : Word)
deriving DecidableEq, Repr

/-- What the tables of a head are loaded with: the rectification nodes that the firmware computes, and what the SECDED finds
(R144, R146). -/
structure HeadTables where
  rect : List Nat
  ecc : EccResult
deriving DecidableEq, Repr

/-- What the checks of a queue find in the line that a read of EQ_POP takes: corrected and uncorrectable positions, and whether
the pointer copies disagree (R160, R162). -/
structure LineChecks where
  ce : BitVec 8
  ue : BitVec 8
  ptrBad : Bool
deriving DecidableEq, Repr

/-- A read's length in bytes (R491), and what the checks find where it covers an EQ_POP. -/
structure ReadLen where
  size : Nat
  line : LineChecks
deriving DecidableEq, Repr

/-! ### Operands of `spec/06_fuller_surfaces.md` -/

/-- A 64-bit Nap word in which the SECDED found an error (R184): subscription, tile, the word within the tile, and whether
the error is uncorrectable. -/
structure NapErr where
  sub : Fin 64
  tile : BitVec 14
  word : BitVec 11
  ue : Bool
deriving DecidableEq, Repr

/-! ### Operands of `spec/08_mills.md` -/

/-- What an EWISE task computes (Table MB-6). -/
inductive EwiseOp where
  | add | mul | scale | max | min
deriving DecidableEq, Repr

/-- What a task's descriptor does not say of it: the operator of an EWISE task, whether a POOL task averages (Table MB-6), and the
verdict of a TEST task (R243). A task uses only what its KIND calls for. -/
structure TaskFn where
  ewise : EwiseOp := .add
  avg : Bool := false
  pass : Bool := true
deriving DecidableEq, Repr

/-- What the SECDED of Mill SRAM found on the accesses of a command (R221): corrected errors, and the byte address of an
uncorrectable one. -/
structure SramEcc where
  ce : Nat
  ue : Option (BitVec 20)
deriving DecidableEq, Repr

/-- The detectors of Table ML-7 in a tensor engine. -/
inductive TeCause where
  | residue | accParity
deriving DecidableEq, Repr

/-- An error that a read outside the SRAM meets: a corrected or uncorrectable word of a short batt (R274), or one on the link
of an LPDDR channel, with its address there (R512). -/
inductive ReadErr where
  | none | battCorrected | battUe
  | link (ue : Bool) (c : Fin 8) (addr : Word)
deriving DecidableEq, Repr

/-- Which side asked for a tile read: a DMA channel, or an instance on a tensor engine (R224, R235). -/
inductive TileReq where
  | dma (ch : Fin 4)
  | task (te : Fin 16)
deriving DecidableEq, Repr

/-- What a self-test covered (R241): a quadrant, or one fenced Mill. -/
inductive BistOf where
  | quadrant (q : Fin 4)
  | mill (m : Fin 128)
deriving DecidableEq, Repr

/-! ### Operands of `spec/09_milestones_and_buffers.md` -/

/-- The action of a waiter that a core registers (R256): wake the thread of a core, or post to a token counter. -/
inductive WaitAct where
  | ncc (core : Fin 16)
  | tkc (mill : Fin 128) (tkc : Fin 64) (count : BitVec 16)
deriving DecidableEq, Repr

/-- An agent of a Spur at the buffer-pool manager (R265, Table MS-5): the 12-bit ID and the Spur it acts for. -/
structure BattAgent where
  id : BitVec 12
  spur : Fin 8
deriving DecidableEq, Repr

/-- An ALLOC that a port presents in a cycle (R267). -/
structure AllocReq where
  agent : BattAgent
  long : Bool
  wait : Bool
  timeout : Option DWord
deriving DecidableEq, Repr

/-! ### Operands of `spec/11_kerb_and_deadlines.md` -/

/-- A safety output: 0 SSTOP_A, 1 SSTOP_B, 2 SSLOW_N, 3 to 10 ZG0 to ZG7 (Table KB-2). -/
abbrev SafeOut := Fin 11

/-- Which control copy of a safety input: ESTOP_A or ESTOP_B, SSTOP_FBA or SSTOP_FBB. -/
inductive Side where
  | a | b
deriving DecidableEq, Repr

/-! ### Operands of `spec/12_mailboxes_and_operators.md` -/

/-- A register setting that a configuration command carries: the BAR0 offset of a word and its new contents. The spec gives
these commands' settings by their registers and not by the layout of their operand words. -/
structure RegSet where
  off : BitVec 23
  w : Word
deriving DecidableEq, Repr

/-- What an opened Hatbox body says (R351, R358; the layout of the body is the model compiler's): the Mills it is placed
on and whether its needs fit (0, or the resource of HB_NOFIT), the LPDDR it takes, its NUMFMT words, its task descriptors by
Mill, the weights and tables that go to Mill SRAM, whether its operators keep to Table MB-6, the domains it uses, whether it has a
verdict output, the profile of its declared worst-case cost (`Config.hbCost`) and the bytes of its outputs. -/
structure HbBody where
  mills : List (Fin 128)
  fit : Fin 4
  lpddrBase : Nat
  lpddrLen : Nat
  numfmts : List Word
  tasks : List (Fin 128 × List Byte)
  sram : List (Fin 128 × BitVec 20 × List Byte)
  operatorsOk : Bool
  domains : BitVec 13
  verdict : Bool
  cost : Nat
  outLen : Nat
deriving DecidableEq, Repr

/-- A Hatbox image at its source: its header of 1,152 bytes, how many bytes the body has and the body itself as opened, or
as it would open, under its content key. -/
structure HbImage where
  header : List Byte
  length : Nat
  body : HbBody
deriving DecidableEq, Repr

/-- The settings of PTP_CFG (Table MB-4, Table TB-4): 0 IEEE 1588 default, 1 its peer-delay profile, 2 IEEE 802.1AS. -/
structure PtpSettings where
  profile : Fin 3
  domain : BitVec 8
  logSync : Int
  logDelayReq : Int
  asymIn : Word
  asymOut : Word
deriving DecidableEq, Repr

/-- What a CW_CFG command does beside its settings (R390, R403, R406). -/
inductive CwAct where
  | none | join | leave | batch
deriving DecidableEq, Repr

/-- What the operand words of a configuration command say: its settings; the slot, queue or Spur it is for; for SPUR_CFG
whether it releases; and for CW_CFG what it does beside its settings. -/
structure CfgOps where
  settings : List RegSet := []
  target : Nat := 0
  release : Bool := false
  act : CwAct := .none
deriving DecidableEq, Repr

/-! ### Operands of `spec/13_spurs_and_security.md` -/

/-- A resource that is scrubbed (Table SP-3). -/
inductive ScrubRes where
  | quad (q : Fin 32)
  | channel (c : Fin 8)
  | port (p : Fin 8)
  | block (b : Fin 32)
deriving DecidableEq, Repr

/-- The sub-streams of an IDE key (Table SP-8). -/
inductive IdeSub where
  | pr | npr | cpl
deriving DecidableEq, Repr

/-! ### Operands of `spec/14_causeway_cascade.md` -/

/-- A Causeway packet as it arrives at the in-port: its 32-byte header, its payload, and whether every codeword and, on an
encrypted hop, the tag are good (R393, R394, R397). -/
structure CwPacket where
  header : List Byte
  payload : List Byte
  intact : Bool
deriving DecidableEq, Repr

/-- A lane of the in-port at a frame: how many of the frame's ten codewords its FEC corrected, and how many it could not (R387,
Table CW-9). -/
structure CwLane where
  lane : Fin 8
  corrected : Fin 11
  lost : Fin 11
deriving DecidableEq, Repr

/-! ### Operands of `spec/16_reset_and_persistence.md` -/

/-- A fuse word as a fuse read senses it (R469): its copies a, b and c at NORMAL and at TIGHT. -/
structure FuseWord where
  word : Fin 512
  nA : Word
  nB : Word
  nC : Word
  tA : Word
  tB : Word
  tC : Word
deriving DecidableEq, Repr

/-- What the fused words say (Table RP-6): PART and stepping of GLOBAL_ID, and the fused identity and policy; the spec does
not give the place of each field in the words. -/
structure FusedId where
  part : BitVec 16
  stepMaj : BitVec 4
  stepMin : BitVec 4
  serial : DWord
  kitId : DWord
  kitSize : BitVec 5
  kitPresent : Bool
  cwPolicy : Bool
  dbgOpen : Bool
  safeStrict : Bool
  mac : BitVec 48
deriving DecidableEq, Repr

/-- What a boot finds outside the device's own state: whether REFA and REFB are present (R40), the straps and whether a pin's
samples disagreed (R535), the fuse words (those not listed read as 0 at both references) and what they say, the die temperature
in °C + 64, whether images A and B verify (R464), whether the SFDP tables are there with a 4 KiB erase (R530), whether the
certificate is bad (R371), the register settings that the active bank's records spell, the channels that fail training (R508),
whether the journal is intact (R461), the carding units whose self-check passes (R542), the HOLDUP_SNS code (R479), whether the
through-path cells hold the active bank's codes and, if rewritten, take them (R486), and the NGX_VER of the image. At a cold
boot also bytes of the boot flash as found, where they are not those that the device knows: it is a part of the board. -/
structure BootFacts where
  refA : Bool
  refB : Bool
  devid : BitVec 4
  role : BitVec 2
  strapUnstable : Bool
  fuses : List FuseWord
  fused : FusedId
  temp : Byte
  imgA : Bool
  imgB : Bool
  sfdpOk : Bool
  certBad : Bool
  settings : List RegSet
  trainFail : BitVec 8
  journalOk : Bool
  cardPass : BitVec 8
  huCode : BitVec 12
  cellsMatch : Bool
  cellsTake : Bool
  ngxVer : Word
  flash : List (Word × List Byte)
  teFail : List (Fin 128 × BitVec 16)
  millFail : List (Fin 128)
  coreFail : BitVec 16
deriving DecidableEq, Repr

/-- What the SFDP tables say: the typical 4 KiB erase and page-program times in µs, the maximum-time factor and the page
size in bytes (R480, R530). -/
structure FlashTimes where
  sectorUs : Nat
  pageUs : Nat
  factor : Nat
  page : Nat
deriving DecidableEq, Repr

/-! ### Operands of `spec/17_host_and_memory.md` -/

/-- What the device was moving when a host DMA error met it (R502). -/
inductive DmaUse where
  | fetch | operand | completion
deriving DecidableEq, Repr

/-! ### Operands of `spec/18_aux_signals.md` -/

/-- The instructions of the TAP (R533); `other` is a code that it does not list. -/
inductive TapInstr where
  | bypass | idcode | sample | extest | extestPulse | extestTrain | clamp | highz | other
deriving DecidableEq, Repr

/-! ### Operands of `spec/19_faults_and_recovery.md` -/

/-- The shared islands of R543: four of PD_FUL, then those of PD_CTRL with the codes of ERR_DEVFAULT. -/
inductive SharedIsland where
  | fuller | projectors | ego | tracker
  | milestone | batts | bank0 | bank1 | mailboxes | security | router
deriving DecidableEq, Repr

/-- How an island fails (R542, R543). -/
inductive IslandCause where
  | clock | parity | handshake
deriving DecidableEq, Repr

/-- The commands, one per row of `spec/opcode_table.json`, in its order. -/
inductive Instr where
  /-- REGISTER_WRITE (R3): a write of `size` bytes at a BAR0 offset of the agent's function, lower word first; a host write may
  come poisoned (R502). -/
  | registerWrite (who : Agent) (off : BitVec 23) (size : Nat) (allBytes poisoned : Bool) (data : DWord)
  /-- TIME_RAW_LO_READ (R50): a read of TIME_RAW_LO. -/
  | timeRawLoRead (who : Agent)
  /-- TIME_RC_LO_READ (R46): a read of TIME_RC_LO. -/
  | timeRcLoRead (who : Agent)
  /-- TIME_SNAP_GO (R50): a write of 1 to TIME_SNAP.GO. -/
  | timeSnapGo (who : Agent)
  /-- TIME_CMD_NONE (R46): a TIME_CMD write with OP NONE and this SLEW_PPM. -/
  | timeCmdNone (who : Agent) (ppm : BitVec 8)
  /-- TIME_CMD_FOLD (R45): a TIME_CMD write with OP FOLD. -/
  | timeCmdFold (who : Agent) (ppm : BitVec 8)
  /-- TIME_CMD_SLEW (R582): a TIME_CMD write with OP SLEW. -/
  | timeCmdSlew (who : Agent) (ppm : BitVec 8)
  /-- TIME_CMD_STEP (R47): a TIME_CMD write with OP STEP. -/
  | timeCmdStep (who : Agent) (ppm : BitVec 8)
  /-- TIME_COMMIT_RELEASE (R46): the oldest held commit is taken. -/
  | timeCommitRelease
  /-- TIME_COMMIT_APPLY (R45): the commit taken last takes effect for good. -/
  | timeCommitApply
  /-- SLEW_END (R582): the slew remainder has reached zero. -/
  | slewEnd
  /-- REF_LOSS (R39): no rising edge for 200 ns. -/
  | refLoss (r : RefId)
  /-- REF_WINDOW_END (R63): a grading window ends. -/
  | refWindowEnd (m : RefMeas)
  /-- REF_NONE_TIMEOUT (R72): both references absent for more than 1 s in holdover. -/
  | refNoneTimeout
  /-- PTP_MESSAGE_RX (R51): a PTP message arrives on ETH0. -/
  | ptpMessageRx (m : PtpMsg)
  /-- PTP_PORT_STATE_CHANGE (R70): the PTP port enters a state. -/
  | ptpPortStateChange (st : PtpState)
  /-- ARP_REQUEST_RX (R529): an ARP request for an IPv4 address arrives. -/
  | arpRequestRx (ip : Word)
  /-- ETH_FRAME_DISCARD (R529): any other frame arrives on ETH0. -/
  | ethFrameDiscard
  /-- PTP_FRAME_TX (R53): a frame with a stamp identifier leaves ETH0. -/
  | ptpFrameTx (id : BitVec 16)
  /-- PTP_FRAME_DROPPED (R54): a frame with a stamp identifier is discarded before transmission. -/
  | ptpFrameDropped (id : BitVec 16)
  /-- TXTS_POP (R55): a write of 1 to TXTS_POP. -/
  | txtsPop (who : Agent)
  /-- WAYMARK_BOUNDARY (R56): microsecond time is a multiple of 256. -/
  | waymarkBoundary
  /-- TRIG_ENABLE (R60): a TRIGn_CTRL write with EN = 1. -/
  | trigEnable (who : Agent) (n : Fin 8) (w : Word)
  /-- TRIG_DISABLE (R62): a TRIGn_CTRL write with EN = 0. -/
  | trigDisable (who : Agent) (n : Fin 8) (w : Word)
  /-- TRIG_COUNT_WRITE (R62): a TRIGn_COUNT write. -/
  | trigCountWrite (who : Agent) (n : Fin 8) (count : BitVec 16)
  /-- TRIG_EDGE (R58): a trigger reaches its scheduled WT64. -/
  | trigEdge (n : Fin 8)
  /-- TRIG_PULSE_END (R58): a trigger pulse reaches its width. -/
  | trigPulseEnd (n : Fin 8)
  /-- WL_PORT_ENABLE (R587): a WL_CTRL write with EN = 1. -/
  | wlPortEnable (who : Agent) (p : Fin 8) (w : Word)
  /-- WL_PORT_DISABLE (R587): a WL_CTRL write with EN = 0. -/
  | wlPortDisable (who : Agent) (p : Fin 8) (w : Word)
  /-- WL_INLANES_LOCK (R109): the port's in-lanes lock. -/
  | wlInlanesLock (p : Fin 8)
  /-- WL_LANE_LOSS (R76): a lane of the port fails. -/
  | wlLaneLoss (p : Fin 8)
  /-- BLOCK_DISCARD (R77): a block that Table WL-1 does not list arrives. -/
  | blockDiscard (p : Fin 8) (b : BadBlock)
  /-- LANE_ALIGN_RX (R77): a lane alignment marker arrives; `aligned` is false when alignment was lost. -/
  | laneAlignRx (p : Fin 8) (aligned : Bool)
  /-- RESERVED_WORD_RX (R79): a word of a reserved type, or one outside its placement, arrives. -/
  | reservedWordRx (p : Fin 8) (w : Word)
  /-- OPEN_RX (R83): an OPEN word arrives. -/
  | openRx (p : Fin 8) (w : Word)
  /-- PIXEL_EVENT_RX (R85): a pixel event word arrives. -/
  | pixelEventRx (p : Fin 8) (w : Word)
  /-- GAP_MARKER_WORD_RX (R150): a head gap marker word arrives. -/
  | gapMarkerWordRx (p : Fin 8) (w : Word)
  /-- TRIG_AUX_WORD_RX (R528): a trigger/auxiliary word arrives. -/
  | trigAuxWordRx (p : Fin 8) (w : Word)
  /-- HEALTH_RX (R81): a HEALTH status word arrives. -/
  | healthRx (p : Fin 8) (w : Word)
  /-- LEAVE_REQ_RX (R81): a LEAVE_REQ status word arrives. -/
  | leaveReqRx (p : Fin 8) (w : Word)
  /-- WM_MISS_RX (R81): a WM_MISS status word arrives. -/
  | wmMissRx (p : Fin 8) (w : Word)
  /-- WAYMARK_RETURN (R94): a Waymark returns `delay` ns after its departure, both at the balls. -/
  | waymarkReturn (p : Fin 8) (w0 w1 : Word) (delay : Nat)
  /-- WAYMARK_RETURN_TIMEOUT (R95): the oldest Waymark in flight has not returned in time. -/
  | waymarkReturnTimeout (p : Fin 8)
  /-- MGMT_RESPONSE_RX (R97): a management response arrives: header, payload and CRC-32. -/
  | mgmtResponseRx (p : Fin 8) (frame : List Byte)
  /-- ENUM_RETURN (R102): the ENUM frame returns: header, payload and CRC-32. -/
  | enumReturn (p : Fin 8) (frame : List Byte)
  /-- MGMT_REQUEST_TIMEOUT (R98): a request has had no response for 5 ms. -/
  | mgmtRequestTimeout (p : Fin 8) (seq : Byte)
  /-- SPLICE_PERIOD_EXPIRY (R105): a SPLICE_PERIOD has passed. -/
  | splicePeriodExpiry (p : Fin 8)
  /-- SPLICE_WINDOW_END (R106): 300 µs have passed since the splice boundary. -/
  | spliceWindowEnd (p : Fin 8)
  /-- HB_ENABLE (R123): an HB_CFG write with EN = 1; the carrier amplitude measured. -/
  | hbEnable (who : Agent) (w : Word) (amplitude : BitVec 12)
  /-- HB_POLL (R124): an Inventory poll: the UIDs seen, and what else the reader meets. -/
  | hbPoll (uids : List DWord) (air : PollAir)
  /-- HB_TAG_READ_DONE (R124): the reading of a tag: its block size and its bytes. -/
  | hbTagReadDone (uid : DWord) (block : Nat) (store : List Byte)
  /-- HB_TAG_NO_RESPONSE (R124): a tag command gets no good response. -/
  | hbTagNoResponse (miss : TagMiss)
  /-- ID_WRITE (R127): the payload in host memory, the store as read, and the locked blocks of a tag. -/
  | idWrite (mb : Fin 64) (tag : BitVec 16) (m : Medium) (payload : List Byte) (store : List Byte) (lockedBlocks : List Nat)
  /-- ID_WRITE_BLOCK_DONE (R127): one block or frame write is answered; the store read back when the step reads it. -/
  | idWriteBlockDone (m : Medium) (a : IdAnswer) (store : List Byte)
  /-- ID_WRITE_COLLAPSE (R129): the medium collapses. -/
  | idWriteCollapse (m : Medium)
  /-- ID_WRITE_RESUME (R130): a medium returns with this UID or serial, and its store. -/
  | idWriteResume (m : Medium) (ident : DWord) (store : List Byte)
  /-- ID_WRITE_RESUME_TIMEOUT (R130): no medium has returned within RESUME. -/
  | idWriteResumeTimeout (m : Medium)
  /-- ID_LOCKDIR (R126): the store read, and the answers to Lock Block of each directory block. -/
  | idLockdir (mb : Fin 64) (tag : BitVec 16) (store : List Byte) (answers : List IdAnswer)
  /-- ID_READ (R116): the store as it is read. -/
  | idRead (mb : Fin 64) (tag : BitVec 16) (m : Medium) (store : List Byte)
  /-- CARD_EVENT (R136): the carding unit takes its next pixel event; what its table SECDED found, and whether the pointer
  copies of a SAFETY queue it writes to disagree. -/
  | cardEvent (u : Fin 8) (ecc : EccResult) (ptrBad : Bool)
  /-- WARMUP_END_TIMEOUT (R143): Waytime reaches the warm-up end plus 2.5 ms. -/
  | warmupEndTimeout (slot : Fin 256)
  /-- BAF_SCRUB (R142): the scrubber visits the unit's activity words. -/
  | bafScrub (u : Fin 8)
  /-- SEGMENT_BOUNDARY (R151): microsecond time crosses a multiple of 2²⁸. -/
  | segmentBoundary
  /-- EQ_PENDING_WRITE (R154): the queue writes one pending record; whether the pointer copies of a SAFETY queue disagree. -/
  | eqPendingWrite (q : Fin 512) (ptrBad : Bool)
  /-- EQ_POP (R164): a read of EQ_POP; which positions of the line had corrected and uncorrectable errors, and whether the
  pointer copies disagree. -/
  | eqPop (who : Agent) (q : Fin 512) (ce ue : BitVec 8) (ptrBad : Bool)
  /-- EQ_RESET (R162): a write of 1 to EQ_CTRL.RESET. -/
  | eqReset (who : Agent) (q : Fin 512)
  /-- EQ_SKIP_GO (R161): a write of 1 to EQ_SKIP.GO. -/
  | eqSkipGo (who : Agent) (q : Fin 512)
  /-- EQ_ENABLE (R585): an EQ_CFG write with EN = 1. -/
  | eqEnable (who : Agent) (q : Fin 512) (w : Word)
  /-- EQ_DISABLE (R585): an EQ_CFG write with EN = 0. -/
  | eqDisable (who : Agent) (q : Fin 512) (w : Word)
  /-- FULLER_QUEUE_READ (R165): the Fuller takes the next line of its rotation: which positions of the line had corrected and
  uncorrectable errors, whether the pointer copies of a SAFETY queue disagree, the Nap errors its accesses meet, and the
  positions at which the Corner and Flow units are at capacity. -/
  | fullerQueueRead (ce ue : BitVec 8) (ptrBad : Bool) (nap : List NapErr) (skipCorner skipFlow : BitVec 8)
  /-- WINDOW_CLOSE (R177): the oldest open window of a subscription is tested for its close. -/
  | windowClose (sub : Fin 64)
  /-- TILE_READ (R176): the Fuller answers the next tile read of a Mill; the Nap errors it meets. -/
  | tileRead (m : Fin 128) (req : TileReq) (nap : List NapErr)
  /-- FEAT_POP (R267): a control core reads FEAT_POP. -/
  | featPop (core : Fin 16) (sub : Fin 64)
  /-- TE_NANTILE_CLEAR (R215): a write to TE_FLAGS with 1 for NANTILE. -/
  | teNantileClear (who : Agent) (m : Fin 128) (t : Fin 16) (w : Word)
  /-- TQ_TAIL_WRITE (R228): a write to TQn_TAIL. -/
  | tqTailWrite (who : Agent) (m : Fin 128) (q : Fin 8) (v : BitVec 9)
  /-- TASK_DISPATCH (R228): a dispatch cycle of a Mill's scheduler; what the SECDED found on the descriptors it reads. -/
  | taskDispatch (m : Fin 128) (ecc : SramEcc)
  /-- TASK_COMPLETE (R231): the write-back of the task on a TE completes. -/
  | taskComplete (m : Fin 128) (t : Fin 16) (fn : TaskFn) (ecc : SramEcc)
  /-- TKC_POST_ARRIVAL (R232): posts in flight arrive; bit i set: the i-th of them. -/
  | tkcPostArrival (arriving : Nat)
  /-- TASK_WATCHDOG (R234): the scheduler tests a running task against its bound. -/
  | taskWatchdog (m : Fin 128) (t : Fin 16)
  /-- TE_FAULT (R244): a detector of a TE fires. -/
  | teFault (m : Fin 128) (t : Fin 16) (cause : TeCause)
  /-- DMA_TAIL_WRITE (R226): a write to DCn_TAIL. -/
  | dmaTailWrite (who : Agent) (m : Fin 128) (ch : Fin 4) (v : BitVec 6)
  /-- DMA_DESCRIPTOR_FETCH (R226): a channel fetches its next descriptor. -/
  | dmaDescriptorFetch (m : Fin 128) (ch : Fin 4) (ecc : SramEcc)
  /-- DMA_TRANSFER_COMPLETE (R226): the oldest transfer of a channel ends; the errors its reads met, and for each line of an
  EQRD which positions had corrected and uncorrectable errors and whether the pointer copies disagree. -/
  | dmaTransferComplete (m : Fin 128) (ch : Fin 4) (ecc : SramEcc) (err : ReadErr) (lines : List (BitVec 8 × BitVec 8 × Bool))
  /-- TQ_CLR (R233): a write of 1 to TQn_CLR. -/
  | tqClr (who : Agent) (m : Fin 128) (q : Fin 8)
  /-- TE_OFF (R246): a write to MILL_CTRL.TE_OFF. -/
  | teOff (who : Agent) (m : Fin 128) (mask : BitVec 16)
  /-- TE_READMIT (R249): a write to MILL_CTRL.TE_READMIT. -/
  | teReadmit (who : Agent) (m : Fin 128) (mask : BitVec 16)
  /-- MILL_RETEST (R249): a write of 1 to MILL_CMD.RETEST. -/
  | millRetest (who : Agent) (m : Fin 128)
  /-- MILL_READMIT (R249): a write of 1 to MILL_CMD.READMIT. -/
  | millReadmit (who : Agent) (m : Fin 128)
  /-- MILL_FAULT (R247): a scheduler or DMA parity fault, or the loss of the island clock. -/
  | millFault (m : Fin 128) (clock : Bool)
  /-- MILL_CREDIT_TIMEOUT (R247): no credit from the network port for 100 µs. -/
  | millCreditTimeout (m : Fin 128)
  /-- BIST_COMPLETE (R241): a self-test ends; the TEs that failed by Mill, and the Mills whose SRAM, scheduler or DMA test failed. -/
  | bistComplete (target : BistOf) (teFail : List (Fin 128 × BitVec 16)) (millFail : List (Fin 128))
  /-- TEST_PERIOD_TIMER (R243): TEST_PERIOD seconds have passed for a quadrant. -/
  | testPeriodTimer (q : Fin 4)
  /-- OPPOINT_SWITCH (R239): the quadrant's running work has drained. -/
  | oppointSwitch (q : Fin 4)
  /-- MS_SIGNAL_ARRIVAL (R258): one cycle of the Milestone unit in which the signals in flight whose bit is set arrive. -/
  | msSignalArrival (arriving : Nat)
  /-- MSIG (R255): MSIG retires on a control core. -/
  | msig (core : Fin 16) (ms : Fin 1024) (count : BitVec 16)
  /-- MWAIT (R257): MWAIT: a WAIT, or a WAIT_TO with its T. -/
  | mwait (core : Fin 16) (ms : Fin 1024) (h : Word) (timeout : Option DWord) (act : WaitAct)
  /-- MREARM (R260): MREARM on a control core. -/
  | mrearm (core : Fin 16) (ms : Fin 1024) (value target : Word)
  /-- MS_CORE_READ (R253): a control core reads VALUE and TARGET. -/
  | msCoreRead (core : Fin 16) (ms : Fin 1024)
  /-- WAITER_TIMEOUT (R258): one cycle of the Milestone unit: steps 2 and 3 of R258. -/
  | waiterTimeout
  /-- BATT_ALLOC (R270): the ALLOC requests presented in one cycle of the manager. -/
  | battAlloc (reqs : List AllocReq)
  /-- BATT_FREE (R273): a FREE; the operations of one cycle come in the manager's port order. -/
  | battFree (agent : BattAgent) (handle : Word)
  /-- BATT_GIVE (R273): a GIVE, as a FREE. -/
  | battGive (agent : BattAgent) (handle : Word) (target : BattAgent)
  /-- BATT_WAITER_GRANT (R271): step 2 of R271 for one pool. -/
  | battWaiterGrant (long : Bool)
  /-- BATT_WAIT_TIMEOUT (R271): steps 2 and 5 of R271 for one pool. -/
  | battWaitTimeout (long : Bool)
  /-- PROJECTOR_JOB (R280): an idle Projector takes the job that stands next in the Spur's ring; the record at which its batt
  read meets an error, and the error. -/
  | projectorJob (spur : Fin 8) (desc : List Byte) (err : Option (Nat × ReadErr))
  /-- PROJECTOR_JOB_COMPLETE (R278): the job on a Projector ends. -/
  | projectorJobComplete (p : Fin 16)
  /-- PROJECTOR_CLOSE (R288): the CLOSE that stands next in the Spur's ring. -/
  | projectorClose (spur : Fin 8) (desc : List Byte)
  /-- EGO_XCHK_COMPARE (R527): the oldest window of a head that waits for its cross-check is compared. -/
  | egoXchkCompare (slot : Fin 256)
  /-- EGO_CLR (R291): a write of 1 to EGO_CTRL.CLR. -/
  | egoClr (who : Agent) (slot : Fin 256)
  /-- TRACKER_PASS (R297): the Tracker takes a PASS; an error that a read of its detection batts meets. -/
  | trackerPass (spur : Fin 8) (desc : List Byte) (err : ReadErr)
  /-- TRACKER_FLUSH (R297): the Tracker takes a FLUSH. -/
  | trackerFlush (spur : Fin 8) (desc : List Byte)
  /-- TRACKER_PASS_COMPLETE (R301): the pass ends. -/
  | trackerPassComplete
  /-- KERB_COPY_COUNT (R305): the unit takes the oldest Kerb copy on its way to it. -/
  | kerbCopyCount (unit : Fin 8)
  /-- BIN_BOUNDARY (R306): the hub's microsecond time is a multiple of the zone's BW. -/
  | binBoundary (unit : Fin 8) (zone : Fin 64)
  /-- HOLD_EXPIRY (R307): a HOLD of the zone runs out. -/
  | holdExpiry (unit : Fin 8) (zone : Fin 64)
  /-- POSE_FRAME_RX (R520): a pose frame of 64 bytes from a port (0 to 7) or an I3C controller (8 to 11). -/
  | poseFrameRx (src : Fin 12) (frame : List Byte)
  /-- MASK_RECT_COMPUTE (R310): the mask rectangles of the newest good sample take effect. -/
  | maskRectCompute
  /-- MASK_AGE_EXPIRY (R311): the newest sample is older than MASK_AGE. -/
  | maskAgeExpiry
  /-- LATCH_AGE (R313): a latch's stamp is older than its smallest MAXAGE. -/
  | latchAge (z : Fin 512)
  /-- DEADLINE_FIRE (R316): a hub cycle whose WT64 is greater than the slot's DL. -/
  | deadlineFire (slot : Fin 1024)
  /-- SLOT_ARM (R314): a SLOT_CTRL write with ARM = 1. -/
  | slotArm (who : Agent) (slot : Fin 1024) (w : Word)
  /-- VERDICT_COMMIT (R317): the header write of a verdict record of 144 bytes. -/
  | verdictCommit (core : Fin 16) (rec : List Byte)
  /-- KRB_RESET (R322): a write of 1 to KRB_RESET; whether every ball's readback agrees with its commanded level. -/
  | krbReset (who : Agent) (readback : Bool)
  /-- ESTOP_INPUT_CHANGE (R324): an ESTOP input takes a level. -/
  | estopInputChange (side : Side) (high : Bool)
  /-- ESTOP_FILTER_EXPIRY (R324): an ESTOP input has been low for FILT µs. -/
  | estopFilterExpiry (side : Side)
  /-- ESTOP_DISC_TIMEOUT (R324): the ESTOP inputs have differed for more than DISC × 10 ms. -/
  | estopDiscTimeout
  /-- FEEDBACK_INPUT_CHANGE (R325): a feedback input takes a level. -/
  | feedbackInputChange (side : Side) (high : Bool)
  /-- FEEDBACK_TIMEOUT (R325): a feedback input has been away from its expected level for more than FB_T ms. -/
  | feedbackTimeout (side : Side)
  /-- DARK_TEST_START (R326): the output's phase in the 20 ms period. -/
  | darkTestStart (o : SafeOut)
  /-- DARK_TEST_SAMPLE (R326): 20 µs before the test ends; whether the ball shows the stop level. -/
  | darkTestSample (o : SafeOut) (stopLevel : Bool)
  /-- DARK_TEST_END (R326): DT_W has passed. -/
  | darkTestEnd (o : SafeOut)
  /-- OUT_STUCK_TIMEOUT (R326): the ball has differed from its commanded level for more than 10 µs. -/
  | outStuckTimeout (o : SafeOut)
  /-- UNIT_LOCKSTEP (R304): the unit's copies mismatch. -/
  | unitLockstep (unit : Fin 8)
  /-- CHAN_MISMATCH (R304): channels A and B disagree for 2 consecutive cycles. -/
  | chanMismatch
  /-- KERB_CFG_UE (R327): an uncorrectable error in the configuration store. -/
  | kerbCfgUe
  /-- KERB_CLOCK_LOSS (R327): a PD_KERB island clock is lost. -/
  | kerbClockLoss
  /-- KRB_ARM (R328): a write to KRB_ARM. -/
  | krbArm (who : Agent) (w : Word)
  /-- KRB_LATELOG_POP (R316): a read of KRB_LATELOG. -/
  | krbLatelogPop (who : Agent)
  /-- MB_ENABLE (R332): an MB_CFG write with EN = 1. -/
  | mbEnable (who : Agent) (mb : Fin 64) (w : Word)
  /-- MB_DISABLE (R361): an MB_CFG write with EN = 0. -/
  | mbDisable (who : Agent) (mb : Fin 64) (w : Word)
  /-- MB_SQ_DB (R333): a write to MB_SQ_DB. -/
  | mbSqDb (who : Agent) (mb : Fin 64) (v : BitVec 16)
  /-- MB_CQ_DB (R333): a write to MB_CQ_DB. -/
  | mbCqDb (who : Agent) (mb : Fin 64) (v : BitVec 16)
  /-- DESCRIPTOR_FETCH (R334): the mailbox fetches; `desc` is what host memory holds at SQ_HEAD when LOC = 0, `cfg` what the
  operand words of a configuration command say. -/
  | descriptorFetch (mb : Fin 64) (desc : List Byte) (cfg : CfgOps)
  /-- COMMAND_TIMEOUT (R340): Waytime passes a command's DEADLINE. -/
  | commandTimeout (mb : Fin 64) (tag : BitVec 16)
  /-- NCC_WATCHDOG_EXPIRY (R346): NCC_WDT of a core has not been serviced for 1 ms. -/
  | nccWatchdogExpiry (core : Fin 16)
  /-- NCC_UE (R346): an uncorrectable error in a core's register file or local store. -/
  | nccUe (core : Fin 16)
  /-- NOP (R357): the command runs. -/
  | nop (mb : Fin 64) (tag : BitVec 16)
  /-- GET_INFO (R357): the command runs. -/
  | getInfo (mb : Fin 64) (tag : BitVec 16)
  /-- HB_LOAD (R351): the command runs on the image at its source. -/
  | hbLoad (mb : Fin 64) (tag : BitVec 16) (img : HbImage)
  /-- HB_UNLOAD (R352): the command runs. -/
  | hbUnload (mb : Fin 64) (tag : BitVec 16)
  /-- INVOKE (R354): admission begins; what of the worst-case cost of the invocations queued before it on the same Mills is spent,
  in ns, as the firmware reckons it (step 7). -/
  | invoke (mb : Fin 64) (tag : BitVec 16) (spent : Nat)
  /-- HB_QUERY (R357): the command runs. -/
  | hbQuery (mb : Fin 64) (tag : BitVec 16)
  /-- KERB_LOAD (R328): the command runs; the image holds the configuration registers in register order. -/
  | kerbLoad (mb : Fin 64) (tag : BitVec 16) (image : List Word)
  /-- KERB_RESET (R322): the command runs; whether every ball's readback agrees with its commanded level. -/
  | kerbReset (mb : Fin 64) (tag : BitVec 16) (readback : Bool)
  /-- MS_CFG (R584): the command runs. -/
  | msCfg (mb : Fin 64) (tag : BitVec 16)
  /-- MS_REARM (R260): the command runs. -/
  | msRearm (mb : Fin 64) (tag : BitVec 16)
  /-- MS_READ (R253): the command runs. -/
  | msRead (mb : Fin 64) (tag : BitVec 16)
  /-- MS_SIGNAL (R252): the command runs. -/
  | msSignal (mb : Fin 64) (tag : BitVec 16)
  /-- BP_ALLOC (R270): the command runs. -/
  | bpAlloc (mb : Fin 64) (tag : BitVec 16)
  /-- BP_FREE (R273): the command runs. -/
  | bpFree (mb : Fin 64) (tag : BitVec 16)
  /-- BP_GIVE (R273): the command runs. -/
  | bpGive (mb : Fin 64) (tag : BitVec 16)
  /-- WL_CFG (R357): the command runs. -/
  | wlCfg (mb : Fin 64) (tag : BitVec 16)
  /-- HEAD_CFG (R145): the command runs; what the tables of the head are loaded with. -/
  | headCfg (mb : Fin 64) (tag : BitVec 16) (tables : HeadTables)
  /-- EQ_CFG (R153): the command runs. -/
  | eqCfg (mb : Fin 64) (tag : BitVec 16)
  /-- FUL_APPLY (R169): the command runs on a subscription image. -/
  | fulApply (mb : Fin 64) (tag : BitVec 16)
  /-- FT_CFG (R302): the command runs. -/
  | ftCfg (mb : Fin 64) (tag : BitVec 16)
  /-- PTP_CFG (R357): the command runs. -/
  | ptpCfg (mb : Fin 64) (tag : BitVec 16) (cfg : PtpSettings)
  /-- PTP_STAT (R357): the command runs. -/
  | ptpStat (mb : Fin 64) (tag : BitVec 16)
  /-- PM_REQ (R423): the command runs. -/
  | pmReq (mb : Fin 64) (tag : BitVec 16)
  /-- MQ_OP (R240): the command runs. -/
  | mqOp (mb : Fin 64) (tag : BitVec 16)
  /-- UNIT_CTRL (R357): the command runs. -/
  | unitCtrl (mb : Fin 64) (tag : BitVec 16)
  /-- SPUR_CFG (R363): the command runs. -/
  | spurCfg (mb : Fin 64) (tag : BitVec 16)
  /-- CAL_STORE (R481): the command runs on the payload in host memory; the settings that its records spell, the HOLDUP_SNS code
  and the flash's times. -/
  | calStore (mb : Fin 64) (tag : BitVec 16) (payload : List Byte) (settings : List RegSet) (code : BitVec 12) (times : FlashTimes)
  /-- CW_CFG (R390): the command runs. -/
  | cwCfg (mb : Fin 64) (tag : BitVec 16)
  /-- SCRUB_COMPLETE (R369): the scrub of a resource ends. -/
  | scrubComplete (r : ScrubRes)
  /-- FLR (R368): a function-level reset of a function. -/
  | flr (fn : Fin 8)
  /-- DOE_DISCOVERY (R379): a DOE Discovery request with an index. -/
  | doeDiscovery (index : Byte)
  /-- GET_VERSION (R379): the request arrives on the DOE mailbox. -/
  | getVersion
  /-- GET_CAPABILITIES (R379): the request arrives. -/
  | getCapabilities
  /-- NEGOTIATE_ALGORITHMS (R379): the request arrives. -/
  | negotiateAlgorithms
  /-- GET_DIGESTS (R379): the request arrives. -/
  | getDigests
  /-- GET_CERTIFICATE (R371): the request arrives. -/
  | getCertificate (slot : BitVec 4) (offset length : BitVec 16)
  /-- CHALLENGE (R379): the request arrives. -/
  | challenge (nonce : BitVec 256)
  /-- GET_MEASUREMENTS (R379): the request arrives: 0 for the count, 1 to 5, 0xFF for all. -/
  | getMeasurements (index : Byte)
  /-- KEY_EXCHANGE (R379): the request arrives. -/
  | keyExchange (session : BitVec 16)
  /-- FINISH (R379): the request arrives. -/
  | finish (session : BitVec 16)
  /-- HEARTBEAT (R379): the request arrives. -/
  | heartbeat (session : BitVec 16)
  /-- KEY_UPDATE (R379): the request arrives. -/
  | keyUpdate (session : BitVec 16)
  /-- END_SESSION (R379): the request arrives. -/
  | endSession (session : BitVec 16)
  /-- SPDM_UNSUPPORTED (R379): a request outside Table SP-8 arrives. -/
  | spdmUnsupported (code : Byte)
  /-- IDE_KM_QUERY (R379): the request arrives. -/
  | ideKmQuery
  /-- KEY_PROG (R379): a key of the function's stream is programmed into K0 or K1. -/
  | keyProg (fn : Fin 8) (set1 : Bool) (transmit : Bool) (sub : IdeSub)
  /-- K_SET_GO (R379): the request arrives. -/
  | kSetGo (fn : Fin 8) (set1 : Bool)
  /-- K_SET_STOP (R379): the request arrives. -/
  | kSetStop (fn : Fin 8) (set1 : Bool)
  /-- GET_TDISP_VERSION (R379): the request arrives. -/
  | getTdispVersion
  /-- GET_TDISP_CAPABILITIES (R379): the request arrives. -/
  | getTdispCapabilities
  /-- LOCK_INTERFACE_REQUEST (R380): the request arrives. -/
  | lockInterfaceRequest (tdi : Fin 8)
  /-- GET_DEVICE_INTERFACE_REPORT (R380): the request arrives. -/
  | getDeviceInterfaceReport (tdi : Fin 8)
  /-- GET_DEVICE_INTERFACE_STATE (R379): the request arrives. -/
  | getDeviceInterfaceState (tdi : Fin 8)
  /-- START_INTERFACE_REQUEST (R381): the request arrives. -/
  | startInterfaceRequest (tdi : Fin 8)
  /-- STOP_INTERFACE_REQUEST (R382): the request arrives. -/
  | stopInterfaceRequest (tdi : Fin 8)
  /-- IDE_INTEGRITY_FAILURE (R382): an integrity failure on the function's stream. -/
  | ideIntegrityFailure (fn : Fin 8)
  /-- ISO_LOG_POP (R384): a read of ISO_LOG. -/
  | isoLogPop (who : Agent)
  /-- CW_FRAME_BOUNDARY (R387): a frame of the out-port begins. -/
  | cwFrameBoundary
  /-- CW_MARKER_A_RX (R388): a marker A arrives. -/
  | cwMarkerARx (lane : CwLane) (m : BitVec 256)
  /-- CW_MARKER_B_RX (R389): a marker B arrives. -/
  | cwMarkerBRx (lane : CwLane) (m : BitVec 256)
  /-- STOP_STATE_RX (R415): a STOP packet arrives. -/
  | stopStateRx (p : CwPacket)
  /-- TIME_PACKET_RX (R410): a TIME packet arrives: its raw-stamp arrival as Waytime in 2⁻⁸ ns and the residence from arrival to
  departure in 2⁻¹⁶ ns. -/
  | timePacketRx (p : CwPacket) (arrival : Int) (residence : BitVec 48)
  /-- HELLO_RX (R396): a HELLO arrives; whether PROOF verifies under the key both ends derive. -/
  | helloRx (p : CwPacket) (proof : Bool)
  /-- HELLO_TIMER (R396): 64 ms have passed, or a hop epoch begins; a fresh nonce. -/
  | helloTimer (nonce : BitVec 128)
  /-- DISCOVER_RX (R407): a DISCOVER packet arrives. -/
  | discoverRx (p : CwPacket)
  /-- MAP_RX (R407): a MAP packet arrives. -/
  | mapRx (p : CwPacket)
  /-- CTRL_PACKET_RX (R412): a CTRL packet of SUB 0 arrives. -/
  | ctrlPacketRx (p : CwPacket)
  /-- CTRL_ACK_RX (R413): a CTRL packet of SUB 1 arrives. -/
  | ctrlAckRx (p : CwPacket)
  /-- DATA_PACKET_RX (R413): a DATA packet arrives. -/
  | dataPacketRx (p : CwPacket)
  /-- CTRL_RETRY_TIMEOUT (R413): a CTRL packet has had no acknowledgement for 1 ms. -/
  | ctrlRetryTimeout (spur : Fin 8) (seq : Word)
  /-- CW_LANE_LOSS (R399): a lane of the in-port loses lock. -/
  | cwLaneLoss (lane : Fin 8)
  /-- CW_LANE_ERROR_RATE (R399): a lane of the in-port passes an error limit over 1 ms. -/
  | cwLaneErrorRate (lane : Fin 8)
  /-- CW_LANE_QUALIFIED (R399): a TRAINING lane has passed QUAL ms. -/
  | cwLaneQualified (lane : Fin 8)
  /-- CW_LANE_CAL_START (R403): lane mode takes a lane of the in-path or the out-path. -/
  | cwLaneCalStart (lane : Fin 8) (inPath : Bool)
  /-- CW_LANE_CAL_DONE (R403): its calibration ends; whether every lock point was found. -/
  | cwLaneCalDone (lane : Fin 8) (inPath : Bool) (locked : Bool)
  /-- CW_BATCH_CAL_DONE (R404): batch calibration ends: lanes whose lock point was not found, and whether a through path lies
  above −28 dB. -/
  | cwBatchCalDone (failed : BitVec 8) (crosstalkHigh : Bool)
  /-- CW_NO_MARKER_TIMEOUT (R406): no valid marker for 2 ms in LISTEN. -/
  | cwNoMarkerTimeout
  /-- CW_SPLICE (R406): the device's Waytime reaches SPLICE_WT. -/
  | cwSplice
  /-- CW_SPLICE_SCHEDULE (R406): every SPLICE_PERIOD ms. -/
  | cwSpliceSchedule
  /-- CW_HOP_DATA_TIMEOUT (R406): a spliced hop has carried no data for 300 µs. -/
  | cwHopDataTimeout (inHop : Bool)
  /-- CW_DISCOVER_START (R407): every hop carries data. -/
  | cwDiscoverStart
  /-- CW_MAP_BROADCAST (R407): every 256 µs. -/
  | cwMapBroadcast
  /-- CW_TIME_RETURN_TIMEOUT (R408): a TIME packet has not returned within L + 2 µs. -/
  | cwTimeReturnTimeout
  /-- AGG_TIMEOUT (R416): AGG_TO has passed since a Brim's last accepted STOP_STATE. -/
  | aggTimeout (d : Fin 16)
  /-- CW_RX_FAIL_TIMEOUT (R418): every in-port lane BAD for 10 ms with light present. -/
  | cwRxFailTimeout
  /-- CW_TX_BIAS_FAULT (R418): a laser-bias monitor fault. -/
  | cwTxBiasFault
  /-- WAITP (R422): NCC0 executes WAITP; the die temperature in °C and the ns that stopping the clocks takes. -/
  | waitp (temp : Int) (drain : Nat)
  /-- RAIL_ACK (R443): a commanded rail is acknowledged. -/
  | railAck (rail : Fin 5)
  /-- RAIL_ACK_TIMEOUT (R444): a rail command has waited 2 ms. -/
  | railAckTimeout (rail : Fin 5)
  /-- WAKE_HOSTPIN (R431): HOST_WAKE_N has been low for 1 µs. -/
  | wakeHostpin
  /-- WAKE_TIMER (R431): Waytime reaches PM_WAKE_TIME. -/
  | wakeTimer
  /-- WAKE_WLPORT (R431): a head joins, leaves or is lost on a kept port, or signal is detected on a watched one. -/
  | wakeWlport (p : Fin 8)
  /-- WAKE_CWLIGHT (R431): light within range on a Causeway in-port. -/
  | wakeCwlight (p : Fin 4)
  /-- AON_THERM (R441): the die temperature changes in PARK. -/
  | aonTherm (temp : Int)
  /-- AON_ILIM (R441): the LDO_AON load reaches 13.5 mA. -/
  | aonIlim
  /-- WAKE_COMPLETE (R435): the wake order ends; domains with a retention group whose CRC failed. -/
  | wakeComplete (badGroups : BitVec 13)
  /-- BOW_CROSSING (R448): VDD_CORE, VDD_AON or VDD_1V8 crosses its BOW threshold. -/
  | bowCrossing (rail : Fin 3)
  /-- BOW_END (R449): every rail has stayed above BOW plus hysteresis for 10 ms. -/
  | bowEnd
  /-- BOR_CROSSING (R450): a rail crosses its BOR threshold. -/
  | borCrossing (rail : Fin 3)
  /-- PMB_ALERT (R446): PMB_ALERT_N asserts; whether the rail's STATUS_WORD shows a fault. -/
  | pmbAlert (rail : Fin 5) (fault : Bool)
  /-- POR (R452): power-on reset ends; whether RESET_N is low then. -/
  | por (facts : BootFacts) (resetLow : Bool)
  /-- PIN_RESET (R455): RESET_N has been low for 1 µs. -/
  | pinReset
  /-- WDT_EXPIRY (R456): the device watchdog reaches its PERIOD. -/
  | wdtExpiry (facts : BootFacts)
  /-- SOFT_RESET (R452): a write of 1 to RST_CTRL.SOFT. -/
  | softReset (who : Agent) (facts : BootFacts)
  /-- HOT_RESET (R452): a PCIe Hot Reset, or DL_Down. -/
  | hotReset
  /-- DOMAIN_RESET (R452): a write to RST_DOM with GO = 1; the carding units whose self-check passes. -/
  | domainReset (who : Agent) (d : BitVec 4) (cardPass : BitVec 8)
  /-- RST_WDT_KICK (R456): a write of 1 to RST_WDT_KICK. -/
  | rstWdtKick (who : Agent)
  /-- STRAP_RESAMPLE (R536): AON samples the straps. -/
  | strapResample (devid : BitVec 4) (role : BitVec 2)
  /-- FLASH_OP_COMPLETE (R482): the erase or program in progress ends: without a flash error, as it reads back, and whether the
  phase-change cells written after the commit read back. -/
  | flashOpComplete (ok good cells : Bool)
  /-- MSIX_UNMASK (R499): the host writes a function's MSI-X enable, Function Mask or vector mask bits; what they are then. -/
  | msixUnmask (f : Fin 8) (en fnMask : Bool) (vecMask : Word)
  /-- BUS_MASTER_ENABLE (R501): the host writes Bus Master Enable of a function. -/
  | busMasterEnable (f : Fin 8) (en : Bool)
  /-- HOST_DMA_COMPLETION (R500): a host read for a mailbox returns data. -/
  | hostDmaCompletion (mb : Fin 64) (data : List Byte)
  /-- HOST_DMA_ERROR (R502): a host transfer for a mailbox fails: 0 Unsupported Request, 1 Completer Abort, 2 poisoned, 3
  timeout, 4 FLR. -/
  | hostDmaError (mb : Fin 64) (what : DmaUse) (kind : Fin 5)
  /-- PME_TURN_OFF (R504): PME_Turn_Off arrives. -/
  | pmeTurnOff
  /-- D_STATE_CHANGE (R503): a function enters D3hot or D0. -/
  | dStateChange (f : Fin 8) (d3hot : Bool)
  /-- PCIE_PERST (R506): PCIE_PERST_N takes a level. -/
  | pciePerst (low : Bool)
  /-- PCIE_WAKE_TIMEOUT (R506): PCIE_WAKE_N has been low for 1 s. -/
  | pcieWakeTimeout
  /-- LPDDR_RETRAIN (R508): a channel retrains; its MR4 code. -/
  | lpddrRetrain (c : Fin 8) (mr4 : Byte)
  /-- LPDDR_PHY_LOCK_LOSS (R513): a channel loses PHY lock. -/
  | lpddrPhyLockLoss (c : Fin 8)
  /-- DRDY_EDGE (R515): a rising edge on DRDY of an AUXSPI port. -/
  | drdyEdge (p : Fin 8)
  /-- SPI_FRAME_DONE (R515): the port's frame ends with its bytes. -/
  | spiFrameDone (p : Fin 8) (data : List Byte)
  /-- I3C_IBI (R518): an in-band interrupt of a device entry. -/
  | i3cIbi (c : Fin 4) (d : Fin 8)
  /-- I3C_READ_DONE (R518): the private read of an entry ends with its bytes. -/
  | i3cReadDone (c : Fin 4) (d : Fin 8) (data : List Byte)
  /-- I3C_HOT_JOIN (R517): a Hot-Join of the device of an entry. -/
  | i3cHotJoin (c : Fin 4) (d : Fin 8)
  /-- CH_POP (R526): a write of 1 to CH_POP. -/
  | chPop (who : Agent) (k : Fin 16)
  /-- AUXEV_POP (R528): a write of 1 to AUXEV_POP. -/
  | auxevPop (who : Agent) (p : Fin 8)
  /-- ETH_LINK_LOSS (R529): ETH0 loses link. -/
  | ethLinkLoss
  /-- ETH_TX_FAULT (R529): TX_FAULT of the module takes a level. -/
  | ethTxFault (asserted : Bool)
  /-- GPIO_EDGE (R531): a GPIO pin has held a new level for GPIO_FILT µs. -/
  | gpioEdge (pin : Fin 16) (high : Bool)
  /-- GPIO_POP (R531): a write of 1 to GPIO_POP. -/
  | gpioPop (who : Agent)
  /-- TAP_INSTRUCTION (R534): an instruction is loaded into the TAP. -/
  | tapInstruction (code : TapInstr)
  /-- CARD_UNIT_FAULT (R542): a carding unit loses its island clock, or a pipeline register fails parity. -/
  | cardUnitFault (u : Fin 8) (parity : Bool)
  /-- CARD_HANDSHAKE_TIMEOUT (R542): a carding unit has had no handshake for 10 µs. -/
  | cardHandshakeTimeout (u : Fin 8)
  /-- SHARED_UNIT_FAULT (R543): a shared island fails; what the boot finds when this makes the firmware issue a SOFT reset. -/
  | sharedUnitFault (island : SharedIsland) (cause : IslandCause) (facts : BootFacts)
  /-- SPUR_FAULT (R546): the firmware faults a Spur for the code in ERR_FAULT, or for an inconsistent object of it. -/
  | spurFault (sp : Fin 8) (fwCheck : Bool)
  /-- ERR_POP (R539): a read of ERR_POP of a Spur's window. -/
  | errPop (who : Agent) (sp : Fin 8)
  /-- VDD_3V3_LOSS (R561): VDD_3V3 falls below 2.5 V. -/
  | vdd3v3Loss
  /-- THERMTRIP (R564): a sensor gives a reading in °C + 64. -/
  | thermtrip (sensor : Fin 8) (reading : Byte)
  /-- RC_FIELD_READ (R3): a read at a BAR0 offset of the agent's function. -/
  | rcFieldRead (who : Agent) (off : BitVec 23) (len : ReadLen)
  /-- RESET_N_RELEASE (R457): RESET_N rises. -/
  | resetNRelease (facts : BootFacts)
  /-- BOR_END (R465): the rail that crossed BOR returns. -/
  | borEnd (facts : BootFacts)
  /-- VDD_3V3_RETURN (R561): VDD_3V3 is within range again. -/
  | vdd3v3Return
  /-- PCIE_LINK_UP (R506): the link reaches L0 at a speed code and a width. -/
  | pcieLinkUp (speed : BitVec 3) (width : BitVec 4)
  /-- ETH_LINK_UP (R529): ETH0 gains link. -/
  | ethLinkUp
  /-- VF_ENABLE_WRITE (R488): the host writes VF Enable and NumVFs. -/
  | vfEnableWrite (en : Bool) (num : Fin 8)
deriving DecidableEq, Repr

end Sys2Proof
end

