-- ==== Sys2Proof/Config.lean ====
section
/-!
DEFINITION. What an implementation fixes and what the spec leaves open. A constant without a body is a free value: Lean
can prove nothing of it, so a claim holds whatever the hardware does.
-/
namespace Sys2Proof

/-- The free values: the value the hardware gives where the spec states none, drawn one after another by the counter
`State.free`. -/
opaque Config.free : Nat → Nat

/-- Which element of an operand of a task stands at a place: the operand (0 A, 1 W, 2 stored accumulators), the task's
descriptor, the output row and column and the step k. The spec states where an operand begins (Table ML-3) and how elements are
packed (R191); the order of the elements is the model compiler's (R221). -/
opaque Config.operandIndex : Nat → List Nat → Nat → Nat → Nat → Nat

/-- The element of the output tile, in raster order, that stands at a place of the tile in SRAM, by the task's descriptor. -/
opaque Config.outElement : List Nat → Nat → Nat

/-- The byte offset in the scale and bias table of an entry: which (0 a fine scale of A, 1 of W, 2 S_A, 3 S_W, 4 the bias), the
task's descriptor, the row or column, and the block. -/
opaque Config.tableOffset : Nat → List Nat → Nat → Nat → Nat

/-- The worst-case cost in ns that a Hatbox declares (R354, R248): its profile, the Mills it runs on and the operating point of each
quadrant. -/
opaque Config.hbCost : Nat → List Nat → List Nat → Nat

/-- Byte k of the record of 128 bytes that HB_QUERY returns (Table MB-4, R359): the placement, the worst-case cost and the outputs with
their error bounds, by the Hatbox's profile, the Mills it runs on, that cost and the length of its outputs. -/
opaque Config.hbRecord : Nat → List Nat → Nat → Nat → Nat → Nat

/-- The SRAM address of a task's stored accumulators (R203): its descriptor's layout in Table ML-3 does not name it. -/
opaque Config.accAddr : List Nat → Nat

/-- Tap k of the compensating FIR of a decimation chain with this LOG2M (R522): the ROM's coefficients are not stated. Taps
0 to 14 are used; symmetry and the sum of exactly 1 give the others. -/
opaque Config.firTap : Nat → Nat → Rat

/-- The SHA-384 of a byte string as the twelve words of a SIGNER_HASH entry (R375, Table SP-11): the engine's computation. -/
opaque Config.sha384 : List Nat → List Nat

/-- Whether a cryptographic check of Table SP-7 passes (3 the signature, 6 the unwrap, 7 the body's tag), for a header and
what is known of the body: the keys never leave the security engine (R370). -/
opaque Config.hbCheck : Nat → List Nat → List Nat → Bool

/-- A measurement of Table SP-8 by its index and what it is taken over (a SHA-384): the spec does not give the form of the data. -/
opaque Config.measurement : Nat → List Nat → Nat

/-- The JEP106 code of Pribaoc (R533): it stands in the BSDL file, not in the spec. -/
opaque Config.jep106 : Nat

/-- The first two words of an AUXEV_ENT (Table AX-6), 0 or 1, from the local slot, INP, LVL and DATA that they hold: the
spec does not place the fields. -/
opaque Config.auxevWord : Nat → Nat → Nat → Nat → Nat → Nat

end Sys2Proof
end

