-- ==== Sys2Proof/Machine/Regs.lean ====
section
/-!
DEFINITION. Every register field of the register map (PF0 BAR0, `spec/17_host_and_memory.md` R490, Table HM-3), one
constructor of `Reg` per field, and for each what its chapter's register table says: address, array dimensions, bits,
access code, owner code, reset value, survival class, reserved encodings and lock. A field with several instances (per
port, per queue, per Spur) is one constructor with an index; a multi-dimensional array is indexed row-major, last
dimension fastest. Fields whose value another part of `State` holds (the Waytime parameters, the heads of FIFOs, occupancy
and in-flight counts) are views and stand in the chapter's file instead (INVENTORY.md lists them).
-/
namespace Sys2Proof.Machine

/-- Access codes of Table SC-8 (R3). -/
inductive Access where
  | ro | rw | w1c | w1s | wo | wl1 | rwl | rc
deriving DecidableEq, Repr

/-- Owner codes of R4: HW fields the host and the firmware may write, FW fields the firmware only, none for RO and RC. -/
inductive Owner where
  | none | hw | fw
deriving DecidableEq, Repr

/-- Survival classes of Table SC-3 (R12). -/
inductive Cls where
  | F | K | T | P | S | V
deriving DecidableEq, Repr

/-- Where a field's value comes from at a reset its class does not survive: the Reset column gives a number, or it names
the fuses, the straps, the boot flash or the self-test. -/
inductive Source where
  | column | fuse | strap | flash | bist
deriving DecidableEq, Repr

/-- The lock bit of an RWL field (R6, R7). -/
inductive LockBit where
  | none | kerbArmed | mailbox | chain
deriving DecidableEq, Repr

/-- Which retention group keeps a class V field over a warm reset (Table PW-5). -/
inductive Keep where
  | none | reg | mst
deriving DecidableEq, Repr

/-- The reserved encodings of a field (R11): inclusive ranges, or one of the three tests that are not ranges. -/
inductive Rsv where
  | ranges (l : List (Nat × Nat))
  /-- GRID_CFG.NX and NY: the low four bits must be 0xF (Table FT-6). -/
  | low4
  /-- GRID_COMB: a 2-bit code of 3 is reserved (Table FT-6). -/
  | comb
  /-- MB_CFG.VEC: 2 to 15 on every function and 20 to 31 on PF0 (R498). -/
  | vec
deriving DecidableEq, Repr

/-- One row of a register table. -/
structure FieldSpec where
  base : Nat
  dims : List (Nat × Nat)
  lsb : Nat
  width : Nat
  acc : Access
  own : Owner
  rst : Nat
  cls : Cls
  src : Source := .column
  rsv : Rsv := .ranges []
  lock : LockBit := .none
  keep : Keep := .none
  /-- The field is written (or read) by commands of its own in `spec/opcode_table.json`. -/
  ownRow : Bool := false
deriving DecidableEq, Repr

/-- A row of a register table from its eight columns, the other columns at their plain values. -/
def fs (base : Nat) (dims : List (Nat × Nat)) (lsb width : Nat) (acc : Access) (own : Owner) (rst : Nat) (cls : Cls) :
    FieldSpec :=
  { base := base, dims := dims, lsb := lsb, width := width, acc := acc, own := own, rst := rst, cls := cls }

/-- The register fields, in the order of their chapters. -/
inductive Reg where
  -- spec/00_scope.md Table SC-7
  | GLOBAL_ID_PART
  | GLOBAL_ID_STEP_MAJ
  | GLOBAL_ID_STEP_MIN
  | GLOBAL_ID_DEVID
  | GLOBAL_ID_ROLE
  -- spec/01_architecture.md Table AR-11
  | GLOBAL_CAP_MILLS
  | GLOBAL_CAP_WL_PORTS
  | GLOBAL_CAP_CW_PORTS
  | GLOBAL_CAP_KERB_UNITS
  | GLOBAL_CAP_NCC
  -- spec/01_architecture.md Table AR-12
  | GLOBAL_AVAIL_MILLS_LIVE
  | GLOBAL_AVAIL_TES_LIVE
  | GLOBAL_AVAIL_NCC_LIVE
  -- spec/17_host_and_memory.md Table HM-7
  | HL_LINK_SPEED
  | HL_LINK_WIDTH
  | HL_LINK_L2
  | HL_FWWR_CNT
  | HL_FWWR_VALID
  | HL_FWWR_FN
  | HL_FWWR_ADDR
  | HL_BADWR
  | HL_VFRO
  | HL_GATED
  | HL_POISON
  | HL_DMA_ERR
  | HL_L2_RDY
  -- spec/17_host_and_memory.md Table HM-8
  | MEM_CFG_RATE
  | MEM_CFG_CAP
  | MEM_CFG_RANKS
  | MEM_STAT_STATE
  | MEM_STAT_SPUR
  | MEM_STAT_OWNED
  | MEM_STAT_ENC
  | MEM_STAT_MR4
  | MEM_CNT
  -- spec/20_electrical_and_package.md Table EP-17
  | THERM_TEMP
  | THERM_MAX
  | THERM_MAX_SENSOR
  | THERM_PEAK
  -- spec/02_time_base.md Table TB-7
  | TIME_RAW_HI
  | TIME_SNAP_GO
  | SNAP_RAW_LO
  | SNAP_RAW_HI
  | SNAP_SEC_LO
  | SNAP_SEC_HI
  | SNAP_NS
  | SNAP_FRAC
  | TIME_RATE
  | TIME_RATE_X
  | TIME_SLEW
  | TIME_RC_HI
  | REF_DEV_A
  | REF_DEV_B
  | REF_DEV_AB
  | ETH0_ASYM_IN
  | ETH0_ASYM_OUT
  | TRIG_START_LO
  | TRIG_START_HI
  | TRIG_PERIOD
  | TRIG_WIDTH
  | TRIG_COUNT
  | TRIG_CTRL_EN
  | TRIG_CTRL_MODE
  | TRIG_CTRL_POL
  | TRIG_CTRL_LATE
  | TRIG_CTRL_CFGERR
  | TRIG_LAST_LO
  | TRIG_LAST_HI
  | TRIG_MISS
  -- spec/02_time_base.md Table TB-8
  | TIME_CMD_OP
  | TIME_CMD_SLEW_PPM
  -- spec/02_time_base.md Table TB-9
  | TIME_STAT_TQ
  | TIME_STAT_REFSEL
  | TIME_STAT_REF_NONE
  | TIME_STAT_GRADE_A
  | TIME_STAT_GRADE_B
  | TIME_STAT_LOS_A
  | TIME_STAT_LOS_B
  | TIME_STAT_DRIFT_TREND
  | TIME_STAT_DRIFT_SEEN
  | TIME_STAT_STEP_REFUSED
  | TIME_STAT_TIME_NEG
  | TIME_STAT_REF_DISAGREE
  | TIME_STAT_SWITCHED
  -- spec/02_time_base.md Table TB-10
  | REF_CTRL_PREF
  | REF_CTRL_AUTO
  | PTP_STAT_PORT_STATE
  | PTP_STAT_DISCARD
  | TXTS_STAT_OVF
  | TXTS_STAT_OVF_CNT
  | TXTS_POP
  -- spec/15_power.md Table PW-11
  | PM_TARGET_STATE
  | PM_TARGET_QOFF
  | PM_TARGET_SPORTS
  | PM_TARGET_UNUSED
  | PM_STATUS_CUR
  | PM_STATUS_TGT
  | PM_STATUS_PEND
  | PM_STATUS_PEND_V
  | PM_STATUS_BUSY
  | PM_STATUS_PNR
  | PM_STATUS_LAST
  | PM_STATUS_DOM_ON
  | PM_WAKE_STATE
  | PM_WAKE_QOFF
  | PM_WAKE_SPORTS
  | PM_WAKE_UNUSED
  | PM_WAKE_CFG_EN
  | PM_WAKE_CFG_REPLAY
  | PM_WAKE_SRC_LATCHED
  | PM_WAKE_SRC_FIRST
  | PM_WAKE_TIME_LO
  | PM_WAKE_TIME_HI
  | PM_AON_CFG_REFS
  | PM_AON_CFG_WL_WAKE
  | PM_AON_CFG_CW_WAKE
  | PM_AON_CFG_TMAX
  | PM_AON_EST
  | PM_MON_BOW
  | PM_MON_BOW_SEEN
  | PM_MON_BOW_HOLD
  | PM_RAIL_EN
  | PM_RAIL_BUS
  | PM_RAIL_ADDR
  | PM_RAIL_SEL
  | PM_REGSTAT_FAIL
  | PM_REGSTAT_FAULT
  | PM_RES_S_HI
  | PM_RES_TRANS_HI
  | PM_RES_D_HI
  | PM_ENTRIES
  | PM_ABORTS
  -- spec/16_reset_and_persistence.md Table RP-10
  | RST_CAUSE_LAST
  | RST_CAUSE_SEEN
  | RST_CAUSE_S_LOST
  | RST_CAUSE_BOOT_B
  | RST_CAUSE_FAILS
  | RST_CTRL_SOFT
  | RST_DOM_DOMAIN
  | RST_DOM_GO
  | RST_DOM_ERR
  | RST_WDT_PERIOD
  | RST_WDT_EN
  | RST_WDT_KICK
  | RST_COUNT
  | BOOT_STAT_DIR_BAD
  | BOOT_STAT_IMG_BAD
  -- spec/16_reset_and_persistence.md Table RP-11
  | FUSE_STAT_SEC_MARG
  | FUSE_STAT_FUSE_DRIFT
  | FUSE_STAT_NS_FIRST
  | FUSE_STAT_NS_COUNT
  | FUSE_STAT_DRIFT_WORD
  | FUSE_TEMP_TCOLD
  | FUSE_TEMP_TWARM
  | FUSE_RD_WORD
  | CAL_STAT_ACTIVE
  | CAL_STAT_PARTIAL
  | CAL_STAT_SEQ_TIE
  | CAL_STAT_TRIM_PEND
  | CAL_STAT_BUSY
  | CAL_STAT_STEP
  | CAL_STAT_OUT
  | CAL_SEQ
  | HU_CFG_CAP
  | HU_CFG_DIV
  | HU_CFG2_VMIN
  | HU_CFG2_PSTORE
  | HU_CFG3_MARGIN
  | HU_MEAS_CODE
  | HU_ENERGY_E
  | HU_ENERGY_E_REQ
  -- spec/19_faults_and_recovery.md Table FR-8
  | ERR_POP_VALID
  | ERR_POP_LEFT
  | ERR_STAT_OVF
  | ERR_OVF_CNT
  | ERR_EPOCH
  | ERR_FAULT_CODE
  | ERR_FAULT_FAULTS
  | ERR_REC
  -- spec/19_faults_and_recovery.md Table FR-9
  | ERR_DEVFAULT_ISLAND
  | ERR_DEVFAULT_CAUSE
  -- spec/11_kerb_and_deadlines.md Table KB-6
  | KRB_ARM_ARM
  | KRB_ARM_ERR
  | KRB_CFGCRC
  | KRB_STAT_ARMED
  | KRB_STAT_FAULT
  | KRB_STAT_RUN
  | KRB_STAT_SLOWOUT
  | KRB_STAT_ZG_STOP
  | KRB_STAT_ZG_SLOW
  | KRB_STAT_MASK_ON
  | KRB_CAUSE
  | KRB_CAUSE_SEEN
  | KRB_FAULT_CODE
  | KRB_FAULT_UNIT
  | KRB_RESET
  | KRB_OUT_SSTOP_COVER
  | KRB_OUT_SLOW_COVER
  | KRB_OUT_MANUAL
  | KRB_OUT_DT_W
  | KRB_FB_FBA_EN
  | KRB_FB_FBB_EN
  | KRB_FB_POL
  | KRB_FB_T
  | KRB_ESTOP_FILT
  | KRB_ESTOP_DISC
  | KRB_SLOT_TO
  | KRB_MASK_SRC
  | KRB_MASK_EN
  | KRB_MASK_PAD
  | KRB_MASK_AGE
  | KRB_TOOL_CLASS
  | KRB_TOOL_VARIANT
  | KRB_CNT
  | ZONE_TH_STOP
  | ZONE_TH_SLOW
  | ZONE_BW
  | ZONE_ZG
  | ZONE_MASKABLE
  | ZONE_LOSS
  | ZONE_EN
  | ZONE_HOLD
  | ZONE_COUNT
  | ZR_X0
  | ZR_X1
  | ZR_ZONE
  | ZR_EN
  | ZR_Y0
  | ZR_Y1
  | ZR_SLOT
  | AP_ZA
  | AP_ZB
  | AP_ACT
  | AP_EN
  | AP_T
  | VS_MASK
  | VS_SPUR
  | VS_MINACT
  | VS_EN
  | VS_MAXAGE
  | LATCH_VERDICT
  | LATCH_REASON
  | LATCH_LATE_SEEN
  | LATCH_WIN
  | KRB_LATELOG
  | DL_LO
  | DL_HI
  | SLOT_WIN
  | SLOT_CTRL_ARM
  | SLOT_CTRL_ACT
  | SLOT_CTRL_VSET
  | SLOT_CTRL_SPUR
  | SLOT_CTRL_STATE
  | SLOT_CTRL_GEN
  -- spec/14_causeway_cascade.md Table CW-10
  | AGG_MAP
  | AGG_EN
  | AGG_TO
  | AGG_LOST
  -- spec/03_wayline_link.md Table WL-9
  | WL_CTRL_EN
  | WL_CTRL_POS_MODE
  | WL_CTRL_AUTO_SPLICE
  | WL_CTRL_SPLICE_PERIOD
  | WL_STAT_STATE
  | WL_STAT_HEADS
  | WL_STAT_RING_BREAK
  | WL_STAT_RING_OVER
  | WL_STAT_HEAD_LOST
  | WL_STAT_SPLICE_FAIL
  | WL_STAT_UNBOUND
  | WL_LOOP_L
  | WL_LOOP_CORR_RET
  | WL_CABLE
  | WL_ASYM_IN
  | WL_ASYM_OUT
  | WL_LIVE
  | WL_QUOTA_SUM
  | WL_SEGDLY
  | WL_CNT
  -- spec/03_wayline_link.md Table WL-11
  | HT_STATE
  | HT_SERIAL_LO
  | HT_SERIAL_HI
  | HT_BIND_LO
  | HT_BIND_HI
  | HT_QUOTA
  | HT_WMDLY
  | HT_GEOM_W
  | HT_GEOM_H
  -- spec/05_carding_and_queues.md Table CD-5
  | CARD_CTRL_KCOPY_RAW
  | CARD_CTRL_BAF_WARM
  | CARD_STAT_HOTPIX_PORT_OVF
  | CARD_TBL_USED
  | CARD_CNT
  | SLOT_ROUTE_EQ
  | SLOT_ROUTE_EN
  | SLOT_BAF_EN
  | SLOT_BAF_BLK
  | SLOT_BAF_MIN
  | SLOT_BAF_WIN
  | SLOT_RECT_EN
  | SLOT_RECT_G
  | SLOT_ROI_X0
  | SLOT_ROI_X1
  | SLOT_ROI_Y0
  | SLOT_ROI_Y1
  | SLOT_DEC_SP
  | SLOT_DEC_N
  | SLOT_STAT_UNF
  -- spec/05_carding_and_queues.md Table CD-6
  | EQ_CFG_EN
  | EQ_CFG_CLASS
  | EQ_CFG_LOG2N
  | EQ_CFG_BASE
  | EQ_CTRL_RESET
  | EQ_SKIP_GO
  | EQ_WP
  | EQ_RP
  | EQ_DROPS
  | EQ_CE
  | EQ_UE
  | EQ_RESETS
  | EQ_SKIPPED
  -- spec/06_fuller_surfaces.md Table FU-6
  | FUL_CTRL_EN
  | FUL_STAT_FOREIGN_READ
  | NAP_PART_FIRST
  | NAP_PART_COUNT
  | FUL_CNT
  | SUB_SLOT
  | SUB_KIND
  | SUB_BINS
  | SUB_Q
  | SUB_DEC
  | SUB_DMAX
  | SUB_AUTO_DEC
  | SUB_WIN
  | SUB_EN
  | SUB_TAIL
  | SUB_HALO
  | SUB_WCLOSE
  | SUB_PRIO
  | SUB_NAP_OFF
  | SUB_MS
  | SUB_FEAT_MS
  | SUB_CORNER_EN
  | SUB_FLOW_EN
  | SUB_FLOW_EGO
  | SUB_FLOW_R
  | SUB_ARC3_MIN
  | SUB_ARC3_SPAN
  | SUB_ARC4_MIN
  | SUB_ARC4_SPAN
  | SUB_FLOW_WIN
  | SUB_FLOW_MIN
  | SUB_FLOW_RES
  | SUB_DEC_USED
  | SUB_WIN_NUM
  | SUB_DIRTY_CNT
  | SUB_FLAGS
  | SUB_LATE_REC
  | FUL_LUT
  -- spec/10_fusion_and_tracking.md Table FT-6
  | CAL_FX
  | CAL_FY
  | CAL_CX
  | CAL_CY
  | CAL_BR
  | CAL_BT
  | CAL_RAW
  | CAL_MOUNT
  | CAL_UDLUT
  | CAL_BGD
  | EGO_CTRL_EN
  | EGO_CTRL_CLR
  | EGO_CTRL_XCHK_EN
  | EGO_CTRL_XCHK_SRC
  | EGO_STAT_STATE
  | EGO_STAT_SUPPORT
  | EGO_TWIST
  | EGO_DRIFT_MM
  | EGO_MIN
  | EGO_CONV
  | EGO_GATE
  | EGO_HUB
  | EGO_RES
  | EGO_LIM_A
  | EGO_LIM_T
  | EGO_LEAK
  | XCHK_N
  | XCHK_W
  | XCHK_V
  | PRJ_SPUR
  | AUXF_BR
  | AUXF_BT
  | GRID_CFG_NX
  | GRID_CFG_NY
  | GRID_CFG_NB
  | GRID_CFG_CELL
  | GRID_CFG_FMT
  | GRID_X0
  | GRID_Y0
  | GRID_Z_LO
  | GRID_Z_TOP
  | GRID_COMB_LO
  | GRID_COMB_HI
  | GRID_ADDR
  | GRID_LIST_ADDR
  | GRID_CFG2_NCC
  | GW_WIN
  | GW_DIRTY
  | GW_FLAGS
  | TRK_BASE
  | TRK_COUNT
  | TRK_CFG_NCC
  | TRK_CFG_CLASS_ANY
  | TRK_CONF_M
  | TRK_CONF_N
  | TRK_DEL_MISS
  | TRK_DEL_COAST
  | TRK_Q
  | TRK_R
  | TRK_V0
  | TRK_GATE
  | TRK_BIRTH_SCORE
  | TRK_OUT_ADDR
  | TRK_NEXTID
  | TRK_ID_EXH
  | FT_CNT
  -- spec/08_mills.md Table ML-8
  | MILL_STAT_STATE
  | MILL_STAT_REMOVALS
  | MILL_STAT_TE_LIVE
  | MILL_STAT_SPUR
  | MILL_CTRL_TE_OFF
  | MILL_CTRL_TE_READMIT
  | MILL_CMD_RETEST
  | MILL_CMD_READMIT
  | TE_CAUSE_LO
  | TE_CAUSE_HI
  | TQ_BASE
  | TQ_SIZE
  | TQ_HEAD
  | TQ_TAIL
  | TQ_STATE
  | TQ_CLR
  | TKC
  | TKC_OVF
  | DC_BASE
  | DC_HEAD
  | DC_TAIL
  | DC_ERR
  | MILL_CNT
  -- spec/07_number_formats.md Table NF-9
  | TE_FLAGS_OF
  | TE_FLAGS_UF
  | TE_FLAGS_NX
  | TE_FLAGS_NV
  | TE_FLAGS_NANTILE
  -- spec/07_number_formats.md Table NF-10
  | TE_NANPOS_COL
  | TE_NANPOS_ROW
  | TE_NANPOS_KIND
  | TE_NANPOS_ACC
  | TE_NANPOS_VALID
  | TE_NANTASK_TASK
  -- spec/07_number_formats.md Table NF-11
  | OPCTX_SAT_CNT
  | OPCTX_FLUSH_IN
  | OPCTX_FLUSH_OUT
  | OPCTX_NAN_TILES
  | OPCTX_FLAGS
  -- spec/08_mills.md Table ML-9
  | MQ_OP_TARGET
  | MQ_OP_CUR
  | MQ_OP_BUSY
  | MQ_TEST_PERIOD
  -- spec/09_milestones_and_buffers.md Table MS-7
  | MS_VALUE
  | MS_TARGET
  | MS_CFG_EN
  | MS_CFG_OWNER
  | MS_CFG_SAT
  | MS_CFG_WAITERS
  | MS_FWD_EN
  | MS_FWD_MILL
  | MS_FWD_TKC
  | MS_WQUOTA
  | MS_WUSED
  | MS_CNT
  | EQ_MSBIND_MS
  | EQ_MSBIND_WM
  | EQ_MSBIND_EN
  -- spec/09_milestones_and_buffers.md Table MS-8
  | BP_SHORT_RESV
  | BP_SHORT_MAX
  | BP_LONG_BASE
  | BP_LONG_COUNT
  | BP_LONG_ADDR_LO
  | BP_LONG_ADDR_HI
  | BP_USED_SHORT
  | BP_USED_LONG
  | BP_FREE
  | BP_PTR
  | BP_WAITQ_SHORT
  | BP_WAITQ_LONG
  | BP_CNT
  -- spec/12_mailboxes_and_operators.md Table MB-7
  | MB_CFG_EN
  | MB_CFG_LOC
  | MB_CFG_SQ_LOG2
  | MB_CFG_CQ_LOG2
  | MB_CFG_IRQ_ALL
  | MB_CFG_VEC
  | MB_SQ_BASE_LO
  | MB_SQ_BASE_HI
  | MB_CQ_BASE_LO
  | MB_CQ_BASE_HI
  | MB_SQ_DB
  | MB_CQ_DB
  | MB_SQ_HEAD
  | MB_SQ_TAIL
  | MB_CQ_TAIL
  | MB_CQ_HEAD
  | MB_STAT_STATE
  | MB_STAT_DB_ERR
  | MB_STAT_FETCH_ERR
  | MB_STAT_LEAKED
  | MB_CNT
  -- spec/12_mailboxes_and_operators.md Table MB-8
  | NGX_VER
  | NGX_IF
  | NGX_STATE
  | NGX_BUILD
  | NGX_CORES_LIVE
  | NGX_CORES_MIG
  -- spec/13_spurs_and_security.md Table SP-11
  | SPUR_STATE
  | SPUR_TDI
  | SPUR_STREAM
  | SPUR_QUADS
  | SPUR_RES_CH
  | SPUR_RES_WL
  | SPUR_EQ
  | ISO_CNT
  | ISO_FAULT_N
  | SPUR_GRANT
  | SIGNER_HASH
  -- spec/13_spurs_and_security.md Table SP-12
  | SEC_STAT_QUARANTINE
  | SEC_STAT_KEYS_READY
  | SEC_STAT_KIT_PRESENT
  | SEC_STAT_CW_POLICY
  | SEC_STAT_DBG_OPEN
  | SEC_STAT_CERT_BAD
  | SEC_SERIAL_LO
  | SEC_SERIAL_HI
  | SEC_KIT_ID_LO
  | SEC_KIT_ID_HI
  | SEC_KIT_SIZE
  | SEC_LV_LOCKVIOL
  | SEC_LV_REQ
  | SEC_LV_ADDR
  | SEC_LV_CNT
  | ISO_LOG_LO
  | ISO_LOG_HI
  | ISO_OVF
  -- spec/14_causeway_cascade.md Table CW-9
  | CW_CFG_EN
  | CW_CFG_PAIR
  | CW_CFG_AUTO_JOIN
  | CW_CFG_SPLICE_PERIOD
  | CW_CFG_CAL_BITS
  | CW_CFG_CAL_BITS_BATCH
  | CW_CFG_CAL_PERIOD
  | CW_STAT_STATE
  | CW_STAT_RING_BREAK
  | CW_STAT_ROLE_CONFLICT
  | CW_STAT_DEVID_DUP
  | CW_STAT_STRAP_ERR
  | CW_STAT_NOT_KIT_UP
  | CW_STAT_PLAIN
  | CW_STAT_PORT_FAIL
  | CW_STAT_CAL_FAIL
  | CW_STAT_TRIM_WARN
  | CW_STAT_N_DEV
  | CW_HOP_WIDTH
  | CW_HOP_MASK
  | CW_HOP_GOOD
  | CW_HOP_LMV
  | CW_HOP_PEER
  | CW_HOP_ENC
  | CW_LOOP_L
  | CW_LOOP_CORR_RET
  | CW_CABLE
  | CW_THETA
  | CW_SEGDLY
  | CW_ASYM_IN
  | CW_ASYM_OUT
  | CW_MAP
  | CW_EXPORT_MB
  | CW_EXPORT_BASE
  | CW_EXPORT_SIZE
  | CW_LANE_IN
  | CW_LANE_OUT
  | CW_CNT
  -- spec/18_aux_signals.md Table AX-6
  | SPI_CFG_EN
  | SPI_CFG_MODE
  | SPI_CFG_CLKDIV
  | SPI_CFG_LEN
  | SPI_CFG_KIND
  | SPI_CFG_CMDLEN
  | SPI_CFG_STAMP
  | SPI_CFG_TRIG
  | SPI_CMD0
  | SPI_CMD1
  | SPI_DLY
  | SPI_CNT
  | I3C_CFG_EN
  | I3C_CFG_RATE
  | I3C_CFG_LEGACY_1M
  | I3C_DEV_SA
  | I3C_DEV_DA
  | I3C_DEV_LEGACY
  | I3C_DEV_LEN
  | I3C_DEV_KIND
  | I3C_DEV_ACQ
  | I3C_DEV_TRIG
  | I3C_DEV_REG
  | I3C_DEV_DLY
  | CH_CFG_SRC
  | CH_CFG_OFS
  | CH_CFG_WIDTH
  | CH_CFG_SGN
  | CH_CFG_BE
  | CH_CFG_LOG2M
  | CH_CFG_STEP
  | CH_CFG_SPUR
  | CH_CFG_EN
  | CH_PERIOD
  | CH_SCALE
  | CH_POP
  | CH_STAT_OVF_CNT
  | GPIO_DIR
  | GPIO_OUT
  | GPIO_IN
  | GPIO_EDGE
  | GPIO_WAKE
  | GPIO_FILT
  | GPIO_POP
  | GPIO_OVF
  | ETH_CFG_MODE
  | ETH_CFG_AN_EN
  | ETH_IP
  | ETH_STAT_LINK
  | ETH_STAT_MOD_ABS
  | ETH_STAT_LOS
  | ETH_STAT_TX_FAULT
  | ETH_MAC_LO
  | ETH_MAC_HI
  | ETH_DISCARD
  | AUXEV_POP
  | AUXEV_OVF
  | STRAP_LIVE
  | STRAP_UNSTABLE
  | STRAP_CHG
  | XSPI_SFDP_BAD
  | TAP_REFUSED
  -- spec/04_module_identity.md Table ID-8
  | HB_CFG_EN
  | HB_CFG_MOD
  | HB_CFG_OPT
  | HB_CFG_SEL
  | HB_CFG_POLL
  | HB_CFG_TXLVL
  | HB_CFG_RESUME
  | HB_STAT_STATE
  | HB_STAT_ANT_FAULT
  | HB_STAT_MULTI
  | HB_STAT_MASK_LIVE
  | HB_STAT_UNLISTED
  | HB_STAT_HOTPIX_OVF
  | HB_UID_LO
  | HB_UID_HI
  | HB_TOOL_CLASS
  | HB_TOOL_VARIANT
  | HB_ANT
  | ID_OP_RESULT
  | ID_OP_OUTCOME
  | ID_OP_RESTARTS
  | ID_OP_SLOT
  | ID_OP_SEQ
  | ID_CNT
deriving DecidableEq, Repr

/-- The register tables of the spec. -/
def Reg.spec : Reg → FieldSpec
  -- spec/00_scope.md Table SC-7
  | .GLOBAL_ID_PART => { fs 0x000000 [] 16 16 .ro .none 38464 .F with src := .fuse }
  | .GLOBAL_ID_STEP_MAJ => { fs 0x000000 [] 12 4 .ro .none 1 .F with src := .fuse }
  | .GLOBAL_ID_STEP_MIN => { fs 0x000000 [] 8 4 .ro .none 0 .F with src := .fuse }
  | .GLOBAL_ID_DEVID => { fs 0x000000 [] 4 4 .ro .none 0 .F with src := .strap }
  | .GLOBAL_ID_ROLE => { fs 0x000000 [] 2 2 .ro .none 0 .F with src := .strap }
  -- spec/01_architecture.md Table AR-11
  | .GLOBAL_CAP_MILLS => { fs 0x000004 [] 0 8 .ro .none 128 .F with src := .fuse }
  | .GLOBAL_CAP_WL_PORTS => { fs 0x000004 [] 8 4 .ro .none 8 .F with src := .fuse }
  | .GLOBAL_CAP_CW_PORTS => { fs 0x000004 [] 12 3 .ro .none 4 .F with src := .fuse }
  | .GLOBAL_CAP_KERB_UNITS => { fs 0x000004 [] 16 4 .ro .none 8 .F with src := .fuse }
  | .GLOBAL_CAP_NCC => { fs 0x000004 [] 20 5 .ro .none 16 .F with src := .fuse }
  -- spec/01_architecture.md Table AR-12
  | .GLOBAL_AVAIL_MILLS_LIVE => { fs 0x000008 [] 0 8 .ro .none 128 .V with src := .bist }
  | .GLOBAL_AVAIL_TES_LIVE => { fs 0x000008 [] 8 12 .ro .none 2048 .V with src := .bist }
  | .GLOBAL_AVAIL_NCC_LIVE => { fs 0x000008 [] 20 5 .ro .none 16 .V with src := .bist }
  -- spec/17_host_and_memory.md Table HM-7
  | .HL_LINK_SPEED => fs 0x001000 [] 0 3 .ro .none 0 .V
  | .HL_LINK_WIDTH => fs 0x001000 [] 4 4 .ro .none 0 .V
  | .HL_LINK_L2 => fs 0x001000 [] 8 1 .ro .none 0 .V
  | .HL_FWWR_CNT => fs 0x001010 [(8, 0x4)] 0 32 .rc .none 0 .V
  | .HL_FWWR_VALID => fs 0x001030 [] 0 1 .w1c .hw 0 .V
  | .HL_FWWR_FN => fs 0x001030 [] 1 3 .ro .none 0 .V
  | .HL_FWWR_ADDR => fs 0x001034 [] 0 23 .ro .none 0 .V
  | .HL_BADWR => fs 0x001040 [(8, 0x4)] 0 16 .rc .none 0 .V
  | .HL_VFRO => fs 0x001060 [(8, 0x4)] 0 16 .rc .none 0 .V
  | .HL_GATED => fs 0x001080 [] 0 16 .rc .none 0 .V
  | .HL_POISON => fs 0x001080 [] 16 16 .rc .none 0 .V
  | .HL_DMA_ERR => fs 0x001090 [(5, 0x4)] 0 16 .rc .none 0 .V
  | .HL_L2_RDY => fs 0x0010A0 [] 0 1 .ro .none 0 .V
  -- spec/17_host_and_memory.md Table HM-8
  | .MEM_CFG_RATE => { fs 0x002000 [] 0 3 .rw .fw 0 .P with src := .flash, rsv := .ranges [(5, 7)] }
  | .MEM_CFG_CAP => { fs 0x002000 [] 4 3 .rw .fw 0 .P with src := .flash, rsv := .ranges [(5, 7)] }
  | .MEM_CFG_RANKS => { fs 0x002000 [] 8 1 .rw .fw 0 .P with src := .flash }
  | .MEM_STAT_STATE => fs 0x002010 [(8, 0x4)] 0 3 .ro .none 0 .V
  | .MEM_STAT_SPUR => fs 0x002010 [(8, 0x4)] 3 3 .ro .none 0 .V
  | .MEM_STAT_OWNED => fs 0x002010 [(8, 0x4)] 6 1 .ro .none 0 .V
  | .MEM_STAT_ENC => fs 0x002010 [(8, 0x4)] 7 1 .ro .none 0 .V
  | .MEM_STAT_MR4 => fs 0x002010 [(8, 0x4)] 8 8 .ro .none 0 .V
  | .MEM_CNT => fs 0x002040 [(8, 0x10), (3, 0x4)] 0 32 .rc .none 0 .V
  -- spec/20_electrical_and_package.md Table EP-17
  | .THERM_TEMP => fs 0x003000 [(8, 0x4)] 0 8 .ro .none 0 .V
  | .THERM_MAX => fs 0x003020 [] 0 8 .ro .none 0 .V
  | .THERM_MAX_SENSOR => fs 0x003020 [] 8 3 .ro .none 0 .V
  | .THERM_PEAK => fs 0x003024 [] 0 8 .rc .none 0 .V
  -- spec/02_time_base.md Table TB-7
  | .TIME_RAW_HI => fs 0x010004 [] 0 32 .ro .none 0 .T
  | .TIME_SNAP_GO => { fs 0x010008 [] 0 1 .wo .hw 0 .V with ownRow := true }
  | .SNAP_RAW_LO => fs 0x010010 [] 0 32 .ro .none 0 .V
  | .SNAP_RAW_HI => fs 0x010014 [] 0 32 .ro .none 0 .V
  | .SNAP_SEC_LO => fs 0x010018 [] 0 32 .ro .none 0 .V
  | .SNAP_SEC_HI => fs 0x01001C [] 0 32 .ro .none 0 .V
  | .SNAP_NS => fs 0x010020 [] 0 30 .ro .none 0 .V
  | .SNAP_FRAC => fs 0x010024 [] 0 16 .ro .none 0 .V
  | .TIME_RATE => fs 0x01004C [] 0 32 .rw .fw 0 .T
  | .TIME_RATE_X => fs 0x010050 [] 0 8 .rw .fw 0 .T
  | .TIME_SLEW => fs 0x010060 [] 0 32 .rw .fw 0 .T
  | .TIME_RC_HI => fs 0x01006C [] 0 32 .ro .none 0 .V
  | .REF_DEV_A => fs 0x010088 [] 0 32 .ro .none 0 .V
  | .REF_DEV_B => fs 0x01008C [] 0 32 .ro .none 0 .V
  | .REF_DEV_AB => fs 0x010090 [] 0 32 .ro .none 0 .V
  | .ETH0_ASYM_IN => { fs 0x010100 [] 0 32 .rw .hw 0 .T with src := .flash }
  | .ETH0_ASYM_OUT => { fs 0x010104 [] 0 32 .rw .hw 0 .T with src := .flash }
  | .TRIG_START_LO => fs 0x010400 [(8, 0x40)] 0 32 .rw .fw 0 .T
  | .TRIG_START_HI => fs 0x010404 [(8, 0x40)] 0 32 .rw .fw 0 .T
  | .TRIG_PERIOD => fs 0x010408 [(8, 0x40)] 0 32 .rw .fw 0 .T
  | .TRIG_WIDTH => fs 0x01040C [(8, 0x40)] 0 24 .rw .fw 0 .T
  | .TRIG_COUNT => { fs 0x010410 [(8, 0x40)] 0 16 .rw .fw 0 .T with ownRow := true }
  | .TRIG_CTRL_EN => { fs 0x010414 [(8, 0x40)] 0 1 .rw .fw 0 .T with ownRow := true }
  | .TRIG_CTRL_MODE => fs 0x010414 [(8, 0x40)] 1 1 .rw .fw 0 .T
  | .TRIG_CTRL_POL => fs 0x010414 [(8, 0x40)] 2 1 .rw .fw 0 .T
  | .TRIG_CTRL_LATE => fs 0x010414 [(8, 0x40)] 8 1 .w1c .fw 0 .V
  | .TRIG_CTRL_CFGERR => fs 0x010414 [(8, 0x40)] 9 1 .w1c .fw 0 .V
  | .TRIG_LAST_LO => fs 0x010418 [(8, 0x40)] 0 32 .ro .none 0 .V
  | .TRIG_LAST_HI => fs 0x01041C [(8, 0x40)] 0 32 .ro .none 0 .V
  | .TRIG_MISS => fs 0x010420 [(8, 0x40)] 0 16 .rc .none 0 .V
  -- spec/02_time_base.md Table TB-8
  | .TIME_CMD_OP => { fs 0x01005C [] 0 2 .wo .fw 0 .V with ownRow := true }
  | .TIME_CMD_SLEW_PPM => { fs 0x01005C [] 2 8 .rw .fw 100 .T with rsv := .ranges [(0, 0), (101, 255)], ownRow := true }
  -- spec/02_time_base.md Table TB-9
  | .TIME_STAT_TQ => fs 0x010080 [] 0 2 .ro .none 3 .T
  | .TIME_STAT_REFSEL => fs 0x010080 [] 2 1 .ro .none 0 .T
  | .TIME_STAT_REF_NONE => fs 0x010080 [] 3 1 .ro .none 0 .T
  | .TIME_STAT_GRADE_A => fs 0x010080 [] 4 2 .ro .none 3 .V
  | .TIME_STAT_GRADE_B => fs 0x010080 [] 6 2 .ro .none 3 .V
  | .TIME_STAT_LOS_A => fs 0x010080 [] 8 1 .w1c .hw 0 .V
  | .TIME_STAT_LOS_B => fs 0x010080 [] 9 1 .w1c .hw 0 .V
  | .TIME_STAT_DRIFT_TREND => fs 0x010080 [] 10 1 .ro .none 0 .V
  | .TIME_STAT_DRIFT_SEEN => fs 0x010080 [] 11 1 .w1c .hw 0 .V
  | .TIME_STAT_STEP_REFUSED => fs 0x010080 [] 13 1 .w1c .hw 0 .V
  | .TIME_STAT_TIME_NEG => fs 0x010080 [] 14 1 .w1c .hw 0 .V
  | .TIME_STAT_REF_DISAGREE => fs 0x010080 [] 15 1 .ro .none 0 .V
  | .TIME_STAT_SWITCHED => fs 0x010080 [] 16 1 .w1c .hw 0 .V
  -- spec/02_time_base.md Table TB-10
  | .REF_CTRL_PREF => { fs 0x010084 [] 0 1 .rw .hw 0 .T with src := .flash }
  | .REF_CTRL_AUTO => { fs 0x010084 [] 1 1 .rw .hw 1 .T with src := .flash }
  | .PTP_STAT_PORT_STATE => fs 0x010108 [] 0 3 .ro .none 0 .V
  | .PTP_STAT_DISCARD => fs 0x010108 [] 16 16 .ro .none 0 .V
  | .TXTS_STAT_OVF => fs 0x010200 [] 8 1 .w1c .hw 0 .V
  | .TXTS_STAT_OVF_CNT => fs 0x010200 [] 16 16 .rc .none 0 .V
  | .TXTS_POP => { fs 0x010218 [] 0 1 .wo .fw 0 .V with ownRow := true }
  -- spec/15_power.md Table PW-11
  | .PM_TARGET_STATE => { fs 0x020000 [] 0 3 .rw .fw 0 .V with rsv := .ranges [(5, 7)] }
  | .PM_TARGET_QOFF => fs 0x020000 [] 4 4 .rw .fw 0 .V
  | .PM_TARGET_SPORTS => fs 0x020000 [] 8 8 .rw .fw 0 .V
  | .PM_TARGET_UNUSED => fs 0x020000 [] 16 5 .rw .fw 0 .V
  | .PM_STATUS_CUR => fs 0x020004 [] 0 3 .ro .none 0 .P
  | .PM_STATUS_TGT => fs 0x020004 [] 3 3 .ro .none 0 .V
  | .PM_STATUS_PEND => fs 0x020004 [] 6 3 .ro .none 0 .V
  | .PM_STATUS_PEND_V => fs 0x020004 [] 9 1 .ro .none 0 .V
  | .PM_STATUS_BUSY => fs 0x020004 [] 10 1 .ro .none 0 .V
  | .PM_STATUS_PNR => fs 0x020004 [] 11 1 .ro .none 0 .V
  | .PM_STATUS_LAST => fs 0x020004 [] 12 4 .ro .none 0 .V
  | .PM_STATUS_DOM_ON => fs 0x020004 [] 16 13 .ro .none 8191 .V
  | .PM_WAKE_STATE => { fs 0x020008 [] 0 3 .rw .fw 0 .P with src := .flash, rsv := .ranges [(5, 7)] }
  | .PM_WAKE_QOFF => { fs 0x020008 [] 4 4 .rw .fw 0 .P with src := .flash }
  | .PM_WAKE_SPORTS => { fs 0x020008 [] 8 8 .rw .fw 0 .P with src := .flash }
  | .PM_WAKE_UNUSED => { fs 0x020008 [] 16 5 .rw .fw 0 .P with src := .flash }
  | .PM_WAKE_CFG_EN => { fs 0x02000C [] 0 8 .rw .fw 129 .P with src := .flash }
  | .PM_WAKE_CFG_REPLAY => { fs 0x02000C [] 8 8 .rw .fw 255 .P with src := .flash }
  | .PM_WAKE_SRC_LATCHED => fs 0x020010 [] 0 8 .w1c .fw 0 .V
  | .PM_WAKE_SRC_FIRST => fs 0x020010 [] 8 3 .ro .none 0 .V
  | .PM_WAKE_TIME_LO => fs 0x020018 [] 0 32 .rw .fw 0 .P
  | .PM_WAKE_TIME_HI => fs 0x02001C [] 0 32 .rw .fw 0 .P
  | .PM_AON_CFG_REFS => { fs 0x020020 [] 0 2 .rw .fw 1 .P with src := .flash }
  | .PM_AON_CFG_WL_WAKE => { fs 0x020020 [] 4 8 .rw .fw 0 .P with src := .flash }
  | .PM_AON_CFG_CW_WAKE => { fs 0x020020 [] 12 4 .rw .fw 0 .P with src := .flash }
  | .PM_AON_CFG_TMAX => { fs 0x020020 [] 16 8 .rw .fw 85 .P with src := .flash, rsv := .ranges [(0, 39), (106, 255)] }
  | .PM_AON_EST => fs 0x020024 [] 0 16 .ro .none 0 .V
  | .PM_MON_BOW => fs 0x020030 [] 0 3 .ro .none 0 .V
  | .PM_MON_BOW_SEEN => fs 0x020030 [] 4 3 .w1c .fw 0 .V
  | .PM_MON_BOW_HOLD => fs 0x020030 [] 7 1 .ro .none 0 .V
  | .PM_RAIL_EN => { fs 0x020040 [(5, 0x4)] 0 1 .rw .fw 0 .P with src := .flash }
  | .PM_RAIL_BUS => { fs 0x020040 [(5, 0x4)] 1 1 .rw .fw 0 .P with src := .flash }
  | .PM_RAIL_ADDR => { fs 0x020040 [(5, 0x4)] 2 7 .rw .fw 0 .P with src := .flash }
  | .PM_RAIL_SEL => { fs 0x020040 [(5, 0x4)] 9 5 .rw .fw 0 .P with src := .flash }
  | .PM_REGSTAT_FAIL => fs 0x020060 [] 0 5 .w1c .fw 0 .V
  | .PM_REGSTAT_FAULT => fs 0x020060 [] 5 5 .w1c .fw 0 .V
  | .PM_RES_S_HI => fs 0x020104 [(4, 0x8)] 0 32 .ro .none 0 .P
  | .PM_RES_TRANS_HI => fs 0x020124 [] 0 32 .ro .none 0 .P
  | .PM_RES_D_HI => fs 0x020144 [(13, 0x8)] 0 32 .ro .none 0 .P
  | .PM_ENTRIES => fs 0x0201C0 [(5, 0x4)] 0 32 .rc .none 0 .P
  | .PM_ABORTS => fs 0x0201D4 [] 0 32 .rc .none 0 .P
  -- spec/16_reset_and_persistence.md Table RP-10
  | .RST_CAUSE_LAST => fs 0x030000 [] 0 4 .ro .none 0 .P
  | .RST_CAUSE_SEEN => fs 0x030000 [] 4 6 .w1c .hw 0 .P
  | .RST_CAUSE_S_LOST => fs 0x030000 [] 10 1 .ro .none 0 .P
  | .RST_CAUSE_BOOT_B => fs 0x030000 [] 11 1 .ro .none 0 .P
  | .RST_CAUSE_FAILS => fs 0x030000 [] 12 2 .ro .none 0 .P
  | .RST_CTRL_SOFT => { fs 0x030004 [] 0 1 .wo .fw 0 .V with ownRow := true }
  | .RST_DOM_DOMAIN => { fs 0x030008 [] 0 4 .wo .fw 0 .V with ownRow := true }
  | .RST_DOM_GO => { fs 0x030008 [] 8 1 .wo .fw 0 .V with ownRow := true }
  | .RST_DOM_ERR => fs 0x030008 [] 9 1 .w1c .fw 0 .V
  | .RST_WDT_PERIOD => { fs 0x03000C [] 0 8 .wl1 .fw 200 .P with rsv := .ranges [(0, 9)] }
  | .RST_WDT_EN => fs 0x03000C [] 8 1 .ro .none 0 .V
  | .RST_WDT_KICK => { fs 0x030010 [] 0 1 .wo .fw 0 .V with ownRow := true }
  | .RST_COUNT => fs 0x030020 [(8, 0x4)] 0 16 .rc .none 0 .P
  | .BOOT_STAT_DIR_BAD => fs 0x030040 [] 0 1 .ro .none 0 .P
  | .BOOT_STAT_IMG_BAD => fs 0x030040 [] 1 1 .ro .none 0 .P
  -- spec/16_reset_and_persistence.md Table RP-11
  | .FUSE_STAT_SEC_MARG => fs 0x040000 [] 0 1 .ro .none 0 .P
  | .FUSE_STAT_FUSE_DRIFT => fs 0x040000 [] 1 1 .w1c .hw 0 .P
  | .FUSE_STAT_NS_FIRST => fs 0x040000 [] 2 9 .ro .none 0 .P
  | .FUSE_STAT_NS_COUNT => fs 0x040000 [] 11 9 .ro .none 0 .P
  | .FUSE_STAT_DRIFT_WORD => fs 0x040000 [] 20 9 .ro .none 0 .P
  | .FUSE_TEMP_TCOLD => fs 0x040004 [] 0 8 .ro .none 0 .P
  | .FUSE_TEMP_TWARM => fs 0x040004 [] 8 8 .ro .none 0 .P
  | .FUSE_RD_WORD => fs 0x040010 [] 0 9 .rw .hw 0 .V
  | .CAL_STAT_ACTIVE => fs 0x040100 [] 0 2 .ro .none 2 .P
  | .CAL_STAT_PARTIAL => fs 0x040100 [] 2 1 .ro .none 0 .P
  | .CAL_STAT_SEQ_TIE => fs 0x040100 [] 3 1 .ro .none 0 .P
  | .CAL_STAT_TRIM_PEND => fs 0x040100 [] 4 1 .ro .none 0 .P
  | .CAL_STAT_BUSY => fs 0x040100 [] 5 1 .ro .none 0 .V
  | .CAL_STAT_STEP => fs 0x040100 [] 6 3 .ro .none 0 .V
  | .CAL_STAT_OUT => fs 0x040100 [] 9 3 .ro .none 0 .V
  | .CAL_SEQ => fs 0x040104 [] 0 32 .ro .none 0 .P
  | .HU_CFG_CAP => { fs 0x040110 [] 0 16 .rw .hw 0 .P with src := .flash }
  | .HU_CFG_DIV => { fs 0x040110 [] 16 12 .rw .hw 0 .P with src := .flash, rsv := .ranges [(0, 15)] }
  | .HU_CFG2_VMIN => { fs 0x040114 [] 0 16 .rw .hw 0 .P with src := .flash }
  | .HU_CFG2_PSTORE => { fs 0x040114 [] 16 16 .rw .hw 0 .P with src := .flash }
  | .HU_CFG3_MARGIN => { fs 0x040118 [] 0 8 .rw .hw 50 .P with src := .flash }
  | .HU_MEAS_CODE => fs 0x04011C [] 0 12 .ro .none 0 .V
  | .HU_ENERGY_E => fs 0x040120 [] 0 16 .ro .none 0 .V
  | .HU_ENERGY_E_REQ => fs 0x040120 [] 16 16 .ro .none 0 .V
  -- spec/19_faults_and_recovery.md Table FR-8
  | .ERR_POP_VALID => { fs 0x050000 [(8, 0x1000)] 0 1 .rc .none 0 .V with ownRow := true }
  | .ERR_POP_LEFT => { fs 0x050000 [(8, 0x1000)] 1 7 .rc .none 0 .V with ownRow := true }
  | .ERR_STAT_OVF => fs 0x050004 [(8, 0x1000)] 7 1 .w1c .hw 0 .V
  | .ERR_OVF_CNT => fs 0x050008 [(8, 0x1000)] 0 16 .rc .none 0 .V
  | .ERR_EPOCH => { fs 0x05000C [(8, 0x1000)] 0 16 .ro .none 0 .V with keep := .reg }
  | .ERR_FAULT_CODE => fs 0x050010 [(8, 0x1000)] 0 3 .ro .none 0 .V
  | .ERR_FAULT_FAULTS => fs 0x050010 [(8, 0x1000)] 16 16 .rc .none 0 .V
  | .ERR_REC => fs 0x050020 [(8, 0x1000), (8, 0x4)] 0 32 .ro .none 0 .V
  -- spec/19_faults_and_recovery.md Table FR-9
  | .ERR_DEVFAULT_ISLAND => fs 0x058000 [] 0 8 .ro .none 0 .P
  | .ERR_DEVFAULT_CAUSE => fs 0x058000 [] 8 8 .ro .none 0 .P
  -- spec/11_kerb_and_deadlines.md Table KB-6
  | .KRB_ARM_ARM => { fs 0x060000 [] 0 1 .wl1 .fw 0 .K with ownRow := true }
  | .KRB_ARM_ERR => fs 0x060000 [] 0 8 .ro .none 0 .V
  | .KRB_CFGCRC => fs 0x060004 [] 0 32 .ro .none 0 .K
  | .KRB_STAT_ARMED => fs 0x060008 [] 0 1 .ro .none 0 .K
  | .KRB_STAT_FAULT => fs 0x060008 [] 1 1 .ro .none 0 .K
  | .KRB_STAT_RUN => fs 0x060008 [] 2 1 .ro .none 0 .K
  | .KRB_STAT_SLOWOUT => fs 0x060008 [] 3 1 .ro .none 0 .K
  | .KRB_STAT_ZG_STOP => fs 0x060008 [] 4 8 .ro .none 255 .K
  | .KRB_STAT_ZG_SLOW => fs 0x060008 [] 12 8 .ro .none 0 .K
  | .KRB_STAT_MASK_ON => fs 0x060008 [] 20 1 .ro .none 0 .K
  | .KRB_CAUSE => fs 0x06000C [] 0 13 .ro .none 1 .K
  | .KRB_CAUSE_SEEN => fs 0x060010 [] 0 13 .w1c .hw 0 .V
  | .KRB_FAULT_CODE => fs 0x060014 [] 0 8 .ro .none 0 .K
  | .KRB_FAULT_UNIT => fs 0x060014 [] 8 4 .ro .none 0 .K
  | .KRB_RESET => { fs 0x060018 [] 0 1 .wo .fw 0 .V with ownRow := true }
  | .KRB_OUT_SSTOP_COVER => { fs 0x060020 [] 0 8 .rwl .fw 255 .K with lock := .kerbArmed }
  | .KRB_OUT_SLOW_COVER => { fs 0x060020 [] 8 8 .rwl .fw 255 .K with lock := .kerbArmed }
  | .KRB_OUT_MANUAL => { fs 0x060020 [] 16 8 .rwl .fw 0 .K with lock := .kerbArmed }
  | .KRB_OUT_DT_W => { fs 0x060020 [] 24 6 .rwl .fw 20 .K with rsv := .ranges [(0, 4), (41, 63)], lock := .kerbArmed }
  | .KRB_FB_FBA_EN => { fs 0x060024 [] 0 1 .rwl .fw 1 .K with lock := .kerbArmed }
  | .KRB_FB_FBB_EN => { fs 0x060024 [] 1 1 .rwl .fw 1 .K with lock := .kerbArmed }
  | .KRB_FB_POL => { fs 0x060024 [] 2 1 .rwl .fw 0 .K with lock := .kerbArmed }
  | .KRB_FB_T => { fs 0x060024 [] 8 8 .rwl .fw 30 .K with rsv := .ranges [(0, 0)], lock := .kerbArmed }
  | .KRB_ESTOP_FILT => { fs 0x060028 [] 0 8 .rwl .fw 50 .K with lock := .kerbArmed }
  | .KRB_ESTOP_DISC => { fs 0x060028 [] 8 8 .rwl .fw 10 .K with rsv := .ranges [(0, 0)], lock := .kerbArmed }
  | .KRB_SLOT_TO => { fs 0x06002C [] 0 2 .rwl .fw 1 .K with lock := .kerbArmed }
  | .KRB_MASK_SRC => { fs 0x060030 [] 0 4 .rwl .fw 0 .K with rsv := .ranges [(12, 15)], lock := .kerbArmed }
  | .KRB_MASK_EN => { fs 0x060030 [] 4 1 .rwl .fw 0 .K with lock := .kerbArmed }
  | .KRB_MASK_PAD => { fs 0x060030 [] 8 8 .rwl .fw 20 .K with lock := .kerbArmed }
  | .KRB_MASK_AGE => { fs 0x060030 [] 16 16 .rwl .fw 2000 .K with rsv := .ranges [(0, 99), (10001, 65535)], lock := .kerbArmed }
  | .KRB_TOOL_CLASS => { fs 0x060040 [(16, 0x4)] 0 16 .rwl .fw 0 .K with lock := .kerbArmed }
  | .KRB_TOOL_VARIANT => { fs 0x060040 [(16, 0x4)] 16 16 .rwl .fw 0 .K with lock := .kerbArmed }
  | .KRB_CNT => fs 0x060080 [(9, 0x4)] 0 16 .rc .none 0 .V
  | .ZONE_TH_STOP => { fs 0x061000 [(8, 0x1000), (64, 0x10)] 0 24 .rwl .fw 0 .K with lock := .kerbArmed }
  | .ZONE_TH_SLOW => { fs 0x061004 [(8, 0x1000), (64, 0x10)] 0 24 .rwl .fw 0 .K with lock := .kerbArmed }
  | .ZONE_BW => { fs 0x061008 [(8, 0x1000), (64, 0x10)] 0 8 .rwl .fw 4 .K with rsv := .ranges [(0, 3), (251, 255)], lock := .kerbArmed }
  | .ZONE_ZG => { fs 0x061008 [(8, 0x1000), (64, 0x10)] 8 8 .rwl .fw 0 .K with lock := .kerbArmed }
  | .ZONE_MASKABLE => { fs 0x061008 [(8, 0x1000), (64, 0x10)] 16 1 .rwl .fw 0 .K with lock := .kerbArmed }
  | .ZONE_LOSS => { fs 0x061008 [(8, 0x1000), (64, 0x10)] 17 1 .rwl .fw 0 .K with lock := .kerbArmed }
  | .ZONE_EN => { fs 0x061008 [(8, 0x1000), (64, 0x10)] 18 1 .rwl .fw 0 .K with lock := .kerbArmed }
  | .ZONE_HOLD => { fs 0x061008 [(8, 0x1000), (64, 0x10)] 24 8 .rwl .fw 0 .K with lock := .kerbArmed }
  | .ZONE_COUNT => fs 0x06100C [(8, 0x1000), (64, 0x10)] 0 24 .ro .none 0 .K
  | .ZR_X0 => { fs 0x061400 [(8, 0x1000), (256, 0x8)] 0 11 .rwl .fw 0 .K with lock := .kerbArmed }
  | .ZR_X1 => { fs 0x061400 [(8, 0x1000), (256, 0x8)] 11 11 .rwl .fw 0 .K with lock := .kerbArmed }
  | .ZR_ZONE => { fs 0x061400 [(8, 0x1000), (256, 0x8)] 22 6 .rwl .fw 0 .K with lock := .kerbArmed }
  | .ZR_EN => { fs 0x061400 [(8, 0x1000), (256, 0x8)] 31 1 .rwl .fw 0 .K with lock := .kerbArmed }
  | .ZR_Y0 => { fs 0x061404 [(8, 0x1000), (256, 0x8)] 0 11 .rwl .fw 0 .K with lock := .kerbArmed }
  | .ZR_Y1 => { fs 0x061404 [(8, 0x1000), (256, 0x8)] 11 11 .rwl .fw 0 .K with lock := .kerbArmed }
  | .ZR_SLOT => { fs 0x061404 [(8, 0x1000), (256, 0x8)] 22 8 .rwl .fw 0 .K with lock := .kerbArmed }
  | .AP_ZA => { fs 0x061C00 [(8, 0x1000), (16, 0x8)] 0 6 .rwl .fw 0 .K with lock := .kerbArmed }
  | .AP_ZB => { fs 0x061C00 [(8, 0x1000), (16, 0x8)] 8 6 .rwl .fw 0 .K with lock := .kerbArmed }
  | .AP_ACT => { fs 0x061C00 [(8, 0x1000), (16, 0x8)] 14 1 .rwl .fw 0 .K with lock := .kerbArmed }
  | .AP_EN => { fs 0x061C00 [(8, 0x1000), (16, 0x8)] 15 1 .rwl .fw 0 .K with lock := .kerbArmed }
  | .AP_T => { fs 0x061C04 [(8, 0x1000), (16, 0x8)] 0 16 .rwl .fw 0 .K with lock := .kerbArmed }
  | .VS_MASK => { fs 0x069000 [(64, 0x80), (16, 0x4)] 0 32 .rwl .fw 0 .K with lock := .kerbArmed }
  | .VS_SPUR => { fs 0x069040 [(64, 0x80)] 0 3 .rwl .fw 0 .K with lock := .kerbArmed }
  | .VS_MINACT => { fs 0x069040 [(64, 0x80)] 3 2 .rwl .fw 0 .K with rsv := .ranges [(3, 3)], lock := .kerbArmed }
  | .VS_EN => { fs 0x069040 [(64, 0x80)] 5 1 .rwl .fw 0 .K with lock := .kerbArmed }
  | .VS_MAXAGE => { fs 0x069040 [(64, 0x80)] 16 16 .rwl .fw 0 .K with lock := .kerbArmed }
  | .LATCH_VERDICT => fs 0x06B000 [(512, 0x4)] 0 2 .ro .none 2 .K
  | .LATCH_REASON => fs 0x06B000 [(512, 0x4)] 2 2 .ro .none 0 .K
  | .LATCH_LATE_SEEN => fs 0x06B000 [(512, 0x4)] 4 1 .ro .none 0 .K
  | .LATCH_WIN => fs 0x06B000 [(512, 0x4)] 8 24 .ro .none 0 .K
  -- Word 0 is read by KRB_LATELOG_POP; words 1 to 3 are plain RC words.
  | .KRB_LATELOG => fs 0x06B800 [(4, 0x4)] 0 32 .rc .none 0 .V
  | .DL_LO => fs 0x070000 [(1024, 0x10)] 0 32 .rw .fw 0 .K
  | .DL_HI => fs 0x070004 [(1024, 0x10)] 0 32 .rw .fw 0 .K
  | .SLOT_WIN => fs 0x070008 [(1024, 0x10)] 0 32 .rw .fw 0 .K
  | .SLOT_CTRL_ARM => { fs 0x07000C [(1024, 0x10)] 0 1 .wo .fw 0 .V with ownRow := true }
  | .SLOT_CTRL_ACT => { fs 0x07000C [(1024, 0x10)] 1 2 .rw .fw 0 .K with rsv := .ranges [(3, 3)] }
  | .SLOT_CTRL_VSET => fs 0x07000C [(1024, 0x10)] 3 6 .rw .fw 0 .K
  | .SLOT_CTRL_SPUR => fs 0x07000C [(1024, 0x10)] 9 3 .rw .fw 0 .K
  | .SLOT_CTRL_STATE => fs 0x07000C [(1024, 0x10)] 12 2 .ro .none 0 .K
  | .SLOT_CTRL_GEN => fs 0x07000C [(1024, 0x10)] 16 8 .ro .none 0 .K
  -- spec/14_causeway_cascade.md Table CW-10
  | .AGG_MAP => { fs 0x078000 [(16, 0x8), (2, 0x4)] 0 32 .rwl .fw 0 .K with lock := .kerbArmed }
  | .AGG_EN => { fs 0x078100 [] 0 16 .rwl .fw 0 .K with lock := .kerbArmed }
  | .AGG_TO => { fs 0x078100 [] 16 11 .rwl .fw 200 .K with rsv := .ranges [(0, 19), (2001, 2047)], lock := .kerbArmed }
  | .AGG_LOST => fs 0x078104 [] 0 16 .ro .none 0 .V
  -- spec/03_wayline_link.md Table WL-9
  | .WL_CTRL_EN => { fs 0x080000 [(8, 0x8000)] 0 1 .rw .fw 0 .S with ownRow := true }
  | .WL_CTRL_POS_MODE => fs 0x080000 [(8, 0x8000)] 1 1 .rw .fw 0 .S
  | .WL_CTRL_AUTO_SPLICE => fs 0x080000 [(8, 0x8000)] 2 1 .rw .fw 1 .S
  | .WL_CTRL_SPLICE_PERIOD => { fs 0x080000 [(8, 0x8000)] 8 8 .rw .fw 100 .S with rsv := .ranges [(0, 0)] }
  | .WL_STAT_STATE => fs 0x080004 [(8, 0x8000)] 0 3 .ro .none 0 .V
  | .WL_STAT_HEADS => fs 0x080004 [(8, 0x8000)] 3 6 .ro .none 0 .V
  | .WL_STAT_RING_BREAK => fs 0x080004 [(8, 0x8000)] 9 1 .w1c .hw 0 .V
  | .WL_STAT_RING_OVER => fs 0x080004 [(8, 0x8000)] 10 1 .w1c .hw 0 .V
  | .WL_STAT_HEAD_LOST => fs 0x080004 [(8, 0x8000)] 11 1 .w1c .hw 0 .V
  | .WL_STAT_SPLICE_FAIL => fs 0x080004 [(8, 0x8000)] 12 1 .w1c .hw 0 .V
  | .WL_STAT_UNBOUND => fs 0x080004 [(8, 0x8000)] 13 1 .w1c .hw 0 .V
  | .WL_LOOP_L => fs 0x080008 [(8, 0x8000)] 0 16 .ro .none 0 .V
  | .WL_LOOP_CORR_RET => fs 0x080008 [(8, 0x8000)] 16 16 .ro .none 0 .V
  | .WL_CABLE => fs 0x08000C [(8, 0x8000)] 0 16 .ro .none 0 .V
  | .WL_ASYM_IN => { fs 0x080010 [(8, 0x8000)] 0 32 .rw .hw 0 .T with src := .flash }
  | .WL_ASYM_OUT => { fs 0x080014 [(8, 0x8000)] 0 32 .rw .hw 0 .T with src := .flash }
  | .WL_LIVE => fs 0x080020 [(8, 0x8000)] 0 32 .ro .none 0 .V
  | .WL_QUOTA_SUM => fs 0x080024 [(8, 0x8000)] 0 18 .ro .none 0 .V
  | .WL_SEGDLY => { fs 0x080040 [(8, 0x8000), (33, 0x4)] 0 12 .rw .fw 0 .S with src := .flash }
  | .WL_CNT => fs 0x080100 [(8, 0x8000), (14, 0x4)] 0 16 .rc .none 0 .V
  -- spec/03_wayline_link.md Table WL-11
  | .HT_STATE => fs 0x081000 [(8, 0x8000), (32, 0x20)] 0 3 .ro .none 0 .V
  | .HT_SERIAL_LO => fs 0x081004 [(8, 0x8000), (32, 0x20)] 0 32 .ro .none 0 .V
  | .HT_SERIAL_HI => fs 0x081008 [(8, 0x8000), (32, 0x20)] 0 32 .ro .none 0 .V
  | .HT_BIND_LO => { fs 0x08100C [(8, 0x8000), (32, 0x20)] 0 32 .rw .fw 0 .S with src := .flash }
  | .HT_BIND_HI => { fs 0x081010 [(8, 0x8000), (32, 0x20)] 0 32 .rw .fw 0 .S with src := .flash }
  | .HT_QUOTA => fs 0x081014 [(8, 0x8000), (32, 0x20)] 0 18 .rw .fw 0 .S
  | .HT_WMDLY => fs 0x081018 [(8, 0x8000), (32, 0x20)] 0 14 .ro .none 0 .V
  | .HT_GEOM_W => fs 0x08101C [(8, 0x8000), (32, 0x20)] 0 11 .ro .none 0 .V
  | .HT_GEOM_H => fs 0x08101C [(8, 0x8000), (32, 0x20)] 16 11 .ro .none 0 .V
  -- spec/05_carding_and_queues.md Table CD-5
  | .CARD_CTRL_KCOPY_RAW => { fs 0x0C0000 [(8, 0x4000)] 0 1 .rwl .fw 0 .K with lock := .kerbArmed }
  | .CARD_CTRL_BAF_WARM => { fs 0x0C0000 [(8, 0x4000)] 8 8 .rw .fw 20 .S with rsv := .ranges [(0, 0)] }
  | .CARD_STAT_HOTPIX_PORT_OVF => fs 0x0C0004 [(8, 0x4000)] 0 1 .w1c .hw 0 .V
  | .CARD_TBL_USED => fs 0x0C0008 [(8, 0x4000)] 0 19 .ro .none 0 .V
  | .CARD_CNT => fs 0x0C0040 [(8, 0x4000), (6, 0x4)] 0 16 .rc .none 0 .V
  | .SLOT_ROUTE_EQ => fs 0x0C0100 [(8, 0x4000), (32, 0x20)] 0 9 .rw .fw 0 .S
  | .SLOT_ROUTE_EN => fs 0x0C0100 [(8, 0x4000), (32, 0x20)] 15 1 .rw .fw 0 .S
  | .SLOT_BAF_EN => fs 0x0C0104 [(8, 0x4000), (32, 0x20)] 0 1 .rw .fw 1 .S
  | .SLOT_BAF_BLK => { fs 0x0C0104 [(8, 0x4000), (32, 0x20)] 1 2 .rw .fw 1 .S with rsv := .ranges [(3, 3)] }
  | .SLOT_BAF_MIN => { fs 0x0C0104 [(8, 0x4000), (32, 0x20)] 3 4 .rw .fw 2 .S with rsv := .ranges [(0, 0), (10, 15)] }
  | .SLOT_BAF_WIN => { fs 0x0C0104 [(8, 0x4000), (32, 0x20)] 16 14 .rw .fw 250 .S with rsv := .ranges [(0, 0)] }
  | .SLOT_RECT_EN => fs 0x0C0108 [(8, 0x4000), (32, 0x20)] 0 1 .rw .fw 0 .S
  | .SLOT_RECT_G => { fs 0x0C0108 [(8, 0x4000), (32, 0x20)] 1 2 .rw .fw 0 .S with rsv := .ranges [(3, 3)] }
  | .SLOT_ROI_X0 => fs 0x0C010C [(8, 0x4000), (32, 0x20)] 0 11 .rw .fw 0 .S
  | .SLOT_ROI_X1 => fs 0x0C010C [(8, 0x4000), (32, 0x20)] 16 11 .rw .fw 2047 .S
  | .SLOT_ROI_Y0 => fs 0x0C0110 [(8, 0x4000), (32, 0x20)] 0 11 .rw .fw 0 .S
  | .SLOT_ROI_Y1 => fs 0x0C0110 [(8, 0x4000), (32, 0x20)] 16 11 .rw .fw 2047 .S
  | .SLOT_DEC_SP => { fs 0x0C0114 [(8, 0x4000), (32, 0x20)] 0 2 .rw .fw 0 .S with rsv := .ranges [(3, 3)] }
  | .SLOT_DEC_N => fs 0x0C0114 [(8, 0x4000), (32, 0x20)] 8 8 .rw .fw 0 .S
  | .SLOT_STAT_UNF => fs 0x0C0118 [(8, 0x4000), (32, 0x20)] 0 1 .ro .none 0 .V
  -- spec/05_carding_and_queues.md Table CD-6
  | .EQ_CFG_EN => { fs 0x100000 [(512, 0x40)] 0 1 .rw .fw 0 .S with ownRow := true }
  | .EQ_CFG_CLASS => fs 0x100000 [(512, 0x40)] 1 1 .rw .fw 0 .S
  | .EQ_CFG_LOG2N => { fs 0x100000 [(512, 0x40)] 2 5 .rw .fw 10 .S with rsv := .ranges [(0, 5), (19, 31)] }
  | .EQ_CFG_BASE => fs 0x100000 [(512, 0x40)] 8 17 .rw .fw 0 .S
  | .EQ_CTRL_RESET => { fs 0x100004 [(512, 0x40)] 0 1 .wo .hw 0 .V with ownRow := true }
  | .EQ_SKIP_GO => { fs 0x100008 [(512, 0x40)] 0 1 .wo .hw 0 .V with ownRow := true }
  | .EQ_WP => fs 0x10000C [(512, 0x40)] 0 19 .ro .none 0 .V
  | .EQ_RP => fs 0x100010 [(512, 0x40)] 0 19 .ro .none 0 .V
  | .EQ_DROPS => fs 0x100018 [(512, 0x40)] 0 32 .rc .none 0 .V
  | .EQ_CE => fs 0x10001C [(512, 0x40)] 0 16 .rc .none 0 .V
  | .EQ_UE => fs 0x10001C [(512, 0x40)] 16 16 .rc .none 0 .V
  | .EQ_RESETS => fs 0x100020 [(512, 0x40)] 0 16 .rc .none 0 .V
  | .EQ_SKIPPED => fs 0x100024 [(512, 0x40)] 0 32 .rc .none 0 .V
  -- spec/06_fuller_surfaces.md Table FU-6
  | .FUL_CTRL_EN => fs 0x140000 [] 0 1 .rw .fw 0 .S
  | .FUL_STAT_FOREIGN_READ => fs 0x140004 [] 0 1 .w1c .hw 0 .V
  | .NAP_PART_FIRST => fs 0x140010 [(8, 0x4)] 0 7 .rw .fw 0 .S
  | .NAP_PART_COUNT => fs 0x140010 [(8, 0x4)] 16 7 .rw .fw 0 .S
  | .FUL_CNT => fs 0x140100 [(5, 0x4)] 0 16 .rc .none 0 .V
  | .SUB_SLOT => fs 0x141000 [(64, 0x40)] 0 8 .rw .fw 0 .S
  | .SUB_KIND => { fs 0x141000 [(64, 0x40)] 8 3 .rw .fw 0 .S with rsv := .ranges [(4, 7)] }
  | .SUB_BINS => fs 0x141000 [(64, 0x40)] 11 4 .rw .fw 1 .S
  | .SUB_Q => { fs 0x141000 [(64, 0x40)] 15 3 .rw .fw 0 .S with rsv := .ranges [(5, 7)] }
  | .SUB_DEC => fs 0x141000 [(64, 0x40)] 18 2 .rw .fw 0 .S
  | .SUB_DMAX => fs 0x141000 [(64, 0x40)] 20 2 .rw .fw 0 .S
  | .SUB_AUTO_DEC => fs 0x141000 [(64, 0x40)] 22 1 .rw .fw 0 .S
  | .SUB_WIN => { fs 0x141000 [(64, 0x40)] 24 7 .rw .fw 1 .S with rsv := .ranges [(0, 0), (65, 127)] }
  | .SUB_EN => fs 0x141000 [(64, 0x40)] 31 1 .rw .fw 0 .S
  | .SUB_TAIL => fs 0x141004 [(64, 0x40)] 0 4 .rw .fw 0 .S
  | .SUB_HALO => fs 0x141004 [(64, 0x40)] 4 1 .rw .fw 0 .S
  | .SUB_WCLOSE => { fs 0x141004 [(64, 0x40)] 5 8 .rw .fw 16 .S with rsv := .ranges [(0, 1)] }
  | .SUB_PRIO => fs 0x141004 [(64, 0x40)] 16 8 .rw .fw 0 .S
  | .SUB_NAP_OFF => fs 0x141008 [(64, 0x40)] 0 17 .rw .fw 0 .S
  | .SUB_MS => fs 0x14100C [(64, 0x40)] 0 10 .rw .fw 0 .S
  | .SUB_FEAT_MS => fs 0x14100C [(64, 0x40)] 16 10 .rw .fw 0 .S
  | .SUB_CORNER_EN => fs 0x141010 [(64, 0x40)] 0 1 .rw .fw 0 .S
  | .SUB_FLOW_EN => fs 0x141010 [(64, 0x40)] 1 1 .rw .fw 0 .S
  | .SUB_FLOW_EGO => fs 0x141010 [(64, 0x40)] 2 1 .rw .fw 0 .S
  | .SUB_FLOW_R => fs 0x141010 [(64, 0x40)] 3 1 .rw .fw 0 .S
  | .SUB_ARC3_MIN => fs 0x141014 [(64, 0x40)] 4 8 .rw .fw 3 .S
  | .SUB_ARC3_SPAN => fs 0x141014 [(64, 0x40)] 12 4 .rw .fw 3 .S
  | .SUB_ARC4_MIN => fs 0x141014 [(64, 0x40)] 16 8 .rw .fw 4 .S
  | .SUB_ARC4_SPAN => fs 0x141014 [(64, 0x40)] 24 4 .rw .fw 4 .S
  | .SUB_FLOW_WIN => fs 0x141018 [(64, 0x40)] 0 16 .rw .fw 5000 .S
  | .SUB_FLOW_MIN => { fs 0x141018 [(64, 0x40)] 16 6 .rw .fw 8 .S with rsv := .ranges [(0, 2), (50, 63)] }
  | .SUB_FLOW_RES => fs 0x141018 [(64, 0x40)] 24 8 .rw .fw 20 .S
  | .SUB_DEC_USED => fs 0x141020 [(64, 0x40)] 0 2 .ro .none 0 .V
  | .SUB_WIN_NUM => fs 0x141024 [(64, 0x40)] 0 32 .ro .none 0 .V
  | .SUB_DIRTY_CNT => fs 0x141028 [(64, 0x40)] 0 16 .ro .none 0 .V
  | .SUB_FLAGS => fs 0x141028 [(64, 0x40)] 16 4 .ro .none 0 .V
  | .SUB_LATE_REC => fs 0x14102C [(64, 0x40)] 0 16 .rc .none 0 .V
  | .FUL_LUT => fs 0x148000 [(64, 0x200), (256, 0x2)] 0 16 .rw .fw 0 .S
  -- spec/10_fusion_and_tracking.md Table FT-6
  | .CAL_FX => { fs 0x180000 [(256, 0x80)] 0 32 .rw .fw 0 .S with src := .flash }
  | .CAL_FY => { fs 0x180004 [(256, 0x80)] 0 32 .rw .fw 0 .S with src := .flash }
  | .CAL_CX => { fs 0x180008 [(256, 0x80)] 0 32 .rw .fw 0 .S with src := .flash }
  | .CAL_CY => { fs 0x18000C [(256, 0x80)] 0 32 .rw .fw 0 .S with src := .flash }
  | .CAL_BR => { fs 0x180010 [(256, 0x80), (9, 0x4)] 0 32 .rw .fw 0 .S with src := .flash }
  | .CAL_BT => { fs 0x180034 [(256, 0x80), (3, 0x4)] 0 32 .rw .fw 0 .S with src := .flash }
  | .CAL_RAW => fs 0x180040 [(256, 0x80)] 0 1 .rw .fw 0 .S
  | .CAL_MOUNT => fs 0x180040 [(256, 0x80)] 1 1 .rw .fw 0 .S
  | .CAL_UDLUT => fs 0x180044 [(256, 0x80)] 0 32 .rw .fw 0 .S
  | .CAL_BGD => fs 0x180048 [(256, 0x80)] 0 32 .rw .fw 0 .S
  | .EGO_CTRL_EN => fs 0x188000 [(256, 0x40)] 0 1 .rw .fw 0 .S
  | .EGO_CTRL_CLR => { fs 0x188000 [(256, 0x40)] 1 1 .wo .fw 0 .V with ownRow := true }
  | .EGO_CTRL_XCHK_EN => fs 0x188000 [(256, 0x40)] 2 1 .rw .fw 0 .S
  | .EGO_CTRL_XCHK_SRC => { fs 0x188000 [(256, 0x40)] 3 4 .rw .fw 0 .S with rsv := .ranges [(11, 15)] }
  | .EGO_STAT_STATE => fs 0x188004 [(256, 0x40)] 0 3 .ro .none 0 .V
  | .EGO_STAT_SUPPORT => fs 0x188004 [(256, 0x40)] 16 16 .ro .none 0 .V
  | .EGO_TWIST => fs 0x188008 [(256, 0x40), (6, 0x4)] 0 32 .ro .none 0 .V
  | .EGO_DRIFT_MM => fs 0x188020 [(256, 0x40)] 0 32 .ro .none 0 .V
  | .EGO_MIN => fs 0x188024 [(256, 0x40)] 0 16 .rw .fw 64 .S
  | .EGO_CONV => fs 0x188024 [(256, 0x40)] 16 8 .rw .fw 8 .S
  | .EGO_GATE => fs 0x188028 [(256, 0x40)] 0 16 .rw .fw 15693 .S
  | .EGO_HUB => fs 0x188028 [(256, 0x40)] 16 16 .rw .fw 15565 .S
  | .EGO_RES => fs 0x18802C [(256, 0x40)] 0 16 .rw .fw 15821 .S
  | .EGO_LIM_A => fs 0x188030 [(256, 0x40)] 0 16 .rw .fw 5 .S
  | .EGO_LIM_T => fs 0x188030 [(256, 0x40)] 16 16 .rw .fw 20 .S
  | .EGO_LEAK => fs 0x188034 [(256, 0x40)] 0 16 .rw .fw 2000 .S
  | .XCHK_N => fs 0x188034 [(256, 0x40)] 16 16 .rw .fw 4 .S
  | .XCHK_W => fs 0x188038 [(256, 0x40)] 0 16 .rw .fw 20 .S
  | .XCHK_V => fs 0x188038 [(256, 0x40)] 16 16 .rw .fw 50 .S
  | .PRJ_SPUR => fs 0x18C000 [(16, 0x40)] 0 3 .rw .fw 0 .S
  | .AUXF_BR => { fs 0x18C810 [(16, 0x80), (9, 0x4)] 0 32 .rw .fw 0 .S with src := .flash }
  | .AUXF_BT => { fs 0x18C834 [(16, 0x80), (3, 0x4)] 0 32 .rw .fw 0 .S with src := .flash }
  | .GRID_CFG_NX => { fs 0x18D000 [(8, 0x100)] 0 9 .rw .fw 255 .S with rsv := .low4 }
  | .GRID_CFG_NY => { fs 0x18D000 [(8, 0x100)] 9 9 .rw .fw 191 .S with rsv := .low4 }
  | .GRID_CFG_NB => { fs 0x18D000 [(8, 0x100)] 18 4 .rw .fw 8 .S with rsv := .ranges [(0, 0), (9, 15)] }
  | .GRID_CFG_CELL => { fs 0x18D000 [(8, 0x100)] 22 7 .rw .fw 25 .S with rsv := .ranges [(0, 9), (101, 127)] }
  | .GRID_CFG_FMT => fs 0x18D000 [(8, 0x100)] 29 1 .rw .fw 0 .S
  | .GRID_X0 => fs 0x18D004 [(8, 0x100)] 0 32 .rw .fw 0 .S
  | .GRID_Y0 => fs 0x18D008 [(8, 0x100)] 0 32 .rw .fw 0 .S
  | .GRID_Z_LO => fs 0x18D00C [(8, 0x100), (8, 0x2)] 0 16 .rw .fw 0 .S
  | .GRID_Z_TOP => fs 0x18D01C [(8, 0x100)] 0 16 .rw .fw 0 .S
  | .GRID_COMB_LO => { fs 0x18D020 [(8, 0x100)] 0 32 .rw .fw 0 .S with rsv := .comb }
  | .GRID_COMB_HI => { fs 0x18D024 [(8, 0x100)] 0 32 .rw .fw 0 .S with rsv := .comb }
  | .GRID_ADDR => fs 0x18D028 [(8, 0x100)] 0 32 .rw .fw 0 .S
  | .GRID_LIST_ADDR => fs 0x18D02C [(8, 0x100)] 0 32 .rw .fw 0 .S
  | .GRID_CFG2_NCC => fs 0x18D030 [(8, 0x100)] 0 4 .rw .fw 0 .S
  | .GW_WIN => { fs 0x18D040 [(8, 0x100)] 0 32 .ro .none 0 .V with keep := .reg }
  | .GW_DIRTY => fs 0x18D044 [(8, 0x100)] 0 11 .ro .none 0 .V
  | .GW_FLAGS => fs 0x18D044 [(8, 0x100)] 16 3 .ro .none 0 .V
  | .TRK_BASE => fs 0x18E000 [(8, 0x100)] 0 12 .rw .fw 0 .S
  | .TRK_COUNT => { fs 0x18E000 [(8, 0x100)] 16 13 .rw .fw 0 .S with rsv := .ranges [(4097, 8191)] }
  | .TRK_CFG_NCC => fs 0x18E004 [(8, 0x100)] 0 4 .rw .fw 0 .S
  | .TRK_CFG_CLASS_ANY => fs 0x18E004 [(8, 0x100)] 4 1 .rw .fw 0 .S
  | .TRK_CONF_M => fs 0x18E004 [(8, 0x100)] 8 4 .rw .fw 3 .S
  | .TRK_CONF_N => fs 0x18E004 [(8, 0x100)] 12 4 .rw .fw 4 .S
  | .TRK_DEL_MISS => fs 0x18E004 [(8, 0x100)] 16 4 .rw .fw 5 .S
  | .TRK_DEL_COAST => fs 0x18E004 [(8, 0x100)] 20 12 .rw .fw 200 .S
  | .TRK_Q => fs 0x18E008 [(8, 0x100)] 0 32 .rw .fw 0 .S
  | .TRK_R => fs 0x18E00C [(8, 0x100)] 0 32 .rw .fw 0 .S
  | .TRK_V0 => fs 0x18E010 [(8, 0x100)] 0 32 .rw .fw 0 .S
  | .TRK_GATE => fs 0x18E014 [(8, 0x100)] 0 32 .rw .fw 0 .S
  | .TRK_BIRTH_SCORE => fs 0x18E018 [(8, 0x100)] 0 8 .rw .fw 128 .S
  | .TRK_OUT_ADDR => fs 0x18E01C [(8, 0x100)] 0 32 .rw .fw 0 .S
  | .TRK_NEXTID => { fs 0x18E020 [(8, 0x100)] 0 32 .ro .none 1 .V with keep := .reg }
  | .TRK_ID_EXH => fs 0x18E024 [(8, 0x100)] 0 1 .w1c .fw 0 .V
  | .FT_CNT => fs 0x18F000 [(7, 0x4)] 0 16 .rc .none 0 .V
  -- spec/08_mills.md Table ML-8
  | .MILL_STAT_STATE => { fs 0x200000 [(128, 0x1000)] 0 2 .ro .none 0 .V with src := .bist }
  | .MILL_STAT_REMOVALS => fs 0x200000 [(128, 0x1000)] 2 2 .ro .none 0 .V
  | .MILL_STAT_TE_LIVE => { fs 0x200000 [(128, 0x1000)] 4 16 .ro .none 65535 .V with src := .bist }
  | .MILL_STAT_SPUR => fs 0x200000 [(128, 0x1000)] 20 3 .ro .none 0 .S
  | .MILL_CTRL_TE_OFF => { fs 0x200004 [(128, 0x1000)] 0 16 .w1s .fw 0 .V with ownRow := true }
  | .MILL_CTRL_TE_READMIT => { fs 0x200004 [(128, 0x1000)] 16 16 .w1s .fw 0 .V with ownRow := true }
  | .MILL_CMD_RETEST => { fs 0x200008 [(128, 0x1000)] 0 1 .wo .fw 0 .V with ownRow := true }
  | .MILL_CMD_READMIT => { fs 0x200008 [(128, 0x1000)] 1 1 .wo .fw 0 .V with ownRow := true }
  | .TE_CAUSE_LO => fs 0x200010 [(128, 0x1000)] 0 32 .ro .none 0 .V
  | .TE_CAUSE_HI => fs 0x200014 [(128, 0x1000)] 0 32 .ro .none 0 .V
  | .TQ_BASE => fs 0x200100 [(128, 0x1000), (8, 0x20)] 0 20 .rw .fw 0 .S
  | .TQ_SIZE => { fs 0x200104 [(128, 0x1000), (8, 0x20)] 0 9 .rw .fw 0 .S with rsv := .ranges [(257, 511)] }
  | .TQ_HEAD => fs 0x200108 [(128, 0x1000), (8, 0x20)] 0 9 .ro .none 0 .V
  | .TQ_TAIL => { fs 0x20010C [(128, 0x1000), (8, 0x20)] 0 9 .rw .fw 0 .V with ownRow := true }
  | .TQ_STATE => fs 0x200110 [(128, 0x1000), (8, 0x20)] 0 3 .ro .none 0 .V
  | .TQ_CLR => { fs 0x200114 [(128, 0x1000), (8, 0x20)] 0 1 .wo .fw 0 .V with ownRow := true }
  | .TKC => fs 0x200200 [(128, 0x1000), (64, 0x4)] 0 16 .rw .fw 0 .V
  | .TKC_OVF => fs 0x200200 [(128, 0x1000), (64, 0x4)] 31 1 .w1c .fw 0 .V
  | .DC_BASE => fs 0x200300 [(128, 0x1000), (4, 0x20)] 0 20 .rw .fw 0 .S
  | .DC_HEAD => fs 0x200304 [(128, 0x1000), (4, 0x20)] 0 6 .ro .none 0 .V
  | .DC_TAIL => { fs 0x200304 [(128, 0x1000), (4, 0x20)] 8 6 .rw .fw 0 .V with ownRow := true }
  | .DC_ERR => fs 0x200308 [(128, 0x1000), (4, 0x20)] 0 1 .w1c .fw 0 .V
  | .MILL_CNT => fs 0x200380 [(128, 0x1000), (6, 0x4)] 0 32 .rc .none 0 .V
  -- spec/07_number_formats.md Table NF-9
  | .TE_FLAGS_OF => fs 0x200800 [(128, 0x1000), (16, 0x10)] 0 1 .w1c .fw 0 .V
  | .TE_FLAGS_UF => fs 0x200800 [(128, 0x1000), (16, 0x10)] 1 1 .w1c .fw 0 .V
  | .TE_FLAGS_NX => fs 0x200800 [(128, 0x1000), (16, 0x10)] 2 1 .w1c .fw 0 .V
  | .TE_FLAGS_NV => fs 0x200800 [(128, 0x1000), (16, 0x10)] 3 1 .w1c .fw 0 .V
  | .TE_FLAGS_NANTILE => { fs 0x200800 [(128, 0x1000), (16, 0x10)] 4 1 .w1c .fw 0 .V with ownRow := true }
  -- spec/07_number_formats.md Table NF-10
  | .TE_NANPOS_COL => fs 0x200804 [(128, 0x1000), (16, 0x10)] 0 12 .ro .none 0 .V
  | .TE_NANPOS_ROW => fs 0x200804 [(128, 0x1000), (16, 0x10)] 12 12 .ro .none 0 .V
  | .TE_NANPOS_KIND => fs 0x200804 [(128, 0x1000), (16, 0x10)] 24 2 .ro .none 0 .V
  | .TE_NANPOS_ACC => fs 0x200804 [(128, 0x1000), (16, 0x10)] 26 1 .ro .none 0 .V
  | .TE_NANPOS_VALID => fs 0x200804 [(128, 0x1000), (16, 0x10)] 31 1 .ro .none 0 .V
  | .TE_NANTASK_TASK => fs 0x200808 [(128, 0x1000), (16, 0x10)] 0 16 .ro .none 0 .V
  -- spec/07_number_formats.md Table NF-11
  | .OPCTX_SAT_CNT => fs 0x200A00 [(128, 0x1000), (8, 0x10)] 0 32 .rc .none 0 .V
  | .OPCTX_FLUSH_IN => fs 0x200A04 [(128, 0x1000), (8, 0x10)] 0 32 .rc .none 0 .V
  | .OPCTX_FLUSH_OUT => fs 0x200A08 [(128, 0x1000), (8, 0x10)] 0 32 .rc .none 0 .V
  | .OPCTX_NAN_TILES => fs 0x200A0C [(128, 0x1000), (8, 0x10)] 0 16 .rc .none 0 .V
  | .OPCTX_FLAGS => fs 0x200A0C [(128, 0x1000), (8, 0x10)] 16 4 .rc .none 0 .V
  -- spec/08_mills.md Table ML-9
  | .MQ_OP_TARGET => fs 0x280000 [(4, 0x100)] 0 2 .rw .fw 0 .P
  | .MQ_OP_CUR => fs 0x280000 [(4, 0x100)] 2 2 .ro .none 0 .P
  | .MQ_OP_BUSY => fs 0x280000 [(4, 0x100)] 4 1 .ro .none 0 .V
  | .MQ_TEST_PERIOD => fs 0x280004 [(4, 0x100)] 0 8 .rw .fw 10 .S
  -- spec/09_milestones_and_buffers.md Table MS-7
  | .MS_VALUE => { fs 0x300000 [(1024, 0x20)] 0 32 .ro .none 0 .V with keep := .mst }
  | .MS_TARGET => { fs 0x300004 [(1024, 0x20)] 0 32 .ro .none 0 .V with keep := .mst }
  | .MS_CFG_EN => fs 0x300008 [(1024, 0x20)] 0 1 .rw .fw 0 .S
  | .MS_CFG_OWNER => fs 0x300008 [(1024, 0x20)] 1 3 .rw .fw 0 .S
  | .MS_CFG_SAT => fs 0x300008 [(1024, 0x20)] 4 1 .w1c .fw 0 .V
  | .MS_CFG_WAITERS => fs 0x300008 [(1024, 0x20)] 5 12 .ro .none 0 .V
  | .MS_FWD_EN => fs 0x30000C [(1024, 0x20), (2, 0x4)] 0 1 .rw .fw 0 .S
  | .MS_FWD_MILL => fs 0x30000C [(1024, 0x20), (2, 0x4)] 1 7 .rw .fw 0 .S
  | .MS_FWD_TKC => fs 0x30000C [(1024, 0x20), (2, 0x4)] 8 6 .rw .fw 0 .S
  | .MS_WQUOTA => { fs 0x308000 [(8, 0x4)] 0 12 .rw .fw 0 .S with rsv := .ranges [(2049, 4095)] }
  | .MS_WUSED => fs 0x308000 [(8, 0x4)] 16 12 .ro .none 0 .V
  | .MS_CNT => fs 0x308100 [(5, 0x4)] 0 32 .rc .none 0 .V
  | .EQ_MSBIND_MS => fs 0x309000 [(512, 0x4)] 0 10 .rw .fw 0 .S
  | .EQ_MSBIND_WM => fs 0x309000 [(512, 0x4)] 12 19 .rw .fw 0 .S
  | .EQ_MSBIND_EN => fs 0x309000 [(512, 0x4)] 31 1 .rw .fw 0 .S
  -- spec/09_milestones_and_buffers.md Table MS-8
  | .BP_SHORT_RESV => fs 0x310000 [(8, 0x20)] 0 15 .rw .fw 0 .S
  | .BP_SHORT_MAX => { fs 0x310000 [(8, 0x20)] 16 15 .rw .fw 0 .S with rsv := .ranges [(16385, 32767)] }
  | .BP_LONG_BASE => fs 0x310004 [(8, 0x20)] 0 20 .rw .fw 0 .S
  | .BP_LONG_COUNT => fs 0x310008 [(8, 0x20)] 0 21 .rw .fw 0 .S
  | .BP_LONG_ADDR_LO => fs 0x31000C [(8, 0x20)] 12 20 .rw .fw 0 .S
  | .BP_LONG_ADDR_HI => fs 0x310010 [(8, 0x20)] 0 8 .rw .fw 0 .S
  | .BP_USED_SHORT => fs 0x310014 [(8, 0x20)] 0 15 .ro .none 0 .V
  | .BP_USED_LONG => fs 0x310018 [(8, 0x20)] 0 21 .ro .none 0 .V
  | .BP_FREE => fs 0x310100 [] 0 15 .ro .none 16384 .V
  | .BP_PTR => fs 0x310100 [] 16 5 .ro .none 0 .V
  | .BP_WAITQ_SHORT => fs 0x310104 [] 0 7 .ro .none 0 .V
  | .BP_WAITQ_LONG => fs 0x310104 [] 8 7 .ro .none 0 .V
  | .BP_CNT => fs 0x310140 [(10, 0x4)] 0 32 .rc .none 0 .V
  -- spec/12_mailboxes_and_operators.md Table MB-7
  | .MB_CFG_EN => { fs 0x400000 [(64, 0x1000)] 0 1 .rw .hw 0 .S with ownRow := true }
  | .MB_CFG_LOC => { fs 0x400000 [(64, 0x1000)] 1 1 .rwl .hw 0 .S with lock := .mailbox }
  | .MB_CFG_SQ_LOG2 => { fs 0x400000 [(64, 0x1000)] 2 4 .rwl .hw 5 .S with rsv := .ranges [(0, 2), (13, 15)], lock := .mailbox }
  | .MB_CFG_CQ_LOG2 => { fs 0x400000 [(64, 0x1000)] 6 4 .rwl .hw 5 .S with rsv := .ranges [(0, 4), (13, 15)], lock := .mailbox }
  | .MB_CFG_IRQ_ALL => fs 0x400000 [(64, 0x1000)] 10 1 .rw .hw 0 .S
  | .MB_CFG_VEC => { fs 0x400000 [(64, 0x1000)] 16 11 .rw .hw 0 .S with rsv := .vec }
  | .MB_SQ_BASE_LO => { fs 0x400008 [(64, 0x1000)] 12 20 .rwl .hw 0 .S with lock := .mailbox }
  | .MB_SQ_BASE_HI => { fs 0x40000C [(64, 0x1000)] 0 32 .rwl .hw 0 .S with lock := .mailbox }
  | .MB_CQ_BASE_LO => { fs 0x400010 [(64, 0x1000)] 12 20 .rwl .hw 0 .S with lock := .mailbox }
  | .MB_CQ_BASE_HI => { fs 0x400014 [(64, 0x1000)] 0 32 .rwl .hw 0 .S with lock := .mailbox }
  | .MB_SQ_DB => { fs 0x400018 [(64, 0x1000)] 0 16 .wo .hw 0 .V with ownRow := true }
  | .MB_CQ_DB => { fs 0x40001C [(64, 0x1000)] 0 16 .wo .hw 0 .V with ownRow := true }
  | .MB_SQ_HEAD => { fs 0x400020 [(64, 0x1000)] 0 16 .ro .none 0 .V with keep := .reg }
  | .MB_SQ_TAIL => { fs 0x400020 [(64, 0x1000)] 16 16 .ro .none 0 .V with keep := .reg }
  | .MB_CQ_TAIL => { fs 0x400024 [(64, 0x1000)] 0 16 .ro .none 0 .V with keep := .reg }
  | .MB_CQ_HEAD => { fs 0x400024 [(64, 0x1000)] 16 16 .ro .none 0 .V with keep := .reg }
  | .MB_STAT_STATE => fs 0x400028 [(64, 0x1000)] 0 3 .ro .none 0 .V
  | .MB_STAT_DB_ERR => fs 0x400028 [(64, 0x1000)] 13 1 .w1c .hw 0 .V
  | .MB_STAT_FETCH_ERR => fs 0x400028 [(64, 0x1000)] 14 1 .w1c .hw 0 .V
  | .MB_STAT_LEAKED => fs 0x400028 [(64, 0x1000)] 16 16 .ro .none 0 .V
  | .MB_CNT => fs 0x400030 [(64, 0x1000), (6, 0x4)] 0 32 .rc .none 0 .V
  -- spec/12_mailboxes_and_operators.md Table MB-8
  | .NGX_VER => fs 0x440000 [] 0 32 .ro .none 0 .V
  | .NGX_IF => fs 0x440004 [] 0 16 .ro .none 0 .V
  | .NGX_STATE => fs 0x440008 [] 0 3 .ro .none 0 .V
  | .NGX_BUILD => fs 0x44000C [] 0 32 .ro .none 0 .V
  | .NGX_CORES_LIVE => fs 0x440010 [] 0 16 .ro .none 0 .V
  | .NGX_CORES_MIG => fs 0x440010 [] 16 16 .ro .none 0 .V
  -- spec/13_spurs_and_security.md Table SP-11
  | .SPUR_STATE => fs 0x500000 [(8, 0x100)] 0 3 .ro .none 0 .V
  | .SPUR_TDI => fs 0x500000 [(8, 0x100)] 4 2 .ro .none 0 .V
  | .SPUR_STREAM => fs 0x500000 [(8, 0x100)] 6 1 .ro .none 0 .V
  | .SPUR_QUADS => fs 0x500004 [(8, 0x100)] 0 32 .rw .fw 0 .S
  | .SPUR_RES_CH => fs 0x500008 [(8, 0x100)] 0 8 .rw .fw 0 .S
  | .SPUR_RES_WL => fs 0x500008 [(8, 0x100)] 8 8 .rw .fw 0 .S
  | .SPUR_EQ => fs 0x50000C [(8, 0x100)] 0 32 .rw .fw 0 .S
  | .ISO_CNT => fs 0x500010 [(8, 0x100)] 0 16 .ro .none 0 .V
  | .ISO_FAULT_N => fs 0x500010 [(8, 0x100)] 16 16 .rw .fw 0 .S
  | .SPUR_GRANT => fs 0x500020 [(8, 0x100), (8, 0x4)] 0 32 .rw .fw 0 .S
  | .SIGNER_HASH => fs 0x500040 [(8, 0x100), (4, 0x30), (12, 0x4)] 0 32 .rw .fw 0 .S
  -- spec/13_spurs_and_security.md Table SP-12
  | .SEC_STAT_QUARANTINE => { fs 0x501000 [] 0 1 .ro .none 0 .F with src := .fuse }
  | .SEC_STAT_KEYS_READY => fs 0x501000 [] 1 1 .ro .none 0 .V
  | .SEC_STAT_KIT_PRESENT => { fs 0x501000 [] 2 1 .ro .none 0 .F with src := .fuse }
  | .SEC_STAT_CW_POLICY => { fs 0x501000 [] 3 1 .ro .none 0 .F with src := .fuse }
  | .SEC_STAT_DBG_OPEN => { fs 0x501000 [] 4 1 .ro .none 0 .F with src := .fuse }
  | .SEC_STAT_CERT_BAD => fs 0x501000 [] 5 1 .ro .none 0 .V
  | .SEC_SERIAL_LO => { fs 0x501008 [] 0 32 .ro .none 0 .F with src := .fuse }
  | .SEC_SERIAL_HI => { fs 0x50100C [] 0 32 .ro .none 0 .F with src := .fuse }
  | .SEC_KIT_ID_LO => { fs 0x501010 [] 0 32 .ro .none 0 .F with src := .fuse }
  | .SEC_KIT_ID_HI => { fs 0x501014 [] 0 32 .ro .none 0 .F with src := .fuse }
  | .SEC_KIT_SIZE => { fs 0x501018 [] 0 5 .ro .none 0 .F with src := .fuse }
  | .SEC_LV_LOCKVIOL => fs 0x501020 [] 0 1 .w1c .hw 0 .V
  | .SEC_LV_REQ => fs 0x501020 [] 8 8 .ro .none 0 .V
  | .SEC_LV_ADDR => fs 0x501024 [] 0 24 .ro .none 0 .V
  | .SEC_LV_CNT => fs 0x501028 [] 0 32 .rc .none 0 .V
  | .ISO_LOG_LO => { fs 0x501040 [] 0 32 .rc .none 0 .V with ownRow := true }
  | .ISO_LOG_HI => fs 0x501044 [] 0 32 .rc .none 0 .V
  | .ISO_OVF => fs 0x501048 [] 0 16 .rc .none 0 .V
  -- spec/14_causeway_cascade.md Table CW-9
  | .CW_CFG_EN => { fs 0x600000 [] 0 1 .rw .fw 0 .S with src := .flash }
  | .CW_CFG_PAIR => { fs 0x600000 [] 1 1 .rw .fw 0 .S with src := .flash }
  | .CW_CFG_AUTO_JOIN => { fs 0x600000 [] 2 1 .rw .fw 1 .S with src := .flash }
  | .CW_CFG_SPLICE_PERIOD => { fs 0x600000 [] 8 8 .rw .fw 100 .S with src := .flash, rsv := .ranges [(0, 0)] }
  | .CW_CFG_CAL_BITS => { fs 0x600000 [] 16 4 .rw .fw 7 .S with src := .flash, rsv := .ranges [(13, 15)] }
  | .CW_CFG_CAL_BITS_BATCH => { fs 0x600000 [] 20 4 .rw .fw 11 .S with src := .flash, rsv := .ranges [(13, 15)] }
  | .CW_CFG_CAL_PERIOD => { fs 0x600000 [] 24 8 .rw .fw 1 .S with src := .flash }
  | .CW_STAT_STATE => fs 0x600004 [] 0 3 .ro .none 0 .V
  | .CW_STAT_RING_BREAK => fs 0x600004 [] 3 1 .w1c .hw 0 .V
  | .CW_STAT_ROLE_CONFLICT => fs 0x600004 [] 4 1 .ro .none 0 .V
  | .CW_STAT_DEVID_DUP => fs 0x600004 [] 5 1 .ro .none 0 .V
  | .CW_STAT_STRAP_ERR => fs 0x600004 [] 6 1 .ro .none 0 .V
  | .CW_STAT_NOT_KIT_UP => fs 0x600004 [] 7 1 .ro .none 0 .V
  | .CW_STAT_PLAIN => fs 0x600004 [] 8 1 .ro .none 0 .V
  | .CW_STAT_PORT_FAIL => fs 0x600004 [] 9 1 .w1c .hw 0 .V
  | .CW_STAT_CAL_FAIL => fs 0x600004 [] 10 1 .w1c .hw 0 .V
  | .CW_STAT_TRIM_WARN => fs 0x600004 [] 11 1 .w1c .hw 0 .V
  | .CW_STAT_N_DEV => fs 0x600004 [] 12 5 .ro .none 0 .V
  | .CW_HOP_WIDTH => fs 0x600010 [(2, 0x4)] 0 4 .ro .none 0 .V
  | .CW_HOP_MASK => fs 0x600010 [(2, 0x4)] 4 8 .ro .none 0 .V
  | .CW_HOP_GOOD => fs 0x600010 [(2, 0x4)] 12 8 .ro .none 0 .V
  | .CW_HOP_LMV => fs 0x600010 [(2, 0x4)] 20 4 .ro .none 0 .V
  | .CW_HOP_PEER => fs 0x600010 [(2, 0x4)] 24 4 .ro .none 0 .V
  | .CW_HOP_ENC => fs 0x600010 [(2, 0x4)] 28 1 .ro .none 0 .V
  | .CW_LOOP_L => fs 0x600020 [] 0 24 .ro .none 0 .V
  | .CW_LOOP_CORR_RET => fs 0x600024 [] 0 24 .ro .none 0 .V
  | .CW_CABLE => fs 0x600028 [] 0 24 .ro .none 0 .V
  | .CW_THETA => fs 0x60002C [] 0 32 .ro .none 0 .V
  | .CW_SEGDLY => { fs 0x600040 [(16, 0x4)] 0 16 .rw .fw 0 .S with src := .flash }
  | .CW_ASYM_IN => { fs 0x600100 [(4, 0x8)] 0 32 .rw .hw 0 .T with src := .flash }
  | .CW_ASYM_OUT => { fs 0x600104 [(4, 0x8)] 0 32 .rw .hw 0 .T with src := .flash }
  | .CW_MAP => fs 0x600200 [(16, 0x10), (4, 0x4)] 0 32 .ro .none 0 .V
  | .CW_EXPORT_MB => fs 0x600300 [(8, 0x10)] 0 1 .rw .fw 0 .S
  | .CW_EXPORT_BASE => fs 0x600304 [(8, 0x10)] 12 20 .rw .fw 0 .S
  | .CW_EXPORT_SIZE => fs 0x600308 [(8, 0x10)] 12 20 .rw .fw 0 .S
  | .CW_LANE_IN => fs 0x600400 [(8, 0x4)] 0 2 .ro .none 0 .V
  | .CW_LANE_OUT => fs 0x600420 [(8, 0x4)] 0 2 .ro .none 0 .V
  | .CW_CNT => fs 0x600600 [(10, 0x4)] 0 32 .rc .none 0 .V
  -- spec/18_aux_signals.md Table AX-6
  | .SPI_CFG_EN => fs 0x700000 [(8, 0x100)] 0 1 .rw .fw 0 .S
  | .SPI_CFG_MODE => fs 0x700000 [(8, 0x100)] 1 2 .rw .fw 0 .S
  | .SPI_CFG_CLKDIV => { fs 0x700000 [(8, 0x100)] 3 8 .rw .fw 9 .S with rsv := .ranges [(0, 2), (200, 255)] }
  | .SPI_CFG_LEN => fs 0x700000 [(8, 0x100)] 11 6 .rw .fw 0 .S
  | .SPI_CFG_KIND => { fs 0x700000 [(8, 0x100)] 17 2 .rw .fw 0 .S with rsv := .ranges [(2, 3)] }
  | .SPI_CFG_CMDLEN => { fs 0x700000 [(8, 0x100)] 19 4 .rw .fw 0 .S with rsv := .ranges [(9, 15)] }
  | .SPI_CFG_STAMP => { fs 0x700000 [(8, 0x100)] 23 2 .rw .fw 0 .S with rsv := .ranges [(3, 3)] }
  | .SPI_CFG_TRIG => fs 0x700000 [(8, 0x100)] 25 3 .rw .fw 0 .S
  | .SPI_CMD0 => fs 0x700004 [(8, 0x100)] 0 32 .rw .fw 0 .S
  | .SPI_CMD1 => fs 0x700008 [(8, 0x100)] 0 32 .rw .fw 0 .S
  | .SPI_DLY => fs 0x70000C [(8, 0x100)] 0 16 .rw .fw 0 .S
  | .SPI_CNT => fs 0x700010 [(8, 0x100), (4, 0x4)] 0 16 .rc .none 0 .V
  | .I3C_CFG_EN => fs 0x700800 [(4, 0x100)] 0 1 .rw .fw 0 .S
  | .I3C_CFG_RATE => fs 0x700800 [(4, 0x100)] 1 1 .rw .fw 0 .S
  | .I3C_CFG_LEGACY_1M => fs 0x700800 [(4, 0x100)] 2 1 .rw .fw 0 .S
  | .I3C_DEV_SA => fs 0x700810 [(4, 0x100), (8, 0x8)] 0 7 .rw .fw 0 .S
  | .I3C_DEV_DA => fs 0x700810 [(4, 0x100), (8, 0x8)] 8 7 .ro .none 0 .V
  | .I3C_DEV_LEGACY => fs 0x700810 [(4, 0x100), (8, 0x8)] 15 1 .rw .fw 0 .S
  | .I3C_DEV_LEN => fs 0x700810 [(4, 0x100), (8, 0x8)] 16 6 .rw .fw 0 .S
  | .I3C_DEV_KIND => { fs 0x700810 [(4, 0x100), (8, 0x8)] 22 2 .rw .fw 0 .S with rsv := .ranges [(2, 3)] }
  | .I3C_DEV_ACQ => fs 0x700810 [(4, 0x100), (8, 0x8)] 24 1 .rw .fw 0 .S
  | .I3C_DEV_TRIG => fs 0x700810 [(4, 0x100), (8, 0x8)] 25 3 .rw .fw 0 .S
  | .I3C_DEV_REG => fs 0x700814 [(4, 0x100), (8, 0x8)] 0 8 .rw .fw 0 .S
  | .I3C_DEV_DLY => fs 0x700814 [(4, 0x100), (8, 0x8)] 16 16 .rw .fw 0 .S
  | .CH_CFG_SRC => { fs 0x701000 [(16, 0x40)] 0 6 .rwl .fw 0 .S with lock := .chain }
  | .CH_CFG_OFS => { fs 0x701000 [(16, 0x40)] 6 6 .rwl .fw 0 .S with lock := .chain }
  | .CH_CFG_WIDTH => { fs 0x701000 [(16, 0x40)] 12 2 .rwl .fw 0 .S with lock := .chain }
  | .CH_CFG_SGN => { fs 0x701000 [(16, 0x40)] 14 1 .rwl .fw 0 .S with lock := .chain }
  | .CH_CFG_BE => { fs 0x701000 [(16, 0x40)] 15 1 .rwl .fw 0 .S with lock := .chain }
  | .CH_CFG_LOG2M => { fs 0x701000 [(16, 0x40)] 16 4 .rwl .fw 0 .S with rsv := .ranges [(11, 15)], lock := .chain }
  | .CH_CFG_STEP => { fs 0x701000 [(16, 0x40)] 20 1 .rwl .fw 0 .S with lock := .chain }
  | .CH_CFG_SPUR => { fs 0x701000 [(16, 0x40)] 21 3 .rwl .fw 0 .S with lock := .chain }
  | .CH_CFG_EN => fs 0x701000 [(16, 0x40)] 31 1 .rw .fw 0 .S
  | .CH_PERIOD => { fs 0x701004 [(16, 0x40)] 0 32 .rwl .fw 0 .S with rsv := .ranges [(0, 0)], lock := .chain }
  | .CH_SCALE => fs 0x701008 [(16, 0x40)] 0 32 .rw .fw 0 .S
  | .CH_POP => { fs 0x70100C [(16, 0x40)] 0 1 .wo .fw 0 .V with ownRow := true }
  | .CH_STAT_OVF_CNT => fs 0x701020 [(16, 0x40)] 16 16 .rc .none 0 .V
  | .GPIO_DIR => fs 0x702000 [] 0 16 .rw .fw 0 .S
  | .GPIO_OUT => fs 0x702000 [] 16 16 .rw .fw 0 .S
  | .GPIO_IN => fs 0x702004 [] 0 16 .ro .none 0 .V
  | .GPIO_EDGE => fs 0x702008 [] 0 32 .rw .fw 0 .S
  | .GPIO_WAKE => fs 0x70200C [] 0 8 .rw .fw 0 .P
  | .GPIO_FILT => fs 0x70200C [] 8 8 .rw .fw 0 .S
  | .GPIO_POP => { fs 0x702010 [] 0 1 .wo .fw 0 .V with ownRow := true }
  | .GPIO_OVF => fs 0x702024 [] 0 16 .rc .none 0 .V
  | .ETH_CFG_MODE => fs 0x703000 [] 0 1 .rw .fw 0 .S
  | .ETH_CFG_AN_EN => fs 0x703000 [] 1 1 .rw .fw 1 .S
  | .ETH_IP => fs 0x703004 [] 0 32 .rw .fw 0 .S
  | .ETH_STAT_LINK => fs 0x703008 [] 0 1 .ro .none 0 .V
  | .ETH_STAT_MOD_ABS => fs 0x703008 [] 1 1 .ro .none 0 .V
  | .ETH_STAT_LOS => fs 0x703008 [] 2 1 .ro .none 0 .V
  | .ETH_STAT_TX_FAULT => fs 0x703008 [] 3 1 .ro .none 0 .V
  | .ETH_MAC_LO => { fs 0x70300C [] 0 32 .ro .none 0 .F with src := .fuse }
  | .ETH_MAC_HI => { fs 0x703010 [] 0 32 .ro .none 0 .F with src := .fuse }
  | .ETH_DISCARD => fs 0x703014 [] 0 32 .rc .none 0 .V
  | .AUXEV_POP => { fs 0x704000 [(8, 0x20)] 0 1 .wo .fw 0 .V with ownRow := true }
  | .AUXEV_OVF => fs 0x704014 [(8, 0x20)] 0 16 .rc .none 0 .V
  | .STRAP_LIVE => fs 0x705000 [] 0 6 .ro .none 0 .V
  | .STRAP_UNSTABLE => fs 0x705000 [] 6 1 .ro .none 0 .P
  | .STRAP_CHG => fs 0x705000 [] 7 1 .w1c .hw 0 .V
  | .XSPI_SFDP_BAD => fs 0x705008 [] 0 1 .ro .none 0 .P
  | .TAP_REFUSED => fs 0x70500C [] 0 16 .rc .none 0 .V
  -- spec/04_module_identity.md Table ID-8
  | .HB_CFG_EN => { fs 0x708000 [] 0 1 .rw .fw 0 .S with ownRow := true }
  | .HB_CFG_MOD => fs 0x708000 [] 1 1 .rw .fw 0 .S
  | .HB_CFG_OPT => fs 0x708000 [] 2 1 .rw .fw 0 .S
  | .HB_CFG_SEL => fs 0x708000 [] 3 1 .rw .fw 0 .S
  | .HB_CFG_POLL => { fs 0x708000 [] 8 8 .rw .fw 20 .S with rsv := .ranges [(0, 4)] }
  | .HB_CFG_TXLVL => fs 0x708000 [] 16 3 .rw .fw 4 .S
  | .HB_CFG_RESUME => { fs 0x708000 [] 24 4 .rw .fw 10 .S with rsv := .ranges [(0, 0)] }
  | .HB_STAT_STATE => fs 0x708004 [] 0 3 .ro .none 0 .V
  | .HB_STAT_ANT_FAULT => fs 0x708004 [] 3 1 .w1c .hw 0 .V
  | .HB_STAT_MULTI => fs 0x708004 [] 4 1 .w1c .hw 0 .V
  | .HB_STAT_MASK_LIVE => fs 0x708004 [] 5 1 .ro .none 0 .V
  | .HB_STAT_UNLISTED => fs 0x708004 [] 6 1 .w1c .hw 0 .V
  | .HB_STAT_HOTPIX_OVF => fs 0x708004 [] 7 1 .w1c .hw 0 .V
  | .HB_UID_LO => fs 0x708008 [] 0 32 .ro .none 0 .V
  | .HB_UID_HI => fs 0x70800C [] 0 32 .ro .none 0 .V
  | .HB_TOOL_CLASS => fs 0x708010 [] 0 16 .ro .none 0 .V
  | .HB_TOOL_VARIANT => fs 0x708010 [] 16 16 .ro .none 0 .V
  | .HB_ANT => fs 0x708014 [] 0 12 .ro .none 0 .V
  | .ID_OP_RESULT => fs 0x708020 [] 0 8 .ro .none 0 .V
  | .ID_OP_OUTCOME => fs 0x708020 [] 8 1 .ro .none 0 .V
  | .ID_OP_RESTARTS => fs 0x708020 [] 9 2 .ro .none 0 .V
  | .ID_OP_SLOT => fs 0x708020 [] 11 1 .ro .none 0 .V
  | .ID_OP_SEQ => fs 0x708024 [] 0 32 .ro .none 0 .V
  | .ID_CNT => fs 0x708040 [(9, 0x4)] 0 16 .rc .none 0 .V

/-- Fields 0 to 59 of the register tables. -/
def Reg.part0 : List Reg :=
  [.GLOBAL_ID_PART, .GLOBAL_ID_STEP_MAJ, .GLOBAL_ID_STEP_MIN, .GLOBAL_ID_DEVID,
   .GLOBAL_ID_ROLE, .GLOBAL_CAP_MILLS, .GLOBAL_CAP_WL_PORTS, .GLOBAL_CAP_CW_PORTS,
   .GLOBAL_CAP_KERB_UNITS, .GLOBAL_CAP_NCC, .GLOBAL_AVAIL_MILLS_LIVE, .GLOBAL_AVAIL_TES_LIVE,
   .GLOBAL_AVAIL_NCC_LIVE, .HL_LINK_SPEED, .HL_LINK_WIDTH, .HL_LINK_L2,
   .HL_FWWR_CNT, .HL_FWWR_VALID, .HL_FWWR_FN, .HL_FWWR_ADDR,
   .HL_BADWR, .HL_VFRO, .HL_GATED, .HL_POISON,
   .HL_DMA_ERR, .HL_L2_RDY, .MEM_CFG_RATE, .MEM_CFG_CAP,
   .MEM_CFG_RANKS, .MEM_STAT_STATE, .MEM_STAT_SPUR, .MEM_STAT_OWNED,
   .MEM_STAT_ENC, .MEM_STAT_MR4, .MEM_CNT, .THERM_TEMP,
   .THERM_MAX, .THERM_MAX_SENSOR, .THERM_PEAK, .TIME_RAW_HI,
   .TIME_SNAP_GO, .SNAP_RAW_LO, .SNAP_RAW_HI, .SNAP_SEC_LO,
   .SNAP_SEC_HI, .SNAP_NS, .SNAP_FRAC, .TIME_RATE,
   .TIME_RATE_X, .TIME_SLEW, .TIME_RC_HI, .REF_DEV_A,
   .REF_DEV_B, .REF_DEV_AB, .ETH0_ASYM_IN, .ETH0_ASYM_OUT,
   .TRIG_START_LO, .TRIG_START_HI, .TRIG_PERIOD, .TRIG_WIDTH]

/-- Fields 60 to 119 of the register tables. -/
def Reg.part1 : List Reg :=
  [.TRIG_COUNT, .TRIG_CTRL_EN, .TRIG_CTRL_MODE, .TRIG_CTRL_POL,
   .TRIG_CTRL_LATE, .TRIG_CTRL_CFGERR, .TRIG_LAST_LO, .TRIG_LAST_HI,
   .TRIG_MISS, .TIME_CMD_OP, .TIME_CMD_SLEW_PPM, .TIME_STAT_TQ,
   .TIME_STAT_REFSEL, .TIME_STAT_REF_NONE, .TIME_STAT_GRADE_A, .TIME_STAT_GRADE_B,
   .TIME_STAT_LOS_A, .TIME_STAT_LOS_B, .TIME_STAT_DRIFT_TREND, .TIME_STAT_DRIFT_SEEN,
   .TIME_STAT_STEP_REFUSED, .TIME_STAT_TIME_NEG, .TIME_STAT_REF_DISAGREE, .TIME_STAT_SWITCHED,
   .REF_CTRL_PREF, .REF_CTRL_AUTO, .PTP_STAT_PORT_STATE, .PTP_STAT_DISCARD,
   .TXTS_STAT_OVF, .TXTS_STAT_OVF_CNT, .TXTS_POP, .PM_TARGET_STATE,
   .PM_TARGET_QOFF, .PM_TARGET_SPORTS, .PM_TARGET_UNUSED, .PM_STATUS_CUR,
   .PM_STATUS_TGT, .PM_STATUS_PEND, .PM_STATUS_PEND_V, .PM_STATUS_BUSY,
   .PM_STATUS_PNR, .PM_STATUS_LAST, .PM_STATUS_DOM_ON, .PM_WAKE_STATE,
   .PM_WAKE_QOFF, .PM_WAKE_SPORTS, .PM_WAKE_UNUSED, .PM_WAKE_CFG_EN,
   .PM_WAKE_CFG_REPLAY, .PM_WAKE_SRC_LATCHED, .PM_WAKE_SRC_FIRST, .PM_WAKE_TIME_LO,
   .PM_WAKE_TIME_HI, .PM_AON_CFG_REFS, .PM_AON_CFG_WL_WAKE, .PM_AON_CFG_CW_WAKE,
   .PM_AON_CFG_TMAX, .PM_AON_EST, .PM_MON_BOW, .PM_MON_BOW_SEEN]

/-- Fields 120 to 179 of the register tables. -/
def Reg.part2 : List Reg :=
  [.PM_MON_BOW_HOLD, .PM_RAIL_EN, .PM_RAIL_BUS, .PM_RAIL_ADDR,
   .PM_RAIL_SEL, .PM_REGSTAT_FAIL, .PM_REGSTAT_FAULT, .PM_RES_S_HI,
   .PM_RES_TRANS_HI, .PM_RES_D_HI, .PM_ENTRIES, .PM_ABORTS,
   .RST_CAUSE_LAST, .RST_CAUSE_SEEN, .RST_CAUSE_S_LOST, .RST_CAUSE_BOOT_B,
   .RST_CAUSE_FAILS, .RST_CTRL_SOFT, .RST_DOM_DOMAIN, .RST_DOM_GO,
   .RST_DOM_ERR, .RST_WDT_PERIOD, .RST_WDT_EN, .RST_WDT_KICK,
   .RST_COUNT, .BOOT_STAT_DIR_BAD, .BOOT_STAT_IMG_BAD, .FUSE_STAT_SEC_MARG,
   .FUSE_STAT_FUSE_DRIFT, .FUSE_STAT_NS_FIRST, .FUSE_STAT_NS_COUNT, .FUSE_STAT_DRIFT_WORD,
   .FUSE_TEMP_TCOLD, .FUSE_TEMP_TWARM, .FUSE_RD_WORD, .CAL_STAT_ACTIVE,
   .CAL_STAT_PARTIAL, .CAL_STAT_SEQ_TIE, .CAL_STAT_TRIM_PEND, .CAL_STAT_BUSY,
   .CAL_STAT_STEP, .CAL_STAT_OUT, .CAL_SEQ, .HU_CFG_CAP,
   .HU_CFG_DIV, .HU_CFG2_VMIN, .HU_CFG2_PSTORE, .HU_CFG3_MARGIN,
   .HU_MEAS_CODE, .HU_ENERGY_E, .HU_ENERGY_E_REQ, .ERR_POP_VALID,
   .ERR_POP_LEFT, .ERR_STAT_OVF, .ERR_OVF_CNT, .ERR_EPOCH,
   .ERR_FAULT_CODE, .ERR_FAULT_FAULTS, .ERR_REC, .ERR_DEVFAULT_ISLAND]

/-- Fields 180 to 239 of the register tables. -/
def Reg.part3 : List Reg :=
  [.ERR_DEVFAULT_CAUSE, .KRB_ARM_ARM, .KRB_ARM_ERR, .KRB_CFGCRC,
   .KRB_STAT_ARMED, .KRB_STAT_FAULT, .KRB_STAT_RUN, .KRB_STAT_SLOWOUT,
   .KRB_STAT_ZG_STOP, .KRB_STAT_ZG_SLOW, .KRB_STAT_MASK_ON, .KRB_CAUSE,
   .KRB_CAUSE_SEEN, .KRB_FAULT_CODE, .KRB_FAULT_UNIT, .KRB_RESET,
   .KRB_OUT_SSTOP_COVER, .KRB_OUT_SLOW_COVER, .KRB_OUT_MANUAL, .KRB_OUT_DT_W,
   .KRB_FB_FBA_EN, .KRB_FB_FBB_EN, .KRB_FB_POL, .KRB_FB_T,
   .KRB_ESTOP_FILT, .KRB_ESTOP_DISC, .KRB_SLOT_TO, .KRB_MASK_SRC,
   .KRB_MASK_EN, .KRB_MASK_PAD, .KRB_MASK_AGE, .KRB_TOOL_CLASS,
   .KRB_TOOL_VARIANT, .KRB_CNT, .ZONE_TH_STOP, .ZONE_TH_SLOW,
   .ZONE_BW, .ZONE_ZG, .ZONE_MASKABLE, .ZONE_LOSS,
   .ZONE_EN, .ZONE_HOLD, .ZONE_COUNT, .ZR_X0,
   .ZR_X1, .ZR_ZONE, .ZR_EN, .ZR_Y0,
   .ZR_Y1, .ZR_SLOT, .AP_ZA, .AP_ZB,
   .AP_ACT, .AP_EN, .AP_T, .VS_MASK,
   .VS_SPUR, .VS_MINACT, .VS_EN, .VS_MAXAGE]

/-- Fields 240 to 299 of the register tables. -/
def Reg.part4 : List Reg :=
  [.LATCH_VERDICT, .LATCH_REASON, .LATCH_LATE_SEEN, .LATCH_WIN,
   .KRB_LATELOG, .DL_LO, .DL_HI, .SLOT_WIN,
   .SLOT_CTRL_ARM, .SLOT_CTRL_ACT, .SLOT_CTRL_VSET, .SLOT_CTRL_SPUR,
   .SLOT_CTRL_STATE, .SLOT_CTRL_GEN, .AGG_MAP, .AGG_EN,
   .AGG_TO, .AGG_LOST, .WL_CTRL_EN, .WL_CTRL_POS_MODE,
   .WL_CTRL_AUTO_SPLICE, .WL_CTRL_SPLICE_PERIOD, .WL_STAT_STATE, .WL_STAT_HEADS,
   .WL_STAT_RING_BREAK, .WL_STAT_RING_OVER, .WL_STAT_HEAD_LOST, .WL_STAT_SPLICE_FAIL,
   .WL_STAT_UNBOUND, .WL_LOOP_L, .WL_LOOP_CORR_RET, .WL_CABLE,
   .WL_ASYM_IN, .WL_ASYM_OUT, .WL_LIVE, .WL_QUOTA_SUM,
   .WL_SEGDLY, .WL_CNT, .HT_STATE, .HT_SERIAL_LO,
   .HT_SERIAL_HI, .HT_BIND_LO, .HT_BIND_HI, .HT_QUOTA,
   .HT_WMDLY, .HT_GEOM_W, .HT_GEOM_H, .CARD_CTRL_KCOPY_RAW,
   .CARD_CTRL_BAF_WARM, .CARD_STAT_HOTPIX_PORT_OVF, .CARD_TBL_USED, .CARD_CNT,
   .SLOT_ROUTE_EQ, .SLOT_ROUTE_EN, .SLOT_BAF_EN, .SLOT_BAF_BLK,
   .SLOT_BAF_MIN, .SLOT_BAF_WIN, .SLOT_RECT_EN, .SLOT_RECT_G]

/-- Fields 300 to 359 of the register tables. -/
def Reg.part5 : List Reg :=
  [.SLOT_ROI_X0, .SLOT_ROI_X1, .SLOT_ROI_Y0, .SLOT_ROI_Y1,
   .SLOT_DEC_SP, .SLOT_DEC_N, .SLOT_STAT_UNF, .EQ_CFG_EN,
   .EQ_CFG_CLASS, .EQ_CFG_LOG2N, .EQ_CFG_BASE, .EQ_CTRL_RESET,
   .EQ_SKIP_GO, .EQ_WP, .EQ_RP, .EQ_DROPS,
   .EQ_CE, .EQ_UE, .EQ_RESETS, .EQ_SKIPPED,
   .FUL_CTRL_EN, .FUL_STAT_FOREIGN_READ, .NAP_PART_FIRST, .NAP_PART_COUNT,
   .FUL_CNT, .SUB_SLOT, .SUB_KIND, .SUB_BINS,
   .SUB_Q, .SUB_DEC, .SUB_DMAX, .SUB_AUTO_DEC,
   .SUB_WIN, .SUB_EN, .SUB_TAIL, .SUB_HALO,
   .SUB_WCLOSE, .SUB_PRIO, .SUB_NAP_OFF, .SUB_MS,
   .SUB_FEAT_MS, .SUB_CORNER_EN, .SUB_FLOW_EN, .SUB_FLOW_EGO,
   .SUB_FLOW_R, .SUB_ARC3_MIN, .SUB_ARC3_SPAN, .SUB_ARC4_MIN,
   .SUB_ARC4_SPAN, .SUB_FLOW_WIN, .SUB_FLOW_MIN, .SUB_FLOW_RES,
   .SUB_DEC_USED, .SUB_WIN_NUM, .SUB_DIRTY_CNT, .SUB_FLAGS,
   .SUB_LATE_REC, .FUL_LUT, .CAL_FX, .CAL_FY]

/-- Fields 360 to 419 of the register tables. -/
def Reg.part6 : List Reg :=
  [.CAL_CX, .CAL_CY, .CAL_BR, .CAL_BT,
   .CAL_RAW, .CAL_MOUNT, .CAL_UDLUT, .CAL_BGD,
   .EGO_CTRL_EN, .EGO_CTRL_CLR, .EGO_CTRL_XCHK_EN, .EGO_CTRL_XCHK_SRC,
   .EGO_STAT_STATE, .EGO_STAT_SUPPORT, .EGO_TWIST, .EGO_DRIFT_MM,
   .EGO_MIN, .EGO_CONV, .EGO_GATE, .EGO_HUB,
   .EGO_RES, .EGO_LIM_A, .EGO_LIM_T, .EGO_LEAK,
   .XCHK_N, .XCHK_W, .XCHK_V, .PRJ_SPUR,
   .AUXF_BR, .AUXF_BT, .GRID_CFG_NX, .GRID_CFG_NY,
   .GRID_CFG_NB, .GRID_CFG_CELL, .GRID_CFG_FMT, .GRID_X0,
   .GRID_Y0, .GRID_Z_LO, .GRID_Z_TOP, .GRID_COMB_LO,
   .GRID_COMB_HI, .GRID_ADDR, .GRID_LIST_ADDR, .GRID_CFG2_NCC,
   .GW_WIN, .GW_DIRTY, .GW_FLAGS, .TRK_BASE,
   .TRK_COUNT, .TRK_CFG_NCC, .TRK_CFG_CLASS_ANY, .TRK_CONF_M,
   .TRK_CONF_N, .TRK_DEL_MISS, .TRK_DEL_COAST, .TRK_Q,
   .TRK_R, .TRK_V0, .TRK_GATE, .TRK_BIRTH_SCORE]

/-- Fields 420 to 479 of the register tables. -/
def Reg.part7 : List Reg :=
  [.TRK_OUT_ADDR, .TRK_NEXTID, .TRK_ID_EXH, .FT_CNT,
   .MILL_STAT_STATE, .MILL_STAT_REMOVALS, .MILL_STAT_TE_LIVE, .MILL_STAT_SPUR,
   .MILL_CTRL_TE_OFF, .MILL_CTRL_TE_READMIT, .MILL_CMD_RETEST, .MILL_CMD_READMIT,
   .TE_CAUSE_LO, .TE_CAUSE_HI, .TQ_BASE, .TQ_SIZE,
   .TQ_HEAD, .TQ_TAIL, .TQ_STATE, .TQ_CLR,
   .TKC, .TKC_OVF, .DC_BASE, .DC_HEAD,
   .DC_TAIL, .DC_ERR, .MILL_CNT, .TE_FLAGS_OF,
   .TE_FLAGS_UF, .TE_FLAGS_NX, .TE_FLAGS_NV, .TE_FLAGS_NANTILE,
   .TE_NANPOS_COL, .TE_NANPOS_ROW, .TE_NANPOS_KIND, .TE_NANPOS_ACC,
   .TE_NANPOS_VALID, .TE_NANTASK_TASK, .OPCTX_SAT_CNT, .OPCTX_FLUSH_IN,
   .OPCTX_FLUSH_OUT, .OPCTX_NAN_TILES, .OPCTX_FLAGS, .MQ_OP_TARGET,
   .MQ_OP_CUR, .MQ_OP_BUSY, .MQ_TEST_PERIOD, .MS_VALUE,
   .MS_TARGET, .MS_CFG_EN, .MS_CFG_OWNER, .MS_CFG_SAT,
   .MS_CFG_WAITERS, .MS_FWD_EN, .MS_FWD_MILL, .MS_FWD_TKC,
   .MS_WQUOTA, .MS_WUSED, .MS_CNT, .EQ_MSBIND_MS]

/-- Fields 480 to 539 of the register tables. -/
def Reg.part8 : List Reg :=
  [.EQ_MSBIND_WM, .EQ_MSBIND_EN, .BP_SHORT_RESV, .BP_SHORT_MAX,
   .BP_LONG_BASE, .BP_LONG_COUNT, .BP_LONG_ADDR_LO, .BP_LONG_ADDR_HI,
   .BP_USED_SHORT, .BP_USED_LONG, .BP_FREE, .BP_PTR,
   .BP_WAITQ_SHORT, .BP_WAITQ_LONG, .BP_CNT, .MB_CFG_EN,
   .MB_CFG_LOC, .MB_CFG_SQ_LOG2, .MB_CFG_CQ_LOG2, .MB_CFG_IRQ_ALL,
   .MB_CFG_VEC, .MB_SQ_BASE_LO, .MB_SQ_BASE_HI, .MB_CQ_BASE_LO,
   .MB_CQ_BASE_HI, .MB_SQ_DB, .MB_CQ_DB, .MB_SQ_HEAD,
   .MB_SQ_TAIL, .MB_CQ_TAIL, .MB_CQ_HEAD, .MB_STAT_STATE,
   .MB_STAT_DB_ERR, .MB_STAT_FETCH_ERR, .MB_STAT_LEAKED, .MB_CNT,
   .NGX_VER, .NGX_IF, .NGX_STATE, .NGX_BUILD,
   .NGX_CORES_LIVE, .NGX_CORES_MIG, .SPUR_STATE, .SPUR_TDI,
   .SPUR_STREAM, .SPUR_QUADS, .SPUR_RES_CH, .SPUR_RES_WL,
   .SPUR_EQ, .ISO_CNT, .ISO_FAULT_N, .SPUR_GRANT,
   .SIGNER_HASH, .SEC_STAT_QUARANTINE, .SEC_STAT_KEYS_READY, .SEC_STAT_KIT_PRESENT,
   .SEC_STAT_CW_POLICY, .SEC_STAT_DBG_OPEN, .SEC_STAT_CERT_BAD, .SEC_SERIAL_LO]

/-- Fields 540 to 599 of the register tables. -/
def Reg.part9 : List Reg :=
  [.SEC_SERIAL_HI, .SEC_KIT_ID_LO, .SEC_KIT_ID_HI, .SEC_KIT_SIZE,
   .SEC_LV_LOCKVIOL, .SEC_LV_REQ, .SEC_LV_ADDR, .SEC_LV_CNT,
   .ISO_LOG_LO, .ISO_LOG_HI, .ISO_OVF, .CW_CFG_EN,
   .CW_CFG_PAIR, .CW_CFG_AUTO_JOIN, .CW_CFG_SPLICE_PERIOD, .CW_CFG_CAL_BITS,
   .CW_CFG_CAL_BITS_BATCH, .CW_CFG_CAL_PERIOD, .CW_STAT_STATE, .CW_STAT_RING_BREAK,
   .CW_STAT_ROLE_CONFLICT, .CW_STAT_DEVID_DUP, .CW_STAT_STRAP_ERR, .CW_STAT_NOT_KIT_UP,
   .CW_STAT_PLAIN, .CW_STAT_PORT_FAIL, .CW_STAT_CAL_FAIL, .CW_STAT_TRIM_WARN,
   .CW_STAT_N_DEV, .CW_HOP_WIDTH, .CW_HOP_MASK, .CW_HOP_GOOD,
   .CW_HOP_LMV, .CW_HOP_PEER, .CW_HOP_ENC, .CW_LOOP_L,
   .CW_LOOP_CORR_RET, .CW_CABLE, .CW_THETA, .CW_SEGDLY,
   .CW_ASYM_IN, .CW_ASYM_OUT, .CW_MAP, .CW_EXPORT_MB,
   .CW_EXPORT_BASE, .CW_EXPORT_SIZE, .CW_LANE_IN, .CW_LANE_OUT,
   .CW_CNT, .SPI_CFG_EN, .SPI_CFG_MODE, .SPI_CFG_CLKDIV,
   .SPI_CFG_LEN, .SPI_CFG_KIND, .SPI_CFG_CMDLEN, .SPI_CFG_STAMP,
   .SPI_CFG_TRIG, .SPI_CMD0, .SPI_CMD1, .SPI_DLY]

/-- Fields 600 to 659 of the register tables. -/
def Reg.part10 : List Reg :=
  [.SPI_CNT, .I3C_CFG_EN, .I3C_CFG_RATE, .I3C_CFG_LEGACY_1M,
   .I3C_DEV_SA, .I3C_DEV_DA, .I3C_DEV_LEGACY, .I3C_DEV_LEN,
   .I3C_DEV_KIND, .I3C_DEV_ACQ, .I3C_DEV_TRIG, .I3C_DEV_REG,
   .I3C_DEV_DLY, .CH_CFG_SRC, .CH_CFG_OFS, .CH_CFG_WIDTH,
   .CH_CFG_SGN, .CH_CFG_BE, .CH_CFG_LOG2M, .CH_CFG_STEP,
   .CH_CFG_SPUR, .CH_CFG_EN, .CH_PERIOD, .CH_SCALE,
   .CH_POP, .CH_STAT_OVF_CNT, .GPIO_DIR, .GPIO_OUT,
   .GPIO_IN, .GPIO_EDGE, .GPIO_WAKE, .GPIO_FILT,
   .GPIO_POP, .GPIO_OVF, .ETH_CFG_MODE, .ETH_CFG_AN_EN,
   .ETH_IP, .ETH_STAT_LINK, .ETH_STAT_MOD_ABS, .ETH_STAT_LOS,
   .ETH_STAT_TX_FAULT, .ETH_MAC_LO, .ETH_MAC_HI, .ETH_DISCARD,
   .AUXEV_POP, .AUXEV_OVF, .STRAP_LIVE, .STRAP_UNSTABLE,
   .STRAP_CHG, .XSPI_SFDP_BAD, .TAP_REFUSED, .HB_CFG_EN,
   .HB_CFG_MOD, .HB_CFG_OPT, .HB_CFG_SEL, .HB_CFG_POLL,
   .HB_CFG_TXLVL, .HB_CFG_RESUME, .HB_STAT_STATE, .HB_STAT_ANT_FAULT]

/-- Fields 660 to 674 of the register tables. -/
def Reg.part11 : List Reg :=
  [.HB_STAT_MULTI, .HB_STAT_MASK_LIVE, .HB_STAT_UNLISTED, .HB_STAT_HOTPIX_OVF,
   .HB_UID_LO, .HB_UID_HI, .HB_TOOL_CLASS, .HB_TOOL_VARIANT,
   .HB_ANT, .ID_OP_RESULT, .ID_OP_OUTCOME, .ID_OP_RESTARTS,
   .ID_OP_SLOT, .ID_OP_SEQ, .ID_CNT]

/-- Every register field. -/
def Reg.all : List Reg :=
  Reg.part0 ++ Reg.part1 ++ Reg.part2 ++ Reg.part3 ++ Reg.part4 ++ Reg.part5 ++ Reg.part6 ++ Reg.part7 ++ Reg.part8 ++ Reg.part9 ++ Reg.part10 ++ Reg.part11

end Sys2Proof.Machine
end

