-- ==== Sys2Proof/Machine/Types.lean ====
section
/-!
DEFINITION. The parts of `State` that are not registers, chapter by chapter: FIFOs, rings, engines in progress, unit
records, link state. Plain data throughout; a field's default is its value at reset.
-/
namespace Sys2Proof.Machine

/-! ### `spec/00_scope.md` -/

/-- A posted request toward the host (R500): an MSI-X message, a completion entry of a mailbox, or a data write. -/
inductive HostPost where
  | msix (vec : Nat)
  | completion (mb : Nat) (addr : Nat) (data : List Byte)
  | write (addr : Nat) (data : List Byte)
deriving DecidableEq, Repr

/-! ### `spec/19_faults_and_recovery.md` -/

/-- The error types of Table FR-2 (R540). -/
inductive ErrType where
  | regRsvd | lockViol | hostFwwr | isolation | fuseDrift | strapChg | sLost
  | idReject | hotpixOvf | cardTblUe | eqUe | eqPtr | cardFail | headLost
  | napUe | egoSuspend | trkIdExh | sharedFail
  | sramUe | dmaErr | tkcOvf | descErr | teRemoved | rerunFail | millRemoved
  | msSat | bpErr | battUe
  | kerbFault
  | nccFail | spurDead | mbFetch | hostDma | nanOut | spurFault
  | chFailed | linkUe
  | cwPortFail | cwPeerLost
  | retErr | regFail | bow | regFault
deriving DecidableEq, Repr

/-- An error record (R537, Table FR-1). TYPE and SEV follow from `typ` (Table FR-2). -/
structure ErrRec where
  typ : ErrType
  /-- The Spur the event belongs to. -/
  spur : Nat
  copy : Bool
  lost : Bool
  epoch : Nat
  unit : Nat
  stamp : Nat
  /-- DETAIL words 0 to 3. -/
  detail : List Nat
deriving DecidableEq, Repr

/-- The error rings of the Spurs (R538): records oldest first, and whether records were lost since the last one written. -/
structure ErrRing where
  recs : List ErrRec := []
  lost : Bool := false
deriving DecidableEq, Repr

/-- An entry of ISO_LOG (R384): the Spur, the class code, the object and bits [31:0] of WT64. -/
structure IsoEnt where
  spur : Nat
  cls : Nat
  obj : Nat
  stamp : Nat
deriving DecidableEq, Repr

/-! ### `spec/17_host_and_memory.md` -/

/-- A PCIe function as the device sees it (R488, R497 to R503): MSI-X enable, Function Mask, the vector mask and PBA bits,
Bus Master Enable, D3hot, and what waits to be sent on it, oldest first. PRESUMED: MSI-X disabled, every vector masked
and Bus Master Enable 0 at reset are the PCIe specification's values. -/
structure FnSt where
  msixEn : Bool := false
  fnMask : Bool := false
  /-- Bit v set: vector v is masked. -/
  vecMask : Nat := 0xFFFFFFFF
  pba : Nat := 0
  bme : Bool := false
  d3hot : Bool := false
  held : List HostPost := []
deriving DecidableEq, Repr

/-- The PCIe link beyond its registers (R506): PCIE_PERST_N low, the raw time from which configuration requests are
accepted, and the raw time since which the device drives PCIE_WAKE_N low. -/
structure LinkSt where
  perstLow : Bool := false
  cfgFrom : Nat := 0
  wakeLow : Option Nat := none
deriving DecidableEq, Repr

/-! ### `spec/02_time_base.md` -/

/-- The operation of a commit (Table TB-2; NONE is no commit). -/
inductive CommitOp where
  | fold | slew | step
deriving DecidableEq, Repr

/-- A TIME_CMD commit with the values it uses (R46): the shadow rate and TIME_SLEW at the write, the SLEW_PPM it carried. -/
structure Commit where
  op : CommitOp
  rate : Int
  slew : Int
  ppm : Nat
deriving DecidableEq, Repr

/-- An entry of the transmit-stamp queue (R53, R54). -/
structure TxStamp where
  id : BitVec 16
  dropped : Bool
  /-- The corrected egress Waytime in units of 2⁻¹⁶ ns; 0 with DROPPED. -/
  stamp : Nat
deriving DecidableEq, Repr

/-- A trigger engine as it was armed (R58, R62): its own copies of the settings, the next scheduled edge, whether COUNT
limits it, and a pulse in progress with the WT64 at which it ends. -/
structure TrigSt where
  periodic : Bool := false
  activeLow : Bool := false
  period : Nat := 0
  width : Nat := 0
  limited : Bool := false
  next : Option Nat := none
  pulseEnd : Option Nat := none
deriving DecidableEq, Repr

/-- The snapshot set of one virtual function (R493). -/
structure Snap where
  raw : Nat := 0
  sec : Nat := 0
  ns : Nat := 0
  frac : Nat := 0
deriving DecidableEq, Repr

/-- The PTP settings of PTP_CFG (R357, Table TB-4). -/
structure PtpCfg where
  profile : Nat := 0
  domain : Nat := 0
  logSync : Int := 0
  logDelayReq : Int := 0
deriving DecidableEq, Repr

/-- The TIME island and the ETH0 PTP engine (`spec/02_time_base.md`). -/
structure TimeSt where
  /-- OFF in units of 2⁻¹⁶ ns, signed (R43; the TIME_OFF registers are views of it). -/
  off : Int := 0
  /-- RATE in force, in units of 2⁻⁴⁸, a signed 40-bit value (R43). -/
  rate : Int := 0
  /-- RBASE (R43). -/
  rbase : Nat := 0
  /-- R_c of the last commit taken (R46), and as TIME_RC shows it (class V, R74). -/
  rc : Nat := 0
  rcShown : Nat := 0
  /-- The commit taken whose R_c has not been applied yet, with that R_c. -/
  taken : Option (Commit × Nat) := none
  /-- Commits held behind it, oldest first (R46). -/
  held : List Commit := []
  /-- The slew remainder in units of 2⁻¹⁶ ns, signed 64-bit (R582). -/
  slewRem : Int := 0
  /-- SLEW_PPM of the most recent SLEW commit. -/
  slewPpm : Nat := 0
  /-- The slew accumulator, in millionths of a unit (R582). -/
  slewAcc : Nat := 0
  /-- SLEWING of TIME_STAT. -/
  slewing : Bool := false
  /-- The transmit-stamp queue, oldest first, at most 64 entries (R53). -/
  txts : List TxStamp := []
  /-- The trigger engines TRIG0 to TRIG7. -/
  trig : Table TrigSt := []
  /-- An arbiter has been present since the last POR or BOR (Table TB-6). -/
  arbiterSeen : Bool := false
  /-- The last good estimate: the rate in force at the end of the last window graded OK against the arbiter. -/
  lastGood : Option Int := none
  /-- The PLL holds its averaged control word (R67). -/
  holdover : Bool := false
  /-- Deviations of the selected reference in the last windows, newest first, at most 60 (R66). -/
  devs : List Int := []
  /-- Consecutive windows with the slope above 2 ppm per minute, and at or below it (R66). -/
  trendAbove : Nat := 0
  trendBelow : Nat := 0
  /-- The servo's offset estimates of the last 16 Sync intervals, newest first (Table TB-6). -/
  servo : List Int := []
  ptp : PtpCfg := {}
  /-- The foreign-master table: the ports whose Announce has been taken, at most 8 (Table TB-4). -/
  foreign : List Nat := []
  /-- Microsecond time of the last Waymark boundary served (R57). -/
  lastMark : Option Nat := none
  /-- Snapshot sets of VF1 to VF7 (R493). -/
  vfSnap : Table Snap := []
deriving DecidableEq, Repr

/-! ### `spec/03_wayline_link.md` -/

/-- What a management request is for, so that its response continues the firmware's work (R102, R116, R587). -/
inductive MgmtUse where
  /-- STAT_RD to a ring position after the port is enabled (R587). -/
  | probe
  | enum
  /-- IDRD of identity bytes from an address on. -/
  | ident (addr : Nat)
  | setPos (pos : Nat)
  | cfg
  | start
  | release
  | splice
  | idWrite
deriving DecidableEq, Repr

/-- A management request (R96, Table WL-5): destination, type, payload and its use. -/
structure MgmtReq where
  dest : Nat
  typ : Nat
  payload : List Byte
  use : MgmtUse
deriving DecidableEq, Repr

/-- A request on the ring with its SEQ and how often it has been sent (R98). -/
structure MgmtOut where
  seq : Nat
  req : MgmtReq
  sends : Nat
deriving DecidableEq, Repr

/-- The burst a port is receiving (R82 to R84). -/
structure Burst where
  pos : Nat
  interval : Nat
  len : Nat
  /-- Words of the burst received, and those delivered to carding. -/
  got : Nat
  delivered : Nat
  accepted : Bool
deriving DecidableEq, Repr

/-- A head at a ring position, beyond its head-table registers (R81, R103, R108). -/
structure HeadSt where
  started : Bool := false
  /-- The interval that START named for the head (Table WL-8, step 8). -/
  startAt : Option Nat := none
  /-- The last accepted interval (R83). -/
  lastOpen : Option Nat := none
  /-- When the head asked to leave, in nanoseconds (R105). -/
  leaveReq : Option Nat := none
  healthState : Nat := 0
  healthFill : Nat := 0
  healthTemp : Nat := 0
  /-- WM_DELAY last written into the head (R94). -/
  wmSent : Option Int := none
deriving DecidableEq, Repr

/-- The reading of an identity store over IDRD: the target (a temporary ID or a position), the bytes read so far and the
ranges still to read (R116). -/
structure IdentRead where
  dest : Nat
  bytes : Table Byte
  todo : List (Nat × Nat)
deriving DecidableEq, Repr

/-- A Wayline port (`spec/03_wayline_link.md`). -/
structure PortSt where
  locked : Bool := false
  /-- A Waymark has returned since the port was last enabled (R83). -/
  returned : Bool := false
  /-- The interval number of the last Waymark returned. -/
  lastW : Nat := 0
  /-- The last good L since the port last left TRAINING (R95). -/
  goodL : Option Nat := none
  /-- Interval numbers and WT fields of the Waymarks in flight, oldest first. -/
  inFlight : List Nat := []
  burst : Option Burst := none
  heads : Table HeadSt := []
  /-- The interval of the first Waymark returned after RUNNING resumed (R108). -/
  runFrom : Option Nat := none
  /-- A Waymark has returned since the port entered RETRAIN (R109). -/
  back : Bool := false
  /-- C of the last returned Waymark, the full value (R94, Table WL-9). -/
  cable : Int := 0
  /-- The heads in the path in ring order, by position or temporary ID (R94, R101). -/
  order : List Nat := []
  /-- Positions and temporary IDs that have received RELEASE, each with when it was answered (R105). -/
  released : List (Nat × Nat) := []
  /-- Requests waiting for one of the four places, and requests outstanding (R98). -/
  waiting : List MgmtReq := []
  out : List MgmtOut := []
  seq : Nat := 0
  ident : Option IdentRead := none
  /-- Temporary IDs still to be read and numbered, in ascending order (R102). -/
  temps : List Nat := []
  /-- The boundary intervals of the SPLICE frames sent, oldest first (R105). -/
  splice : List Nat := []
  /-- The first enumeration since the port was enabled is still to come (R587). -/
  probing : Bool := false
deriving DecidableEq, Repr

/-! ### `spec/04_module_identity.md` -/

/-- An identity write in progress (R127 to R131). -/
structure IdWriteSt where
  /-- The mailbox command that asked for it. -/
  mb : Nat
  id : Nat
  medium : Medium
  /-- UID or SERIAL of the medium at the start (R130). -/
  ident : Nat
  slotB : Bool
  base : Nat
  size : Nat
  unit : Nat
  seq : Nat
  payload : List Byte
  rtype : Nat
  /-- The step of R127 in progress, 1 to 5; 6 is the read-back of the commit block. -/
  step : Nat
  /-- The writes of the step still to do: byte address and bytes. -/
  todo : List (Nat × List Byte)
  restarts : Nat
  collapsed : Bool
  retries : Nat
  /-- The command in progress has had no response to it and its retries, or FRAME_TMO (R129). -/
  dead : Bool := false
deriving DecidableEq, Repr

/-- The Hatband reader (`spec/04_module_identity.md`). -/
structure HatSt where
  /-- UIDs with how many consecutive polls have seen them (up to 2) and missed them, and whether each is present (R124). -/
  seen : Table Nat := []
  missed : Table Nat := []
  present : List Nat := []
  /-- The tag being read, and the command of the read that has been retried (R124). -/
  reading : Option Nat := none
  retried : Option (Nat × Nat) := none
  /-- Present UIDs whose reading has been started since they became present. -/
  handled : List Nat := []
  /-- The block size that Get System Information gave (Table ID-4). -/
  blk : Nat := 0
  /-- Class, variant and boxes of the valid tool record of the present tag (R133). -/
  tool : Option (Nat × Nat × List (List Int)) := none
  write : Option IdWriteSt := none
  /-- An identity write is waiting for its medium to return (R130). -/
  awaiting : Bool := false
  /-- The raw value at which that wait began (R130). -/
  since : Nat := 0
  /-- Boxes of the accepted tool, in mm: xmin, xmax, ymin, ymax, zmin, zmax (R133). -/
  boxes : List (List Int) := []
  multi : Bool := false
  /-- The reader is in FAULT (R123). -/
  fault : Bool := false
deriving DecidableEq, Repr

/-! ### `spec/05_carding_and_queues.md` -/

/-- A word that a port has handed to its carding unit (R86), or a loss it reports (R150). -/
inductive CardWord where
  | pixel (slot interval : Nat) (w : Word)
  | loss (slot src count first : Nat)
  /-- An accepted OPEN: the first burst of a slot with no run begins one (R143). -/
  | opened (slot interval : Nat)
  /-- The head has left or been released, or is lost. -/
  | left (slot : Nat) (lost : Bool)
deriving DecidableEq, Repr

/-- A pending control record (R154, R157): its place in the order of forming (0 for the records of a reset), slot and
subtype, and the record. -/
structure PendRec where
  seq : Nat
  /-- The queue it is for. -/
  q : Nat
  slot : Nat
  sub : Nat
  data : DWord
deriving DecidableEq, Repr

/-- The pending QFULL marker of a queue (R155): FIRST as a stamp and as full time where it is known, COUNT and SPAN. -/
structure QFull where
  first : Nat
  firstT : Option Int
  count : Nat
  span : Nat
deriving DecidableEq, Repr

/-- A record in a queue with its packet tag (R154). -/
structure QRec where
  data : DWord
  pkt : Nat
deriving DecidableEq, Repr

/-- An event queue beyond its registers: its records from RP to WP, oldest first. -/
structure EqSt where
  recs : List QRec := []
  /-- The second copies of WP and RP, which a SAFETY queue compares (R162). -/
  wp2 : Nat := 0
  rp2 : Nat := 0
  /-- The raw cycle in which the queue last wrote a pending record (R154). -/
  wrote : Option Nat := none
  /-- The base of the last SEGMENT formed, in units of 2^28 µs (R151). -/
  seg : Nat := 0
  /-- Queue-wide pending records, and the HEAD_LEAVE records of R542 that the bank holds. -/
  wide : List PendRec := []
  leaves : List PendRec := []
  marker : Option QFull := none
  /-- The slot and PKT of the last event record delivered since the queue was enabled or reset, and the mask (R161). -/
  lastEv : Option (Nat × Nat) := none
  mask : Option (Nat × Nat) := none
  /-- The line that the read window shows until the next read (R164). -/
  line : List DWord := []
deriving DecidableEq, Repr

/-- The run of a slot in its carding unit (R143). -/
structure RunSt where
  join : Nat
  /-- The end of warm-up in microseconds while FILTER is still to be formed. -/
  warmEnd : Option Nat
  lastStamp : Nat
deriving DecidableEq, Repr

/-- A head slot in its carding unit. -/
structure SlotSt where
  run : Option RunSt := none
  trim : Int := 0
  decCount : Nat := 0
  /-- Stopped by a carding table error: events counted since and the stamp of the first (R146). -/
  stopped : Option (Nat × Nat) := none
  /-- The tables of a stopped slot have been reloaded (R146). -/
  reloaded : Bool := false
  /-- The first configuration of the head was refused: its tables take no space (R145). -/
  noTables : Bool := false
  /-- The entries of the head's HOTPIX that R119 leaves. -/
  hotpix : List (Nat × Nat) := []
  /-- The head's intrinsics as read from its identity record, nine FP32 words (R118). -/
  intrinsics : List Nat := []
deriving DecidableEq, Repr

/-- A carding unit (`spec/05_carding_and_queues.md`). -/
structure CardSt where
  inbox : List CardWord := []
  pend : List PendRec := []
  /-- Hot-pixel entries: slot, x, y (R140). -/
  hot : List (Nat × Nat × Nat) := []
  /-- The first position whose entries did not all fit, not yet reported (R140). -/
  hotOver : Option Nat := none
  /-- Activity words, keyed by slot × 2^20 + block (R141). -/
  act : Table Nat := []
  /-- Rectification nodes, keyed by slot × 2^20 + node: x in [15:0], y in [31:16] (R144). -/
  rect : Table Nat := []
deriving DecidableEq, Repr

/-- The Kerb copy of an event (R137). -/
structure KCopy where
  slot : Nat
  x : Nat
  y : Nat
  pol : Bool
  t : Nat
  unf : Bool
deriving DecidableEq, Repr

/-! ### `spec/06_fuller_surfaces.md` -/

/-- The header of a tile (R170, R171, R179): FRESH, BASE, whether it has lost words since it was last fresh (R184), and
the window last written to each buffer of a COUNT or VOXEL tile. -/
structure TileSt where
  fresh : Bool := true
  base : Nat := 0
  ue : Bool := false
  win0 : Option Nat := none
  win1 : Option Nat := none
deriving DecidableEq, Repr

/-- A feature batt being filled (R189): its handle, window, records so far, and GAP. -/
structure FeatBatt where
  handle : Nat
  win : Nat
  n : Nat
  gap : Bool
deriving DecidableEq, Repr

/-- A Fuller subscription beyond its registers (`spec/06_fuller_surfaces.md`). -/
structure SubSt where
  /-- The Spur that applied it. -/
  spur : Nat := 0
  /-- The decimation that admission gave it (R169). -/
  dec : Nat := 0
  tiles : Table TileSt := []
  /-- The oldest window that is open. -/
  cur : Nat := 0
  /-- Dirty bits by window, one bit per tile; the marks of the last 15 closed windows, newest first; and the last closed
  map, TAIL included (R180). -/
  marks : Table Nat := []
  hist : List Nat := []
  closed : Nat := 0
  /-- Flags by window: GAP, UNF, LATE, UE from bit 0 (R182). -/
  flags : Table Nat := []
  /-- The slot is in warm-up since this time (R182). -/
  warm : Option Nat := none
  /-- The snapshots of WP (R177), oldest first: the last window each is for, and the records of the queue still to be read
  before it is reached; and the first window that has none. -/
  snaps : List (Nat × Nat) := []
  snapTo : Nat := 0
  corner : Option FeatBatt := none
  flow : Option FeatBatt := none
  /-- Corner and flow records have been dropped since the last batt. -/
  gapC : Bool := false
  gapF : Bool := false
  /-- The FEAT FIFO, oldest first, at most 16 handles. -/
  fifo : List Nat := []
  epoch : Nat := 0
deriving DecidableEq, Repr

/-- The Fuller beyond its registers: subscriptions, the queue at which its rotation stands, and each queue's latest segment
base (R165). -/
structure FulSt where
  subs : Table SubSt := []
  turn : Nat := 0
  segBase : Table Nat := []
deriving DecidableEq, Repr

/-! ### `spec/08_mills.md` -/

/-- A task on a tensor engine: its queue (8 for a TEST task of the firmware), its descriptor; as an instance of a sparse
template, the template's number, its ordinal and its tile; whether it has been re-run, the raw time of its dispatch, and whether
its TILE read is still to come (R228, R235, R245). -/
structure RunTask where
  tq : Nat
  desc : List Byte
  tmpl : Option Nat := none
  ord : Nat := 0
  tile : Nat := 0
  reran : Bool := false
  /-- Mill cycles up to raw time `start`, and that time: its dispatch, or the last change of the operating point (R234). -/
  cyc : Nat := 0
  start : Nat := 0
  reading : Bool := false
deriving DecidableEq, Repr

/-- A sparse template (R235): its queue, ordinals and tiles still to dispatch, instances not yet complete, the tiles
visited, and whether an instance was ended by an error. -/
structure Expand where
  q : Nat
  desc : List Byte
  todo : List (Nat × Nat)
  running : Nat := 0
  visited : List Nat
  failed : Bool := false
deriving DecidableEq, Repr

/-- A DMA transfer in flight (R226): its descriptor, the tiles it still reads, and what it has read: tile, planes of 256
elements (R224). -/
structure Xfer where
  desc : List Byte
  todo : List Nat := []
  got : List (Nat × List (List Nat)) := []
  tag : Nat := 0
deriving DecidableEq, Repr

/-- The work of an admitted invocation on a Mill (R355): the INVOKE command, and how many tasks the firmware has still to add to
the queues. -/
structure MillJob where
  mb : Nat
  id : Nat
  todo : Nat
deriving DecidableEq, Repr

/-- A Mill beyond its registers (`spec/08_mills.md`). -/
structure MillSt where
  /-- Tasks by tensor engine. -/
  run : Table RunTask := []
  /-- Tasks to be re-run, by queue (R245). -/
  rerun : Table (List RunTask) := []
  /-- Templates not yet complete, by a number of the model's own. -/
  exp : Table Expand := []
  nextExp : Nat := 0
  /-- The queue at which the rotation stands (R229). -/
  ptr : Nat := 0
  /-- TEs to be removed at their task boundary, and TEs for which a TEST task waits. -/
  offReq : Nat := 0
  testReq : Nat := 0
  /-- Removals of each TE, and TEs that have passed a retest (R249). -/
  removals : Table Nat := []
  passed : Nat := 0
  /-- A fenced Mill has passed its retest, and its readmission waits for an invocation boundary (R249). -/
  millPass : Bool := false
  readmit : Bool := false
  /-- Invocations whose tasks on the Mill have not ended, in admission order: the first one runs (R355). -/
  jobs : List MillJob := []
  /-- Addresses at which an uncorrectable error has been met (R221). -/
  ueSeen : List Nat := []
  /-- Transfers in flight by channel, oldest first. -/
  chans : Table (List Xfer) := []
deriving DecidableEq, Repr

/-! ### `spec/09_milestones_and_buffers.md` -/

/-- Where a signal came from (Table MS-2). -/
inductive SigSrc where
  | mill (m : Nat)
  | fuller
  | eq (q : Nat)
  | core (c : Nat)
  | mailbox (mb : Nat)
deriving DecidableEq, Repr

/-- A signal on its way to the Milestone unit (R255): the Spur its source acts for and the count. -/
structure Signal where
  ms : Nat
  spur : Nat
  count : Nat
  src : SigSrc
deriving DecidableEq, Repr

/-- A post on its way to a token counter of a Mill (R230, R262). -/
structure Post where
  mill : Nat
  tkc : Nat
  count : Nat
deriving DecidableEq, Repr

/-- The action of a waiter (R256). -/
inductive WAct where
  /-- A mailbox command held for its descriptor wait. -/
  | cmd (mb id : Nat)
  | ncc (core : Nat)
  | tkc (mill tkc count : Nat)
deriving DecidableEq, Repr

/-- An entry of the waiter table (R251, R256): the threshold it was registered with and the timeout of a WAIT_TO. -/
structure Waiter where
  ms : Nat
  h : Nat
  timeout : Option Nat
  act : WAct
  spur : Nat
deriving DecidableEq, Repr

/-- The outcomes of Table MS-3 that a waiter completes with. -/
inductive WOut where
  | success | timeout | cancelled
deriving DecidableEq, Repr

/-- A batt (R263): its generation, and its owner tag, agent ID and Spur, or free. DESIGN CHOICE: every GEN is 1 at reset,
the first value of its range. -/
structure BattSt where
  gen : Nat := 1
  owner : Option (Nat × Nat) := none
deriving DecidableEq, Repr

/-- Who an ALLOC is answered to: an agent on a port, or a mailbox command. -/
inductive BTo where
  | agent (id spur : Nat)
  | cmd (mb id : Nat)
deriving DecidableEq, Repr

/-- An entry of a pool's waiter list (R272). -/
structure BWaiter where
  agent : Nat
  spur : Nat
  timeout : Option Nat
  answer : BTo
deriving DecidableEq, Repr

/-- The Milestone unit and the buffer-pool manager (`spec/09_milestones_and_buffers.md`). -/
structure MsSt where
  /-- Signals on their way, in the order sent. -/
  signals : List Signal := []
  /-- Posts on their way to token counters, in the order sent. -/
  posts : List Post := []
  /-- The waiter table, in registration order. -/
  waiters : List Waiter := []
  short : Table BattSt := []
  long : Table BattSt := []
  /-- The waiter lists of the two pools, oldest first. -/
  shortQ : List BWaiter := []
  longQ : List BWaiter := []
  /-- The grants of the current cycle of the manager: the raw value, short and long grants (R271: at most 4 each). -/
  grantCycle : Nat := 0
  shortGrants : Nat := 0
  longGrants : Nat := 0
  /-- Queues whose occupancy stands at or above its watermark only because of the records of a reset or enable (R266). -/
  belowWm : List Nat := []
deriving DecidableEq, Repr

/-! ### `spec/10_fusion_and_tracking.md` -/

/-- A flow vector that the Fuller has passed to the Ego unit (R290): its window, the pixel in the subscription grid, the
decimation, and VX and VY. -/
structure FlowVec where
  win : Nat
  x : Nat
  y : Nat
  dec : Nat
  vx : Int
  vy : Int
deriving DecidableEq, Repr

/-- An output of a reference chain as the Ego unit sees it (R527): chain, stamp in ns, value, and whether it qualifies. -/
structure EgoRef where
  chain : Nat
  stamp : Nat
  value : Int
  good : Bool
deriving DecidableEq, Repr

/-- A valid window that waits for its cross-check (R527): from and to in ns, and the estimate. -/
structure EgoWin where
  from_ : Nat
  to_ : Nat
  twist : List Nat
deriving DecidableEq, Repr

/-- The Ego unit's state of a head slot (R290 to R293): vectors of windows not yet solved, the correction (r, t) as FP32
words, runs of valid, invalid and disagreeing windows, and the cross-checks under way. -/
structure EgoSt where
  vecs : List FlowVec := []
  r : List Nat := [0, 0, 0]
  t : List Nat := [0, 0, 0]
  valid : Nat := 0
  invalid : Nat := 0
  disagree : Nat := 0
  sigma : Nat := 0
  waits : List EgoWin := []
  refs : List EgoRef := []
deriving DecidableEq, Repr

/-- An open grid window of a Spur (R287 to R289): its dirty tiles, the slots projected and those suspended at some time
during it, one bit each, and its flags SUSP, DROP, LATE. -/
structure GridWin where
  win : Nat
  dirty : Nat := 0
  heads : Nat := 0
  susp : Nat := 0
  flags : Nat := 0
deriving DecidableEq, Repr

/-- The grid and the Projector ring of a Spur: open windows, oldest first; the newest closed one; and per buffer the tiles
to be cleared when a window next uses it, none standing for all of them (R287). -/
structure GridSt where
  opened : List GridWin := []
  closed : Option Nat := none
  dirty0 : Option Nat := none
  dirty1 : Option Nat := none
  /-- The next place of the ring (R277). -/
  next : Nat := 0
deriving DecidableEq, Repr

/-- A job on a Projector (R277, R278): its Spur, its place in the ring and its status; its descriptor and the pose it uses (nine FP32
words of the rotation, three of the translation); how many records it takes, the record in hand, the cycle of it, and whether a band of
it has been written (R280, R286). -/
structure PrjJob where
  spur : Nat
  place : Nat
  status : Nat
  desc : List Byte := []
  pose : List Nat := []
  recs : Nat := 0
  cur : Nat := 0
  cyc : Nat := 0
  wrote : Bool := false
deriving DecidableEq, Repr

/-- A pass submitted to the Tracker (R294): its Spur, the raw cycle, its place in control memory, its descriptor, and the error
that its batts meet. -/
structure PassReq where
  spur : Nat
  at_ : Nat
  place : Nat
  desc : List Byte
  err : ReadErr
deriving DecidableEq, Repr

/-- The pass that runs: its Spur, its place and its status. -/
structure PassRun where
  spur : Nat
  place : Nat
  status : Nat
deriving DecidableEq, Repr

/-- A filter axis (R296): position, velocity and the covariance P00, P01, P11, as FP32 words. -/
structure Axis where
  p : Nat
  v : Nat
  c00 : Nat
  c01 : Nat
  c11 : Nat
deriving DecidableEq, Repr

/-- A track slot in use (R296 to R300): STATE 0 TENTATIVE, 1 CONFIRMED, 2 COASTING, 3 DELETED. -/
structure Track where
  id : Nat
  st : Nat
  cls : Nat
  hist : Nat
  miss : Nat
  hits : Nat
  passes : Nat
  lastHit : Nat
  axes : List Axis
deriving DecidableEq, Repr

/-- The Tracker for one Spur: its last pass window and time (R294, R297). -/
structure TrkSt where
  win : Option Nat := none
  time : Nat := 0
  /-- The next place of its descriptors (R294). -/
  next : Nat := 0
deriving DecidableEq, Repr

/-- The fusion units beyond their registers (`spec/10_fusion_and_tracking.md`). -/
structure FtSt where
  ego : Table EgoSt := []
  grids : Table GridSt := []
  jobs : Table PrjJob := []
  tracks : Table Track := []
  trk : Table TrkSt := []
  /-- The pass that runs, and those submitted behind it in order (R294). -/
  pass : Option PassRun := none
  passQ : List PassReq := []
  /-- Slots whose calibration the firmware is to set once their Spurs have no job and no open window (R276, R302); whether the
  intrinsics are copied too. -/
  calDue : Table Bool := []
deriving DecidableEq, Repr

/-! ### `spec/11_kerb_and_deadlines.md` -/

/-- A demand with its hold (R307): its condition holds now, or held last in raw cycle `last`. -/
structure Hold where
  on : Bool := false
  last : Option Nat := none
deriving DecidableEq, Repr

/-- A zone of a Kerb unit beyond its registers. -/
structure ZoneSt where
  /-- The 16 bins, current first, and the number of the current one (R306). -/
  bins : List Nat := []
  binNo : Nat := 0
  stop : Hold := {}
  slow : Hold := {}
  apStop : Hold := {}
  apSlow : Hold := {}
  loss : Hold := {}
  /-- The raw cycle in which the count last reached TH_SLOW from below (R308). -/
  rose : Option Nat := none
deriving DecidableEq, Repr

/-- The part of a latch that LATCH does not show in full: the 32-bit window and the stamp of its last on-time verdict
(R312). -/
structure LatchSt where
  win : Nat := 0
  stamp : Nat := 0
deriving DecidableEq, Repr

/-- An entry of the late log (R316, R317). -/
structure LateEnt where
  slot : Nat
  gen : Nat
  win : Nat
  stamp : Nat
deriving DecidableEq, Repr

/-- The newest pose sample (R310, R520): whether it is good, its validity time, rotation and translation as FP32 words. -/
structure Pose where
  good : Bool
  vt : Nat
  rot : List Nat
  trn : List Nat
deriving DecidableEq, Repr

/-- A mask rectangle in a head's image: slot, x from and to, y from and to. -/
structure MaskRect where
  slot : Nat
  x0 : Int
  x1 : Int
  y0 : Int
  y1 : Int
deriving DecidableEq, Repr

/-- What an armed slot compares and checks (R315). -/
structure ArmedSlot where
  dl : Nat := 0
  win : Nat := 0
  vset : Nat := 0
  act : Nat := 0
  spur : Nat := 0
deriving DecidableEq, Repr

/-- The Kerb hub and units beyond their registers (`spec/11_kerb_and_deadlines.md`). -/
structure KerbSt where
  zones : Table ZoneSt := []
  /-- Per slot, the latest interval for which its port accepted an OPEN, and which slots are SILENT, one bit each (R309). -/
  heard : Table Nat := []
  silent : Nat := 0
  latches : Table LatchSt := []
  lateLog : List LateEnt := []
  /-- The values each slot was armed with last. -/
  slots : Table ArmedSlot := []
  /-- Latched faults with their unit, in the order latched (R327). -/
  faults : List (Nat × Nat) := []
  /-- The fused policy bit SAFE_STRICT (R328). DESIGN CHOICE: 0 until a boot senses the fuses. -/
  safeStrict : Bool := false
  pose : Option Pose := none
  /-- The newest good sample's validity time, and the SEQ of the frame taken last (R520). -/
  goodVt : Option Nat := none
  poseSeq : Option Nat := none
  /-- The mask rectangles in force (R310, R311). -/
  rects : List MaskRect := []
  /-- The copy of intrinsics and base pose taken at arming, per slot: FX, FY, CX, CY, nine of BR, three of BT (R310). -/
  poseCopy : Table (List Nat) := []
  /-- Tool boxes delivered by the Hatband reader, in mm (R133). -/
  boxes : List (List Int) := []
  estop : Bool := false
  /-- Levels of the ESTOP inputs, the raw time each last changed, and the raw time since which they differ (R324).
  DESIGN CHOICE: the levels at reset are low, the de-energised level; the spec gives none. -/
  estopA : Bool := false
  estopB : Bool := false
  estopASince : Nat := 0
  estopBSince : Nat := 0
  estopDiff : Option Nat := none
  /-- Both inputs low together have been seen since an ESTOP_DISC fault (Table KB-4). -/
  estopLowSeen : Bool := false
  /-- Levels of the feedback inputs and the raw time since which each is away from its expected level (R325). -/
  fbA : Bool := false
  fbB : Bool := false
  fbAAway : Option Nat := none
  fbBAway : Option Nat := none
  /-- Groups held as MANUAL (R322). -/
  manual : Nat := 0
  /-- Outputs energised by the groups, one bit each, and the dark tests running with the raw time each began (R321,
  R326). -/
  out : Nat := 0
  dark : Table Nat := []
  /-- Group STOP demands of the sources other than MANUAL, as combined last. -/
  liveStop : Nat := 0
  /-- VDD_3V3 lost or THERMTRIP: every safety output is de-energised (R561, R564). -/
  forcedOff : Bool := false
  /-- The BOW stop source (Table KB-1, R448). -/
  bow : Bool := false
deriving DecidableEq, Repr

/-! ### `spec/12_mailboxes_and_operators.md` -/

/-- Where a command in flight stands (R339, R344): held on its wait, ready to start, or begun. -/
inductive CmdStage where
  | held | ready | begun
deriving DecidableEq, Repr

/-- A command in flight (R334): its descriptor as copied at fetch, its stage, the handles of batts obtained for its
outputs, and the deadline slot of an INVOKE with the generation it was armed with. -/
structure Cmd where
  /-- The model's own number of the fetch, so that a late result never meets a later command of the same TAG. -/
  id : Nat
  tag : Nat
  desc : List Byte
  stage : CmdStage
  cfg : CfgOps := {}
  batts : List Nat := []
  slot : Option (Nat × Nat) := none
deriving DecidableEq, Repr

/-- A place for a loaded Hatbox (R351): HBID index and generation, and what was placed. -/
structure Hatbox where
  gen : Nat := 0
  loaded : Bool := false
  mills : List Nat := []
  lpddrBase : Nat := 0
  lpddrLen : Nat := 0
  /-- Task descriptors by Mill, and what was written to Mill SRAM: Mill, address and bytes (R351). -/
  tasks : List (Nat × List Byte) := []
  sram : List (Nat × Nat × List Byte) := []
  /-- The Mills that stand in for Mills taken out of the Spur's set (R248). -/
  moved : Table Nat := []
  numfmts : List Nat := []
  domains : Nat := 0
  verdict : Bool := false
  cost : Nat := 0
  outLen : Nat := 0
deriving DecidableEq, Repr

/-- An admitted invocation (R354 to R356). -/
structure Inv where
  mb : Nat
  id : Nat
  spur : Nat
  hb : Nat
  slot : Nat
  gen : Nat
  win : Nat
  /-- A of R354, and the WT64 of its first task dispatch. -/
  adm : Nat
  first : Nat := 0
  tasks : Nat := 0
  reruns : Nat := 0
  tiles : Nat := 0
  /-- Its deadline, its worst-case cost at admission, and the Mills that it runs on (R354). -/
  dl : Nat := 0
  cost : Nat := 0
  mills : List Nat := []
  /-- SAT_CNT, FLUSH_IN, FLUSH_OUT, NAN_TILES and flags of the contexts read so far (R360). -/
  sums : List Nat := []
deriving DecidableEq, Repr

/-- A UNIT_CTRL command that waits for a self-test: of a TE, or of a whole Mill with `te` 16. -/
structure UnitCmd where
  mb : Nat
  id : Nat
  mill : Nat
  te : Nat
deriving DecidableEq, Repr

/-- The mailboxes and the Ngabex firmware beyond their registers (`spec/12_mailboxes_and_operators.md`). -/
structure MailSt where
  /-- Commands in flight per mailbox, in fetch order. -/
  cmds : Table (List Cmd) := []
  /-- Hatbox places, keyed Spur × 16 + index. -/
  hbs : Table Hatbox := []
  /-- Admitted invocations, in admission order. -/
  invs : List Inv := []
  /-- Control cores that have failed and are fenced, one bit each (R346). -/
  fenced : Nat := 0
  unitCmds : List UnitCmd := []
  /-- The next command number. -/
  nextId : Nat := 0
deriving DecidableEq, Repr

/-! ### `spec/13_spurs_and_security.md` -/

/-- A scrub in progress: the resource as a kind (0 quad, 1 channel, 2 port, 3 block) and number, the Spur it leaves, and
the SPUR_CFG command that waits for it, or none after an FLR (R364, R369). -/
structure Scrub where
  kind : Nat
  num : Nat
  spur : Nat
  cmd : Option (Nat × Nat)
deriving DecidableEq, Repr

/-- The security engine beyond its registers (`spec/13_spurs_and_security.md`). -/
structure SecSt where
  scrubs : List Scrub := []
  /-- Open SPDM sessions: identifier and whether FINISH has completed it (Table SP-8: at most 4). -/
  sessions : Table Nat := []
  /-- Keys programmed per function: 12 bits, set × 6 + direction × 3 + sub-stream; and the active set (0 none, 1 K0, 2 K1). -/
  ideKeys : Table Nat := []
  ideSet : Table Nat := []
  /-- Spurs whose FLR has ended and that stay FAULTED because they hold a FAILED channel (R547), one bit each. -/
  held : Nat := 0
  /-- The raw time of the first fault trigger of a Spur (R545). -/
  faultAt : Table Nat := []
deriving DecidableEq, Repr

/-- An answer on the DOE mailbox (R379). -/
inductive DoeResp where
  | discovery (index : Nat) (supported : Bool)
  | version
  | capabilities
  | algorithms
  | digests (provisioned : Bool)
  | certificate (offset length : Nat)
  | challengeAuth (nonce : Nat)
  | measurements (values : List Nat)
  | keyExchangeRsp (session : Nat)
  | finishRsp (session : Nat)
  | heartbeatAck (session : Nat)
  | keyUpdateAck (session : Nat)
  | endSessionAck (session : Nat)
  | ideKmQueryResp
  | keyProgAck (fn : Nat)
  | kGoStopAck (fn : Nat)
  | tdispVersion
  | tdispCapabilities
  | lockResponse (tdi : Nat)
  /-- The interface report: the sizes of the function's windows, quads, channels, ports, queue blocks, grants, NGX_VER and
  NGX_IF (R380). -/
  | interfaceReport (tdi : Nat) (windows : List Nat) (quads ch wl eq : Nat) (grants : List Nat) (ver ifv : Nat)
  | interfaceState (tdi st : Nat)
  | startResponse (tdi : Nat)
  | stopResponse (tdi : Nat)
  /-- A TDISP request whose preconditions do not hold. -/
  | tdispError (tdi : Nat)
  /-- The SPDM error with its code: 0x05 Unspecified, 0x07 UnsupportedRequest. -/
  | error (code : Nat)
deriving DecidableEq, Repr

/-! ### `spec/14_causeway_cascade.md` -/

/-- An entry of the cascade map (R407). -/
structure MapEnt where
  serial : Nat
  devid : Nat
  role : Nat
  proven : Bool
deriving DecidableEq, Repr

/-- A Causeway packet sent: class, destination, source, BCAST, Spur, SUB, SEQ, class fields (bytes 8 to 31) and payload. -/
structure CwSend where
  cls : Nat
  dst : Nat
  src : Nat
  bcast : Bool
  spur : Nat
  sub : Nat
  seq : Nat
  fields : List Byte
  payload : List Byte
deriving DecidableEq, Repr

/-- The last STOP_STATE accepted from a Brim (R415). -/
structure AggSt where
  seq : Option Nat := none
  stop : Nat := 0
  slow : Nat := 0
  at_ : Nat := 0
deriving DecidableEq, Repr

/-- The Causeway switch and links beyond their registers (`spec/14_causeway_cascade.md`). -/
structure CwSt where
  /-- Frame number of the out-port (its parity chooses the marker) and the hop epochs of the two hops. -/
  frame : Nat := 0
  outEpoch : Nat := 0
  inEpoch : Nat := 0
  /-- The raw times at which the hops' epochs began. -/
  outEpochAt : Nat := 0
  inEpochAt : Nat := 0
  /-- The relayed HOPTAB (R389), by DEVID. -/
  hoptab : Table Nat := []
  /-- Lanes the transmitter keeps out for calibration (R403). -/
  outCal : Nat := 0
  /-- The packet counters of the two hops, from which the IVs are made (R397). -/
  outPkts : Nat := 0
  inPkts : Nat := 0
  /-- A marker A of the in-hop has been seen since it began, so its transmitter is known. -/
  inKnown : Bool := false
  /-- A valid marker has been seen in LISTEN, and the raw time of the last one (R406). -/
  markerAt : Option Nat := none
  /-- SPLICE_WT of the incoming markers and of the device's own (R406). -/
  spliceWt : Nat := 0
  /-- What the device does at the next splice. -/
  joining : Bool := false
  leaving : Bool := false
  /-- The local receiver or transmitter has failed: out of service until the next device reset (R418, Table FR-3). -/
  failed : Bool := false
  batchCmd : Option (Nat × Nat) := none
  /-- The upstream proved the kit; ENC of the out-hop to be set at the next frame boundary (R396, R398). -/
  upProven : Bool := false
  encNext : Bool := false
  peerSerial : Nat := 0
  map : List MapEnt := []
  /-- The Crown's own DISCOVER result in the making. -/
  discovering : Bool := false
  /-- SEQ of the last packet sent, keyed class × 8 + Spur, and of the last applied, keyed source × 64 + class × 8 + Spur. -/
  txSeq : Table Nat := []
  rxSeq : Table Nat := []
  /-- CTRL packets that wait for an acknowledgement and how often each has been sent (R413). -/
  ctrlOut : List (CwSend × Nat) := []
  /-- Last STOP_STATEs by DEVID (R415, R416). -/
  agg : Table AggSt := []
  /-- TIME packets of the Crown on the ring: departures in WT64, oldest first; the last good loop delay; PATHDLY of the
  previous loop by DEVID (R408 to R410). -/
  timeOut : List Nat := []
  goodL : Option Nat := none
  pathDly : Table Nat := []
  /-- Whether each of the last four TIME packets was received intact, newest first (R411). -/
  timeHist : List Bool := []
  /-- θ of the last 16 packets in 2⁻⁸ ns, newest first, and the Crown's TQ of the last one. -/
  thetas : List Int := []
  crownTq : Nat := 3
  /-- The servo has made its first alignment. -/
  aligned : Bool := false
deriving DecidableEq, Repr

/-- Crown time is present while at least 1 of the last 4 TIME packets was received intact (R411). -/
def CwSt.crownTime (c : CwSt) : Bool := c.timeHist.any id

/-! ### `spec/15_power.md` -/

/-- Where the sequencer stands (R426, R434). -/
inductive PmPhase where
  | idle
  /-- Entry before the point of no return, which comes at this raw time (R427). -/
  | entering (pnrAt : Nat)
  /-- After it, switches opening until this raw time. -/
  | switching (doneAt : Nat)
  /-- Waiting for rails to be acknowledged off. -/
  | railsOff
  /-- A wake or a return: waiting for its rails (step 0). -/
  | railsOn
  /-- Domains coming on. -/
  | waking
deriving DecidableEq, Repr

/-- What a rail has been commanded to (R443). -/
inductive RailCmd where
  | on | off
  /-- A voltage of an operating point 0 to 3. -/
  | volt (op : Nat)
deriving DecidableEq, Repr

/-- A rail command that waits: what, which try, and whether it restores the old value (R444). -/
structure RailWait where
  rail : Nat
  cmd : RailCmd
  tries : Nat
  old : RailCmd
  restoring : Bool
  /-- The raw time of the command. -/
  since : Nat
deriving DecidableEq, Repr

/-- A power request: the mailbox command that made it, its target in the layout of PM_TARGET, its wake target and TIMER
time (R421). -/
structure PmReq where
  mb : Nat
  id : Nat
  target : Nat
  wake : Nat
  time : Nat
deriving DecidableEq, Repr

/-- The AON sequencer beyond its registers (`spec/15_power.md`). -/
structure PmSt where
  phase : PmPhase := .idle
  /-- The request in progress, and the pending one (R436). -/
  req : Option PmReq := none
  pend : Option PmReq := none
  /-- Requests that merged with the transition in progress (R437). -/
  merged : List PmReq := []
  /-- Requests that the firmware holds: accepted, before WAITP, oldest first (R424, R504). -/
  held : List PmReq := []
  /-- The target that the current state was entered with, in the layout of PM_TARGET. -/
  home : Nat := 0
  /-- NCC0 stalls in WAITP (R422). -/
  stalled : Bool := false
  waits : List RailWait := []
  /-- Wake steps still to come: raw time at which each domain is on (R434). -/
  steps : List (Nat × Nat) := []
  /-- Domains that the transition turns off, those it brings on, and its target in the layout of PM_TARGET. -/
  leaving : Nat := 0
  rose : Nat := 0
  goal : Nat := 0
  /-- A wake that starts once the state is reached (R432). -/
  wakeDue : Bool := false
  /-- The raw time of the event that PM_WAKE_SRC.FIRST names (R433). -/
  firstAt : Nat := 0
  /-- Rails on, and rails whose domains run at the safe clock after a failed restore (R444). -/
  railsOn : Nat := 31
  railsBad : Nat := 0
  /-- MQ_OP commands that wait for their quadrant: quadrant, operating point, mailbox, command number; and those that the firmware
  delays for a deadline budget (R240). -/
  opCmds : List (Nat × Nat × Nat × Nat) := []
  opHeld : List (Nat × Nat × Nat × Nat) := []
  /-- Quadrants under self-test, one bit each; and for a quadrant that has been gated the Mills and TEs that GLOBAL_AVAIL counts for
  it until its self-test ends (R36, R241). -/
  bist : Nat := 0
  counted : Table (Nat × Nat) := []
  /-- Rails below their BOR threshold. -/
  bor : Nat := 0
  /-- The residency counters in microseconds (R439): 0 to 3 the states, 4 transitions, 5 + d domain d. -/
  res : Table Nat := []
  /-- NGX_STATE as it stood when PD_CTRL was gated. -/
  ngx : Nat := 0
deriving DecidableEq, Repr

/-! ### `spec/16_reset_and_persistence.md` -/

/-- A store in progress (R482): the CAL_STORE command, what it writes and where, the step of R482 and the sectors or pages
of the step still to do, the first of them in progress. -/
structure StoreSt where
  mb : Nat
  id : Nat
  payload : List Byte
  settings : List RegSet
  bankB : Bool
  base : Nat
  size : Nat
  seq : Nat
  page : Nat
  step : Nat
  todo : List Nat
deriving DecidableEq, Repr

/-- Resets, boot, fuses and stored calibration beyond their registers (`spec/16_reset_and_persistence.md`). -/
structure RstSt where
  /-- RESET_N is low. -/
  resetLow : Bool := false
  /-- A device reset waits for RESET_N: its kind, 0 POR, 1 BOR, 2 PIN (R455, R457). -/
  waiting : Option Nat := none
  /-- The raw time from which the device watchdog counts; it does not count while held (R456, R464). -/
  kick : Nat := 0
  wdtHeld : Bool := false
  /-- The fuse latches (R473): by word the majority value, + 2^32 where a bit is marginal, + 2^33 where one is discordant. -/
  fuses : Table Nat := []
  /-- Codes in the 96 through-path cells; none listed: as written at manufacture. -/
  cells : List Nat := []
  /-- The settings of the active bank (R478). -/
  flashSet : List RegSet := []
  /-- The Kerb configuration of the active bank is to be armed once the MAP is formed (R467). -/
  armDue : Bool := false
  store : Option StoreSt := none
deriving DecidableEq, Repr

/-! ### `spec/18_aux_signals.md` -/

/-- An output of a decimation chain (R525, R526). -/
structure ChOut where
  value : Int
  stamp : Nat
  gap : Bool
  sat : Bool
  settled : Bool
deriving DecidableEq, Repr

/-- A decimation chain (R521 to R526): inputs taken since it began, the last input, a missing sample since the last output,
the integrators and combs of the CIC stage, the last 31 outputs of that stage times M⁴, newest first, the block sum of
STEP = 1, the FIFO, and a dropped output still to be marked. -/
structure ChainSt where
  n : Nat := 0
  last : Int := 0
  missed : Bool := false
  ints : List Int := [0, 0, 0, 0]
  combs : List Int := [0, 0, 0, 0]
  taps : List Int := []
  sum : Int := 0
  fifo : List ChOut := []
  dropped : Bool := false
deriving DecidableEq, Repr

/-- An entry of an AUXEV FIFO (R528). -/
structure AuxEv where
  slot : Nat
  inp : Nat
  lvl : Nat
  data : Nat
  t : Nat
deriving DecidableEq, Repr

/-- Auxiliary sensors and board signals beyond their registers (`spec/18_aux_signals.md`): the stamp of the frame or read in
progress by port and by device entry, with the stamps of the samples missed meanwhile behind it (R515, R516, R518), the chains,
the AUXEV FIFOs by port, the GPIO FIFO with pin, level and WT64, and the TAP instruction in force. -/
structure AuxSt where
  spi : Table (List Nat) := []
  i3c : Table (List Nat) := []
  chains : Table ChainSt := []
  auxev : Table (List AuxEv) := []
  gpio : List (Nat × Bool × Nat) := []
  tap : TapInstr := .bypass
deriving DecidableEq, Repr

/-! ### `spec/20_electrical_and_package.md` -/

/-- Why the safety output drivers are off whatever the Kerb commands: VDD_3V3 lost (R561), THERMTRIP (R564). -/
structure SupplySt where
  v33Lost : Bool := false
  trip : Bool := false
deriving DecidableEq, Repr

/-- What the device sends, drives or hands on, as the rules name it. -/
inductive Tx where
  /-- Data returned to a read. -/
  | readData (who : Agent) (data : Nat)
  /-- A PTP message handed to the servo with its corrected ingress stamp (R51, R52). -/
  | ptpToServo (m : PtpMsg) (stamp : Int)
  /-- An ARP answer on ETH0 (R529). -/
  | arpReply (ip : Word) (mac : Nat)
  /-- The TAP shifts its IDCODE out (R533). -/
  | tapIdcode (code : Nat)
  /-- A Waymark word leaves a Wayline port (R56). -/
  | waymark (port : Nat) (w0 w1 : Word)
  /-- A trigger output is driven (R58). -/
  | trigLevel (n : Nat) (active : Bool)
  /-- A management frame leaves a Wayline port (R96). -/
  | mgmtFrame (port : Nat) (frame : List Byte)
  /-- A head reported to the firmware after FRAME_TMO (R98). -/
  | frameTimeout (port : Nat) (dest : Nat)
  /-- The Hatband carrier is switched (R123). -/
  | carrier (on : Bool)
  /-- A command to a tag (R121). -/
  | tagCommand (uid : Nat) (code : Byte) (arg : Nat)
  /-- Write Single Block of a tag (R127). -/
  | tagWrite (addr : Nat) (data : List Byte)
  /-- A line of a queue with its side-band tag (R158). -/
  | eqLine (who : Agent) (q : Nat) (line : List DWord) (tag : Nat)
  /-- FEAT_POP returns a batt handle to a core, 0 when empty (Table FU-6). -/
  | featHandle (core sub handle : Nat)
  /-- A waiting thread of a control core is woken with its outcome (R256). -/
  | nccWoken (core : Nat) (ms : Nat) (o : WOut)
  /-- The outcome of a Milestone operation of a control core, with VALUE and TARGET for a read (Table MS-3). -/
  | msOutcome (core : Nat) (ms : Nat) (code : Nat) (value target : Nat)
  /-- An answer of the buffer-pool manager (Table MS-3). -/
  | battAnswer (agent spur : Nat) (code handle : Nat)
  /-- The safety outputs change: one bit per output of Table KB-2, set while energised. -/
  | safetyOut (energised : Nat)
  /-- VP_STATUS of a writing core: 0 OK, then the checks of R317 in order from 1. -/
  | vpStatus (core : Nat) (code : Nat)
  /-- An answer on the DOE mailbox (R379). -/
  | doe (r : DoeResp)
  /-- A packet of this device leaves the out-port (R393). -/
  | cwSend (p : CwSend)
  /-- A packet is forwarded to the out-port (R394). -/
  | cwForward (header payload : List Byte)
  /-- Markers of a frame leave the out-port; lane bits are 0 (Table CW-1). -/
  | cwMarkers (kind : Nat) (payloads : List Nat)
  /-- CW_PEER_LOST is reported to a Spur (R413). -/
  | peerLost (spur : Nat) (seq : Nat)
  /-- A regulator command (R442). -/
  | railCommand (rail : Nat) (c : RailCmd)
  /-- An interrupt to a control core: 0 PM_DONE, 1 PM_INT, 2 a unit's completion event. -/
  | coreSignal (core : Nat) (what : Nat)
  /-- A posted request leaves on a function (R500). -/
  | host (fn : Nat) (p : HostPost) (tbit : Bool)
  /-- PME_TO_Ack is sent (R504). -/
  | pmeToAck
  /-- PCIE_WAKE_N is driven low or released (R506). -/
  | pcieWake (low : Bool)
  /-- An AUXSPI port starts a frame (R515). -/
  | spiFrame (p : Nat)
  /-- An I3C controller starts the read of an entry (R518). -/
  | i3cRead (c d : Nat)
  /-- A joiner is given a dynamic address by ENTDAA (R517). -/
  | i3cAddress (c d da : Nat)
  /-- TX_DIS of the module (R529). -/
  | ethTxDis (high : Bool)
  /-- THERMTRIP_N is asserted low (R564). -/
  | thermtripN
deriving DecidableEq, Repr

end Sys2Proof.Machine
end

