-- ==== Sys2Proof/Machine/State.lean ====
section
/-!
DEFINITION. The state of the IXM9640 as plain data, what it is right after reset, and the two reasons a step can stop.
Registers live in `regs` under the keys of `Machine/Regs.lean`; what is no register lives in the chapter's own field.
-/
namespace Sys2Proof.Machine

/-- Why a command faults. -/
inductive Fault where
  /-- Raised by a meaning for a command that is not well formed (`WellFormed.lean`): no such access or event exists on the
  device. Safe: nothing is proved of what happens then. -/
  | malformed
deriving DecidableEq, Repr

/-- Why a command is refused. -/
inductive Refusal where
  /-- Raised by a dispatch arm whose command has no meaning in the model yet. Safe. -/
  | notModelled (mnemonic : String)
deriving DecidableEq, Repr

/-- The whole device. -/
structure State where
  /-- Every register field, by key `Reg.key`; an unlisted one holds its reset value. -/
  regs : Table Nat := []
  /-- Every addressed memory of the device, one flat space (`Machine/Memory.lean`). -/
  mem : List Host.Cell := []
  /-- The model's own counter of free values consumed (not the spec's). -/
  free : Nat := 0
  /-- What the device has sent or driven, newest first. -/
  tx : List Tx := []
  /-- The raw counter, below 2^64 (R38). -/
  raw : Nat := 0
  /-- The TIME island and the PTP engine. -/
  time : TimeSt := {}
  /-- The Wayline ports WL0 to WL7 beyond their registers. -/
  ports : Table PortSt := []
  /-- The Hatband reader and the identity operation in progress. -/
  hat : HatSt := {}
  /-- The carding units. -/
  cards : Table CardSt := []
  /-- The head slots in their carding units. -/
  slots : Table SlotSt := []
  /-- The event queues beyond their registers. -/
  eqs : Table EqSt := []
  /-- The model's own order of forming of pending records. -/
  recSeq : Nat := 1
  /-- Kerb copies on their way to each Kerb unit, oldest first (R137). -/
  kcopies : Table (List KCopy) := []
  /-- The Fuller. -/
  ful : FulSt := {}
  /-- The Mills beyond their registers. -/
  mills : Table MillSt := []
  /-- The Milestone unit and the buffer-pool manager. -/
  ms : MsSt := {}
  /-- The Projectors, grids, Ego unit and Tracker beyond their registers. -/
  ft : FtSt := {}
  /-- The Kerb hub and units beyond their registers. -/
  kerb : KerbSt := {}
  /-- The mailboxes and the firmware beyond their registers. -/
  mail : MailSt := {}
  /-- The security engine beyond its registers. -/
  sec : SecSt := {}
  /-- The Causeway switch and links beyond their registers. -/
  cw : CwSt := {}
  /-- The AON sequencer beyond its registers. -/
  pm : PmSt := {}
  /-- Resets, boot, fuses and stored calibration beyond their registers. -/
  rst : RstSt := {}
  /-- The PCIe functions, PF0 and VF1 to VF7 (R488). -/
  fns : Table FnSt := []
  /-- SR-IOV VF Enable (R488). -/
  vfEnable : Bool := false
  /-- SR-IOV NumVFs, 0 to 7 (R488). -/
  numVfs : Nat := 0
  /-- MEM_CFG.CAP as applied at the last cold boot (Table HM-8). -/
  memCap : Nat := 0
  /-- The PCIe link beyond its registers. -/
  link : LinkSt := {}
  /-- The data of the last host read completion for each mailbox (R500). -/
  hostIn : Table (List Byte) := []
  /-- Raw times of the LINK_UE events of each channel within the last 1 s, newest first (R513). -/
  linkUes : Table (List Nat) := []
  /-- The auxiliary sensors and board signals beyond their registers. -/
  aux : AuxSt := {}
  /-- The error ring of each Spur (R538). -/
  errs : Table ErrRing := []
  /-- ISO_LOG, oldest first, at most 32 entries (R384). -/
  isoLog : List IsoEnt := []
  /-- Which WL1 fields have taken their first write, by register key (Table SC-8). -/
  wl1 : Table Bool := []
  /-- The carding units that have failed and are fenced (R542). -/
  cardFenced : Table Bool := []
  /-- The PD_FUL islands that have failed: bit 0 Fuller, 1 Projector array, 2 Ego unit, 3 Tracker (R543). -/
  fulFenced : Nat := 0
  /-- The supply conditions that switch the safety output drivers off. -/
  supply : SupplySt := {}
  /-- The commands that wait, first in, first out. -/
  pending : List Instr := []
deriving DecidableEq, Repr

/-- The device right after reset: every register at the Reset column of its table (or the value the log names), nothing
held anywhere, the raw counter at 0, no command waiting. -/
def State.reset : State := {}

end Sys2Proof.Machine
end

