-- ==== Sys2Proof/Machine/Table.lean ====
section
/-!
DEFINITION. Sparse tables in one canonical form (keys strictly rising, nothing listed that equals the default), the
number helpers every chapter uses, and lists of bounded length.
-/
namespace Sys2Proof.Machine

/-- The value at key `k`; `d` is what an unlisted key reads as. -/
def Table.get {α : Type} (d : α) : Table α → Nat → α
  | [], _ => d
  | (k', v) :: t, k => if k' = k then v else Table.get d t k

/-- Drop every entry at key `k`. -/
def Table.erase {α : Type} : Table α → Nat → Table α
  | [], _ => []
  | (k', v) :: t, k => if k' = k then Table.erase t k else (k', v) :: Table.erase t k

/-- Put `(k, v)` before the first larger key. -/
def Table.insert {α : Type} : Table α → Nat → α → Table α
  | [], k, v => [(k, v)]
  | (k', v') :: t, k, v => if k < k' then (k, v) :: (k', v') :: t else (k', v') :: Table.insert t k v

/-- Write `v` at `k`: writing the default removes the entry, so equal tables are equal data. -/
def Table.set {α : Type} [DecidableEq α] (d : α) (t : Table α) (k : Nat) (v : α) : Table α :=
  if v = d then Table.erase t k else Table.insert (Table.erase t k) k v

/-- Change the value at `k` with `f`. -/
def Table.upd {α : Type} [DecidableEq α] (d : α) (t : Table α) (k : Nat) (f : α → α) : Table α :=
  Table.set d t k (f (Table.get d t k))

/-- The canonical form: keys strictly rising and no listed value equal to the default. -/
abbrev Table.wf {α : Type} [DecidableEq α] (d : α) (t : Table α) : Prop :=
  (t.map Prod.fst).Pairwise (· < ·) ∧ ∀ e ∈ t, e.2 ≠ d

/-- Put an element before the first one with a larger key, so that equal keys keep their order. -/
def insertBy {α : Type} (key : α → Nat) (a : α) : List α → List α
  | [] => [a]
  | b :: t => if key a < key b then a :: b :: t else b :: insertBy key a t

/-- A list in ascending order of a key, equal keys in their order. -/
def sortBy {α : Type} (key : α → Nat) (l : List α) : List α := l.foldl (fun acc a => insertBy key a acc) []

/-- Keep the entries whose key satisfies `p`. -/
def Table.keep {α : Type} (p : Nat → Bool) (t : Table α) : Table α := t.filter fun e => p e.1

/-- Saturating addition below `2 ^ w`: counters "saturating" (R3, Table SC-8). -/
def satAdd (w a b : Nat) : Nat := min (a + b) (2 ^ w - 1)

/-- Bit `i` of a number. -/
def bit (n i : Nat) : Bool := n.testBit i

/-- Bits `[lo + w - 1 : lo]` of a number. -/
def bits (n lo w : Nat) : Nat := n / 2 ^ lo % 2 ^ w

/-- A number with bit `i` set to `b`. -/
def setBit (n i : Nat) (b : Bool) : Nat :=
  if b then (if n.testBit i then n else n + 2 ^ i) else (if n.testBit i then n - 2 ^ i else n)

/-- How many of bits 0 to `w - 1` are set. -/
def popcount : Nat → Nat → Nat
  | 0, _ => 0
  | w + 1, n => (if n % 2 = 1 then 1 else 0) + popcount w (n / 2)

/-- The lowest set bit below `w`, if there is one. -/
def lowestBit (w n : Nat) : Option Nat := (List.range w).find? fun i => n.testBit i

/-- The set bits below `w`, in ascending order. -/
def bitList (w n : Nat) : List Nat := (List.range w).filter fun i => n.testBit i

/-- The two's-complement reading of the low `w` bits of `n`. -/
def toSigned (w n : Nat) : Int :=
  let m := n % 2 ^ w
  if 2 * m < 2 ^ w then (m : Int) else (m : Int) - (2 ^ w : Nat)

/-- The low `w` bits of an integer, two's complement. -/
def ofSigned (w : Nat) (z : Int) : Nat := (z % ((2 ^ w : Nat) : Int)).toNat

/-- An integer limited to `[lo, hi]`. -/
def clampInt (lo hi z : Int) : Int := if z < lo then lo else if hi < z then hi else z

/-- `a ÷ b` rounded to the nearest integer, ties to even (R52). -/
def rneDiv (a : Int) (b : Nat) : Int :=
  let q := a.fdiv b
  let r := a - q * b
  if 2 * r < b then q
  else if (b : Int) < 2 * r then q + 1
  else if q % 2 = 0 then q else q + 1

/-- `a ÷ b` rounded up. -/
def ceilDiv (a b : Nat) : Nat := (a + b - 1) / b

/-- The bytes of `n`, least significant first (R14: multi-byte fields are little-endian). -/
def leBytes : Nat → Nat → List Byte
  | 0, _ => []
  | k + 1, n => BitVec.ofNat 8 n :: leBytes k (n / 256)

/-- The number whose little-endian bytes are `l`. -/
def ofLe : List Byte → Nat
  | [] => 0
  | b :: t => b.toNat + 256 * ofLe t

/-- `k` bytes of `l` from offset `o`, as a little-endian number; bytes beyond the end read as 0. -/
def leAt (l : List Byte) (o k : Nat) : Nat := ofLe ((l.drop o).take k)

/-- Byte `o` of `l`, as a number; 0 beyond the end. -/
def byteAt (l : List Byte) (o : Nat) : Nat := ((l.drop o).head?.map BitVec.toNat).getD 0

/-- A reflected CRC step over one byte with polynomial `p` (bit-reversed form). -/
def crcByteR (p : Nat) (c : Nat) (b : Nat) : Nat :=
  (List.range 8).foldl (fun c _ => if c % 2 = 1 then (c / 2) ^^^ p else c / 2) (c ^^^ b)

/-- CRC-32 of IEEE 802.3 over a byte list: the CRC-32 every chapter names by R96. -/
def crc32 (l : List Byte) : Nat :=
  (l.foldl (fun c b => crcByteR 0xEDB88320 c b.toNat) 0xFFFFFFFF) ^^^ 0xFFFFFFFF

/-- A management frame on the line (R96, Table WL-5): the header with the device as its source, the payload, its CRC-32, and
zeros up to the next 8-byte boundary of the data blocks. -/
def mgmtWire (dest typ seq : Nat) (payload : List Byte) : List Byte :=
  let head := leBytes 1 dest ++ [0x7E] ++ leBytes 1 typ ++ leBytes 1 seq ++ leBytes 1 payload.length ++ leBytes 2 0
  let n := payload.length + 4
  head ++ payload ++ leBytes 4 (crc32 (head ++ payload)) ++ List.replicate (8 * ceilDiv n 8 - n) 0

/-- A non-reflected CRC of width `w`, polynomial `p`, most significant bit of each byte first. -/
def crcMsb (w p init : Nat) (l : List Byte) : Nat :=
  l.foldl (fun c b =>
    (List.range 8).foldl
      (fun c i =>
        let inb := (b.toNat >>> (7 - i)) % 2
        let top := (c >>> (w - 1)) % 2
        let c' := (c * 2) % 2 ^ w
        if (top ^^^ inb) = 1 then c' ^^^ p else c') c) init

end Sys2Proof.Machine
end

