-- ==== Sys2Proof/Machine/Update.lean ====
section
/-!
DEFINITION. One update function per part of `State`, so that a meaning names the part it changes.
-/
namespace Sys2Proof.Machine

/-- Change every register field, by key `Reg.key`; an unlisted one holds its reset value. -/
def State.onRegs (s : State) (f : (Table Nat) → (Table Nat)) : State := { s with regs := f s.regs }

/-- Change every addressed memory of the device, one flat space (`Machine/Memory.lean`). -/
def State.onMem (s : State) (f : (List Host.Cell) → (List Host.Cell)) : State := { s with mem := f s.mem }

/-- Change the model's own counter of free values consumed (not the spec's). -/
def State.onFree (s : State) (f : Nat → Nat) : State := { s with free := f s.free }

/-- Change what the device has sent or driven, newest first. -/
def State.onTx (s : State) (f : (List Tx) → (List Tx)) : State := { s with tx := f s.tx }

/-- Change the raw counter, below 2^64 (R38). -/
def State.onRaw (s : State) (f : Nat → Nat) : State := { s with raw := f s.raw }

/-- Change the TIME island and the PTP engine. -/
def State.onTime (s : State) (f : TimeSt → TimeSt) : State := { s with time := f s.time }

/-- Change the Wayline ports WL0 to WL7 beyond their registers. -/
def State.onPorts (s : State) (f : (Table PortSt) → (Table PortSt)) : State := { s with ports := f s.ports }

/-- Change the Hatband reader and the identity operation in progress. -/
def State.onHat (s : State) (f : HatSt → HatSt) : State := { s with hat := f s.hat }

/-- Change the carding units. -/
def State.onCards (s : State) (f : (Table CardSt) → (Table CardSt)) : State := { s with cards := f s.cards }

/-- Change the head slots in their carding units. -/
def State.onSlots (s : State) (f : (Table SlotSt) → (Table SlotSt)) : State := { s with slots := f s.slots }

/-- Change the event queues beyond their registers. -/
def State.onEqs (s : State) (f : (Table EqSt) → (Table EqSt)) : State := { s with eqs := f s.eqs }

/-- Change the model's own order of forming of pending records. -/
def State.onRecSeq (s : State) (f : Nat → Nat) : State := { s with recSeq := f s.recSeq }

/-- Change Kerb copies on their way to each Kerb unit, oldest first (R137). -/
def State.onKcopies (s : State) (f : (Table (List KCopy)) → (Table (List KCopy))) : State := { s with kcopies := f s.kcopies }

/-- Change the Fuller. -/
def State.onFul (s : State) (f : FulSt → FulSt) : State := { s with ful := f s.ful }

/-- Change the Mills beyond their registers. -/
def State.onMills (s : State) (f : (Table MillSt) → (Table MillSt)) : State := { s with mills := f s.mills }

/-- Change the Milestone unit and the buffer-pool manager. -/
def State.onMs (s : State) (f : MsSt → MsSt) : State := { s with ms := f s.ms }

/-- Change the Projectors, grids, Ego unit and Tracker beyond their registers. -/
def State.onFt (s : State) (f : FtSt → FtSt) : State := { s with ft := f s.ft }

/-- Change the Kerb hub and units beyond their registers. -/
def State.onKerb (s : State) (f : KerbSt → KerbSt) : State := { s with kerb := f s.kerb }

/-- Change the mailboxes and the firmware beyond their registers. -/
def State.onMail (s : State) (f : MailSt → MailSt) : State := { s with mail := f s.mail }

/-- Change the security engine beyond its registers. -/
def State.onSec (s : State) (f : SecSt → SecSt) : State := { s with sec := f s.sec }

/-- Change the Causeway switch and links beyond their registers. -/
def State.onCw (s : State) (f : CwSt → CwSt) : State := { s with cw := f s.cw }

/-- Change the AON sequencer beyond its registers. -/
def State.onPm (s : State) (f : PmSt → PmSt) : State := { s with pm := f s.pm }

/-- Change resets, boot, fuses and stored calibration beyond their registers. -/
def State.onRst (s : State) (f : RstSt → RstSt) : State := { s with rst := f s.rst }

/-- Change the PCIe functions, PF0 and VF1 to VF7 (R488). -/
def State.onFns (s : State) (f : (Table FnSt) → (Table FnSt)) : State := { s with fns := f s.fns }

/-- Change SR-IOV VF Enable (R488). -/
def State.onVfEnable (s : State) (f : Bool → Bool) : State := { s with vfEnable := f s.vfEnable }

/-- Change SR-IOV NumVFs, 0 to 7 (R488). -/
def State.onNumVfs (s : State) (f : Nat → Nat) : State := { s with numVfs := f s.numVfs }

/-- Change MEM_CFG.CAP as applied at the last cold boot (Table HM-8). -/
def State.onMemCap (s : State) (f : Nat → Nat) : State := { s with memCap := f s.memCap }

/-- Change the PCIe link beyond its registers. -/
def State.onLink (s : State) (f : LinkSt → LinkSt) : State := { s with link := f s.link }

/-- Change the data of the last host read completion for each mailbox (R500). -/
def State.onHostIn (s : State) (f : (Table (List Byte)) → (Table (List Byte))) : State := { s with hostIn := f s.hostIn }

/-- Change raw times of the LINK_UE events of each channel within the last 1 s, newest first (R513). -/
def State.onLinkUes (s : State) (f : (Table (List Nat)) → (Table (List Nat))) : State := { s with linkUes := f s.linkUes }

/-- Change the auxiliary sensors and board signals beyond their registers. -/
def State.onAux (s : State) (f : AuxSt → AuxSt) : State := { s with aux := f s.aux }

/-- Change the error ring of each Spur (R538). -/
def State.onErrs (s : State) (f : (Table ErrRing) → (Table ErrRing)) : State := { s with errs := f s.errs }

/-- Change ISO_LOG, oldest first, at most 32 entries (R384). -/
def State.onIsoLog (s : State) (f : (List IsoEnt) → (List IsoEnt)) : State := { s with isoLog := f s.isoLog }

/-- Change which WL1 fields have taken their first write, by register key (Table SC-8). -/
def State.onWl1 (s : State) (f : (Table Bool) → (Table Bool)) : State := { s with wl1 := f s.wl1 }

/-- Change the carding units that have failed and are fenced (R542). -/
def State.onCardFenced (s : State) (f : (Table Bool) → (Table Bool)) : State := { s with cardFenced := f s.cardFenced }

/-- Change the PD_FUL islands that have failed: bit 0 Fuller, 1 Projector array, 2 Ego unit, 3 Tracker (R543). -/
def State.onFulFenced (s : State) (f : Nat → Nat) : State := { s with fulFenced := f s.fulFenced }

/-- Change the supply conditions that switch the safety output drivers off. -/
def State.onSupply (s : State) (f : SupplySt → SupplySt) : State := { s with supply := f s.supply }

/-- Change the commands that wait, first in, first out. -/
def State.onPending (s : State) (f : (List Instr) → (List Instr)) : State := { s with pending := f s.pending }

end Sys2Proof.Machine
end

