-- ==== Sys2Proof/WellFormed.lean ====
section
/-!
DEFINITION. Which commands are well formed. The types of the operands bound most of them; what is left are the lengths of
byte lists that stand for a packet, a descriptor or a record, and the words of a fuse read. A meaning answers an ill-formed
command with the fault `malformed`: no such event exists on the device.
-/
namespace Sys2Proof

/-- A Causeway packet: a header of 32 bytes and NBLK payload blocks of 32 bytes, at most 64 (Table CW-3). -/
def CwPacket.wf (p : CwPacket) : Bool :=
  let n := ((p.header[2]?).getD 0).toNat % 128
  p.header.length == 32 && n ≤ 64 && p.payload.length == 32 * n

/-- A fuse read senses every word once. -/
def BootFacts.wf (f : BootFacts) : Bool := decide (f.fuses.map FuseWord.word).Nodup

/-- A command is well formed. -/
def Instr.wf : Instr → Bool
  | .stopStateRx p => p.wf
  | .timePacketRx p _ _ => p.wf
  | .helloRx p _ => p.wf
  | .discoverRx p => p.wf
  | .mapRx p => p.wf
  | .ctrlPacketRx p => p.wf
  | .ctrlAckRx p => p.wf
  | .dataPacketRx p => p.wf
  | .projectorJob _ desc _ => desc.length == 32
  | .projectorClose _ desc => desc.length == 32
  | .trackerPass _ desc _ => desc.length == 64
  | .trackerFlush _ desc => desc.length == 64
  | .poseFrameRx _ frame => frame.length == 64
  | .verdictCommit _ rec => rec.length == 144
  | .descriptorFetch _ desc _ => desc.length == 64
  | .por facts _ => facts.wf
  | .wdtExpiry facts => facts.wf
  | .softReset _ facts => facts.wf
  | .resetNRelease facts => facts.wf
  | .borEnd facts => facts.wf
  | .sharedUnitFault _ _ facts => facts.wf
  | _ => true

end Sys2Proof
end

