-- ==== Sys2Proof/Machine/Ops.lean ====
section
/-!
DEFINITION. The named operations over the registers, the free values, the device memory and what the device sends: every
meaning reads and writes the state through these.
-/
namespace Sys2Proof.Machine

/-- The outcome of a command. -/
abbrev Out := Host.Outcome State Fault Refusal

/-! ### Registers -/

/-- Instances of one field are numbered below 2^24, so a field and an index make one key. -/
def Reg.key (r : Reg) (i : Nat) : Nat := r.ctorIdx * 2 ^ 24 + i % 2 ^ 24

/-- The field a key belongs to, as its position in the register tables. -/
def keyField (k : Nat) : Nat := k / 2 ^ 24

/-- The value a register field holds. -/
def State.rd (s : State) (r : Reg) (i : Nat := 0) : Nat := Table.get r.spec.rst s.regs (r.key i)

/-- Put a value into a register field, cut to its width. -/
def State.wr (s : State) (r : Reg) (i : Nat) (v : Nat) : State :=
  s.onRegs fun t => Table.set r.spec.rst t (r.key i) (v % 2 ^ r.spec.width)

/-- A one-bit field as a truth value. -/
def State.flag (s : State) (r : Reg) (i : Nat := 0) : Bool := s.rd r i != 0

/-- Set or clear a one-bit field. -/
def State.put (s : State) (r : Reg) (i : Nat) (b : Bool) : State := s.wr r i (if b then 1 else 0)

/-- Count up a saturating counter field by `n` (access code RC, "saturating"). -/
def State.count (s : State) (r : Reg) (i : Nat := 0) (n : Nat := 1) : State :=
  s.wr r i (satAdd r.spec.width (s.rd r i) n)

/-- Set one bit of a field. -/
def State.setBitOf (s : State) (r : Reg) (i : Nat) (b : Nat) (v : Bool := true) : State :=
  s.wr r i (setBit (s.rd r i) b v)

/-- A signed field, two's complement in its width. -/
def State.rdSigned (s : State) (r : Reg) (i : Nat := 0) : Int := toSigned r.spec.width (s.rd r i)

/-- Put an integer into a field, two's complement in its width. -/
def State.wrSigned (s : State) (r : Reg) (i : Nat) (z : Int) : State := s.wr r i (ofSigned r.spec.width z)

/-- A 64-bit value held in two 32-bit fields. -/
def State.rd64 (s : State) (lo hi : Reg) (i : Nat := 0) : Nat := s.rd lo i + 2 ^ 32 * s.rd hi i

/-- Put a 64-bit value into two 32-bit fields. -/
def State.wr64 (s : State) (lo hi : Reg) (i : Nat) (v : Nat) : State := (s.wr lo i v).wr hi i (v / 2 ^ 32)

/-- Put every instance `i < n` of a field back to its reset value. -/
def State.clearRange (s : State) (r : Reg) (n : Nat) : State :=
  s.onRegs (Table.keep fun k => !(keyField k = r.ctorIdx ∧ k % 2 ^ 24 < n : Bool))

/-! ### Free values -/

/-- The next free value, below `2 ^ w`, and the state that has consumed it. -/
def State.fresh (s : State) (w : Nat) : Nat × State :=
  (Config.free s.free % 2 ^ w, s.onFree (· + 1))

/-! ### What the device sends -/

/-- Record that the device has sent or driven something. -/
def State.emit (s : State) (t : Tx) : State := s.onTx (t :: ·)

/-- Apply a change for every element of a list, in order. -/
def State.each {α : Type} (s : State) (l : List α) (f : State → α → State) : State := l.foldl f s

/-- Apply a change only when a condition holds. -/
def State.when (s : State) (c : Bool) (f : State → State) : State := if c then f s else s

/-- End a command with a next state. -/
def done (s : State) : Out := .next s

/-- Run a meaning on a command that is well formed (`WellFormed.lean`); else the fault `malformed`. -/
def checked (ok : Bool) (o : Out) : Out := if ok then o else .fault .malformed

/-! ### Device memory: one flat space of bytes -/

/-- The memories of the device: LPDDR channel c, the SRAM of Mill m, the short-batt store, Nap memory, the control memory
and the boot flash. -/
inductive Space where
  | lpddr (c : Nat)
  | mill (m : Nat)
  | batts
  | nap
  | control
  | flash
deriving DecidableEq, Repr

/-- Where a memory lies in the flat space: regions of 2^36 bytes, larger than any memory of the device. -/
def Space.base : Space → Nat
  | .lpddr c => c * 2 ^ 36
  | .mill m => (8 + m) * 2 ^ 36
  | .batts => 136 * 2 ^ 36
  | .nap => 137 * 2 ^ 36
  | .control => 138 * 2 ^ 36
  | .flash => 139 * 2 ^ 36

/-- What a byte that nothing has written reads as. DESIGN CHOICE: zero; the spec gives no power-on contents. -/
def unwritten : Byte := 0

/-- One byte of a memory. -/
def State.ldByte (s : State) (p : Space) (a : Nat) : Byte := Table.get unwritten s.mem (p.base + a)

/-- Store one byte. -/
def State.stByte (s : State) (p : Space) (a : Nat) (b : Byte) : State :=
  s.onMem fun m => Table.set unwritten m (p.base + a) b

/-- `n` bytes from an address. -/
def State.ldBytes (s : State) (p : Space) (a n : Nat) : List Byte := (List.range n).map fun i => s.ldByte p (a + i)

/-- Store bytes from an address on. -/
def State.stBytes (s : State) (p : Space) : Nat → List Byte → State
  | _, [] => s
  | a, b :: t => State.stBytes (s.stByte p a b) p (a + 1) t

/-- `n` bytes from an address as a little-endian number (R14). -/
def State.ldLe (s : State) (p : Space) (a n : Nat) : Nat := ofLe (s.ldBytes p a n)

/-- Store a number in `n` little-endian bytes (R14). -/
def State.stLe (s : State) (p : Space) (a n v : Nat) : State := s.stBytes p a (leBytes n v)

/-- Put every byte of `[a, a + n)` back to what an unwritten byte reads as. -/
def State.zero (s : State) (p : Space) (a n : Nat) : State :=
  s.onMem (Table.keep fun k => !(p.base + a ≤ k && k < p.base + a + n))

/-- The canonical form of the device memory. -/
abbrev Memory.wf (m : List Host.Cell) : Prop := Table.wf unwritten m

end Sys2Proof.Machine
end

