-- ==== Sys2Proof/Machine/Clock.lean ====
section
/-!
DEFINITION. The raw counter, Waytime and the stamps taken from it (`spec/02_time_base.md`).
-/
namespace Sys2Proof.Machine

/-- The Waytime parameters OFF, RATE and RBASE. -/
structure TimeParams where
  off : Int
  rate : Int
  rbase : Nat
deriving DecidableEq, Repr

/-- OFF is a signed 64-bit count of nanoseconds with a 16-bit fraction (R43). -/
def wrapOff (z : Int) : Int := Int.bmod z (2 ^ 80)

/-- The rate term floor(RATE × (r − RBASE) ÷ 2³²), rounded toward minus infinity (R43). -/
def rateTerm (rate : Int) (r rbase : Nat) : Int := (rate * ((r : Int) - rbase)).fdiv (2 ^ 32)

/-- What a commit makes of the parameters at its R_c (Table TB-2). A SLEW leaves them as they are. -/
def Commit.params (c : Commit) (rc : Nat) (p : TimeParams) : TimeParams :=
  match c.op with
  | .fold => { off := wrapOff (p.off + rateTerm p.rate rc p.rbase), rate := c.rate, rbase := rc }
  | .step => { p with off := wrapOff (p.off + c.slew * 2 ^ 16) }
  | .slew => p

/-- The parameters in force, without the commit that waits for its R_c. -/
def TimeSt.params (t : TimeSt) : TimeParams := ⟨t.off, t.rate, t.rbase⟩

/-- The parameters a stamp of raw value `r` uses: a commit counts from its R_c on (R45). -/
def TimeSt.paramsAt (t : TimeSt) (r : Nat) : TimeParams :=
  match t.taken with
  | some (c, rc) => if rc ≤ r then c.params rc t.params else t.params
  | none => t.params

/-- W of R43, in units of 2⁻¹⁶ ns; it may be negative. -/
def TimeParams.w (p : TimeParams) (r : Nat) : Int := (r : Int) * 2 ^ 16 + p.off + rateTerm p.rate r p.rbase

/-- Waytime in units of 2⁻¹⁶ ns: a negative W reads as 0 (R44). -/
def State.waytimeAt (s : State) (r : Nat) : Nat := ((s.time.paramsAt r).w r).toNat

/-- Waytime now. -/
def State.waytime (s : State) : Nat := s.waytimeAt s.raw

/-- Whether W is negative now (R44). -/
def State.waytimeNeg (s : State) : Bool := (s.time.paramsAt s.raw).w s.raw < 0

/-- SEC of Table TB-1. -/
def wtSec (w : Nat) : Nat := w / 2 ^ 16 / 10 ^ 9

/-- NS of Table TB-1. -/
def wtNs (w : Nat) : Nat := w / 2 ^ 16 % 10 ^ 9

/-- FRAC of Table TB-1. -/
def wtFrac (w : Nat) : Nat := w % 2 ^ 16

/-- WT64: the low 64 bits of SEC × 10⁹ + NS (R42). -/
def wt64 (w : Nat) : Nat := w / 2 ^ 16 % 2 ^ 64

/-- WT64 now. -/
def State.now (s : State) : Nat := wt64 s.waytime

/-- Microsecond time now: floor(WT64 ÷ 1,000) (R42). -/
def State.nowUs (s : State) : Nat := s.now / 1000

/-- An asymmetry in picoseconds as units of 2⁻¹⁶ ns, rounded to nearest even (R52). -/
def asymUnits (ps : Int) : Int := rneDiv (ps * 65536) 1000

/-- R_c of a commit taken at raw value `r`: the first multiple of 16 at least 32 ns later (R46). -/
def rcAfter (r : Nat) : Nat := (r + 32 + 15) / 16 * 16

/-- The stamp extension of R71: the microsecond time with these low 31 bits that lies within 2³⁰ of the base. -/
def extendUs (base s31 : Nat) : Nat :=
  let c : Int := base / 2 ^ 31 * 2 ^ 31 + s31 % 2 ^ 31
  let d : Int := c - base
  (if d < -(2 ^ 30) then c + 2 ^ 31 else if 2 ^ 30 ≤ d then c - 2 ^ 31 else c).toNat

end Sys2Proof.Machine
end

