-- ==== Sys2Proof/Machine/Float.lean ====
section
/-!
DEFINITION. Floating point by exact rationals: decoding and encoding of binary layouts (R190), the one rounding mode
(R204: nearest, ties to even), and the FP32 operations the units use, each rounded once.
-/
namespace Sys2Proof.Machine

/-- A binary layout: exponent bits, fraction bits, bias, and whether the top exponent holds infinities and NaN as in
IEEE 754 (E4M3 has none but one NaN pattern per sign). -/
structure Fmt where
  ebits : Nat
  mbits : Nat
  bias : Nat
  ieee : Bool := true
deriving DecidableEq, Repr

def fp32 : Fmt := { ebits := 8, mbits := 23, bias := 127 }
def bf16 : Fmt := { ebits := 8, mbits := 7, bias := 127 }
def fp16 : Fmt := { ebits := 5, mbits := 10, bias := 15 }
def e5m2 : Fmt := { ebits := 5, mbits := 2, bias := 15 }
def e4m3 : Fmt := { ebits := 4, mbits := 3, bias := 7, ieee := false }

/-- 2 to an integer power. -/
def pow2 (e : Int) : Rat := if 0 ≤ e then ((2 ^ e.toNat : Nat) : Rat) else 1 / ((2 ^ (-e).toNat : Nat) : Rat)

/-- The value of a bit pattern. -/
def Fmt.decode (f : Fmt) (n : Nat) : FVal :=
  let fr := bits n 0 f.mbits
  let ex := bits n f.mbits f.ebits
  let neg := bit n (f.mbits + f.ebits)
  let sg : Rat := if neg then -1 else 1
  let top := 2 ^ f.ebits - 1
  if ex = top ∧ f.ieee then (if fr = 0 then .inf neg else .nan)
  else if ex = top ∧ fr = 2 ^ f.mbits - 1 then .nan
  else if ex = 0 then .fin (sg * fr * pow2 (1 - (f.bias : Int) - f.mbits))
  else .fin (sg * (2 ^ f.mbits + fr : Nat) * pow2 ((ex : Int) - f.bias - f.mbits))

/-- An operand pattern whose exponent is 0 and fraction is not (R196). -/
def Fmt.subnormal (f : Fmt) (n : Nat) : Bool := bits n f.mbits f.ebits == 0 && bits n 0 f.mbits != 0

/-- The floor of the base-2 logarithm of a non-zero rational's magnitude. -/
def ilog2 (q : Rat) : Int :=
  let a := q.num.natAbs
  let k : Int := (Nat.log2 a : Int) - Nat.log2 q.den
  if pow2 k * q.den ≤ a then (if pow2 (k + 1) * q.den ≤ a then k + 1 else k) else k - 1

/-- A rational rounded to the nearest integer, ties to even (R204). -/
def rneRat (q : Rat) : Int := rneDiv q.num q.den

/-- A rational rounded to `mbits + 1` significant bits with an exponent not below `emin` (R204), the exponent range above
unbounded. -/
def Fmt.roundRat (f : Fmt) (q : Rat) (bounded : Bool := true) : Rat :=
  if q = 0 then 0
  else
    let e := if bounded then max (ilog2 q) (1 - (f.bias : Int)) else ilog2 q
    let s := e - f.mbits
    (rneRat (q * pow2 (-s)) : Int) * pow2 s

/-- The largest finite value. -/
def Fmt.maxVal (f : Fmt) : Rat :=
  if f.ieee then ((2 ^ (f.mbits + 1) - 1 : Nat) : Rat) * pow2 ((2 ^ f.ebits - 2 : Nat) - (f.bias : Int) - f.mbits)
  else ((2 ^ (f.mbits + 1) - 2 : Nat) : Rat) * pow2 ((2 ^ f.ebits - 1 : Nat) - (f.bias : Int) - f.mbits)

/-- The smallest normal value. -/
def Fmt.minNormal (f : Fmt) : Rat := pow2 (1 - (f.bias : Int))

/-- Round to a value of the format; beyond the largest finite value it is an infinity. -/
def Fmt.round (f : Fmt) : FVal → FVal
  | .fin q => let r := f.roundRat q; if f.maxVal < |r| then .inf (r < 0) else .fin r
  | v => v

/-- The canonical NaN of a layout: quiet, sign 0 (Table NF-6). -/
def Fmt.nanBits (f : Fmt) : Nat :=
  if f.ieee then (2 ^ f.ebits - 1) * 2 ^ f.mbits + 2 ^ (f.mbits - 1) else 2 ^ (f.ebits + f.mbits) - 1

/-- The bit pattern of a value of the format. -/
def Fmt.encode (f : Fmt) (v : FVal) : Nat :=
  match v with
  | .nan => f.nanBits
  | .inf neg =>
    (if neg then 2 ^ (f.ebits + f.mbits) else 0) +
      (if f.ieee then (2 ^ f.ebits - 1) * 2 ^ f.mbits else 2 ^ (f.ebits + f.mbits) - 1)
  | .fin q =>
    if q = 0 then 0
    else
      let sg := if q < 0 then 2 ^ (f.ebits + f.mbits) else 0
      let e := max (ilog2 q) (1 - (f.bias : Int))
      let m := (rneRat (|q| * pow2 (f.mbits - e))).toNat
      if m < 2 ^ f.mbits then sg + m else sg + (e + f.bias).toNat * 2 ^ f.mbits + (m - 2 ^ f.mbits)

/-! ### FP32 operations, each rounded once -/

/-- The value of an FP32 word. -/
def f32 (n : Nat) : FVal := fp32.decode n

/-- The FP32 word of a value. -/
def toF32 (v : FVal) : Nat := fp32.encode (fp32.round v)

/-- An integer as an exact value. -/
def fInt (z : Int) : FVal := .fin z

/-- A sum, rounded once. -/
def fadd : FVal → FVal → FVal
  | .nan, _ => .nan
  | _, .nan => .nan
  | .inf a, .inf b => if a = b then .inf a else .nan
  | .inf a, _ => .inf a
  | _, .inf b => .inf b
  | .fin a, .fin b => fp32.round (.fin (a + b))

/-- The negation. -/
def fneg : FVal → FVal
  | .nan => .nan
  | .inf a => .inf (!a)
  | .fin a => .fin (-a)

/-- A difference, rounded once. -/
def fsub (a b : FVal) : FVal := fadd a (fneg b)

/-- A product, rounded once. -/
def fmul : FVal → FVal → FVal
  | .nan, _ => .nan
  | _, .nan => .nan
  | .inf a, .inf b => .inf (a != b)
  | .inf a, .fin b => if b = 0 then .nan else .inf (a != decide (b < 0))
  | .fin a, .inf b => if a = 0 then .nan else .inf (b != decide (a < 0))
  | .fin a, .fin b => fp32.round (.fin (a * b))

/-- A quotient, rounded once. -/
def fdiv : FVal → FVal → FVal
  | .nan, _ => .nan
  | _, .nan => .nan
  | .inf _, .inf _ => .nan
  | .inf a, .fin b => .inf (a != decide (b < 0))
  | .fin _, .inf _ => .fin 0
  | .fin a, .fin b => if b = 0 then (if a = 0 then .nan else .inf (a < 0)) else fp32.round (.fin (a / b))

/-- A comparison; false with a NaN. -/
def flt : FVal → FVal → Bool
  | .nan, _ => false
  | _, .nan => false
  | .inf a, .inf b => a && !b
  | .inf a, .fin _ => a
  | .fin _, .inf b => !b
  | .fin a, .fin b => a < b

/-- At or below; false with a NaN. -/
def fle (a b : FVal) : Bool :=
  match a, b with
  | .nan, _ => false
  | _, .nan => false
  | _, _ => !flt b a

/-- The floor of a finite value, if it is finite. -/
def ffloor : FVal → Option Int
  | .fin q => some q.floor
  | _ => none

/-- A sum of products taken left to right, each product and each sum rounded once (R280). -/
def fdot : List (FVal × FVal) → FVal
  | [] => .fin 0
  | (a, b) :: t => t.foldl (fun acc p => fadd acc (fmul p.1 p.2)) (fmul a b)

/-- A 3 × 3 matrix (row order) times a vector (R280). -/
def fmatvec (m : List FVal) (v : List FVal) : List FVal :=
  (List.range 3).map fun r => fdot (((m.drop (3 * r)).take 3).zip v)

/-- The transpose of a 3 × 3 matrix in row order. -/
def ftranspose (m : List FVal) : List FVal :=
  [0, 3, 6, 1, 4, 7, 2, 5, 8].map fun i => (m[i]?).getD (.fin 0)

end Sys2Proof.Machine
end

