-- ==== Sys2Proof/Machine/Report.lean ====
section
/-!
DEFINITION. What the device reports: error records and their rings, MSI-X messages, lock violations, isolation violations
and the triggers of Spur faults. Every chapter reports through these.
-/
namespace Sys2Proof.Machine

/-- TYPE and SEV of an error type (Table FR-2). -/
def ErrType.code : ErrType → Nat × Nat
  | .regRsvd => (0x0101, 1) | .lockViol => (0x0102, 1) | .hostFwwr => (0x0103, 1) | .isolation => (0x0104, 1)
  | .fuseDrift => (0x0105, 0) | .strapChg => (0x0106, 0) | .sLost => (0x0107, 2)
  | .idReject => (0x0201, 0) | .hotpixOvf => (0x0202, 0) | .cardTblUe => (0x0203, 2) | .eqUe => (0x0204, 2)
  | .eqPtr => (0x0205, 2) | .cardFail => (0x0206, 3) | .headLost => (0x0207, 0)
  | .napUe => (0x0301, 2) | .egoSuspend => (0x0302, 0) | .trkIdExh => (0x0303, 0) | .sharedFail => (0x0304, 4)
  | .sramUe => (0x0401, 2) | .dmaErr => (0x0402, 1) | .tkcOvf => (0x0403, 2) | .descErr => (0x0404, 2)
  | .teRemoved => (0x0405, 3) | .rerunFail => (0x0406, 2) | .millRemoved => (0x0407, 3)
  | .msSat => (0x0501, 0) | .bpErr => (0x0502, 1) | .battUe => (0x0503, 2)
  | .kerbFault => (0x0601, 5)
  | .nccFail => (0x0701, 3) | .spurDead => (0x0702, 4) | .mbFetch => (0x0703, 2) | .hostDma => (0x0704, 2)
  | .nanOut => (0x0705, 0) | .spurFault => (0x0706, 4)
  | .chFailed => (0x0801, 4) | .linkUe => (0x0802, 2)
  | .cwPortFail => (0x0901, 3) | .cwPeerLost => (0x0902, 0)
  | .retErr => (0x0A01, 4) | .regFail => (0x0A02, 0) | .bow => (0x0A03, 5) | .regFault => (0x0A04, 3)

/-- Numbers of the power domains (Table PW-1). -/
def pdCtrl : Nat := 0
def pdHost : Nat := 1
def pdMem : Nat := 2
def pdAux : Nat := 3
def pdWla : Nat := 4
def pdWlb : Nat := 5
def pdFul : Nat := 6
def pdKerb : Nat := 7
def pdMq (q : Nat) : Nat := 8 + q
def pdCw : Nat := 12

/-- Whether a power domain is on. -/
def State.domOn (s : State) (d : Nat) : Bool := bit (s.rd .PM_STATUS_DOM_ON) d

/-- The domain of a Wayline port and its carding unit (Table AR-3). -/
def wlDomain (port : Nat) : Nat := if port < 4 then pdWla else pdWlb

/-! ### PCIe functions -/

/-- The state of a PCIe function. -/
def State.fn (s : State) (f : Nat) : FnSt := Table.get {} s.fns f

/-- Change the state of a PCIe function. -/
def State.onFn (s : State) (f : Nat) (g : FnSt → FnSt) : State := s.onFns fun t => Table.upd {} t f g

/-- Whether a function exists: PF0 always, VFn while VF Enable = 1 and NumVFs ≥ n (R488). -/
def State.fnExists (s : State) (f : Nat) : Bool := f == 0 || (s.vfEnable && f ≤ s.numVfs)

/-- Whether the device may issue requests for a function (R501); for one whose TDI is in ERROR it issues none (R382). -/
def State.mayIssue (s : State) (f : Nat) : Bool := (s.fn f).bme && !(s.fn f).d3hot && s.rd .SPUR_TDI f != 3

/-- The device accepts configuration requests (R506): with PD_HOST on, PCIE_PERST_N high, and no earlier than 100 ms after it rose. -/
def State.cfgOpen (s : State) : Bool := s.domOn pdHost && !s.link.perstLow && s.link.cfgFrom ≤ s.raw

/-- A request of a function leaves; while its TDI is in RUN it carries the T bit (R381). -/
def State.request (s : State) (f : Nat) (p : HostPost) : State := s.emit (.host f p (s.rd .SPUR_TDI f == 2))

/-- Send a posted request on a function, or hold it, in order, while no request may be issued (R501). A function that does
not exist has no host path (R488). -/
def State.post (s : State) (f : Nat) (p : HostPost) : State :=
  if !s.fnExists f then s
  else if s.mayIssue f then s.request f p
  else s.onFn f fun x => { x with held := x.held ++ [p] }

/-- Raise a vector of a function (R499): a masked or disabled one sets its PBA bit and sends nothing. -/
def State.irq (s : State) (f v : Nat) : State :=
  if !s.fnExists f then s
  else
    let x := s.fn f
    if !x.msixEn || x.fnMask || bit x.vecMask v then s.onFn f fun x => { x with pba := setBit x.pba v true }
    else s.post f (.msix v)

/-! ### Error records (R537 to R540) -/

/-- The error ring of a Spur. -/
def State.errRing (s : State) (spur : Nat) : ErrRing := Table.get {} s.errs spur

/-- Write a record for an event of Spur `owner` into the ring of Spur `dst` (R537, R538): a full ring loses it and counts
ERR_OVF_CNT, and the next record written has LOST = 1. Once readable, vector 0 of the Spur's function is sent. -/
def State.recordTo (s : State) (dst owner : Nat) (t : ErrType) (unit : Nat) (detail : List Nat) : State :=
  let g := s.errRing dst
  if 64 ≤ g.recs.length then
    ((s.onErrs fun e => Table.upd {} e dst fun g => { g with lost := true }).count .ERR_OVF_CNT dst).put .ERR_STAT_OVF dst true
  else
    let r : ErrRec :=
      { typ := t, spur := owner, copy := dst == 0 && owner != 0, lost := g.lost, epoch := s.rd .ERR_EPOCH dst,
        unit := unit % 2 ^ 16, stamp := s.now, detail := (detail ++ [0, 0, 0, 0]).take 4 }
    (s.onErrs fun e => Table.upd {} e dst fun g => { recs := g.recs ++ [r], lost := false }).irq dst 0

/-- A record to the owning Spur alone. -/
def State.record (s : State) (owner : Nat) (t : ErrType) (unit : Nat) (detail : List Nat) : State :=
  s.recordTo owner owner t unit detail

/-- A record "to the owning Spur and to Spur 0": a single record when the owner is Spur 0 (R537). -/
def State.record2 (s : State) (owner : Nat) (t : ErrType) (unit : Nat) (detail : List Nat) : State :=
  let s := s.recordTo owner owner t unit detail
  if owner = 0 then s else s.recordTo 0 owner t unit detail

/-! ### Spur fault triggers (R544, R545) -/

/-- A trigger of a Spur fault: the first sets ERR_FAULT.CODE, of several in one cycle the lowest code; one that arrives while the
Spur is FAULTED changes nothing (R545). The steps of R546 are the command SPUR_FAULT. -/
def State.spurTrigger (s : State) (spur code : Nat) : State :=
  let old := s.rd .ERR_FAULT_CODE spur
  if s.rd .SPUR_STATE spur = 3 then s
  else if old = 0 then (s.wr .ERR_FAULT_CODE spur code).onSec fun x => { x with faultAt := Table.insert x.faultAt spur s.raw }
  else if code < old ∧ (s.sec.faultAt.any fun e => e.1 == spur && e.2 == s.raw) then s.wr .ERR_FAULT_CODE spur code
  else s

/-! ### Isolation violations (R384) -/

/-- Class codes of R384. -/
def isoMilestone : Nat := 1
def isoBatt : Nat := 2
def isoVerdict : Nat := 3
def isoDma : Nat := 4
def isoMmio : Nat := 5

/-- An isolation violation by a Spur (R384): count, log entry, record to Spur 0, and a fault of the Spur when the count
reaches ISO_FAULT_N. -/
def State.isoViolation (s : State) (spur cls obj : Nat) : State :=
  let s := s.count .ISO_CNT spur
  let s :=
    if 32 ≤ s.isoLog.length then s.count .ISO_OVF
    else (s.onIsoLog (· ++ [{ spur := spur, cls := cls, obj := obj % 2 ^ 16, stamp := s.now % 2 ^ 32 }])).irq 0 19
  let s := s.recordTo 0 spur .isolation obj [cls]
  let n := s.rd .ISO_FAULT_N spur
  if n ≠ 0 ∧ s.rd .ISO_CNT spur = n then s.spurTrigger spur 2 else s

/-! ### Lock violations (R6, R385) -/

/-- SEC_LV.REQ of a requester (Table SP-12). -/
def lvReq : Agent → Nat
  | .host f _ => f.val
  | .fw c => 0x80 + c.val

/-- One lock violation at a BAR0 offset (R385). -/
def State.lockViolation (s : State) (who : Agent) (off : Nat) : State :=
  let first := !s.flag .SEC_LV_LOCKVIOL
  let s := s.count .SEC_LV_CNT
  let s := s.when first fun s =>
    (((s.wr .SEC_LV_ADDR 0 off).wr .SEC_LV_REQ 0 (lvReq who)).put .SEC_LV_LOCKVIOL 0 true).irq 0 19
  s.recordTo 0 0 .lockViol (lvReq who) [off]

/-- The Kerb is armed. -/
def State.armed (s : State) : Bool := s.flag .KRB_STAT_ARMED

/-- Set the time-quality code and vector 18 of PF0 when it changes (Table HM-5). -/
def State.setTq (s : State) (tq : Nat) : State :=
  if s.rd .TIME_STAT_TQ = tq then s else (s.wr .TIME_STAT_TQ 0 tq).irq 0 18

end Sys2Proof.Machine
end

