-- ==== Sys2Proof/Machine/Bus.lean ====
section
/-!
DEFINITION. Register accesses: which register an offset names, the windows of the virtual functions, who may write what
(R3 to R11, R490 to R496, R381, R382), and the effect of a write on the fields it covers.
-/
namespace Sys2Proof.Machine

/-! ### Addresses -/

/-- The index of the instance whose field starts at byte `a` from the first one, if there is one. -/
def dimIndex : List (Nat × Nat) → Nat → Nat → Option Nat
  | [], a, i => if a = 0 then some i else none
  | (n, st) :: t, a, i => if a / st < n then dimIndex t (a % st) (i * n + a / st) else none

/-- A field instance that a word of the map holds, with the bit at which it starts in that word. -/
structure Hit where
  reg : Reg
  idx : Nat
  lsb : Nat
deriving DecidableEq, Repr

/-- The instance of a field whose byte address is `a`, and its place in the word that holds it. -/
def Reg.hitAt (r : Reg) (off k : Nat) : Option Hit :=
  if off + k < r.spec.base then none
  else (dimIndex r.spec.dims (off + k - r.spec.base) 0).map fun i => ⟨r, i, 8 * k + r.spec.lsb⟩

/-- The fields held in the word at offset `off` (a multiple of 4): fields are aligned to 2 bytes at least. -/
def hitsAt (off : Nat) : List Hit :=
  Reg.all.flatMap fun r => [r.hitAt off 0, r.hitAt off 2].filterMap id

/-- The byte offset of the word that holds a field instance. -/
def Reg.offset (r : Reg) (i : Nat) : Nat :=
  let go := r.spec.dims.foldr (fun (d : Nat × Nat) (acc : Nat × Nat) => (acc.1 / d.1, acc.2 + acc.1 % d.1 * d.2)) (i, 0)
  (r.spec.base + go.2) / 4 * 4

/-- How many instances one unit of the first dimension has. -/
def Reg.perUnit (r : Reg) : Nat := (r.spec.dims.drop 1).foldl (fun a d => a * d.1) 1

/-- The regions of Table HM-3, numbered in the order of the table (the UNIT of a REG_RSVD record). -/
def regionOf (off : Nat) : Nat :=
  let bounds := [0x10000, 0x20000, 0x30000, 0x40000, 0x50000, 0x60000, 0x80000, 0xC0000, 0x100000, 0x140000, 0x180000,
    0x200000, 0x300000, 0x310000, 0x400000, 0x500000, 0x600000, 0x700000]
  (bounds.filter (· ≤ off)).length

/-- The power domain of the island at an offset, if it can be gated (Table AR-3); `u` the number of the unit there. -/
def domainAt (a u : Nat) : Option Nat :=
  if a < 0x1000 then none
  else if a < 0x2000 then some pdHost
  else if a < 0x3000 then some pdMem
  else if a < 0x10100 then none
  else if a < 0x20000 then some pdAux
  else if a < 0x50000 then none
  else if a < 0x60000 then some pdCtrl
  else if a < 0x80000 then some pdKerb
  else if a < 0x100000 then some (wlDomain u)
  else if a < 0x140000 then some pdCtrl
  else if a < 0x200000 then some pdFul
  else if a < 0x280000 then some (pdMq (u / 32))
  else if a < 0x300000 then none
  else if a < 0x600000 then some pdCtrl
  else if a < 0x700000 then some pdCw
  else if 0x705000 ≤ a ∧ a < 0x708000 then none
  else some pdAux

/-- The power domain of a register's island, if it can be gated. -/
def Reg.domain (r : Reg) (i : Nat) : Option Nat := domainAt r.spec.base (i / r.perUnit)

/-- The registers of a unit that has been fenced are out of the host's reach (R492). DEDUCED: the calibration and Projector
registers are those of the Projector array. -/
def State.fenced (s : State) (r : Reg) (i : Nat) : Bool :=
  let a := r.spec.base
  let u := i / r.perUnit
  if 0xC0000 ≤ a ∧ a < 0x100000 then Table.get false s.cardFenced u
  else if 0x200000 ≤ a ∧ a < 0x280000 then s.rd .MILL_STAT_STATE u != 0
  else if 0x140000 ≤ a ∧ a < 0x180000 then bit s.fulFenced 0
  else if 0x188000 ≤ a ∧ a < 0x18C000 then bit s.fulFenced 2
  else if 0x180000 ≤ a ∧ a < 0x18E000 then bit s.fulFenced 1
  else if 0x18E000 ≤ a ∧ a < 0x200000 then bit s.fulFenced 3
  else false

/-- The power domain of a register's island is off. -/
def State.islandOff (s : State) (r : Reg) (i : Nat) : Bool :=
  match r.domain i with
  | some d => !s.domOn d
  | none => false

/-- Whether a host access finds no answering island (R492). -/
def State.islandGone (s : State) (r : Reg) (i : Nat) : Bool := s.islandOff r i || s.fenced r i

/-! ### Owners -/

/-- The queue blocks of a Spur in ascending order (R494). -/
def State.blocksOf (s : State) (spur : Nat) : List Nat := bitList 32 (s.rd .SPUR_EQ spur)

/-- Local queue `j` of a Spur (R494). -/
def State.localQueue (s : State) (spur j : Nat) : Option Nat :=
  ((s.blocksOf spur)[j / 16]?).map fun b => 16 * b + j % 16

/-- The Spur that owns an event queue, by its block; Spur 0 where none does (R583). -/
def State.eqOwner (s : State) (q : Nat) : Nat :=
  ((List.range 8).find? fun sp => bit (s.rd .SPUR_EQ sp) (q / 16)).getD 0

/-- The Spur that owns a Wayline port and its carding unit; Spur 0 where none does (R583). -/
def State.portOwner (s : State) (p : Nat) : Nat :=
  ((List.range 8).find? fun sp => bit (s.rd .SPUR_RES_WL sp) p).getD 0

/-- The Spur that holds a Mill's quad, if one does. -/
def State.millHolder (s : State) (m : Nat) : Option Nat := (List.range 8).find? fun sp => bit (s.rd .SPUR_QUADS sp) (m / 4)

/-- The Spur that holds a Mill's quad; Spur 0 where none does (R583). -/
def State.millOwner (s : State) (m : Nat) : Nat := (s.millHolder m).getD 0

/-- The Spur that holds an LPDDR channel; Spur 0 where none does (R583). -/
def State.chanOwner (s : State) (c : Nat) : Nat :=
  ((List.range 8).find? fun sp => bit (s.rd .SPUR_RES_CH sp) c).getD 0

/-- The Spur that owns a register, for a REG_RSVD record (R11): the owner its chapter names, or Spur 0 (R583), as for the
pool registers, for which `spec/09_milestones_and_buffers.md` names none. -/
def State.regOwner (s : State) (r : Reg) (i : Nat) : Nat :=
  let a := r.spec.base
  let u := i / r.perUnit
  if 0x50000 ≤ a ∧ a < 0x58000 then u
  else if 0x80000 ≤ a ∧ a < 0x100000 then s.portOwner u
  else if 0x100000 ≤ a ∧ a < 0x140000 then s.eqOwner u
  else if 0x200000 ≤ a ∧ a < 0x280000 then s.millOwner u
  else if 0x300000 ≤ a ∧ a < 0x308000 then s.rd .MS_CFG_OWNER u
  else if 0x400000 ≤ a ∧ a < 0x440000 then u / 8
  else 0

/-- The geometry of the head at a slot: HT_GEOM holds width − 1 and height − 1 (Table WL-11). -/
def State.headW (s : State) (slot : Nat) : Nat := s.rd .HT_GEOM_W slot + 1
def State.headH (s : State) (slot : Nat) : Nat := s.rd .HT_GEOM_H slot + 1

/-! ### Windows of the virtual functions (R493, R494) -/

/-- Where an offset of VFn's BAR0 leads. -/
inductive Route where
  /-- A PF0 offset the function may write. -/
  | writable (off : Nat)
  /-- A field marked "read only", or a queue beyond the Spur's: a write is dropped and counted in HL_VFRO. -/
  | readOnly
  /-- Nothing there: reads 0, writes dropped (R490). -/
  | nothing
deriving DecidableEq, Repr

/-- Table HM-4. -/
def State.vfRoute (s : State) (n off : Nat) : Route :=
  if off < 0x0C then .readOnly
  else if off < 0x100 then .nothing
  else if off < 0x104 then .readOnly
  else if off < 0x110 then .nothing
  else if off < 0x118 then .readOnly
  else if off < 0x1000 then .nothing
  else if off < 0x1084 then (if off / 4 * 4 = 0x1008 then .writable 0x10008 else .readOnly)
  else if off < 0x2000 then .nothing
  else if off < 0x2020 then .readOnly
  else if off < 0x4000 then .nothing
  else if off < 0x5000 then .writable (0x50000 + n * 0x1000 + (off - 0x4000))
  else if off < 0x10000 then .nothing
  else if off < 0x18000 then .writable (0x400000 + n * 0x8000 + (off - 0x10000))
  else if off < 0x20000 then .nothing
  else if off < 0x28000 then
    match s.localQueue n ((off - 0x20000) / 0x40) with
    | some q => .writable (0x100000 + q * 0x40 + off % 0x40)
    | none => .readOnly
  else if off < 0x30000 then .nothing
  else if off < 0x40000 then
    match s.localQueue n ((off - 0x30000) / 0x80) with
    | some q => .writable (0x120000 + q * 0x80 + off % 0x80)
    | none => .readOnly
  else .nothing

/-- Whether a register at a PF0 offset lies in VFn's window with write access (Table HM-4). -/
def State.vfReaches (s : State) (n : Nat) (r : Reg) (i : Nat) : Bool :=
  let a := r.spec.base
  let u := i / r.perUnit
  r == .TIME_SNAP_GO || (0x50000 ≤ a && a < 0x58000 && u == n) || (0x400000 ≤ a && a < 0x440000 && u / 8 == n) ||
    (0x100000 ≤ a && a < 0x140000 && (s.blocksOf n).contains (u / 16))

/-! ### Admission of an access -/

/-- The device is in OFF, which it leaves only by a POR (R451). -/
def State.inOff (s : State) : Bool := s.rd .PM_STATUS_CUR == 4

/-- A device reset is waiting (R454). -/
def State.resetWaits (s : State) : Bool := s.rst.waiting.isSome

/-- Nothing answers an access: the device is in OFF, or its reset has not ended. -/
def State.busDead (s : State) : Bool := s.inOff || s.resetWaits

/-- The TDI of a function accepts an access (R381, R382): in RUN only with the T bit, in ERROR none. -/
def State.tdiAccepts (s : State) (fn : Nat) (tbit : Bool) : Bool :=
  match s.rd .SPUR_TDI fn with
  | 2 => tbit
  | 3 => false
  | _ => true

/-- What a refused access of R381 leaves: a violation of class MMIO. DESIGN CHOICE: the object number, which the spec
leaves open here, is a free value. -/
def State.tdiRefuse (s : State) (fn : Nat) : State :=
  if s.rd .SPUR_TDI fn = 2 then
    let (o, s) := s.fresh 16
    s.isoViolation fn isoMmio o
  else s

/-- The Spur whose mailbox or queue a register belongs to, if it is one of those (R496). -/
def State.tenantOf (s : State) (r : Reg) (i : Nat) : Option Nat :=
  let a := r.spec.base
  let u := i / r.perUnit
  if 0x400000 ≤ a ∧ a < 0x440000 then some (u / 8)
  else if 0x100000 ≤ a ∧ a < 0x140000 then some (s.eqOwner u)
  else none

/-- PF0 is kept off the mailboxes and queues of a Spur whose TDI is CONFIG_LOCKED or RUN (R496). Spur 0's own are PF0's
(DEDUCED: R496 keeps the device's owner from a tenant, and PF0 is Spur 0). -/
def State.lockedTenant (s : State) (r : Reg) (i : Nat) : Bool :=
  match s.tenantOf r i with
  | some sp => sp != 0 && (s.rd .SPUR_TDI sp == 1 || s.rd .SPUR_TDI sp == 2)
  | none => false

/-- The log of a host write to a field marked FW (R495), once per write. -/
def State.logFwWrite (s : State) (fn off : Nat) : State :=
  let s := s.count .HL_FWWR_CNT fn
  let s := s.when (!s.flag .HL_FWWR_VALID) fun s =>
    (((s.wr .HL_FWWR_FN 0 fn).wr .HL_FWWR_ADDR 0 off).put .HL_FWWR_VALID 0 true).irq 0 19
  let s := s.recordTo 0 fn .hostFwwr fn [off]
  if fn = 0 then s else s.recordTo fn fn .hostFwwr fn [off]

/-- Admission of a write to a field that has a row of its own: the field is reached, or the write ends with the state
given (R381, R382, R488, R492, R493, R495, R496). -/
def State.letIn (s : State) (who : Agent) (r : Reg) (i : Nat) : Except State State :=
  match who with
  | .fw _ => if s.busDead || s.islandOff r i then .error s else .ok s
  | .host f tbit =>
    if s.busDead || !s.fnExists f.val then .error s
    else if !s.tdiAccepts f.val tbit then .error (s.tdiRefuse f.val)
    else if f.val ≠ 0 ∧ !s.vfReaches f.val r i then .error s
    else if f.val = 0 ∧ s.lockedTenant r i then .error (s.isoViolation 0 isoMmio (i / r.perUnit))
    else if s.islandGone r i then .error (s.count .HL_GATED)
    else if r.spec.own = .fw then .error (s.logFwWrite f.val (r.offset i))
    else .ok s

/-! ### The effect of a write on the fields of one word -/

/-- Whether a value is a reserved encoding of a field (R11). -/
def Reg.reserved (r : Reg) (i v : Nat) : Bool :=
  match r.spec.rsv with
  | .ranges l => l.any fun p => p.1 ≤ v && v ≤ p.2
  | .low4 => v % 16 != 15
  | .comb => (List.range 16).any fun k => bits v (2 * k) 2 == 3
  | .vec => !((2 ≤ v && v ≤ 15) || (i / 8 == 0 && 20 ≤ v && v ≤ 31))

/-- Whether the writer may write the field at all: not a field R5 drops, and not a read-only one. -/
def mayWrite (who : Agent) (r : Reg) : Bool :=
  match r.spec.acc with
  | .ro | .rc => false
  | _ => match who with
    | .host _ _ => r.spec.own != .fw
    | .fw _ => true

/-- Whether a field is locked before the write (R6): its lock bit is 1, or it is a WL1 field that has been written. -/
def State.locked (s : State) (r : Reg) (i : Nat) : Bool :=
  match r.spec.acc, r.spec.lock with
  | .wl1, _ => Table.get false s.wl1 (r.key i)
  | .rwl, .kerbArmed => s.armed
  | .rwl, .mailbox => s.flag .MB_CFG_EN i || s.rd .MB_STAT_STATE i == 4
  | .rwl, .chain => s.flag .CH_CFG_EN i
  | _, _ => false

/-- Whether the write carries a 0 for the lock bit, held in the same register, of a field (R7). -/
def releasesLock (hs : List Hit) (w : Nat) (r : Reg) : Bool :=
  match r.spec.lock with
  | .mailbox => hs.any fun h => h.reg == .MB_CFG_EN && !bit w h.lsb
  | .chain => hs.any fun h => h.reg == .CH_CFG_EN && !bit w h.lsb
  | _ => false

/-- The value a write carries for a field. -/
def Hit.value (h : Hit) (w : Nat) : Nat := bits w h.lsb h.reg.spec.width

/-- A write is a lock violation at a field (R6, R7). -/
def State.violates (s : State) (hs : List Hit) (w : Nat) (h : Hit) : Bool :=
  s.locked h.reg h.idx && !(releasesLock hs w h.reg && h.value w == s.rd h.reg h.idx)

/-- The bits of PM_WAKE_CFG that read 1 (Table PW-11). -/
def forcedBits : Reg → Nat
  | .PM_WAKE_CFG_EN | .PM_WAKE_CFG_REPLAY => 0x80
  | _ => 0

/-- The effect on one field that the writer may write and no lock holds (R3). A WO field stores nothing. -/
def State.writeField (s : State) (h : Hit) (v : Nat) : State :=
  match h.reg.spec.acc with
  | .rw | .rwl => s.wr h.reg h.idx (v ||| forcedBits h.reg)
  | .wl1 => (s.wr h.reg h.idx v).onWl1 fun t => Table.set false t (h.reg.key h.idx) true
  | .w1c => s.wr h.reg h.idx (s.rd h.reg h.idx &&& (2 ^ h.reg.spec.width - 1 - v))
  | .w1s => s.wr h.reg h.idx (s.rd h.reg h.idx ||| v)
  | .ro | .rc | .wo => s

/-- A power target holds a reserved encoding (R421); `wake`: in the wake target PARK and OFF are reserved too (R435). -/
def pmTargetBad (t : Nat) (wake : Bool) : Bool :=
  let st := bits t 0 3
  5 ≤ st || (wake && (st == 3 || st == 4)) || ((bits t 4 4 == 0) == (st == 1)) || ((bits t 8 8 == 0) == (st == 2)) ||
    (bits t 16 5 != 0 && 2 ≤ st)

/-- Encodings of a whole word that are reserved: a NAP_PART range that ends beyond granule 96 (Table FU-6), a region of
interest with X0 > X1 or Y0 > Y1 (R147), and the power targets of R421 and R435 in PM_TARGET and PM_WAKE. -/
def wordReserved (hs : List Hit) (w : Nat) : Bool :=
  hs.any fun h =>
    (h.reg == .NAP_PART_FIRST && 96 < bits w 0 7 + bits w 16 7) ||
      ((h.reg == .SLOT_ROI_X0 || h.reg == .SLOT_ROI_Y0) && bits w 16 11 < bits w 0 11) ||
      (h.reg == .PM_TARGET_STATE && pmTargetBad w false) || (h.reg == .PM_WAKE_STATE && pmTargetBad w true)

/-- The heights Z_LO[0] to Z_LO[NB − 1] and Z_TOP of a Spur's grid rise strictly (R283), read through `g`. -/
def zRising (g : Reg → Nat → Nat) (sp : Nat) : Bool :=
  let z := (List.range (g .GRID_CFG_NB sp)).map (fun b => toSigned 16 (g .GRID_Z_LO (8 * sp + b))) ++ [toSigned 16 (g .GRID_Z_TOP sp)]
  (z.zip z.tail).all fun p => p.1 < p.2

/-- A height that a word carries, or its NB, is a reserved encoding (R283). DESIGN CHOICE: a word is held against the heights that
stand; a height at or above band NB is not looked at, and a word that keeps NB does not test the heights again. -/
def State.zRsv (s : State) (hs : List Hit) (w : Nat) : Bool :=
  hs.any fun h =>
    let new := fun (r : Reg) (i : Nat) =>
      match hs.find? fun k => k.reg == r && k.idx == i with | some k => k.value w | none => s.rd r i
    let sp := h.idx / h.reg.perUnit
    match h.reg with
    | .GRID_Z_LO =>
      let b := h.idx % 8
      let at_ := fun j => toSigned 16 (new .GRID_Z_LO (8 * sp + j))
      let nb := s.rd .GRID_CFG_NB sp
      b < nb && ((0 < b && at_ b ≤ at_ (b - 1)) ||
        (if b + 1 < nb then at_ (b + 1) else toSigned 16 (s.rd .GRID_Z_TOP sp)) ≤ at_ b)
    | .GRID_Z_TOP => toSigned 16 (h.value w) ≤ toSigned 16 (s.rd .GRID_Z_LO (8 * sp + s.rd .GRID_CFG_NB sp - 1))
    | .GRID_CFG_NB => h.value w != s.rd .GRID_CFG_NB sp && !zRising new sp
    | _ => false

/-- A decimation chain's field that its source's frame does not hold, or a reserved source (R521). -/
def State.chainRsv (s : State) (h : Hit) (w : Nat) : Bool :=
  let src := bits w 0 6
  let len := if src < 8 then s.rd .SPI_CFG_LEN src + 1 else s.rd .I3C_DEV_LEN (src - 8) + 1
  h.reg == .CH_CFG_SRC && !s.locked h.reg h.idx && (40 ≤ src || len ≤ bits w 6 6 + bits w 12 2)

/-- A word written to the register at `off`, after admission (R5 to R11): a host write is logged for FW fields; a reserved
encoding in a field the writer may write discards it whole with REG_RSVD; a locked field keeps its value with one
violation; every other field takes its effect. Fields with rows of their own are left to those. `false`: discarded. -/
def State.applyWord (s : State) (who : Agent) (off w : Nat) : Bool × State :=
  let hs := hitsAt off
  let s := match who with
    | .host f _ =>
      if hs.any fun h => h.reg.spec.own == .fw then s.logFwWrite f.val off else s
    | .fw _ => s
  let mine := hs.filter fun h => mayWrite who h.reg
  let bad := mine.filter fun h => !s.locked h.reg h.idx && h.reg.reserved h.idx (h.value w)
  let rsv := wordReserved mine w || mine.any fun h => s.chainRsv h w
  match bad, mine with
  | h :: _, _ => (false, s.record (s.regOwner h.reg h.idx) .regRsvd (regionOf off) [off])
  | [], [] => (true, s)
  | [], h :: _ =>
    if rsv then (false, s.record (s.regOwner h.reg h.idx) .regRsvd (regionOf off) [off])
    else
      let viol := mine.filter fun h => s.violates mine w h && !h.reg.spec.ownRow
      let free := mine.filter fun h => !s.locked h.reg h.idx && !h.reg.spec.ownRow
      let s' := s.each free fun s h => s.writeField h (h.value w)
      (true, s'.when (!viol.isEmpty) fun s => s.lockViolation who off)

/-! ### Reads with an effect -/

/-- A register of a tensor engine that is out of service, which reads as 0 (`spec/07_number_formats.md`, Registers). -/
def State.teGone (s : State) (h : Hit) : Bool :=
  0x200800 ≤ h.reg.spec.base && h.reg.spec.base < 0x200900 && !bit (s.rd .MILL_STAT_TE_LIVE (h.idx / 16)) (h.idx % 16)

/-- The value of the word at an offset: the fields it holds, at their places; a WO field reads as 0. -/
def State.readWord (s : State) (off : Nat) : Nat :=
  (hitsAt off).foldl
    (fun a h => if h.reg.spec.acc == .wo || s.teGone h then a else a ||| (s.rd h.reg h.idx * 2 ^ h.lsb)) 0

/-- The agent reaches the device with a read (R381, R488). -/
def State.readOpen (s : State) (who : Agent) : Except State State :=
  match who with
  | .fw _ => if s.busDead then .error s else .ok s
  | .host f tbit =>
    if s.busDead || !s.fnExists f.val then .error s
    else if !s.tdiAccepts f.val tbit then .error (s.tdiRefuse f.val)
    else .ok s

/-- Admission of a read that has an effect: as `letIn`, with no owner test. -/
def State.admitRead (s : State) (who : Agent) (r : Reg) (i : Nat) : Except State State :=
  match who with
  | .fw _ => if s.busDead then .error s else if s.islandOff r i then .error (s.emit (.readData who 0)) else .ok s
  | .host f tbit =>
    if s.busDead || !s.fnExists f.val then .error s
    else if !s.tdiAccepts f.val tbit then .error (s.tdiRefuse f.val)
    else if f.val ≠ 0 ∧ !s.vfReaches f.val r i then .error s
    else if f.val = 0 ∧ s.lockedTenant r i then .error (s.emit (.readData who 0))
    else if s.islandGone r i then .error ((s.count .HL_GATED).emit (.readData who 0))
    else .ok s

end Sys2Proof.Machine
end

