-- ==== Sys2Proof/Machine/MailOps.lean ====
section
/-!
DEFINITION. The shared operations of mailbox commands: the Spur-relative memory (R510), batt handles and the release of a
batt (R263), descriptors (Table MB-1), the check of a descriptor at fetch (R336), and the one completion of a command
(R335, R337, R340 to R345).
-/
namespace Sys2Proof.Machine

/-! ### Spur-relative memory (R510) -/

/-- The LPDDR channels of a Spur, ascending. -/
def State.channels (s : State) (sp : Nat) : List Nat := bitList 8 (s.rd .SPUR_RES_CH sp)

/-- The capacity of a channel in bytes (Table HM-8). -/
def State.chanCap (s : State) : Nat :=
  2 ^ 30 * (match s.memCap with | 0 => 2 | 1 => 3 | 2 => 4 | 3 => 6 | _ => 8)

/-- The size of a Spur's address space. -/
def State.spurCap (s : State) (sp : Nat) : Nat := (s.channels sp).length * s.chanCap

/-- The channel and channel address of a Spur-relative address; none outside the Spur's target. -/
def State.spurMap (s : State) (sp a : Nat) : Option (Nat × Nat) :=
  let ks := s.channels sp
  if a < s.spurCap sp then
    (ks[a / 256 % ks.length]?).map fun k => (k, a / 256 / ks.length * 256 + a % 256)
  else none

/-- Bytes of a Spur's memory; an address outside the target reads as 0. -/
def State.ldSpur (s : State) (sp a n : Nat) : List Byte :=
  (List.range n).map fun i => match s.spurMap sp (a + i) with | some (c, x) => s.ldByte (.lpddr c) x | none => 0

/-- Store bytes in a Spur's memory; bytes outside the target are dropped. -/
def State.stSpur (s : State) (sp : Nat) : Nat → List Byte → State
  | _, [] => s
  | a, b :: t =>
    State.stSpur (match s.spurMap sp a with | some (c, x) => s.stByte (.lpddr c) x b | none => s) sp (a + 1) t

/-- `n` free bytes: data whose contents the spec does not give. -/
def State.freshBytes (s : State) (n : Nat) : List Byte × State :=
  let (v, s) := s.fresh (8 * n)
  (leBytes n v, s)

/-! ### Batts (R263) -/

/-- A handle taken apart (Table MS-4). -/
def hIndex (h : Nat) : Nat := bits h 0 20
def hGen (h : Nat) : Nat := bits h 20 8
def hRsv (h : Nat) : Nat := bits h 28 3
def hLong (h : Nat) : Bool := bit h 31

/-- The handle of a batt. -/
def mkHandle (long : Bool) (gen idx : Nat) : Nat := idx + gen * 2 ^ 20 + (if long then 2 ^ 31 else 0)

/-- A batt of a pool. -/
def State.batt (s : State) (long : Bool) (i : Nat) : BattSt := Table.get {} (if long then s.ms.long else s.ms.short) i

/-- Change a batt of a pool. -/
def State.onBatt (s : State) (long : Bool) (i : Nat) (f : BattSt → BattSt) : State :=
  s.onMs fun m => if long then { m with long := Table.upd {} m.long i f } else { m with short := Table.upd {} m.short i f }

/-- The generation after a free: from 255 it goes to 1 (R263). -/
def nextGen (g : Nat) : Nat := if 255 ≤ g then 1 else g + 1

/-- A batt becomes free and its GEN rises; USED and FREE follow. A batt already free stays as it is. -/
def State.freeBatt (s : State) (long : Bool) (i : Nat) : State :=
  match (s.batt long i).owner with
  | none => s
  | some (_, sp) =>
    let s := s.onBatt long i fun b => { gen := nextGen b.gen, owner := none }
    if long then s.wr .BP_USED_LONG sp (s.rd .BP_USED_LONG sp - 1)
    else (s.wr .BP_USED_SHORT sp (s.rd .BP_USED_SHORT sp - 1)).wr .BP_FREE 0 (s.rd .BP_FREE + 1)

/-- Free the batt of a handle that is still current. -/
def State.freeHandle (s : State) (h : Nat) : State :=
  if (s.batt (hLong h) (hIndex h)).gen = hGen h then s.freeBatt (hLong h) (hIndex h) else s

/-- Send a signal on its way to the Milestone unit (R255). -/
def State.signal (s : State) (ms spur count : Nat) (src : SigSrc) : State :=
  s.onMs fun m => { m with signals := m.signals ++ [⟨ms, spur, count, src⟩] }

/-- Send a post on its way to a token counter (R230). -/
def State.postTkc (s : State) (mill tkc count : Nat) : State :=
  s.onMs fun m => { m with posts := m.posts ++ [⟨mill, tkc, count⟩] }

/-! ### Descriptors (Table MB-1) -/

/-- The fields of a descriptor. -/
def Cmd.op (c : Cmd) : Nat := byteAt c.desc 0
def Cmd.flagBit (c : Cmd) (i : Nat) : Bool := bit (byteAt c.desc 1) i
def Cmd.waitMs (c : Cmd) : Nat := bits (leAt c.desc 4 2) 0 10
def Cmd.sigMs (c : Cmd) : Nat := bits (leAt c.desc 6 2) 0 10
def Cmd.waitH (c : Cmd) : Nat := leAt c.desc 8 4
def Cmd.deadline (c : Cmd) : Nat := leAt c.desc 16 8
def Cmd.opw (c : Cmd) (k : Nat) : Nat := leAt c.desc (24 + 8 * k) 8

/-- Opcodes (Table MB-4). -/
def opInvoke : Nat := 0x12
def opPmReq : Nat := 0x60

/-- The opcodes that are defined. -/
def opcodes : List Nat :=
  [0x00, 0x01, 0x10, 0x11, 0x12, 0x13, 0x20, 0x21, 0x30, 0x31, 0x32, 0x33, 0x38, 0x39, 0x3A, 0x40, 0x41, 0x42, 0x43, 0x44,
    0x50, 0x51, 0x58, 0x59, 0x5A, 0x60, 0x61, 0x68, 0x70, 0x78, 0x7C]

/-- The bits of the operand words that an opcode uses; the commands whose settings the spec gives by their registers have
no fixed operand layout. DEDUCED: within an operand word that the catalogue names, a bit it gives no meaning is reserved; a
word it does not name is not looked at. -/
def opMasks : Nat → Option (List Nat)
  | 0x00 | 0x21 | 0x59 => some []
  | 0x01 | 0x51 => some [2 ^ 64 - 1]
  | 0x10 => some [2 ^ 64 - 1, 2 ^ 33 - 1]
  | 0x11 => some [0xFFFF]
  | 0x12 => some [0xFFFFFFFF00FFFFFF, 2 ^ 64 - 1, 2 ^ 64 - 1, 2 ^ 32 - 1, 2 ^ 64 - 1]
  | 0x13 => some [0xFFFF, 2 ^ 64 - 1]
  | 0x20 => some [2 ^ 64 - 1, 2 ^ 64 - 1]
  | 0x30 => some [0x3FFF, 0x3FFF, 0x3FFF]
  | 0x31 => some [0x3FF, 2 ^ 32 - 1, 2 ^ 32 - 1]
  | 0x32 => some [0x3FF]
  | 0x33 => some [0x3FF, 0xFFFF]
  | 0x38 => some [3]
  | 0x39 => some [2 ^ 32 - 1]
  | 0x3A => some [2 ^ 32 - 1, 0xFFF]
  | 0x58 => some [0xFF01, 2 ^ 64 - 1, 2 ^ 64 - 1]
  | 0x5A => some [0xFF01, 2 ^ 64 - 1]
  | 0x60 => some [0x1FFFF7, 0x1FFFF7, 2 ^ 64 - 1]
  | 0x61 => some [0xF]
  | 0x68 => some [0x1FFF]
  | _ => none

/-- The byte at which a descriptor holds a reserved encoding of an operand field, if it does. -/
def opEncodingBad (c : Cmd) : Option Nat :=
  if c.op = 0x12 ∧ bits (c.opw 0) 22 2 = 3 then some 26
  else if c.op = 0x68 ∧ bits (c.opw 0) 11 2 = 3 then some 25
  else if c.op = 0x33 ∧ c.opw 1 = 0 then some 32
  else if c.op = 0x60 ∧ pmTargetBad (c.opw 0) false then some 24
  else if c.op = 0x60 ∧ pmTargetBad (c.opw 1) true then some 32
  else none

/-- Check 2 of R336: the first byte of the descriptor with a reserved bit set, or of a reserved encoding. -/
def descBad (c : Cmd) : Option Nat :=
  let fixed : List Nat := [0xFF, 0x0F, 0xFF, 0xFF, 0xFF, 0x03, 0xFF, 0x03, 0xFF, 0xFF, 0xFF, 0xFF, 0, 0, 0, 0]
  let ops : List Nat :=
    match opMasks c.op with
    | none => List.replicate 40 0xFF
    | some ms => (List.range 40).map fun i => bits ((ms[i / 8]?).getD (2 ^ 64 - 1)) (8 * (i % 8)) 8
  let masks := fixed ++ List.replicate 8 0xFF ++ ops
  match (List.range 64).find? fun i => byteAt c.desc i &&& (0xFF - (masks[i]?).getD 0xFF) != 0 with
  | some i => some i
  | none => opEncodingBad c

/-! ### Serving cores and functions -/

/-- The home core of a mailbox (R331). -/
def mbHome (mb : Nat) : Nat := mb / 8 * 2 + mb % 8 / 4

/-- The sibling of a core. -/
def sibling (c : Nat) : Nat := if c % 2 = 0 then c + 1 else c - 1

/-- MB_STAT.CORE: the serving core, the sibling after a migration (R331, R346). -/
def State.mbCore (s : State) (mb : Nat) : Nat :=
  let h := mbHome mb
  if bit (s.rd .NGX_CORES_MIG) (sibling h) then sibling h else h

/-- A mailbox state (Table MB-7) with vector 1 for MIGRATING, HALTED and DEAD (Table HM-5). -/
def State.setMbState (s : State) (mb st : Nat) : State :=
  if s.rd .MB_STAT_STATE mb = st then s
  else
    let s := s.wr .MB_STAT_STATE mb st
    if st = 3 ∨ st = 5 ∨ st = 6 then s.irq (mb / 8) 1 else s

/-- NGX_STATE with vector 1 of every function (Table HM-5). -/
def State.setNgx (s : State) (st : Nat) : State :=
  if s.rd .NGX_STATE = st then s else (s.wr .NGX_STATE 0 st).each (List.range 8) fun s f => s.irq f 1

/-- NGX_STATE is READY or QUARANTINE. -/
def State.ngxServing (s : State) : Bool := s.rd .NGX_STATE == 1 || s.rd .NGX_STATE == 2

/-- Some mailbox of a Spur is enabled. -/
def State.anyMb (s : State) (sp : Nat) : Bool := (List.range 8).any fun i => s.flag .MB_CFG_EN (8 * sp + i)

/-- A Spur exists: Spur 0, and one with resources (R362). -/
def State.hasRes (s : State) (sp : Nat) : Bool :=
  sp == 0 || s.rd .SPUR_QUADS sp != 0 || s.rd .SPUR_RES_CH sp != 0 || s.rd .SPUR_RES_WL sp != 0 || s.rd .SPUR_EQ sp != 0

/-- SPUR_STATE NONE, CONFIGURED and ACTIVE follow from the assignment and the mailboxes (Table SP-11); FAULTED and
FLR_BUSY stay. -/
def State.spurRefresh (s : State) (sp : Nat) : State :=
  if 3 ≤ s.rd .SPUR_STATE sp then s
  else
    s.wr .SPUR_STATE sp (if s.anyMb sp then 2 else if s.hasRes sp then 1 else 0)

/-! ### Commands in flight -/

/-- The commands in flight on a mailbox, in fetch order. -/
def State.cmds (s : State) (mb : Nat) : List Cmd := Table.get [] s.mail.cmds mb

/-- Change the commands in flight on a mailbox. -/
def State.onCmds (s : State) (mb : Nat) (f : List Cmd → List Cmd) : State :=
  s.onMail fun m => { m with cmds := Table.upd [] m.cmds mb f }

/-- A command in flight by its number. -/
def State.cmdById (s : State) (mb id : Nat) : Option Cmd := (s.cmds mb).find? fun c => c.id == id

/-- Change one command in flight. -/
def State.onCmd (s : State) (mb id : Nat) (f : Cmd → Cmd) : State :=
  s.onCmds mb fun l => l.map fun c => if c.id = id then f c else c

/-- A draining mailbox whose last command has completed becomes DISABLED (R361). -/
def State.drain (s : State) (mb : Nat) : State :=
  if s.rd .MB_STAT_STATE mb = 4 ∧ s.cmds mb = [] then s.setMbState mb 0 else s

/-- The 32 bytes of a completion (Table MB-2). -/
def State.completionBytes (s : State) (mb : Nat) (c : Cmd) (st detail result stamp : Nat) : List Byte :=
  let t := s.rd .MB_CQ_TAIL mb
  let phase := if t / 2 ^ s.rd .MB_CFG_CQ_LOG2 mb % 2 = 0 then 1 else 0
  leBytes 2 c.tag ++ leBytes 1 st ++ leBytes 1 phase ++ leBytes 2 (s.rd .ERR_EPOCH (mb / 8)) ++
    leBytes 2 (s.rd .MB_SQ_HEAD mb) ++ leBytes 8 stamp ++ leBytes 8 (if st = 0 then result else 0) ++ leBytes 4 detail ++
    leBytes 4 0

/-- Where the completion ring's next entry lies. -/
def State.cqAddr (s : State) (mb : Nat) : Nat :=
  s.rd .MB_CQ_BASE_LO mb * 2 ^ 12 + s.rd .MB_CQ_BASE_HI mb * 2 ^ 32 +
    s.rd .MB_CQ_TAIL mb % 2 ^ s.rd .MB_CFG_CQ_LOG2 mb * 32

/-- Write the one completion of a command (R335, R337, R338, R341): counters, the entry, the vector, and the signal of
SIG_MS for OK. While the Spur's TDI is in ERROR the claimed completion is discarded and counted (R382). -/
def State.complete (s : State) (mb : Nat) (c : Cmd) (st detail result stamp : Nat) : State :=
  let s := s.onCmds mb fun l => l.filter fun x => x.id != c.id
  let s := s.when (st == 1 || st == 2 || st == 3 || st == 6) fun s => s.each c.batts fun s h => s.freeHandle h
  let s := s.when (st == 1) fun s => s.count .MB_CNT (6 * mb)
  let s := s.when (st == 2) fun s => s.count .MB_CNT (6 * mb + 2)
  let s := s.when (0x10 ≤ st) fun s => s.count .MB_CNT (6 * mb + 5)
  if s.rd .SPUR_TDI (mb / 8) = 3 then (s.count .MB_CNT (6 * mb + 1)).drain mb
  else
    let b := s.completionBytes mb c st detail result stamp
    let s := if s.flag .MB_CFG_LOC mb then s.stSpur (mb / 8) (s.cqAddr mb) b
      else s.post (mb / 8) (.completion mb (s.cqAddr mb) b)
    let s := s.wr .MB_CQ_TAIL mb (s.rd .MB_CQ_TAIL mb + 1)
    let s := s.when (st == 0 && c.flagBit 1) fun s => s.signal c.sigMs (mb / 8) 1 (.mailbox mb)
    let s := s.when (c.flagBit 3 || s.flag .MB_CFG_IRQ_ALL mb) fun s => s.irq (mb / 8) (s.rd .MB_CFG_VEC mb)
    s.drain mb

/-- The deadline of a command other than INVOKE has passed (R340). -/
def State.late (s : State) (c : Cmd) : Bool := c.op != opInvoke && c.deadline != 0 && c.deadline < s.now

/-- Claim TIMEOUT (R340, Table MB-3). -/
def State.claimTimeout (s : State) (mb : Nat) (c : Cmd) : State :=
  s.complete mb c 1 (if c.stage = .held then 1 else 0) 0 s.now

/-- A command ends with a result claimed now; after its DEADLINE it is claimed with TIMEOUT and the result is suppressed
(R340, R341). -/
def State.finish (s : State) (mb : Nat) (c : Cmd) (st detail result : Nat) : State :=
  if s.late c then (s.claimTimeout mb c).count .MB_CNT (6 * mb + 1) else s.complete mb c st detail result s.now

/-- End the command of a number, if it is still in flight; a result whose command has been claimed is suppressed and
counted (R341). -/
def State.finishId (s : State) (mb id : Nat) (st detail result : Nat) : State :=
  match s.cmdById mb id with
  | some c => s.finish mb c st detail result
  | none => s.count .MB_CNT (6 * mb + 1)

/-- A command that may start now: ready, its fence passed, its mailbox served (R343, R344, R346). -/
def State.startable (s : State) (mb tag op : Nat) : Option Cmd :=
  let l := s.cmds mb
  match l.find? fun c => c.tag == tag && c.op == op && c.stage == .ready with
  | none => none
  | some c =>
    let oldest := fun (d : Cmd) => match l with | [] => true | e :: _ => d.id == e.id
    let first := oldest c
    let before := l.takeWhile fun d => d.id != c.id
    let waits := before.any fun d => d.stage == .ready && (!d.flagBit 2 || oldest d)
    let st := s.rd .MB_STAT_STATE mb
    if (c.flagBit 2 && !first) || waits || st == 3 || st == 6 || bit s.mail.fenced (s.mbCore mb) then none else some c

/-- Run a command of a mailbox: nothing happens while it may not start, or while it needs host transfers that may not be
issued (R501); past its DEADLINE it is claimed with TIMEOUT (R340). -/
def State.runCmd (s : State) (mb : Fin 64) (tag : BitVec 16) (op : Nat) (host : Bool) (f : State → Cmd → State) : Out :=
  match s.startable mb.val tag.toNat op with
  | none => done s
  | some c =>
    if s.late c then done (s.claimTimeout mb.val c)
    else if host && !(s.fnExists (mb.val / 8) && s.mayIssue (mb.val / 8)) then done s
    else done (f s c)

/-- The command goes on: it has begun and completes by a later event. -/
def State.begin_ (s : State) (mb : Nat) (c : Cmd) : State := s.onCmd mb c.id fun c => { c with stage := .begun }

/-! ### Recoveries and migrations (R345, R346) -/

/-- The Spur's recovery epoch rises. -/
def State.raiseEpoch (s : State) (sp : Nat) : State := s.wr .ERR_EPOCH sp (s.rd .ERR_EPOCH sp + 1)

/-- BP_WAITQ shows the lengths of the waiter lists. -/
def State.waitqRegs (s : State) : State :=
  (s.wr .BP_WAITQ_SHORT 0 s.ms.shortQ.length).wr .BP_WAITQ_LONG 0 s.ms.longQ.length

/-- Drop the waiters that a command registered (R268). -/
def State.dropWaiter (s : State) (mb id : Nat) : State :=
  let gone := s.ms.waiters.filter fun w => w.act == .cmd mb id
  let pools := (s.ms.shortQ ++ s.ms.longQ).filter fun w => w.answer == .cmd mb id
  let s := s.onMs fun m =>
    { m with
      waiters := m.waiters.filter fun w => w.act != .cmd mb id
      shortQ := m.shortQ.filter fun w => w.answer != .cmd mb id
      longQ := m.longQ.filter fun w => w.answer != .cmd mb id }
  let s := s.each gone fun s w =>
    (s.wr .MS_CFG_WAITERS w.ms (s.rd .MS_CFG_WAITERS w.ms - 1)).wr .MS_WUSED w.spur (s.rd .MS_WUSED w.spur - 1)
  s.each pools fun s w => (s.wr .MS_WUSED w.spur (s.rd .MS_WUSED w.spur - 1)).waitqRegs

end Sys2Proof.Machine
end

