-- ==== Sys2Proof/Machine/Queues.lean ====
section
/-!
DEFINITION. The event queues (`spec/05_carding_and_queues.md` R149 to R164, R585): records, the order and acceptance of
writes, the QFULL marker, pending control records, the read side, and resets.
-/
namespace Sys2Proof.Machine

/-! ### Records (Tables CD-2 and CD-3) -/

/-- An event record (IER). -/
def evRecord (pol : Bool) (slot x y stamp : Nat) : Nat :=
  stamp % 2 ^ 31 + y % 2 ^ 11 * 2 ^ 31 + x % 2 ^ 11 * 2 ^ 42 + slot % 2 ^ 8 * 2 ^ 53 + (if pol then 2 ^ 61 else 0) + 2 ^ 62

/-- A QFULL gap marker. -/
def qfullRecord (m : QFull) : Nat :=
  m.first % 2 ^ 31 + min m.span 0x3FFF * 2 ^ 31 + min m.count 0xFFFF * 2 ^ 45 + 2 ^ 63

/-- An UPSTREAM gap marker. -/
def upstreamRecord (slot src count first : Nat) : Nat :=
  first % 2 ^ 31 + src % 4 * 2 ^ 31 + min count 0xFFFFF * 2 ^ 33 + slot % 2 ^ 8 * 2 ^ 53 + 2 ^ 61 + 2 ^ 63

/-- A control record. -/
def ctlRecord (unf : Bool) (slot sub epoch param : Nat) : Nat :=
  param % 2 ^ 32 + epoch % 2 ^ 16 * 2 ^ 32 + sub % 2 ^ 5 * 2 ^ 48 + slot % 2 ^ 8 * 2 ^ 53 + (if unf then 2 ^ 61 else 0) +
    3 * 2 ^ 62

/-- TAG, SLOT and SUB of a record. -/
def recTag (r : DWord) : Nat := bits r.toNat 62 2
def recSlot (r : DWord) : Nat := bits r.toNat 53 8
def recSub (r : DWord) : Nat := bits r.toNat 48 5

/-- Control subtypes (Table CD-3). -/
def subSegment : Nat := 1
def subReset : Nat := 2
def subJoin : Nat := 3
def subFilter : Nat := 4
def subLeave : Nat := 5
def subLost : Nat := 6

/-! ### Queues -/

/-- A queue beyond its registers. -/
def State.eq (s : State) (q : Nat) : EqSt := Table.get {} s.eqs q

/-- Change a queue. -/
def State.onEq (s : State) (q : Nat) (f : EqSt → EqSt) : State := s.onEqs fun t => Table.upd {} t q f

/-- A carding unit. -/
def State.card (s : State) (u : Nat) : CardSt := Table.get {} s.cards u

/-- Change a carding unit. -/
def State.onCard (s : State) (u : Nat) (f : CardSt → CardSt) : State := s.onCards fun t => Table.upd {} t u f

/-- A head slot in its carding unit. -/
def State.slot (s : State) (i : Nat) : SlotSt := Table.get {} s.slots i

/-- Change a head slot. -/
def State.onSlot (s : State) (i : Nat) (f : SlotSt → SlotSt) : State := s.onSlots fun t => Table.upd {} t i f

/-- The capacity N (R152). -/
def State.eqN (s : State) (q : Nat) : Nat := 2 ^ s.rd .EQ_CFG_LOG2N q

/-- The occupancy (R152; EQ_OCC is this view). -/
def State.eqOcc (s : State) (q : Nat) : Nat := (s.eq q).recs.length

/-- A pointer moved on by `k`, LOG2N + 1 bits wide (R152). -/
def State.ptrAdd (s : State) (q p k : Nat) : Nat := (p + k) % (2 * s.eqN q)

/-- The Milestone binding of a queue: enabled, and its watermark (R266). -/
def State.eqWm (s : State) (q : Nat) : Nat := s.rd .EQ_MSBIND_WM q

/-- The watermark rule of R266 after a write that found occupancy `pre`. -/
def State.watermark (s : State) (q pre : Nat) (quiet : Bool) : State :=
  let wm := s.eqWm q
  let below := pre < wm || s.ms.belowWm.contains q
  if s.eqOcc q < wm then s
  else if quiet then (if below && !s.ms.belowWm.contains q then s.onMs fun m => { m with belowWm := q :: m.belowWm } else s)
  else
    let s := s.onMs fun m => { m with belowWm := m.belowWm.filter (· != q) }
    s.when (below && s.flag .EQ_MSBIND_EN q) fun s => s.signal (s.rd .EQ_MSBIND_MS q) (s.eqOwner q) 1 (.eq q)

/-- Write one record at WP; its copy follows (R162). -/
def State.eqPut (s : State) (q : Nat) (r : Nat) (pkt : Nat) (quiet : Bool) : State :=
  let pre := s.eqOcc q
  let wp := s.ptrAdd q (s.rd .EQ_WP q) 1
  let s := s.onEq q fun e => { e with recs := e.recs ++ [⟨BitVec.ofNat 64 r, pkt⟩], wp2 := wp }
  (s.wr .EQ_WP q wp).watermark q pre quiet

/-- PARAM of a SEGMENT formed now (R151). -/
def State.segParam (s : State) : Nat := s.nowUs / 2 ^ 28 % 2 ^ 32

/-- A pending record without its epoch, which it takes when it is written (R150). -/
def pendRec (seq q slot sub param : Nat) (unf : Bool) : PendRec := ⟨seq, q, slot, sub, BitVec.ofNat 64 (ctlRecord unf slot sub 0 param)⟩

/-- Reset a queue (R162, steps 2, 3 and 5; R163): QUEUE_RESET and SEGMENT become pending before everything else. -/
def State.eqReset (s : State) (q reason : Nat) : State :=
  let disc := min (s.eqOcc q) 0xFFFFFF
  let s := ((s.wr .EQ_WP q 0).wr .EQ_RP q 0).count .EQ_RESETS q
  let s := s.onEq q fun e =>
    { e with
      recs := [], wp2 := 0, rp2 := 0, seg := s.nowUs / 2 ^ 28, marker := none, mask := none, lastEv := none
      wide := [pendRec 0 q 0 subReset (reason * 2 ^ 24 + disc) false, pendRec 0 q 0 subSegment s.segParam false] }
  let s := s.onMs fun m => { m with belowWm := m.belowWm.filter (· != q) }
  s.when (reason == 1) fun s => s.record2 (s.eqOwner q) .eqPtr q [disc]

/-- A pointer of a SAFETY queue differs from its copy, which every access finds (R162). -/
def State.ptrFails (s : State) (q : Nat) : Bool :=
  s.flag .EQ_CFG_CLASS q && ((s.eq q).wp2 != s.rd .EQ_WP q || (s.eq q).rp2 != s.rd .EQ_RP q)

/-- An upset of a queue's pointers before an access that a command reports: a copy differs from then on. -/
def State.upset (s : State) (q : Nat) (ptrBad : Bool) : State :=
  s.when ptrBad fun s => s.onEq q fun e => { e with wp2 := s.rd .EQ_WP q + 1 }

/-! ### The write side (R154 to R157) -/

/-- The carding unit that feeds a bank's slot. -/
def unitOfSlot (slot : Nat) : Nat := slot / 32

/-- The pending control records of a queue in the order in which they are written (R157). -/
def State.eqPending (s : State) (q : Nat) : List PendRec :=
  let units := (List.range 8).flatMap fun u => (s.card u).pend.filter fun p => p.q == q
  sortBy PendRec.seq ((s.eq q).wide ++ (s.eq q).leaves ++ units)

/-- Remove a pending record from the store that holds it. -/
def State.dropPend (s : State) (p : PendRec) : State :=
  let s := s.onEq p.q fun e => { e with wide := e.wide.erase p, leaves := e.leaves.erase p }
  s.each (List.range 8) fun s u => if (s.card u).pend.contains p then s.onCard u fun c => { c with pend := c.pend.erase p } else s

/-- A SEGMENT is formed; it replaces a pending one (R151, R157). -/
def State.formSegment (s : State) (q : Nat) : State :=
  let r := fun (seq : Nat) => pendRec seq q 0 subSegment s.segParam false
  let s := s.onEq q fun e => { e with seg := s.nowUs / 2 ^ 28 }
  if (s.eq q).wide.any fun p => p.sub == subSegment then
    s.onEq q fun e => { e with wide := e.wide.map fun p => if p.sub = subSegment then r p.seq else p }
  else (s.onEq q fun e => { e with wide := e.wide ++ [r s.recSeq] }).onRecSeq (· + 1)

/-- The queue runs: it is enabled and powered. -/
def State.eqRuns (s : State) (q : Nat) : Bool := s.flag .EQ_CFG_EN q && s.domOn pdCtrl

/-- Microsecond time has crossed a multiple of 2^28 since the last SEGMENT of a running queue was formed: one is formed, before
anything else is formed or written (R151). -/
def State.segmentDue (s : State) (q : Nat) : State :=
  if s.eqRuns q && (s.eq q).seg != s.nowUs / 2 ^ 28 then s.formSegment q else s

/-- The queue has written a pending record in this cycle (R154). DEDUCED: what happens at one value of the raw counter happens in
one cycle. -/
def State.eqBusy (s : State) (q : Nat) : Bool := (s.eq q).wrote == some s.raw

/-- The queue writes at most one pending record in a cycle: the first control record while occupancy is below N, else the
marker while occupancy is below N − 1 (R154). -/
def State.eqWritePending (s : State) (q : Nat) : State :=
  let s := s.segmentDue q
  if !s.eqRuns q || s.eqBusy q then s
  else
    let now := fun (s : State) => s.onEq q fun e => { e with wrote := some s.raw }
    match s.eqPending q with
    | p :: _ =>
      if s.eqN q ≤ s.eqOcc q then s
      else if s.ptrFails q then s.eqReset q 1
      else
        let epoch := s.rd .ERR_EPOCH (s.eqOwner q)
        now ((s.dropPend p).eqPut q (p.data.toNat + epoch * 2 ^ 32) 0 (p.seq == 0))
    | [] =>
      match (s.eq q).marker with
      | none => s
      | some m =>
        if s.eqN q ≤ s.eqOcc q + 1 then s
        else if s.ptrFails q then s.eqReset q 1
        else now ((s.onEq q fun e => { e with marker := none }).eqPut q (qfullRecord m) 0 false)

/-- A record of event rank may be written now (R154, R155): nothing is pending, nothing pending was written in this cycle, and
there is room. -/
def State.eqOpen (s : State) (q : Nat) : Bool :=
  (s.eqPending q).isEmpty && (s.eq q).marker.isNone && !s.eqBusy q && s.eqOcc q + 1 < s.eqN q

/-- A dropped event opens or extends the QFULL marker (R155). -/
def QFull.drop (m : Option QFull) (t : Int) : QFull :=
  match m with
  | none => ⟨(t % 2 ^ 31).toNat, some t, 1, 0⟩
  | some m =>
    let base := match m.firstT with | some b => b | none => t
    { m with count := min (m.count + 1) 0xFFFF, span := max m.span (min (t - base).toNat 0x3FFF) }

/-- An event record is offered to a queue (R154, R155, R585, R430); `true` where it was written. -/
def State.offerEvent (s : State) (q r : Nat) (t : Int) (pkt : Nat) : Bool × State :=
  let s := s.segmentDue q
  if !s.domOn pdCtrl then (false, s)
  else if !s.flag .EQ_CFG_EN q then (false, s.count .EQ_DROPS q)
  else if s.eqOpen q then
    if s.ptrFails q then (false, s.eqReset q 1) else (true, s.eqPut q r pkt false)
  else (false, (s.onEq q fun e => { e with marker := some (QFull.drop e.marker t) }).count .EQ_DROPS q)

/-- An UPSTREAM marker is offered (R156, R585, R430): of event rank, folded into the QFULL marker if it cannot be written. -/
def State.offerGap (s : State) (q slot src count first : Nat) : State :=
  let s := s.segmentDue q
  if !s.eqRuns q then s
  else if s.eqOpen q then
    if s.ptrFails q then s.eqReset q 1 else s.eqPut q (upstreamRecord slot src count first) 0 false
  else
    s.onEq q fun e =>
      { e with marker := some (match e.marker with
          | none => ⟨first % 2 ^ 31, some (extendUs s.nowUs first : Nat), min count 0xFFFF, 0⟩
          | some m => { m with count := min (m.count + count) 0xFFFF }) }

/-- A control record of a slot is formed for a queue (R157): a HEAD_LEAVE that meets its own pending HEAD_JOIN cancels the
run's records. DEDUCED: the list keeps one record of a subtype for each slot, the newest. -/
def State.formControl (s : State) (q slot sub param : Nat) (unf : Bool) : State :=
  let u := unitOfSlot slot
  let s := s.segmentDue q
  if !s.eqRuns q then s
  else if sub = subLeave ∧ (s.card u).pend.any fun p => p.slot == slot && p.sub == subJoin then
    s.onCard u fun c => { c with pend := c.pend.filter fun p => !(p.slot == slot && (p.sub == subJoin || p.sub == subFilter)) }
  else
    (s.onCard u fun c =>
      { c with pend := (c.pend.filter fun p => !(p.slot == slot && p.sub == sub)) ++ [pendRec s.recSeq q slot sub param unf] }).onRecSeq
      (· + 1)

/-- A queue loses everything it holds and everything pending for it (R585, R368). -/
def State.eqDiscard (s : State) (q : Nat) : State :=
  let s := ((s.wr .EQ_WP q 0).wr .EQ_RP q 0).onEq q fun e => { line := e.line }
  let s := s.onMs fun m => { m with belowWm := m.belowWm.filter (· != q) }
  s.each (List.range 8) fun s u =>
    if (s.card u).pend.any fun p => p.q == q then s.onCard u fun c => { c with pend := c.pend.filter fun p => p.q != q } else s

/-- The queue starts afresh (R585): the SEGMENT of R151 is its first record. -/
def State.eqStart (s : State) (q : Nat) : State :=
  let s := ((s.wr .EQ_WP q 0).wr .EQ_RP q 0).onEq q fun e =>
    { e with
      recs := [], wp2 := 0, rp2 := 0, seg := s.nowUs / 2 ^ 28, marker := none, mask := none, lastEv := none
      wide := [pendRec 0 q 0 subSegment s.segParam false] }
  s.onMs fun m => { m with belowWm := m.belowWm.filter (· != q) }

/-! ### The read side (R158 to R161) -/

/-- What one record does to the skip mask: whether it is masked, and the mask and last event after it (R161). -/
def skipStep (mask lastEv : Option (Nat × Nat)) (r : QRec) : Bool × Option (Nat × Nat) × Option (Nat × Nat) :=
  let slot := recSlot r.data
  let hit := match mask with | some (m, _) => m == slot | none => false
  match recTag r.data with
  | 1 =>
    match mask with
    | some (m, p) =>
      if m = slot ∧ p = r.pkt then (true, mask, lastEv)
      else (false, (if m = slot then none else mask), some (slot, r.pkt))
    | none => (false, none, some (slot, r.pkt))
  | 2 => (false, if hit && bit r.data.toNat 61 then none else mask, lastEv)
  | 3 =>
    let sub := recSub r.data
    (false, if sub == subReset || ((sub == subJoin || sub == subFilter || sub == subLeave) && hit) then none else mask, lastEv)
  | _ => (false, mask, lastEv)

/-- The records of one line with what the SECDED found at their positions: the line, its tag bits CE, LOST and SKIPPED, and
the state after counting (R160, R161). -/
def State.readRecs (s : State) (q : Nat) (ce ue : Nat) : List (QRec × Nat) → List DWord × Bool × Bool × Bool × State
  | [] => ([], false, false, false, s)
  | (r, i) :: t =>
    let c := bit ce i && !bit ue i
    let u := bit ue i
    let s := s.when c fun s => s.count .EQ_CE q
    let s := s.when u fun s =>
      (s.count .EQ_UE q).record (s.eqOwner q) .eqUe q [s.ptrAdd q (s.rd .EQ_RP q) i % s.eqN q]
    let r : QRec := if u then ⟨BitVec.ofNat 64 (ctlRecord false 0 subLost (s.rd .ERR_EPOCH (s.eqOwner q)) 1), 0⟩ else r
    let (m, mask, last) := skipStep (s.eq q).mask (s.eq q).lastEv r
    let s := s.onEq q fun e => { e with mask := mask, lastEv := last }
    let s := s.when m fun s => s.count .EQ_SKIPPED q
    let (l, c', u', m', s) := State.readRecs s q ce ue t
    ((if m then 0 else r.data) :: l, c || c', u || u', m || m', s)

/-- One read of a queue (R158): the tag of Table CD-4, the line of eight positions, and the state. -/
def State.popLine (s : State) (q : Nat) (ce ue : Nat) (ptrBad : Bool) : Nat × List DWord × State :=
  let s := s.upset q ptrBad
  if !s.flag .EQ_CFG_EN q then (0, List.replicate 8 0, s)
  else if s.ptrFails q then (0, List.replicate 8 0, s.eqReset q 1)
  else
    let rs := (s.eq q).recs.take 8
    let m := rs.length
    let (l, c, u, k, s) := s.readRecs q ce ue rs.zipIdx
    let rp := s.ptrAdd q (s.rd .EQ_RP q) m
    let s := (s.onEq q fun e => { e with recs := e.recs.drop m, rp2 := rp }).wr .EQ_RP q rp
    let s := s.when (s.eqOcc q < s.eqWm q) fun s => s.onMs fun x => { x with belowWm := x.belowWm.filter (· != q) }
    (8 * m + (if c then 0x80 else 0) + (if u then 0x100 else 0) + (if k then 0x200 else 0),
      l ++ List.replicate (8 - m) 0, s)

/-- An enabled Fuller subscription names the queue: it carries the subscription's slot (R165). -/
def State.fullerBound (s : State) (q : Nat) : Bool :=
  (List.range 64).any fun i =>
    s.flag .SUB_EN i && s.flag .SLOT_ROUTE_EN (s.rd .SUB_SLOT i) && s.rd .SLOT_ROUTE_EQ (s.rd .SUB_SLOT i) == q

/-! ### The commands -/

/-- EQ_PENDING_WRITE. -/
def execEqPendingWrite (q : Fin 512) (ptrBad : Bool) (s : State) : Out := done ((s.upset q.val ptrBad).eqWritePending q.val)

/-- SEGMENT_BOUNDARY (R151): every running queue for which time has crossed a multiple of 2^28 µs forms a SEGMENT. -/
def execSegmentBoundary (s : State) : Out := done (s.each (List.range 512) fun s q => s.segmentDue q)

/-- EQ_POP (R164, R166): the line stays in the window until the next read. -/
def execEqPop (who : Agent) (q : Fin 512) (ce ue : BitVec 8) (ptrBad : Bool) (s : State) : Out :=
  match s.admitRead who .EQ_WP q.val with
  | .error s => done s
  | .ok s =>
    if s.fullerBound q.val then
      let empty : List DWord := List.replicate 8 0
      done (((s.put .FUL_STAT_FOREIGN_READ 0 true).onEq q.val fun e => { e with line := empty }).emit (.eqLine who q.val empty 0))
    else
      let (tag, line, s) := s.popLine q.val ce.toNat ue.toNat ptrBad
      done ((s.onEq q.val fun e => { e with line := line }).emit (.eqLine who q.val line tag))

/-- EQ_RESET (R162, R585): no effect while EN = 0. -/
def execEqReset (who : Agent) (q : Fin 512) (s : State) : Out :=
  match s.letIn who .EQ_CTRL_RESET q.val with
  | .error s => done s
  | .ok s => if s.flag .EQ_CFG_EN q.val then done (s.eqReset q.val 2) else done s

/-- EQ_SKIP_GO (R161). -/
def execEqSkipGo (who : Agent) (q : Fin 512) (s : State) : Out :=
  match s.letIn who .EQ_SKIP_GO q.val with
  | .error s => done s
  | .ok s =>
    match (s.eq q.val).lastEv with
    | none => done s
    | some e => done (s.onEq q.val fun x => { x with mask := some e })

/-- A write to EQ_CFG with EN at a value: the other fields take effect, then EN (R585). -/
def State.eqCfgWrite (s : State) (who : Agent) (q : Nat) (w : Nat) (en : Bool) : State :=
  match s.letIn who .EQ_CFG_EN q with
  | .error s => s
  | .ok s =>
    let (ok, s) := s.applyWord who (Reg.EQ_CFG_EN.offset q) w
    if !ok then s
    else
      let was := s.flag .EQ_CFG_EN q
      let s := s.put .EQ_CFG_EN q en
      if en && !was then s.eqStart q else if !en && was then s.eqDiscard q else s

/-- EQ_ENABLE (R585): EN from 0 to 1 starts the queue afresh. -/
def execEqEnable (who : Agent) (q : Fin 512) (w : Word) (s : State) : Out := done (s.eqCfgWrite who q.val w.toNat true)

/-- EQ_DISABLE (R585): the contents and everything pending are discarded. -/
def execEqDisable (who : Agent) (q : Fin 512) (w : Word) (s : State) : Out := done (s.eqCfgWrite who q.val w.toNat false)

end Sys2Proof.Machine
end

