-- ==== Sys2Proof/Machine/Ego.lean ====
section
/-!
DEFINITION. The Ego unit (`spec/10_fusion_and_tracking.md` R290 to R293, R527): flow vectors, the fit of a window's twist,
the states of Table FT-4, the correction, and the cross-check against reference chains.
-/
namespace Sys2Proof.Machine

/-! ### Arithmetic -/

/-- A square root, rounded once to FP32; the root of a negative value is NaN. -/
def fsqrt : FVal → FVal
  | .nan => .nan
  | .inf neg => if neg then .nan else .inf false
  | .fin q =>
    if q < 0 then .nan
    else if q = 0 then .fin 0
    else
      let k : Int := ilog2 q / 2 - 27
      let v := q * pow2 (-2 * k)
      let n := v.floor.toNat
      let r := Nat.sqrt n
      let x : Rat := if ((r * r : Nat) : Rat) = v then r else r + 1 / 2
      fp32.round (.fin (x * pow2 k))

/-- The FP32 value whose high half a 16-bit field holds. -/
def fHigh (n : Nat) : FVal := f32 (n * 65536)

/-- A rational as an FP32 value, rounded once. -/
def fRat (q : Rat) : FVal := fp32.round (.fin q)

/-- The sum of the squares of FP32 words, exact; none where one is not finite. -/
def sqNorm (l : List Nat) : Option Rat :=
  l.foldl (fun a w => match a, f32 w with | some x, .fin q => some (x + q * q) | _, _ => none) (some 0)

/-- Element `i` of a list of values. -/
def fAt (l : List FVal) (i : Nat) : FVal := (l[i]?).getD (.fin 0)

/-! ### State of a head -/

/-- The Ego unit's state of a slot. -/
def State.ego (s : State) (i : Nat) : EgoSt := Table.get {} s.ft.ego i

/-- Change the Ego unit's state of a slot. -/
def State.onEgo (s : State) (i : Nat) (f : EgoSt → EgoSt) : State :=
  s.onFt fun x => { x with ego := Table.upd {} x.ego i f }

/-- The Ego unit runs. -/
def State.egoLive (s : State) : Bool := s.domOn pdFul && !bit s.fulFenced 2

/-- Suspended: MOVED, DRIFT or XFAIL (R291). -/
def State.suspended (s : State) (slot : Nat) : Bool := 2 ≤ s.rd .EGO_STAT_STATE slot

/-- Zero correction and zero motion, in UNCONV (R291). -/
def State.egoZero (s : State) (slot : Nat) : State :=
  let s := s.onEgo slot fun x => { x with r := [0, 0, 0], t := [0, 0, 0], valid := 0, invalid := 0, disagree := 0, waits := [], sigma := 0 }
  let s := s.each (List.range 6) fun s i => s.wr .EGO_TWIST (6 * slot + i) 0
  (s.wr .EGO_STAT_STATE slot 0).wr .EGO_DRIFT_MM slot 0

/-- The head leaves its state for UNCONV. -/
def State.egoUnconv (s : State) (slot : Nat) : State :=
  (s.onEgo slot fun x => { x with valid := 0, invalid := 0, disagree := 0 }).wr .EGO_STAT_STATE slot 0

/-- A head enters MOVED, DRIFT or XFAIL (R291, R293): an error record, and SUSP for the grid windows open now (R289). -/
def State.suspend (s : State) (slot st : Nat) : State :=
  let s := s.wr .EGO_STAT_STATE slot st
  let s := s.onFt fun x =>
    { x with grids := x.grids.map fun e =>
        (e.1, { e.2 with opened := e.2.opened.map fun w => { w with susp := setBit w.susp slot true } }) }
  s.record2 (s.portOwner (unitOfSlot slot)) .egoSuspend slot [st]

/-! ### Poses (R275, R292) -/

/-- The base rotation of a head. -/
def State.baseRot (s : State) (slot : Nat) : List Nat := (List.range 9).map fun i => s.rd .CAL_BR (9 * slot + i)

/-- The sums Σ (−q)^k ÷ (2k + 1)! and Σ (−q)^k ÷ (2k + 2)!, of `n` terms: sin θ ÷ θ and (1 − cos θ) ÷ θ² for q = θ². -/
def expSeries (q : Rat) (n : Nat) : Rat × Rat :=
  let step := fun (a : Rat × Rat × Rat) (k : Nat) =>
    let t := a.2.2
    (a.1 + t, a.2.1 + t / (2 * k + 2 : Nat), -t * q / ((2 * k + 2) * (2 * k + 3) : Nat))
  let r := (List.range n).foldl step (0, 0, 1)
  (r.1, r.2.1)

/-- The rotation exp(r) of an axis-angle vector (R292), in row order: I + (sin θ ÷ θ)·K + ((1 − cos θ) ÷ θ²)·K², where K is the cross
product with r. DEDUCED: each element is rounded once to FP32 (R204); the series has enough terms that what is left out is below any
rounding. An angle that is not finite has no rotation: its elements are NaN. -/
def expRot (r : List Nat) : List FVal :=
  match r.map f32, sqNorm r with
  | [.fin x, .fin y, .fin z], some q =>
    let (a, b) := expSeries q (40 + 4 * Nat.sqrt q.ceil.toNat)
    let e := fun (d k u v : Rat) => fRat (d + a * k + b * (u * v))
    let d := fun (u : Rat) => 1 - b * (q - u * u)
    [fRat (d x), e 0 (-z) x y, e 0 y x z, e 0 z x y, fRat (d y), e 0 (-x) y z, e 0 (-y) x z, e 0 x y z, fRat (d z)]
  | _, _ => List.replicate 9 .nan

/-- The pose in force of a head (R276, R292): rotation exp(r)·BR and translation BT + t. -/
def State.headPose (s : State) (slot : Nat) : List FVal × List FVal :=
  let e := s.ego slot
  let br := (s.baseRot slot).map f32
  let rot :=
    if e.r.all (· == 0) then br
    else
      let x := expRot e.r
      (List.range 9).map fun k => fdot ((List.range 3).map fun j => (fAt x (k / 3 * 3 + j), fAt br (3 * j + k % 3)))
  (rot, (List.range 3).map fun i => fadd (f32 (s.rd .CAL_BT (3 * slot + i))) (f32 ((e.t[i]?).getD 0)))

/-- A node of the undistortion lookup (R276). -/
def State.udNode (s : State) (slot i j : Nat) : FVal × FVal :=
  let nx := ceilDiv (s.headW slot) 64 + 1
  let a := s.rd .CAL_UDLUT slot + (j * nx + i) * 8
  let b := s.ldSpur (s.portOwner (unitOfSlot slot)) a 8
  (f32 (leAt b 0 4), f32 (leAt b 4 4))

/-- Interpolation between two values, each operation rounded once. -/
def flerp (a b f : FVal) : FVal := fadd a (fmul (fsub b a) f)

/-- Full-resolution pixel of a record coordinate (R280): exact. -/
def fullPixel (x16 ds : Nat) : Rat := ((x16 : Rat) / 16 + 1 / 2) * (2 ^ ds : Nat) - 1 / 2

/-- The normalised coordinates of a record (R276, R280). DEDUCED: the lookup is interpolated along x first. -/
def State.normalised (s : State) (slot : Nat) (u v : Rat) : FVal × FVal :=
  if s.flag .CAL_RAW slot then
    let i := (clampInt 0 (ceilDiv (s.headW slot) 64 - 1 : Nat) (u / 64).floor).toNat
    let j := (clampInt 0 (ceilDiv (s.headH slot) 64 - 1 : Nat) (v / 64).floor).toNat
    let fx := fRat (u / 64 - i)
    let fy := fRat (v / 64 - j)
    let n := s.udNode slot
    (flerp (flerp (n i j).1 (n (i + 1) j).1 fx) (flerp (n i (j + 1)).1 (n (i + 1) (j + 1)).1 fx) fy,
      flerp (flerp (n i j).2 (n (i + 1) j).2 fx) (flerp (n i (j + 1)).2 (n (i + 1) (j + 1)).2 fx) fy)
  else
    (fdiv (fsub (.fin u) (f32 (s.rd .CAL_CX slot))) (f32 (s.rd .CAL_FX slot)),
      fdiv (fsub (.fin v) (f32 (s.rd .CAL_CY slot))) (f32 (s.rd .CAL_FY slot)))

/-! ### The fit (R290) -/

/-- One flow vector as two rows of the model: six coefficients and the observed flow each. -/
structure FlowRow where
  a : List FVal
  b : FVal

/-- The background depth at a full-resolution pixel; 0 excludes the vector. -/
def State.depthAt (s : State) (slot : Nat) (u v : Rat) : Nat :=
  let nx := ceilDiv (s.headW slot) 16
  let i := u.floor.toNat / 16
  let j := v.floor.toNat / 16
  leAt (s.ldSpur (s.portOwner (unitOfSlot slot)) (s.rd .CAL_BGD slot + (j * nx + i) * 2) 2) 0 2

/-- The rows of a flow vector; none where its depth excludes it. -/
def State.flowRows (s : State) (slot : Nat) (f : FlowVec) : Option (FlowRow × FlowRow) :=
  let u := fullPixel (16 * f.x) f.dec
  let v := fullPixel (16 * f.y) f.dec
  let z := s.depthAt slot u v
  if z = 0 then none
  else
    let (x, y) := s.normalised slot u v
    let zf := fInt z
    let k := fRat (125 / 2 * (2 ^ f.dec : Nat))
    let xd := fdiv (fmul (fInt f.vx) k) (f32 (s.rd .CAL_FX slot))
    let yd := fdiv (fmul (fInt f.vy) k) (f32 (s.rd .CAL_FY slot))
    let one := fInt 1
    some (⟨[fmul x y, fneg (fadd one (fmul x x)), y, fneg (fdiv one zf), .fin 0, fdiv x zf], xd⟩,
      ⟨[fadd one (fmul y y), fneg (fmul x y), fneg x, .fin 0, fneg (fdiv one zf), fdiv y zf], yd⟩)

/-- Normal equations: the 6 × 6 matrix in row order and the right side. -/
structure Normal where
  m : List FVal := List.replicate 36 (.fin 0)
  b : List FVal := List.replicate 6 (.fin 0)

/-- Take a weighted row into the normal equations, in FP32. -/
def Normal.add (n : Normal) (w : FVal) (r : FlowRow) : Normal :=
  { m := (List.range 36).map fun k => fadd (fAt n.m k) (fmul w (fmul (fAt r.a (k / 6)) (fAt r.a (k % 6))))
    b := (List.range 6).map fun k => fadd (fAt n.b k) (fmul w (fmul (fAt r.a k) r.b)) }

/-- One elimination step on the rows below pivot `p` of the matrix augmented by columns `cs`. -/
def elimStep (p : Nat) (rows : List (List FVal)) : List (List FVal) :=
  let pr := (rows[p]?).getD []
  rows.zipIdx.map fun r =>
    if r.2 ≤ p then r.1
    else
      let f := fdiv (fAt r.1 p) (fAt pr p)
      (List.range r.1.length).map fun k => fsub (fAt r.1 k) (fmul f (fAt pr k))

/-- Back substitution for column `c` of the augmented matrix. -/
def backSub (rows : List (List FVal)) (c : Nat) : List FVal :=
  (List.range 6).foldl (fun (x : List FVal) k =>
    let i := 5 - k
    let r := (rows[i]?).getD []
    let t := (List.range k).foldl (fun a j => fsub a (fmul (fAt r (i + 1 + j)) (fAt x j))) (fAt r c)
    fdiv t (fAt r i) :: x) []

/-- The solution: the twist, the diagonal pivots, and the translational diagonal of the inverse. DEDUCED: elimination with
the diagonal pivots, in FP32. -/
def Normal.solve (n : Normal) : List FVal × List FVal × List FVal :=
  let rows := (List.range 6).map fun i =>
    ((List.range 6).map fun j => fAt n.m (6 * i + j)) ++ [fAt n.b i] ++
      (List.range 3).map fun j => if i = 3 + j then fInt 1 else .fin 0
  let e := (List.range 5).foldl (fun r p => elimStep p r) rows
  (backSub e 6, (List.range 6).map fun i => fAt ((e[i]?).getD []) i, (List.range 3).map fun j => fAt (backSub e (7 + j)) (3 + j))

/-- The residual of a vector: the length of the difference of its two rows. -/
def residual (x : List FVal) (p : FlowRow × FlowRow) : FVal :=
  let d := fun (r : FlowRow) => fsub r.b (fdot (r.a.zip x))
  fsqrt (fadd (fmul (d p.1) (d p.1)) (fmul (d p.2) (d p.2)))

/-- The estimate of a window: the twist, the vectors that remain, whether it is valid, and σ_v (R290). -/
def State.egoFit (s : State) (slot : Nat) (vs : List FlowVec) : List FVal × Nat × Bool × FVal :=
  let rows := vs.filterMap fun f => s.flowRows slot f
  let take := fun (l : List ((FlowRow × FlowRow) × FVal)) =>
    l.foldl (fun (n : Normal) p => (n.add p.2 p.1.1).add p.2 p.1.2) {}
  let x0 := (take (rows.map fun r => (r, fInt 1))).solve.1
  let gate := fHigh (s.rd .EGO_GATE slot)
  let hub := fHigh (s.rd .EGO_HUB slot)
  let kept := (rows.map fun r => (r, residual x0 r)).filter fun p => !flt gate p.2
  let (x, piv, inv) := (take (kept.map fun p => (p.1, if flt hub p.2 then fdiv hub p.2 else fInt 1))).solve
  let res := kept.map fun p => residual x p.1
  let ms := fdiv (res.foldl (fun a r => fadd a (fmul r r)) (.fin 0)) (fInt kept.length)
  let rms := fsqrt ms
  let big := piv.foldl (fun a p => if flt a p then p else a) (fAt piv 0)
  let small := piv.foldl (fun a p => if flt p a then p else a) (fAt piv 0)
  let wide := inv.foldl (fun a p => if flt a p then p else a) (fAt inv 0)
  let ok := s.rd .EGO_MIN slot ≤ kept.length && fle (fmul big (.fin (pow2 (-20)))) small &&
    fle rms (fHigh (s.rd .EGO_RES slot))
  (x, kept.length, ok, fsqrt (fmul ms wide))

/-! ### States and the correction (R291, R292) -/

/-- The update of the correction by a valid window of a length in microseconds. -/
def State.egoUpdate (s : State) (slot len : Nat) (x : List FVal) (sigma : FVal) : State :=
  let dt := fRat ((len : Rat) / 1000000)
  let e := s.ego slot
  let w := x.take 3
  let v := fmatvec ((s.baseRot slot).map f32) (x.drop 3)
  let step := fun (a : List Nat) (d : List FVal) =>
    (List.range 3).map fun i => fadd (f32 ((a[i]?).getD 0)) (fmul (fAt d i) dt)
  let r := step e.r w
  let t := step e.t v
  if s.flag .CAL_MOUNT slot then
    let s := s.onEgo slot fun z => { z with r := r.map toF32, t := t.map toF32 }
    s.wr .EGO_DRIFT_MM slot (toF32 (fadd (f32 (s.rd .EGO_DRIFT_MM slot)) (fmul sigma dt)))
  else
    let leak := fsub (fInt 1) (fdiv (fRat ((len : Rat) / 1000)) (fInt (s.rd .EGO_LEAK slot)))
    s.onEgo slot fun z => { z with r := r.map fun a => toF32 (fmul a leak), t := t.map fun a => toF32 (fmul a leak) }

/-- The limit that a head in CONV exceeds, as the state it enters (Table FT-4). -/
def State.egoLimit (s : State) (slot : Nat) : Option Nat :=
  let above := fun (l : List Nat) (lim : Rat) => match sqNorm l with | some q => decide (lim * lim < q) | none => true
  let e := s.ego slot
  if s.flag .CAL_MOUNT slot then
    if flt (fInt (s.rd .EGO_LIM_T slot)) (f32 (s.rd .EGO_DRIFT_MM slot)) then some 3 else none
  else if above e.r ((s.rd .EGO_LIM_A slot : Rat) / 1000) || above e.t (s.rd .EGO_LIM_T slot) then some 2
  else none

/-- The Ego unit solves the window that closes (R290 to R293); `a` and `b`: the window in microseconds. -/
def State.egoSolve (s : State) (slot win a b : Nat) : State :=
  if !s.flag .EGO_CTRL_EN slot || !s.egoLive then s
  else
    let vs := (s.ego slot).vecs.filter fun f => f.win ≤ win
    let s := s.onEgo slot fun e => { e with vecs := e.vecs.filter fun f => win < f.win }
    let (x, n, ok, sigma) := s.egoFit slot vs
    let s := s.wr .EGO_STAT_SUPPORT slot n
    let s := s.each (List.range 6) fun s i => s.wr .EGO_TWIST (6 * slot + i) (toF32 (fAt x i))
    let s := s.onEgo slot fun e =>
      { e with
        valid := if ok then e.valid + 1 else 0, invalid := if ok then 0 else e.invalid + 1, sigma := toF32 sigma
        waits := if s.flag .EGO_CTRL_XCHK_EN slot then e.waits ++ [⟨a * 1000, b * 1000, x.map toF32⟩] else e.waits }
    let conv := s.rd .EGO_CONV slot
    let e := s.ego slot
    match s.rd .EGO_STAT_STATE slot with
    | 0 => if conv ≤ e.valid then (s.onEgo slot fun e => { e with disagree := 0 }).wr .EGO_STAT_STATE slot 1 else s
    | 1 =>
      let s := if ok then s.egoUpdate slot (b - a) x sigma else s
      match s.egoLimit slot with
      | some st => s.suspend slot st
      | none => if !ok && conv ≤ e.invalid then s.wr .EGO_STAT_STATE slot 0 else s
    | _ => s

/-! ### The cross-check (R293, R527) -/

/-- The mean of a chain's qualifying outputs in a window, exact; none without any, or where the scale is not finite. -/
def State.refMean (s : State) (slot chain a b : Nat) : Option Rat :=
  let l := (s.ego slot).refs.filter fun r => r.chain == chain && r.good && a ≤ r.stamp && r.stamp < b
  match f32 (s.rd .CH_SCALE chain) with
  | .fin q => if l.isEmpty then none else some (((l.map EgoRef.value).sum : Rat) / 256 * q / l.length)
  | _ => none

/-- Whether two vectors differ by more than a limit: exact squares. DESIGN CHOICE: an estimate that is not finite, as that of a window
without vectors, disagrees. -/
def farApart (x : List FVal) (y : List Rat) (lim : Rat) : Bool :=
  let d := (x.zip y).map fun p => match p.1 with | .fin q => some ((q - p.2) * (q - p.2)) | _ => none
  if d.any Option.isNone then true else decide (lim * lim < (d.filterMap id).sum)

/-- EGO_XCHK_COMPARE: the oldest window that waits. It is compared once every chain has produced an output after its end;
it is given up 16 windows later (R527). -/
def execEgoXchkCompare (slot : Fin 256) (s : State) : Out :=
  let e := s.ego slot.val
  match e.waits with
  | [] => done s
  | w :: rest =>
    let c := s.rd .EGO_CTRL_XCHK_SRC slot.val
    let chains := (List.range 6).map (c + ·)
    let ready := chains.all fun k => e.refs.any fun r => r.chain == k && w.to_ ≤ r.stamp
    let old := w.to_ + 16 * (w.to_ - w.from_) ≤ s.now
    if !ready && !old then done s
    else
      let means := chains.map fun k => s.refMean slot.val k w.from_ w.to_
      let next := match rest with | [] => w.to_ | v :: _ => v.from_
      let s := s.onEgo slot.val fun e => { e with waits := rest, refs := e.refs.filter fun r => next ≤ r.stamp }
      if !ready || means.any Option.isNone then done s
      else
        let m := means.filterMap id
        let x := w.twist.map f32
        let bad := farApart (x.take 3) (m.take 3) ((s.rd .XCHK_W slot.val : Rat) / 1000) ||
          farApart (x.drop 3) (m.drop 3) (s.rd .XCHK_V slot.val)
        let s := s.onEgo slot.val fun e => { e with disagree := if bad then e.disagree + 1 else 0 }
        if bad ∧ s.rd .EGO_STAT_STATE slot.val = 1 ∧ s.rd .XCHK_N slot.val ≤ (s.ego slot.val).disagree then
          done (s.suspend slot.val 4)
        else done s

/-- EGO_CLR: a suspended head leaves its state, and the correction is zero (Table FT-6). -/
def execEgoClr (who : Agent) (slot : Fin 256) (s : State) : Out :=
  match s.letIn who .EGO_CTRL_CLR slot.val with
  | .error s => done s
  | .ok s =>
    let s := s.onEgo slot.val fun e => { e with r := [0, 0, 0], t := [0, 0, 0] }
    if s.suspended slot.val then done ((s.egoUnconv slot.val).wr .EGO_DRIFT_MM slot.val 0) else done s

end Sys2Proof.Machine
end

