-- ==== Sys2Proof/Machine/Milestones.lean ====
section
/-!
DEFINITION. The Milestone unit and the buffer-pool manager (`spec/09_milestones_and_buffers.md` R250 to R274, R584): the
cycle of R258, waiters, re-arms, ownership, batts and their arbitration; and the mailbox commands that use them.
-/
namespace Sys2Proof.Machine

/-! ### Codes of Table MS-3 -/

def msErrSpur : Nat := 0x10
def msErrOff : Nat := 0x11
def msNowait : Nat := 0x12
def msBadwait : Nat := 0x13
def bpNobuf : Nat := 0x20
def bpWaitqFull : Nat := 0x21
def bpWaitTo : Nat := 0x22
def bpErrHandle : Nat := 0x23
def bpErrDfree : Nat := 0x24
def bpErrOwner : Nat := 0x25
def bpErrGive : Nat := 0x26
/-- The status MSBP_ERR (Table MB-3). -/
def stMsbp : Nat := 0x14

/-! ### Ownership (R261) -/

/-- The owner test: another Spur's request is refused and raised as an isolation violation. -/
def State.msOwner (s : State) (ms spur : Nat) : Except State State :=
  if s.rd .MS_CFG_OWNER ms = spur then .ok s
  else .error ((s.count .MS_CNT 3).isoViolation spur isoMilestone ms)

/-- The owner test, then the enable test: a code of Table MS-3 with the state it leaves, or the state to go on from. -/
def State.msAdmit (s : State) (ms spur : Nat) : Except (Nat × State) State :=
  match s.msOwner ms spur with
  | .error s => .error (msErrSpur, s)
  | .ok s => if s.flag .MS_CFG_EN ms then .ok s else .error (msErrOff, s)

/-! ### Signals, waiters and the cycle (R252, R256, R258, R259, R262) -/

/-- The enabled forwards of a Milestone post a count (R262). -/
def State.forwards (s : State) (ms count : Nat) : State :=
  s.each [2 * ms, 2 * ms + 1] fun s f =>
    if s.flag .MS_FWD_EN f then s.postTkc (s.rd .MS_FWD_MILL f) (s.rd .MS_FWD_TKC f) count else s

/-- VALUE of a Milestone rises by a total, at most to 0xFFFF_FFFF (R252). -/
def State.raiseValue (s : State) (ms total : Nat) : State :=
  let v := s.rd .MS_VALUE ms + total
  if 2 ^ 32 ≤ v then
    ((s.wr .MS_VALUE ms (2 ^ 32 - 1)).put .MS_CFG_SAT ms true).record (s.rd .MS_CFG_OWNER ms) .msSat ms [0]
  else s.wr .MS_VALUE ms v

/-- The outcome of a signal goes to its source (Table MS-1, R261): an MSIG of a core is answered with its code, and a refused post
of a Mill counts in its POST_DROP. The other sources have nobody to answer. -/
def State.signalOutcome (s : State) (g : Signal) (code : Nat) : State :=
  match g.src with
  | .core c => s.emit (.msOutcome c g.ms code 0 0)
  | .mill m => s.when (code ≠ 0) fun s => s.count .MILL_CNT (6 * m + 4)
  | _ => s

/-- One signal as it reaches the unit (R261, R262): whether it passes. Its forwards post then; its count is not yet in VALUE. -/
def State.takeSignal (s : State) (g : Signal) : Bool × State :=
  match s.msAdmit g.ms g.spur with
  | .ok s => (true, ((s.count .MS_CNT 0).forwards g.ms g.count).signalOutcome g 0)
  | .error (code, s) => (false, s.signalOutcome g code)

/-- Step 1 of R258: the signals that pass are counted and forwarded one by one, and the total of each Milestone is applied once. -/
def State.msSignals (s : State) (l : List Signal) : State :=
  let (passed, s) := l.foldl (fun (a : List Signal × State) g =>
    match a.2.takeSignal g with
    | (true, s) => (a.1 ++ [g], s)
    | (false, s) => (a.1, s)) ([], s)
  s.each (passed.map fun g => g.ms).dedup fun s ms =>
    s.raiseValue ms (((passed.filter fun g => g.ms == ms).map fun g => g.count).sum)

/-- A waiter leaves the table and takes its action with its outcome (R256, R339). -/
def State.endWaiter (s : State) (w : Waiter) (o : WOut) : State :=
  let s := s.onMs fun m => { m with waiters := m.waiters.erase w }
  let s := (s.wr .MS_CFG_WAITERS w.ms (s.rd .MS_CFG_WAITERS w.ms - 1)).wr .MS_WUSED w.spur (s.rd .MS_WUSED w.spur - 1)
  let s := s.when (o == .timeout) fun s => s.count .MS_CNT 1
  let s := s.when (o == .cancelled) fun s => s.count .MS_CNT 2
  match w.act with
  | .ncc c => s.emit (.nccWoken c w.ms o)
  | .tkc mill tkc count => s.when (o == .success) fun s => s.postTkc mill tkc count
  | .cmd mb id =>
    match s.cmdById mb id with
    | none => s
    | some c =>
      match o with
      | .success => s.onCmd mb id fun c => { c with stage := .ready }
      | .timeout => s.complete mb c 1 1 0 s.now
      | .cancelled => s.complete mb c 4 0 0 s.now

/-- What a cycle makes of a waiter (R258, steps 2 and 3): success where its threshold is reached, else a timeout where its T lies
before Waytime. -/
def State.waiterEnd (s : State) (w : Waiter) : Option WOut :=
  if w.h ≤ s.rd .MS_VALUE w.ms then some .success
  else match w.timeout with
    | some t => if t < s.now then some .timeout else none
    | none => none

/-- Steps 2 and 3 of R258. The completions are delivered in registration order (R259), successes and timeouts together: `ends` is
decided for every waiter before the first is delivered. -/
def State.msEnds (s : State) : State :=
  s.each (s.ms.waiters.filterMap fun w => (s.waiterEnd w).map fun o => (w, o)) fun s e => s.endWaiter e.1 e.2

/-- A cycle of the unit up to step 3 of R258. -/
def State.msCycle (s : State) (l : List Signal) : State := (s.msSignals l).msEnds

/-- Register a waiter (R251, R257, R261): its code, OK included. The owner Spur's cores and quads only. -/
def State.msWait (s : State) (ms spur h : Nat) (timeout : Option Nat) (act : WAct) : Nat × State :=
  match s.msAdmit ms spur with
  | .error e => e
  | .ok s =>
    let bad := match act with
      | .ncc c => c / 2 != spur
      | .tkc mill _ _ => s.millOwner mill != spur || !bit (s.rd .SPUR_QUADS spur) (mill / 4) || timeout.isSome
      | .cmd _ _ => false
    if bad then (msBadwait, s)
    else if s.rd .MS_WQUOTA spur ≤ s.rd .MS_WUSED spur then (msNowait, s.count .MS_CNT 4)
    else
      let w : Waiter := ⟨ms, if h = 0 then s.rd .MS_TARGET ms else h, timeout, act, spur⟩
      let s := s.onMs fun m => { m with waiters := m.waiters ++ [w] }
      (0, (s.wr .MS_CFG_WAITERS ms (s.rd .MS_CFG_WAITERS ms + 1)).wr .MS_WUSED spur (s.rd .MS_WUSED spur + 1))

/-- A re-arm that is allowed (R260): every waiter is cancelled, in registration order, then VALUE and TARGET are set. -/
def State.msRearm (s : State) (ms value target : Nat) : State :=
  let s := s.each (s.ms.waiters.filter fun w => w.ms == ms) fun s w => s.endWaiter w .cancelled
  (s.wr .MS_VALUE ms value).wr .MS_TARGET ms target

/-! ### The commands of the unit -/

/-- The elements of a list whose bit is set, and the rest, both in order. -/
def pickBits {α : Type} (l : List α) (m : Nat) : List α × List α :=
  ((l.zipIdx.filter fun p => bit m p.2).map Prod.fst, (l.zipIdx.filter fun p => !bit m p.2).map Prod.fst)

/-- Signals in flight arrive in one cycle (R258, steps 1 to 3). -/
def execMsSignalArrival (arriving : Nat) (s : State) : Out :=
  let (now, later) := pickBits s.ms.signals arriving
  done ((s.onMs fun m => { m with signals := later }).msCycle now)

/-- MSIG (R255): the signal is on its way. -/
def execMsig (core : Fin 16) (ms : Fin 1024) (count : BitVec 16) (s : State) : Out :=
  done (s.signal ms.val (core.val / 2) count.toNat (.core core.val))

/-- MWAIT (R251, R256, R257): the waiter is registered, or the refusal is returned to the core. -/
def execMwait (core : Fin 16) (ms : Fin 1024) (h : Word) (timeout : Option DWord) (act : WaitAct) (s : State) : Out :=
  let a : WAct := match act with
    | .ncc c => .ncc c.val
    | .tkc mill tkc count => .tkc mill.val tkc.val count.toNat
  let (code, s) := s.msWait ms.val (core.val / 2) h.toNat (timeout.map BitVec.toNat) a
  done (s.emit (.msOutcome core.val ms.val code 0 0))

/-- MREARM (R258 step 4, R260): steps 2 and 3 come first, so a waiter whose threshold is reached succeeds and one whose T has passed
times out. -/
def execMrearm (core : Fin 16) (ms : Fin 1024) (value target : Word) (s : State) : Out :=
  match s.msAdmit ms.val (core.val / 2) with
  | .error (code, s) => done (s.emit (.msOutcome core.val ms.val code 0 0))
  | .ok s => done ((s.msEnds.msRearm ms.val value.toNat target.toNat).emit (.msOutcome core.val ms.val 0 0 0))

/-- A core reads VALUE and TARGET (R253, R261): tested for its owner only. -/
def execMsCoreRead (core : Fin 16) (ms : Fin 1024) (s : State) : Out :=
  match s.msOwner ms.val (core.val / 2) with
  | .error s => done (s.emit (.msOutcome core.val ms.val msErrSpur 0 0))
  | .ok s => done (s.emit (.msOutcome core.val ms.val 0 (s.rd .MS_VALUE ms.val) (s.rd .MS_TARGET ms.val)))

/-- A cycle without a signal (R258, steps 2 and 3). -/
def execWaiterTimeout (s : State) : Out := done s.msEnds

/-! ### Settings of the pools that the firmware refuses (R264, R269) -/

/-- Two ranges of long batts share an index. An empty range shares none. -/
def rangesMeet (b1 n1 b2 n2 : Nat) : Bool := 0 < n1 && 0 < n2 && b1 < b2 + n2 && b2 < b1 + n1

/-- The settings `g` of the pools would be refused: the sums of the reserves and of the waiter quotas, a reserve above its limit, a
limit that sinks below the Spur's use (R269); long ranges that overlap, end beyond index 1,048,575, or do not fit in the Spur's
channels, of which `cap` says how many bytes there are (R264). DEDUCED: the range fits where LONG_ADDR and its length lie within the
Spur-relative space; an empty range is tested for nothing. -/
def State.poolRefuses (s : State) (g : Reg → Nat → Nat) (cap : Nat → Nat) : Bool :=
  let sps := List.range 8
  let base := g .BP_LONG_BASE
  let n := g .BP_LONG_COUNT
  16384 < (sps.map (g .BP_SHORT_RESV)).sum || 2048 < (sps.map (g .MS_WQUOTA)).sum ||
  sps.any (fun t => g .BP_SHORT_MAX t < g .BP_SHORT_RESV t ||
    (g .BP_SHORT_MAX t < s.rd .BP_SHORT_MAX t && g .BP_SHORT_MAX t < s.rd .BP_USED_SHORT t) ||
    (0 < n t && (2 ^ 20 < base t + n t ||
      cap t < g .BP_LONG_ADDR_LO t * 2 ^ 12 + g .BP_LONG_ADDR_HI t * 2 ^ 32 + n t * 4096)) ||
    (List.range t).any fun u => rangesMeet (base t) (n t) (base u) (n u))

/-- An offset is one of the settings of R264 and R269. -/
def poolSetting (off : Nat) : Bool := 0x310000 ≤ off && off < 0x310100 || 0x308000 ≤ off && off < 0x308020

/-! ### Buffer pools: eligibility and grants (R270 to R272) -/

/-- UNMET of a Spur. -/
def State.unmet (s : State) (t : Nat) : Nat := s.rd .BP_SHORT_RESV t - s.rd .BP_USED_SHORT t

/-- The indices of a pool that an ALLOC of a Spur may take: the short pool, or the Spur's own long range (R264, R270). -/
def State.battRange (s : State) (long : Bool) (sp : Nat) : Nat × Nat :=
  if long then (s.rd .BP_LONG_BASE sp, s.rd .BP_LONG_COUNT sp) else (0, 16384)

/-- A free batt of a range, looked for from a free starting point: the spec does not say which free batt is granted. -/
def State.pickFree (s : State) (long : Bool) (sp : Nat) (start : Nat) : Option Nat :=
  let (b, n) := s.battRange long sp
  ((List.range n).map fun i => b + (start + i) % n).find? fun i => (s.batt long i).owner.isNone

/-- Eligibility of an ALLOC (R270). -/
def State.eligible (s : State) (long : Bool) (sp : Nat) : Bool :=
  let free := (s.pickFree long sp 0).isSome
  if long then free
  else
    let u := s.rd .BP_USED_SHORT sp
    let others := ((List.range 8).filter fun t => t != sp).foldl (fun a t => a + s.unmet t) 0
    free && u < s.rd .BP_SHORT_MAX sp && (u < s.rd .BP_SHORT_RESV sp || 1 + others ≤ s.rd .BP_FREE)

/-- Grants made in this cycle of the manager. -/
def State.grantsNow (s : State) (long : Bool) : Nat :=
  if s.ms.grantCycle = s.raw then (if long then s.ms.longGrants else s.ms.shortGrants) else 0

/-- Count a grant of this cycle. -/
def State.noteGrant (s : State) (long : Bool) : State :=
  let a := s.grantsNow false
  let b := s.grantsNow true
  s.onMs fun m =>
    { m with grantCycle := s.raw, shortGrants := if long then a else a + 1, longGrants := if long then b + 1 else b }

/-- Grant a batt to an agent of a Spur: its handle with the current GEN. No data is cleared (Table MS-6). -/
def State.grant (s : State) (long : Bool) (agent sp : Nat) : Nat × State :=
  let (r, s) := s.fresh 20
  match s.pickFree long sp r with
  | none => (0, s)
  | some i =>
    let s := s.onBatt long i fun b => { b with owner := some (agent, sp) }
    let s := if long then s.wr .BP_USED_LONG sp (s.rd .BP_USED_LONG sp + 1)
      else (s.wr .BP_USED_SHORT sp (s.rd .BP_USED_SHORT sp + 1)).wr .BP_FREE 0 (s.rd .BP_FREE - 1)
    (mkHandle long (s.batt long i).gen i, s.noteGrant long)

/-- Answer an ALLOC. A grant to a command that has been claimed is suppressed and its batt freed (R341). -/
def State.battReply (s : State) (dst : BTo) (code handle : Nat) : State :=
  match dst with
  | .agent id sp => s.emit (.battAnswer id sp code handle)
  | .cmd mb id =>
    match s.cmdById mb id with
    | none => (if code = 0 then s.freeHandle handle else s).count .MB_CNT (6 * mb + 1)
    | some c =>
      if code = 0 then
        if s.late c then (s.finish mb c 0 0 handle).freeHandle handle else s.finish mb c 0 0 handle
      else s.finish mb c stMsbp code 0

/-- The waiter list of a pool. -/
def State.waitq (s : State) (long : Bool) : List BWaiter := if long then s.ms.longQ else s.ms.shortQ

/-- Change the waiter list of a pool. -/
def State.onWaitq (s : State) (long : Bool) (f : List BWaiter → List BWaiter) : State :=
  (s.onMs fun m => if long then { m with longQ := f m.longQ } else { m with shortQ := f m.shortQ }).waitqRegs

/-- A waiter leaves its list and its Spur's quota (R272). -/
def State.dropPoolWaiter (s : State) (long : Bool) (w : BWaiter) : State :=
  (s.onWaitq long fun l => l.erase w).wr .MS_WUSED w.spur (s.rd .MS_WUSED w.spur - 1)

/-- Step 2 of R271 for one pool: the list from its head, each eligible entry granted, at most 4 grants in a cycle. -/
def State.serveWaiters (s : State) (long : Bool) : State :=
  s.each (s.waitq long) fun s w =>
    if s.grantsNow long < 4 && s.eligible long w.spur then
      let (h, s) := (s.dropPoolWaiter long w).grant long w.agent w.spur
      s.battReply w.answer 0 h
    else s

/-- A loser of step 3 (R272): NOBUF, a place in the list, or BP_WAITQ_FULL. -/
def State.loser (s : State) (long wait : Bool) (agent sp : Nat) (timeout : Option Nat) (dst : BTo) : State :=
  if !wait then (s.count .BP_CNT 0).battReply dst bpNobuf 0
  else if 64 ≤ (s.waitq long).length then (s.count .BP_CNT 1).battReply dst bpWaitqFull 0
  else
    let s := (s.onWaitq long fun l => l ++ [⟨agent, sp, timeout, dst⟩]).wr .MS_WUSED sp (s.rd .MS_WUSED sp + 1)
    match dst with
    | .agent id sp => s.emit (.battAnswer id sp 3 0)
    | .cmd _ _ => s

/-- The request port of an agent (Table MS-5). -/
def battPort (id : Nat) : Nat :=
  match id / 256 with
  | 0 => id % 16
  | 1 => 16
  | 2 => 16
  | 3 => 17
  | 4 => 18
  | _ => 19

/-- One ALLOC of step 3, with the pointer moved past a granted port (R271). -/
def State.allocOne (s : State) (long wait : Bool) (agent sp : Nat) (timeout : Option Nat) (dst : BTo) : State :=
  if s.grantsNow long < 4 && s.eligible long sp then
    let (h, s) := s.grant long agent sp
    (s.wr .BP_PTR 0 ((battPort agent + 1) % 20)).battReply dst 0 h
  else s.loser long wait agent sp timeout dst

/-- The requests of one cycle in port order from the pointer (R271). -/
def portOrder (ptr : Nat) (l : List AllocReq) : List AllocReq :=
  (List.range 20).flatMap fun i => l.filter fun r => battPort r.agent.id.toNat == (ptr + i) % 20

/-- Step 5 of R271 for one pool: the waiters whose timeout lies before Waytime. -/
def State.waitersExpire (s : State) (long : Bool) : State :=
  s.each ((s.waitq long).filter fun w => match w.timeout with | some t => t < s.now | none => false) fun s w =>
    ((s.dropPoolWaiter long w).count .BP_CNT 6).battReply w.answer bpWaitTo 0

/-- A cycle of the manager from step 2 on, with what is presented in step 3 (R271). The FREE, GIVE and POP of step 1 are commands of
their own that stand before it in the queue (DEDUCED: what one cycle presents comes in the order of its steps, and within a step in
port order from BP_PTR). -/
def State.bpCycle (s : State) (step3 : State → State) : State :=
  ((step3 ((s.serveWaiters false).serveWaiters true)).waitersExpire false).waitersExpire true

/-- BATT_ALLOC: steps 2 to 5 of R271. -/
def execBattAlloc (reqs : List AllocReq) (s : State) : Out :=
  done (s.bpCycle fun s => s.each (portOrder (s.rd .BP_PTR) reqs) fun s r =>
    s.allocOne r.long r.wait r.agent.id.toNat r.agent.spur.val (r.timeout.map BitVec.toNat)
      (.agent r.agent.id.toNat r.agent.spur.val))

/-- BATT_WAITER_GRANT: step 2 of R271 for one pool. -/
def execBattWaiterGrant (long : Bool) (s : State) : Out := done (s.serveWaiters long)

/-- BATT_WAIT_TIMEOUT: step 2, then step 5 of R271, for one pool. -/
def execBattWaitTimeout (long : Bool) (s : State) : Out := done ((s.serveWaiters long).waitersExpire long)

/-! ### FREE and GIVE (R273) -/

/-- The checks of R273 for a requester; `target` is there for a GIVE. The code of the first failure, and whether it is an
isolation violation. -/
def State.battCheck (s : State) (agent sp h : Nat) (target : Option (Nat × Nat)) : Option (Nat × Bool) :=
  let top := if hLong h then 2 ^ 20 else 16384
  let b := s.batt (hLong h) (hIndex h)
  if hRsv h ≠ 0 ∨ hGen h = 0 ∨ top ≤ hIndex h then some (bpErrHandle, false)
  else match b.owner with
    | none => some (bpErrDfree, false)
    | some (a, o) =>
      if b.gen ≠ hGen h then some (bpErrDfree, false)
      else if o ≠ sp then some (bpErrOwner, true)
      else if a ≠ agent then some (bpErrOwner, false)
      else match target with
        | none => none
        | some (ta, tsp) =>
          if tsp ≠ sp then some (bpErrGive, true) else if 6 ≤ ta / 256 then some (bpErrGive, false) else none

/-- A rejected FREE (operation 1) or GIVE (2): its counter, the BP_ERR record of the requester's Spur, and the isolation
violation where R273 raises one. -/
def State.battReject (s : State) (op agent sp h : Nat) (e : Nat × Bool) : State :=
  let b := s.batt (hLong h) (hIndex h)
  let tag := match b.owner with | some (a, o) => a + o * 2 ^ 12 | none => 0
  let s := s.count .BP_CNT (e.1 - bpErrHandle + 2)
  let s := s.record sp .bpErr agent [e.1, h, tag, op]
  s.when e.2 fun s => (s.count .BP_CNT 7).isoViolation sp isoBatt (hIndex h)

/-- FREE: its code and the state. -/
def State.battFreeOp (s : State) (agent sp h : Nat) : Nat × State :=
  match s.battCheck agent sp h none with
  | some e => (e.1, s.battReject 1 agent sp h e)
  | none => (0, s.freeBatt (hLong h) (hIndex h))

/-- GIVE: the owner tag becomes the target agent. -/
def State.battGiveOp (s : State) (agent sp h ta tsp : Nat) : Nat × State :=
  match s.battCheck agent sp h (some (ta, tsp)) with
  | some e => (e.1, s.battReject 2 agent sp h e)
  | none => (0, s.onBatt (hLong h) (hIndex h) fun b => { b with owner := some (ta, tsp) })

/-- A FREE of an agent (R273). -/
def execBattFree (agent : BattAgent) (handle : Word) (s : State) : Out :=
  let (code, s) := s.battFreeOp agent.id.toNat agent.spur.val handle.toNat
  done (s.emit (.battAnswer agent.id.toNat agent.spur.val code handle.toNat))

/-- A GIVE of an agent (R273). -/
def execBattGive (agent : BattAgent) (handle : Word) (target : BattAgent) (s : State) : Out :=
  let (code, s) := s.battGiveOp agent.id.toNat agent.spur.val handle.toNat target.id.toNat target.spur.val
  done (s.emit (.battAnswer agent.id.toNat agent.spur.val code handle.toNat))

/-! ### Mailbox commands -/

/-- MS_CFG (R261, R584): the reason of a refusal. -/
def State.msCfgReason (s : State) (c : Cmd) : Nat :=
  let ms := bits (c.opw 0) 0 10
  let owner := bits (c.opw 0) 10 3
  let foreign := fun w => bit w 0 && !bit (s.rd .SPUR_QUADS owner) (bits w 1 7 / 4)
  if owner ≠ s.rd .MS_CFG_OWNER ms ∧ s.rd .MS_CFG_WAITERS ms ≠ 0 then 1
  else if foreign (c.opw 1) || foreign (c.opw 2) then 2 else 0

/-- The settings of an MS_CFG command: owner, enable and both forwards. -/
def State.msCfgApply (s : State) (c : Cmd) : State :=
  let ms := bits (c.opw 0) 0 10
  let s := (s.wr .MS_CFG_OWNER ms (bits (c.opw 0) 10 3)).wr .MS_CFG_EN ms (bits (c.opw 0) 13 1)
  s.each [(2 * ms, c.opw 1), (2 * ms + 1, c.opw 2)] fun s p =>
    ((s.wr .MS_FWD_EN p.1 (bits p.2 0 1)).wr .MS_FWD_MILL p.1 (bits p.2 1 7)).wr .MS_FWD_TKC p.1 (bits p.2 8 6)

/-- MS_CFG. -/
def execMsCfg (mb : Fin 64) (tag : BitVec 16) (s : State) : Out :=
  s.runCmd mb tag 0x30 false fun s c =>
    match s.msCfgReason c with
    | 0 => (s.msCfgApply c).finish mb.val c 0 0 0
    | r => s.finish mb.val c 0x2A r 0

/-- End a command that the Milestone unit or the pools refuse, or that succeeds. -/
def State.endMs (s : State) (mb : Nat) (c : Cmd) (code result : Nat) : State :=
  if code = 0 then s.finish mb c 0 0 result else s.finish mb c stMsbp code 0

/-- MS_REARM (R260, R261). -/
def execMsRearm (mb : Fin 64) (tag : BitVec 16) (s : State) : Out :=
  s.runCmd mb tag 0x31 false fun s c =>
    match s.msAdmit (bits (c.opw 0) 0 10) (mb.val / 8) with
    | .error (code, s) => s.endMs mb.val c code 0
    | .ok s => (s.msEnds.msRearm (bits (c.opw 0) 0 10) (c.opw 1) (c.opw 2)).endMs mb.val c 0 0

/-- MS_READ (R253, R261). -/
def execMsRead (mb : Fin 64) (tag : BitVec 16) (s : State) : Out :=
  s.runCmd mb tag 0x32 false fun s c =>
    let ms := bits (c.opw 0) 0 10
    match s.msOwner ms (mb.val / 8) with
    | .error s => s.endMs mb.val c msErrSpur 0
    | .ok s => s.endMs mb.val c 0 (s.rd .MS_VALUE ms + s.rd .MS_TARGET ms * 2 ^ 32)

/-- MS_SIGNAL (R252, R261): the serving core signals, and the command ends with the outcome. -/
def execMsSignal (mb : Fin 64) (tag : BitVec 16) (s : State) : Out :=
  s.runCmd mb tag 0x33 false fun s c =>
    let ms := bits (c.opw 0) 0 10
    match s.msAdmit ms (mb.val / 8) with
    | .error (code, s) => s.endMs mb.val c code 0
    | .ok _ => (s.msCycle [⟨ms, mb.val / 8, c.opw 1, .mailbox mb.val⟩]).endMs mb.val c 0 0

/-- BP_ALLOC (R270 to R272): the serving core presents the ALLOC; a waiting command stays in flight. -/
def execBpAlloc (mb : Fin 64) (tag : BitVec 16) (s : State) : Out :=
  s.runCmd mb tag 0x38 false fun s c =>
    let long := bit (c.opw 0) 0
    (s.begin_ mb.val c).bpCycle fun s =>
      s.allocOne long (bit (c.opw 0) 1) (s.mbCore mb.val) (mb.val / 8) (if c.deadline = 0 then none else some c.deadline)
        (.cmd mb.val c.id)

/-- BP_FREE (R273). -/
def execBpFree (mb : Fin 64) (tag : BitVec 16) (s : State) : Out :=
  s.runCmd mb tag 0x39 false fun s c =>
    let (code, s) := s.battFreeOp (s.mbCore mb.val) (mb.val / 8) (c.opw 0)
    s.endMs mb.val c code 0

/-- The Spur of an agent ID that a GIVE of Spur `sp` names (R267, Table MS-5): a core's number gives it, a feature FIFO has that of its
subscription, a Projector that of its job. The Fuller, the Ego unit and the Tracker act for the Spur that gives. DEDUCED: a feature
FIFO without an enabled subscription is an agent of no Spur (8), so not of the requester's. -/
def State.agentSpur (s : State) (ta sp : Nat) : Nat :=
  match ta / 256 with
  | 0 => ta % 16 / 2
  | 2 => if ta % 256 < 64 ∧ s.flag .SUB_EN (ta % 256) then (Table.get {} s.ful.subs (ta % 256)).spur else 8
  | 3 => s.rd .PRJ_SPUR (ta % 16)
  | _ => sp

/-- BP_GIVE (R273). -/
def execBpGive (mb : Fin 64) (tag : BitVec 16) (s : State) : Out :=
  s.runCmd mb tag 0x3A false fun s c =>
    let ta := c.opw 1
    let tsp := s.agentSpur ta (mb.val / 8)
    let (code, s) := s.battGiveOp (s.mbCore mb.val) (mb.val / 8) (c.opw 0) ta tsp
    s.endMs mb.val c code 0

/-! ### FLR (R268) -/

/-- Every batt that a Spur owns is freed, its pool waiters are removed without a response, and every Milestone it owns is
re-armed to 0. -/
def State.flrMs (s : State) (sp : Nat) : State :=
  let owned := fun (t : Table BattSt) => t.filterMap fun e => match e.2.owner with
    | some (_, o) => if o = sp then some e.1 else none
    | none => none
  let s := s.each (owned s.ms.short) fun s i => s.freeBatt false i
  let s := s.each (owned s.ms.long) fun s i => s.freeBatt true i
  let s := s.each (s.ms.shortQ.filter fun w => w.spur == sp) fun s w => s.dropPoolWaiter false w
  let s := s.each (s.ms.longQ.filter fun w => w.spur == sp) fun s w => s.dropPoolWaiter true w
  s.each ((List.range 1024).filter fun m => s.rd .MS_CFG_OWNER m == sp) fun s m => s.msRearm m 0 0

end Sys2Proof.Machine
end

