-- ==== Sys2Proof/Machine/NumFmt.lean ====
section
/-!
DEFINITION. The arithmetic of a tensor engine (`spec/07_number_formats.md`): element formats, the NUMFMT word and its
checks, flushed operands, exact products in groups of eight, the three accumulators, the output step, and the flags,
counts and tile status of a task.
-/
namespace Sys2Proof.Machine

/-! ### Element formats (R190 to R192) -/

/-- An element format (Table NF-1). -/
inductive ElFmt where
  | int (w : Nat)
  | flt (f : Fmt)
  | acc
deriving DecidableEq, Repr

/-- The format of a code; none for a reserved one. -/
def elFmt : Nat → Option ElFmt
  | 0 => some (.int 4)
  | 1 => some (.int 8)
  | 2 => some (.int 16)
  | 3 => some (.flt e4m3)
  | 4 => some (.flt e5m2)
  | 5 => some (.flt bf16)
  | 6 => some (.flt fp16)
  | 7 => some (.int 1)
  | 8 => some (.int 2)
  | 9 => some .acc
  | _ => none

/-- A floating-point format code. -/
def fmtFloat (k : Nat) : Bool := 3 ≤ k && k ≤ 6

/-- The width class of a code as bits per lane: 4, 8 or 16 (R195). -/
def fmtClass (k : Nat) : Nat :=
  match k with
  | 0 | 7 | 8 => 4
  | 1 | 3 | 4 => 8
  | _ => 16

/-- The bits an element takes in memory; an ACC element has 32, or 64 as a pair (R191, R203). -/
def elBits (k : Nat) (pair : Bool) : Nat :=
  match elFmt k with
  | some (.int w) => w
  | some (.flt f) => 1 + f.ebits + f.mbits
  | some .acc => if pair then 64 else 32
  | none => 0

/-- The value of an operand element and whether it was flushed (R192, R196). INT1 signed is −1 or +1. -/
def elValue (k : Nat) (sgn : Bool) (n : Nat) : FVal × Bool :=
  match elFmt k with
  | some (.int 1) => (.fin (if sgn then (if n % 2 = 0 then -1 else 1) else (n % 2 : Nat)), false)
  | some (.int w) => (.fin (if sgn then (toSigned w n : Rat) else ((n % 2 ^ w : Nat) : Rat)), false)
  | some (.flt f) => if f.subnormal n then (.fin 0, true) else (f.decode n, false)
  | _ => (.fin 0, false)

/-! ### The NUMFMT word (R193) -/

/-- Fields of a NUMFMT word (Table NF-2). -/
def nfA (w : Nat) : Nat := bits w 0 4
def nfSgnA (w : Nat) : Bool := bit w 4
def nfW (w : Nat) : Nat := bits w 8 4
def nfSgnW (w : Nat) : Bool := bit w 12
def nfO (w : Nat) : Nat := bits w 16 4
def nfSgnO (w : Nat) : Bool := bit w 20
def nfAccm (w : Nat) : Nat := bits w 21 2
def nfSclA (w : Nat) : Nat := bits w 23 2
def nfSclW (w : Nat) : Nat := bits w 25 2
def nfBias (w : Nat) : Bool := bit w 27
def nfSat (w : Nat) : Bool := bit w 28
def nfClip (w : Nat) : Bool := bit w 29
def nfInit (w : Nat) : Bool := bit w 30

/-- A finite bound rounded to a value of the output format that the device can produce, up or down (R207, R208). -/
def boundRat (f : Fmt) (up : Bool) (q : Rat) : FVal :=
  if q = 0 then .fin 0
  else
    let s := ilog2 q - f.mbits
    let k : Int := if up then (q * pow2 (-s)).ceil else (q * pow2 (-s)).floor
    let r := (k : Rat) * pow2 s
    if f.maxVal < r then (if up then .inf false else .fin f.maxVal)
    else if r < -f.maxVal then (if up then .fin (-f.maxVal) else .inf true)
    else if r ≠ 0 ∧ |r| < f.minNormal then
      .fin (if up then (if 0 < r then f.minNormal else 0) else (if 0 < r then 0 else -f.minNormal))
    else .fin r

/-- The limits of an integer format (Table NF-1). -/
def intMin (w : Nat) (sgn : Bool) : Int := if sgn then -(2 ^ (w - 1)) else 0
def intMax (w : Nat) (sgn : Bool) : Int := if sgn then 2 ^ (w - 1) - 1 else 2 ^ w - 1

/-- An integer bound rounded inward to a value of the output format; an infinity where the format has none on that side. -/
def boundInt (ow : Nat) (sgn up : Bool) (v : FVal) : FVal :=
  let mn := intMin ow sgn
  let mx := intMax ow sgn
  match v with
  | .nan => .nan
  | .inf neg => if up then (if neg then .fin mn else .inf false) else (if neg then .inf true else .fin mx)
  | .fin q =>
    let z := if up then q.ceil else q.floor
    if z < mn then (if up then .fin mn else .inf true)
    else if mx < z then (if up then .inf false else .fin mx)
    else .fin z

/-- A clip bound rounded inward to the output format (R208): an infinity stays one where the format has it. -/
def clipBound (w : Nat) (up : Bool) (n : Nat) : FVal :=
  match elFmt (nfO w), f32 n with
  | some (.flt f), .fin q => boundRat f up q
  | some (.flt f), .inf neg =>
    if f.ieee || neg != up then .inf neg else .fin (if neg then -f.maxVal else f.maxVal)
  | some (.int ow), v => boundInt ow (nfSgnO w) up v
  | _, v => v

/-- A NUMFMT word that breaks Table NF-3, clip bounds aside. -/
def numfmtBad (w : Nat) : Bool :=
  bits w 5 3 != 0 || bits w 13 3 != 0 || bit w 31 || 9 < nfA w || 9 < nfW w || 9 < nfO w || nfAccm w == 3 || nfSclA w == 3 ||
    nfSclW w == 3 || nfA w == 9 || nfW w == 9 || nfA w == 7 || nfA w == 8 || nfO w == 7 || nfO w == 8 ||
    (fmtFloat (nfA w) && !nfSgnA w) || (fmtFloat (nfW w) && !nfSgnW w) || (fmtFloat (nfO w) && !nfSgnO w) ||
    (nfAccm w == 0 && (fmtFloat (nfA w) || fmtFloat (nfW w))) || (nfAccm w == 0 && (nfSclA w == 1 || nfSclW w == 1)) ||
    (nfO w == 9 && (nfBias w || nfClip w))

/-- Clip bounds that are refused: a NaN, or with CLIP_EN an empty range after inward rounding (R208, Table NF-3). -/
def clipBad (w lo hi : Nat) : Bool :=
  f32 lo == .nan || f32 hi == .nan || (nfClip w && flt (clipBound w false hi) (clipBound w true lo))

/-! ### Flags -/

/-- The four flags of Table NF-8. -/
structure Flags where
  ofl : Bool := false
  ufl : Bool := false
  nx : Bool := false
  nv : Bool := false
deriving DecidableEq, Repr

/-- The flags raised by either of two steps. -/
def Flags.or (a b : Flags) : Flags := ⟨a.ofl || b.ofl, a.ufl || b.ufl, a.nx || b.nx, a.nv || b.nv⟩

/-- The flags as bits: OF, UF, NX, NV from bit 0. -/
def Flags.toNat (a : Flags) : Nat :=
  (if a.ofl then 1 else 0) + (if a.ufl then 2 else 0) + (if a.nx then 4 else 0) + (if a.nv then 8 else 0)

/-- NV alone. -/
def flagNv : Flags := { nv := true }

/-! ### Exact steps on values -/

/-- An exact product; ∞ × 0 is NaN with NV (R199). -/
def mulExact : FVal → FVal → FVal × Flags
  | .nan, _ => (.nan, {})
  | _, .nan => (.nan, {})
  | .inf a, .inf b => (.inf (a != b), {})
  | .inf a, .fin b => if b = 0 then (.nan, flagNv) else (.inf (a != decide (b < 0)), {})
  | .fin a, .inf b => if a = 0 then (.nan, flagNv) else (.inf (b != decide (a < 0)), {})
  | .fin a, .fin b => (.fin (a * b), {})

/-- An exact sum; +∞ plus −∞ is NaN with NV (R199, R201). -/
def addExact : FVal → FVal → FVal × Flags
  | .nan, _ => (.nan, {})
  | _, .nan => (.nan, {})
  | .inf a, .inf b => if a = b then (.inf a, {}) else (.nan, flagNv)
  | .inf a, .fin _ => (.inf a, {})
  | .fin _, .inf b => (.inf b, {})
  | .fin a, .fin b => (.fin (a + b), {})

/-- RNE to FP32 as R201 says: beyond the range ±∞ and OF, below the smallest normal +0 and UF, NX when the rounding changes
the value. -/
def rne32 : FVal → FVal × Flags
  | .fin q =>
    let r := fp32.roundRat q false
    let nx := r != q
    if fp32.maxVal < |r| then (.inf (r < 0), { ofl := true, nx := nx })
    else if r ≠ 0 ∧ |r| < fp32.minNormal then (.fin 0, { ufl := true, nx := nx })
    else (.fin r, { nx := nx })
  | v => (v, {})

/-! ### Groups (R197 to R200) -/

/-- A rational truncated toward zero to a multiple of a power of 2. -/
def truncTo (s : Int) (q : Rat) : Rat :=
  let k := |q| * pow2 (-s)
  (if q < 0 then -1 else 1) * ((k.floor : Int) : Rat) * pow2 s

/-- The exact values of finite products. -/
def finParts (ps : List FVal) : List Rat := ps.filterMap fun p => match p with | .fin q => some q | _ => none

/-- The sum of the products of one group (R198, R199): a floating group is aligned to 48 bits, the leading bit of the
largest product at bit 43. -/
def groupSum (floating : Bool) (ps : List FVal) : FVal × Flags :=
  if ps.contains .nan then (.nan, {})
  else if ps.contains (.inf true) && ps.contains (.inf false) then (.nan, flagNv)
  else if ps.contains (.inf true) then (.inf true, {})
  else if ps.contains (.inf false) then (.inf false, {})
  else
    let qs := finParts ps
    let nz := qs.filter (· ≠ 0)
    if !floating || nz.isEmpty then (.fin qs.sum, {})
    else
      let e := (nz.map ilog2).foldl max (ilog2 (nz.headD 1))
      let ts := qs.map (truncTo (e - 43))
      (.fin ts.sum, { nx := ts != qs })

/-- A fine scale (Table NF-5): skipped, NaN, or its value. -/
inductive Fine where
  | skip | nan
  | val (q : Rat)
deriving DecidableEq, Repr

/-- The fine scale of a byte. -/
def fineOf (n : Nat) : Fine :=
  let e := bits n 3 5
  if e = 0 then .skip else if e = 31 then .nan
  else .val (pow2 ((e : Int) - 15) * (1 + (bits n 0 3 : Nat) / 8))

/-- A group's contribution after its fine scales (R200). DEDUCED: a skipped block contributes zero whatever the other
operand's fine scale is. -/
def contribution (floating : Bool) (ps : List (FVal × Flags)) (fa fw : Fine) : FVal × Flags :=
  match fa, fw with
  | .skip, _ => (.fin 0, {})
  | _, .skip => (.fin 0, {})
  | .nan, _ => (.nan, flagNv)
  | _, .nan => (.nan, flagNv)
  | .val a, .val b =>
    let (g, f) := groupSum floating (ps.map Prod.fst)
    ((mulExact g (.fin (a * b))).1, (ps.map Prod.snd).foldl Flags.or f)

/-! ### Accumulators (R194, R201 to R203) -/

/-- An accumulator: INT32 with whether it is held at a limit, FP32, or a pair. -/
inductive Accum where
  | i32 (v : Int) (held : Bool)
  | f32 (v : FVal)
  | pair (hi lo : FVal)
deriving DecidableEq, Repr

/-- The accumulator's value. -/
def Accum.value : Accum → FVal
  | .i32 v _ => .fin v
  | .f32 v => v
  | .pair (.fin a) (.fin b) => .fin (a + b)
  | .pair hi _ => hi

/-- It saturated. -/
def Accum.held : Accum → Bool
  | .i32 _ h => h
  | _ => false

/-- A contribution in pair mode (R202): every rounding flushes and raises UF as R201 says, and so does lo itself, so that no
accumulator is subnormal. -/
def pairJoin (hi lo g : FVal) : Accum × Flags :=
  let (ghi, f1) := rne32 g
  let (x, f2) := addExact hi ghi
  let (s, f3) := rne32 x
  let fl := (f1.or f2).or f3
  match s, x, ghi, g, lo with
  | .fin sv, .fin xv, .fin gv, .fin q, .fin l =>
    let (u, f4) := rne32 (.fin (l + (q - gv)))
    let uv := match u with | .fin v => v | _ => 0
    let (t, f5) := rne32 (.fin (uv + (xv - sv)))
    let tv := match t with | .fin v => v | _ => 0
    let (h, f6) := rne32 (.fin (sv + tv))
    let fl := ((fl.or f4).or f5).or f6
    match h with
    | .fin hv =>
      let (l, f7) := rne32 (.fin (tv - (hv - sv)))
      (.pair h l, fl.or f7)
    | _ => (.pair h (.fin 0), fl)
  | _, _, _, _, _ => (.pair s (.fin 0), fl)

/-- A contribution joins the accumulator. -/
def Accum.join (a : Accum) (g : FVal) : Accum × Flags :=
  match a with
  | .i32 v held =>
    if held then (a, {})
    else match g with
      | .fin q =>
        let s := v + q.num
        if 2 ^ 31 - 1 < s then (.i32 (2 ^ 31 - 1) true, { ofl := true })
        else if s < -(2 ^ 31) then (.i32 (-(2 ^ 31)) true, { ofl := true })
        else (.i32 s false, {})
      | _ => (a, {})
  | .f32 v =>
    let (x, f) := addExact v g
    let (r, f') := rne32 x
    (.f32 r, f.or f')
  | .pair hi lo => pairJoin hi lo g

/-- The start of an accumulator: 0, or a stored ACC element (R203). -/
def accStart (accm : Nat) (init : Option Nat) : Accum :=
  let n := init.getD 0
  match accm with
  | 0 => .i32 (toSigned 32 n) false
  | 1 => .f32 (f32 (n % 2 ^ 32))
  | _ => .pair (f32 (n % 2 ^ 32)) (f32 (n / 2 ^ 32 % 2 ^ 32))

/-- An accumulator written unconverted (R203, Table NF-6). -/
def Accum.encode : Accum → Nat
  | .i32 v _ => ofSigned 32 v
  | .f32 v => fp32.encode v
  | .pair hi lo => fp32.encode hi + 2 ^ 32 * fp32.encode lo

/-! ### One dot product -/

/-- A list in groups of eight. -/
def groups8 {α : Type} (l : List α) : List (List α) :=
  (List.range ((l.length + 7) / 8)).map fun j => (l.drop (8 * j)).take 8

/-- The dot product of an A row and a W column with their fine scales by block of 32, from a start (R197 to R202). -/
def dot (accm : Nat) (a w : List FVal) (fa fw : List Fine) (start : Accum) : Accum × Flags :=
  ((groups8 (a.zip w)).zipIdx).foldl
    (fun (st : Accum × Flags) (g : List (FVal × FVal) × Nat) =>
      let ps := g.1.map fun p => mulExact p.1 p.2
      let (c, f) := contribution (accm != 0) ps ((fa[g.2 / 4]?).getD (.val 1)) ((fw[g.2 / 4]?).getD (.val 1))
      let (acc, f') := st.1.join c
      (acc, (st.2.or f).or f'))
    (start, {})

/-! ### The output step (R205 to R209) -/

/-- What an output element is: its code, whether it saturated and whether it was flushed, its flags, and its value. -/
structure OutEl where
  code : Nat
  sat : Bool := false
  flushed : Bool := false
  fl : Flags := {}
  v : FVal
deriving DecidableEq, Repr

/-- Limit a value to the clip range; NaN passes (R208). -/
def clipTo (w lo hi : Nat) (v : FVal) : FVal :=
  if !nfClip w || v == .nan then v
  else
    let a := clipBound w true lo
    let b := clipBound w false hi
    if flt v a then a else if flt b v then b else v

/-- Y to an integer output. -/
def intOut (w lo hi ow : Nat) (y : FVal) : OutEl :=
  let mn := intMin ow (nfSgnO w)
  let mx := intMax ow (nfSgnO w)
  let mk := fun (z : Int) (sat : Bool) (f : Flags) =>
    let v := clipTo w lo hi (.fin z)
    let z' := match v with | .fin q => clampInt mn mx q.floor | .inf neg => if neg then mn else mx | .nan => 0
    { code := ofSigned ow z', sat := sat, fl := f, v := .fin z' : OutEl }
  match y with
  | .nan => mk 0 true flagNv
  | .inf neg => mk (if neg then mn else mx) true flagNv
  | .fin q =>
    let r := rneRat q
    let f : Flags := { nx := (r : Rat) != q }
    if r < mn then mk mn true { f with ofl := true }
    else if mx < r then mk mx true { f with ofl := true }
    else mk r false f

/-- Y to a floating-point output. -/
def fltOut (w lo hi : Nat) (f : Fmt) (y : FVal) : OutEl :=
  let mk := fun (v : FVal) (sat flu : Bool) (fl : Flags) =>
    let v := clipTo w lo hi v
    { code := f.encode v, sat := sat, flushed := flu, fl := fl, v := v : OutEl }
  let lim := fun (neg : Bool) => (.fin (if neg then -f.maxVal else f.maxVal) : FVal)
  match y with
  | .nan => mk .nan false false {}
  | .inf neg =>
    if f.ieee then mk (.inf neg) false false {}
    else if nfSat w then mk (lim neg) true false { ofl := true }
    else mk .nan true false { ofl := true }
  | .fin q =>
    let r := f.roundRat q false
    let nx := r != q
    if f.maxVal < |r| then
      let v := if nfSat w then lim (r < 0) else if f.ieee then .inf (r < 0) else .nan
      mk v true false { ofl := true, nx := nx }
    else if r ≠ 0 ∧ |r| < f.minNormal then mk (.fin 0) false true { ufl := true, nx := nx }
    else mk (.fin r) false false { nx := nx }

/-- What the output step takes: the accumulator's value, whether it saturated, and its code as an ACC element (R203). -/
structure AccOut where
  v : FVal
  held : Bool
  code : Nat
deriving DecidableEq, Repr

/-- An accumulator for the output step. -/
def Accum.out (a : Accum) : AccOut := ⟨a.value, a.held, a.encode⟩

/-- The output element of an accumulator (R203, R205): Y = acc × S_A × S_W + B, formed exactly and rounded once; an ACC output is
the accumulator unconverted. -/
def outEl (w lo hi : Nat) (acc : AccOut) (sa sw b : FVal) : OutEl :=
  let (x, f1) := mulExact acc.v sa
  let (x, f2) := mulExact x sw
  let (y, f3) := if nfBias w then addExact x b else (x, {})
  let fin := fun (o : OutEl) => { o with sat := o.sat || acc.held, fl := ((o.fl.or f1).or f2).or f3 }
  match elFmt (nfO w) with
  | some (.flt f) => fin (fltOut w lo hi f y)
  | some (.int ow) => fin (intOut w lo hi ow y)
  | _ => { code := acc.code, sat := acc.held, v := acc.v }

/-! ### A task's tile -/

/-- The record of the first special element of a tile (R214): row, column, kind and whether the accumulator was special. -/
structure TileRec where
  row : Nat
  col : Nat
  kind : Nat
  acc : Bool
deriving DecidableEq, Repr

/-- What a task computes: its output elements in raster order, flags, counts and tile record (R212 to R214). -/
structure TileOut where
  codes : List Nat := []
  fl : Flags := {}
  sat : Nat := 0
  flushIn : Nat := 0
  flushOut : Nat := 0
  tile : Option TileRec := none
deriving DecidableEq, Repr

/-- KIND of a special value; none of a finite one. -/
def specialKind : FVal → Option Nat
  | .nan => some 0
  | .inf false => some 1
  | .inf true => some 2
  | .fin _ => none

/-- Take one more element into a tile. -/
def TileOut.add (t : TileOut) (row col : Nat) (acc : FVal) (f : Flags) (o : OutEl) : TileOut :=
  let rec' : Option TileRec :=
    match specialKind acc, specialKind o.v with
    | some k, _ => some ⟨row, col, k, true⟩
    | none, some k => some ⟨row, col, k, false⟩
    | none, none => none
  { t with
    codes := t.codes ++ [o.code], fl := (t.fl.or f).or o.fl, sat := t.sat + (if o.sat then 1 else 0)
    flushOut := t.flushOut + (if o.flushed then 1 else 0), tile := t.tile <|> rec' }

/-- What one output element is computed from: the codes of its A and W elements, the fine scales of its blocks, the FP32 words
S_A, S_W and B, and the stored accumulator (R203, R205). -/
structure ElIn where
  a : List Nat := []
  w : List Nat := []
  fineA : List Nat := []
  fineW : List Nat := []
  sa : Nat := 0x3F800000
  sw : Nat := 0x3F800000
  bias : Nat := 0
  init : Option Nat := none
deriving DecidableEq, Repr

/-- The values of codes of A, or of W, after the flush of R196. -/
def valsA (w : Nat) (l : List Nat) : List FVal := l.map fun c => (elValue (nfA w) (nfSgnA w) c).1
def valsW (w : Nat) (l : List Nat) : List FVal := l.map fun c => (elValue (nfW w) (nfSgnW w) c).1

/-- The first value of an operand. -/
def firstVal (l : List FVal) : FVal := l.headD (.fin 0)

/-- The larger of two values, or the smaller; a NaN is passed on (R212). -/
def fpick (small : Bool) : FVal → FVal → FVal
  | .nan, _ => .nan
  | _, .nan => .nan
  | a, b => if flt a b == small then a else b

/-- The largest value of a list, or the smallest. -/
def fextreme (small : Bool) : List FVal → FVal
  | [] => .fin 0
  | x :: t => t.foldl (fpick small) x

/-- The exact result of an EWISE element. A SCALE has only the factors of R205. -/
def ewise (op : EwiseOp) (a b : FVal) : FVal × Flags :=
  match op with
  | .add => addExact a b
  | .mul => mulExact a b
  | .scale => (a, {})
  | .max => (fpick false a b, {})
  | .min => (fpick true a b, {})

/-- An exact result for the output step, unrounded (Table NF-7); where an accumulator is read or written, the result joins it as
one contribution (DEDUCED: R203 gives ACC_INIT and ACC outputs no other meaning here). -/
def exactOut (w : Nat) (init : Option Nat) (v : FVal) : AccOut × Flags :=
  if nfO w = 9 ∨ nfInit w then
    let (a, f) := (accStart (nfAccm w) (if nfInit w then init else none)).join v
    (a.out, f)
  else (⟨v, false, 0⟩, {})

/-- The accumulator of one output element by the task's KIND (Table ML-3): dot products for GEMM and CONV, and for a POOL that
averages with weights of 1, the division by the window's size being in its scales (DEDUCED, Table MB-6); else the exact result
of the operator. -/
def elAcc (kind : Nat) (fn : TaskFn) (w : Nat) (x : ElIn) : AccOut × Flags :=
  let start := accStart (nfAccm w) (if nfInit w then x.init else none)
  let a := valsA w x.a
  let exact := fun (v : FVal) (f : Flags) =>
    let (o, f') := exactOut w x.init v
    (o, f.or f')
  let dotted := fun (ws : List FVal) =>
    let (acc, f) := dot (nfAccm w) a ws (if nfSclA w = 1 then x.fineA.map fineOf else [])
      (if nfSclW w = 1 then x.fineW.map fineOf else []) start
    (acc.out, f)
  match kind with
  | 3 => let (v, f) := ewise fn.ewise (firstVal a) (firstVal (valsW w x.w)); exact v f
  | 4 => if fn.avg then dotted (a.map fun _ => .fin 1) else exact (fextreme false a) {}
  | 5 => exact (firstVal a) {}
  | _ => dotted (valsW w x.w)

/-- The tile of a task's output elements in raster order, `tn` to a row (R205, R212 to R214). -/
def elTile (kind : Nat) (fn : TaskFn) (w lo hi tn flushIn : Nat) (xs : List ElIn) : TileOut :=
  xs.zipIdx.foldl (fun t (e : ElIn × Nat) =>
    let (acc, f) := elAcc kind fn w e.1
    t.add (e.2 / max 1 tn) (e.2 % max 1 tn) acc.v f (outEl w lo hi acc (f32 e.1.sa) (f32 e.1.sw) (f32 e.1.bias)))
    { flushIn := flushIn }

/-- Elements packed into bytes, least significant bits first (R191). -/
def packEls (b : Nat) (codes : List Nat) : List Byte :=
  let n := codes.foldr (fun c acc => c % 2 ^ b + acc * 2 ^ b) 0
  leBytes ((codes.length * b + 7) / 8) n

end Sys2Proof.Machine
end

