-- ==== Sys2Proof/Machine/MillOps.lean ====
section
/-!
DEFINITION. The Mills (`spec/08_mills.md`): SRAM errors, token counters, task queues and their halts, the task descriptor
and its checks, and the removal of a tensor engine or a Mill.
-/
namespace Sys2Proof.Machine

/-! ### State -/

/-- A Mill beyond its registers. -/
def State.mill (s : State) (m : Nat) : MillSt := Table.get {} s.mills m

/-- Change a Mill. -/
def State.onMill (s : State) (m : Nat) (f : MillSt → MillSt) : State := s.onMills fun t => Table.upd {} t m f

/-- The quadrant of a Mill. -/
def quadOf (m : Nat) : Nat := m / 32

/-- A Mill is live and its quadrant is on. -/
def State.millLive (s : State) (m : Nat) : Bool := s.rd .MILL_STAT_STATE m == 0 && s.domOn (pdMq (quadOf m))

/-- A TE is live. -/
def State.teLive (s : State) (m t : Nat) : Bool := bit (s.rd .MILL_STAT_TE_LIVE m) t

/-- The task on a TE. -/
def State.task (s : State) (m t : Nat) : Option RunTask := ((s.mill m).run.find? fun e => e.1 == t).map Prod.snd

/-- Put a task on a TE. -/
def State.setTask (s : State) (m t : Nat) (r : RunTask) : State :=
  s.onMill m fun x => { x with run := Table.insert (Table.erase x.run t) t r }

/-- Take the task off a TE. -/
def State.clearTask (s : State) (m t : Nat) : State := s.onMill m fun x => { x with run := Table.erase x.run t }

/-- Count a Mill counter: 0 SRAM_CE, 1 SRAM_UE, 2 RESIDUE_ERR, 3 RERUNS, 4 POST_DROP, 5 TASKS_DONE. -/
def State.millCount (s : State) (m i : Nat) (n : Nat := 1) : State := s.count .MILL_CNT (6 * m + i) n

/-- The task re-runs waiting in a queue. -/
def State.reruns (s : State) (m q : Nat) : List RunTask := Table.get [] (s.mill m).rerun q

/-- Change the re-runs waiting in a queue. -/
def State.onReruns (s : State) (m q : Nat) (f : List RunTask → List RunTask) : State :=
  s.onMill m fun x => { x with rerun := Table.upd [] x.rerun q f }

/-- The template of a queue whose instances are still being dispatched. -/
def State.expanding (s : State) (m q : Nat) : Option (Nat × Expand) :=
  (s.mill m).exp.find? fun e => e.2.q == q && !e.2.todo.isEmpty

/-- A template by its number. -/
def State.template (s : State) (m e : Nat) : Option Expand := ((s.mill m).exp.find? fun p => p.1 == e).map Prod.snd

/-- Put a template in place. -/
def State.setTemplate (s : State) (m e : Nat) (v : Expand) : State :=
  s.onMill m fun x => { x with exp := Table.insert (Table.erase x.exp e) e v }

/-- A template is complete. -/
def State.dropTemplate (s : State) (m e : Nat) : State := s.onMill m fun x => { x with exp := Table.erase x.exp e }

/-! ### Descriptors (Table ML-3) -/

/-- The fields of a task descriptor. -/
def tdTag (d : List Byte) : Nat := leAt d 0 2
def tdKind (d : List Byte) : Nat := byteAt d 2
def tdSparse (d : List Byte) : Bool := bit (byteAt d 3) 0
def tdList (d : List Byte) : Bool := bit (byteAt d 3) 1
def tdFmt (d : List Byte) : Nat := leAt d 4 4
def tdTm (d : List Byte) : Nat := leAt d 8 2
def tdTn (d : List Byte) : Nat := 8 * byteAt d 10
def tdK (d : List Byte) : Nat := leAt d 12 4
def tdA (d : List Byte) : Nat := leAt d 16 4
def tdW (d : List Byte) : Nat := leAt d 20 4
def tdSb (d : List Byte) : Nat := leAt d 28 4
def tdO (d : List Byte) : Nat := leAt d 24 4
def tdClipLo (d : List Byte) : Nat := leAt d 32 4
def tdClipHi (d : List Byte) : Nat := leAt d 36 4
def tdT0 (d : List Byte) : Nat := leAt d 44 2
def tdT1 (d : List Byte) : Nat := leAt d 46 2
def tdSrc (d : List Byte) : Nat := leAt d 48 4
def tdStride (d : List Byte) : Nat := tdSrc d / 2 ^ 20 * 256
def tdListOut (d : List Byte) : Nat := leAt d 76 4

/-- The used waits as counter and count. -/
def waitOf (w : Nat) : List (Nat × Nat) := if w / 64 % 1024 = 0 then [] else [(w % 64, w / 64 % 1024)]
def tdWaits (d : List Byte) : List (Nat × Nat) := (List.range 4).flatMap fun i => waitOf (leAt d (52 + 2 * i) 2)

/-- The posts. -/
def tdPosts (d : List Byte) : List Nat := (List.range 4).map fun i => leAt d (60 + 4 * i) 4

/-- PAIR accumulation. -/
def tdPair (d : List Byte) : Bool := nfAccm (tdFmt d) == 2

/-- The bits of an output element. -/
def tdOutBits (d : List Byte) : Nat := elBits (nfO (tdFmt d)) (tdPair d)

/-- The bytes of the output tile (R191). -/
def tdOutLen (d : List Byte) : Nat := (tdTm d * tdTn d * tdOutBits d + 7) / 8

/-- A Mill belongs to the Spur of another one: its quad is assigned, and to the same Spur (R222). -/
def State.sameSpur (s : State) (m n : Nat) : Bool := s.millHolder n == some (s.millOwner m) && (s.millHolder m).isSome

/-- A post breaks Table ML-4, or names another Mill that is not of the Spur. -/
def State.postBad (s : State) (m p : Nat) : Bool :=
  (p % 4 == 0 && p != 0) || (p % 4 != 0 && p / 2 ^ 16 == 0) || (p % 4 == 1 && bits p 2 7 != 0) ||
    (p % 4 == 3 && bits p 12 4 != 0) || (p % 4 != 3 && bit p 15) ||
    (p % 4 == 2 && !s.sameSpur m (bits p 2 7))

/-- The descriptor breaks Table ML-3, R192, R193 or R219 (R233). -/
def State.taskBad (s : State) (m : Nat) (d : List Byte) : Bool :=
  let kind := tdKind d
  !([1, 2, 3, 4, 5, 15].contains kind) || 3 < byteAt d 3 || numfmtBad (tdFmt d) ||
    clipBad (tdFmt d) (tdClipLo d) (tdClipHi d) || tdTm d == 0 || 512 < tdTm d ||
    byteAt d 10 == 0 || 8 < byteAt d 10 || byteAt d 11 != 0 || tdK d == 0 || 1048576 < tdK d ||
    8192 < tdTm d * tdTn d || (tdPair d && 4096 < tdTm d * tdTn d) ||
    ([16, 20, 24, 28, 76].any fun o => 2 ^ 20 ≤ leAt d o 4) || (kind != 2 && leAt d 40 4 != 0) || bits (leAt d 40 4) 14 2 != 0 ||
    (tdSparse d && !tdList d && bits (tdSrc d) 6 14 != 0) || ((tdPosts d).any fun p => s.postBad m p) ||
    ((List.range 48).any fun i => byteAt d (80 + i) != 0)

/-- The stored accumulators of a task overlap its output (R233). -/
def taskAlias (d : List Byte) : Bool :=
  let a := Config.accAddr (d.map BitVec.toNat)
  let n := tdTm d * tdTn d * (if tdPair d then 8 else 4)
  nfInit (tdFmt d) && decide (a < tdO d + tdOutLen d) && decide (tdO d < a + n)

/-! ### Queues (Table ML-8) -/

/-- States of a task queue. -/
def tqRun : Nat := 1
def haltDesc : Nat := 2
def haltAlias : Nat := 3
def haltUe : Nat := 4
def haltRerun : Nat := 5
def haltOvf : Nat := 6

/-- A queue is halted. -/
def State.tqHalted (s : State) (k : Nat) : Bool := 2 ≤ s.rd .TQ_STATE k

/-- The tasks between HEAD and TAIL. DESIGN CHOICE: both count modulo twice the ring's entries, so that a full ring and an
empty one differ; the entry is the index modulo the entries. -/
def State.tqEmpty (s : State) (k : Nat) : Bool := s.rd .TQ_HEAD k == s.rd .TQ_TAIL k || s.rd .TQ_SIZE k == 0

/-- Where the head's descriptor lies. -/
def State.tqHeadAddr (s : State) (k : Nat) : Nat :=
  (s.rd .TQ_BASE k + s.rd .TQ_HEAD k % max 1 (s.rd .TQ_SIZE k) * 128) % 2 ^ 20

/-- The head's descriptor. -/
def State.tqHeadDesc (s : State) (m q : Nat) : List Byte := s.ldBytes (.mill m) (s.tqHeadAddr (8 * m + q)) 128

/-- HEAD moves on. -/
def State.tqAdvance (s : State) (k : Nat) : State :=
  s.wr .TQ_HEAD k ((s.rd .TQ_HEAD k + 1) % max 1 (2 * s.rd .TQ_SIZE k))

/-- IDLE and RUN follow from whether the queue holds or runs a task. -/
def State.tqRefresh (s : State) (m q : Nat) : State :=
  let k := 8 * m + q
  if s.tqHalted k then s
  else
    let busy := !s.tqEmpty k || !(s.reruns m q).isEmpty || ((s.mill m).exp.any fun e => e.2.q == q) || (s.mill m).run.any fun e => e.2.tq == q
    s.wr .TQ_STATE k (if busy then tqRun else 0)

/-- Halt a queue. -/
def State.tqHalt (s : State) (m q st : Nat) : State := s.wr .TQ_STATE (8 * m + q) st

/-! ### Token counters (R228, R230, R232) -/

/-- The counter holds at least a count for every wait. -/
def State.waitsMet (s : State) (m : Nat) (ws : List (Nat × Nat)) : Bool := ws.all fun w => w.2 ≤ s.rd .TKC (64 * m + w.1)

/-- Subtract every wait's count. -/
def State.consume (s : State) (m : Nat) (ws : List (Nat × Nat)) : State :=
  s.each ws fun s w => s.wr .TKC (64 * m + w.1) (s.rd .TKC (64 * m + w.1) - w.2)

/-- A post reaches a counter of a Mill (R232, R262): a fenced or retired Mill drops and counts it. -/
def State.applyPost (s : State) (m c count : Nat) : State :=
  if !s.domOn (pdMq (quadOf m)) then s
  else if s.rd .MILL_STAT_STATE m ≠ 0 then s.millCount m 4
  else
    let k := 64 * m + c
    let v := s.rd .TKC k + count
    if v ≤ 65535 then s.wr .TKC k v
    else
      let s := (s.wr .TKC k 65535).put .TKC_OVF k true
      let hit := (List.range 8).filter fun q =>
        !s.tqHalted (8 * m + q) && !s.tqEmpty (8 * m + q) && (tdWaits (s.tqHeadDesc m q)).any fun w => w.1 == c
      (s.each hit fun s q => s.tqHalt m q haltOvf).record (s.millOwner m) .tkcOvf m [c]

/-- The posts of a task or transfer of a Mill (R226, R231, Table ML-4). -/
def State.doPost (s : State) (m p : Nat) : State :=
  let n := p / 2 ^ 16
  match p % 4 with
  | 1 => s.applyPost m (bits p 9 6) n
  | 2 => s.postTkc (bits p 2 7) (bits p 9 6) n
  | 3 => s.signal (bits p 2 10) (s.millOwner m) n (.mill m)
  | _ => s

/-! ### Removing units (R244, R247) -/

/-- Cause codes of Table ML-7. -/
def causeBist : Nat := 1
def causeResidue : Nat := 2
def causeAccPar : Nat := 3
def causeWatchdog : Nat := 4
def causeFwOff : Nat := 5
def causeMill : Nat := 6
def causeRetired : Nat := 7

/-- TE_CAUSE of a TE. -/
def State.teCause (s : State) (m t : Nat) : Nat :=
  if t < 8 then bits (s.rd .TE_CAUSE_LO m) (4 * t) 4 else bits (s.rd .TE_CAUSE_HI m) (4 * (t - 8)) 4

/-- Put TE_CAUSE of a TE. -/
def State.setTeCause (s : State) (m t c : Nat) : State :=
  let put := fun (v i : Nat) => v - bits v (4 * i) 4 * 2 ^ (4 * i) + c * 2 ^ (4 * i)
  if t < 8 then s.wr .TE_CAUSE_LO m (put (s.rd .TE_CAUSE_LO m) t) else s.wr .TE_CAUSE_HI m (put (s.rd .TE_CAUSE_HI m) (t - 8))

/-- Causes of a Mill's removal, in the order of R247. -/
def millBist : Nat := 1
def millUe : Nat := 2
def millParity : Nat := 3
def millClock : Nat := 4
def millCredit : Nat := 5
def millLastTe : Nat := 6

/-! ### Invocations on a Mill (R355, R360) -/

/-- The invocation that a job is for. -/
def MillJob.isFor (j : MillJob) (v : Inv) : Bool := v.mb == j.mb && v.id == j.id

/-- A Mill runs the tasks of this invocation. -/
def State.runsOn (s : State) (m : Nat) (v : Inv) : Bool :=
  match (s.mill m).jobs with | j :: _ => j.isFor v | [] => false

/-- Change the invocation whose tasks a Mill runs. -/
def State.onInv (s : State) (m : Nat) (f : Inv → Inv) : State :=
  match (s.mill m).jobs with
  | j :: _ => s.onMail fun x => { x with invs := x.invs.map fun v => if j.isFor v then f v else v }
  | [] => s

/-- Sums over the operation contexts of a Mill: SAT_CNT, FLUSH_IN, FLUSH_OUT, NAN_TILES and the flags. -/
def State.ctxSums (s : State) (m : Nat) : List Nat :=
  let ks := (List.range 8).map fun j => 8 * m + j
  let sum := fun (r : Reg) => ks.foldl (fun a k => a + s.rd r k) 0
  [sum .OPCTX_SAT_CNT, sum .OPCTX_FLUSH_IN, sum .OPCTX_FLUSH_OUT, sum .OPCTX_NAN_TILES,
    ks.foldl (fun a k => a ||| s.rd .OPCTX_FLAGS k) 0]

/-- Two records of sums added; the flags joined. -/
def addSums (a b : List Nat) : List Nat :=
  (List.range 5).map fun i =>
    let x := (a[i]?).getD 0
    let y := (b[i]?).getD 0
    if i = 4 then x ||| y else x + y

/-- Each read of a context clears it (R9). -/
def State.clearCtx (s : State) (m : Nat) : State :=
  s.each ((List.range 8).map fun j => 8 * m + j) fun s k =>
    ((((s.wr .OPCTX_SAT_CNT k 0).wr .OPCTX_FLUSH_IN k 0).wr .OPCTX_FLUSH_OUT k 0).wr .OPCTX_NAN_TILES k 0).wr .OPCTX_FLAGS k 0

/-- The firmware reads the contexts of a Mill into the statistics of the invocation that runs there (R360). -/
def State.takeCtx (s : State) (m : Nat) : State :=
  let x := s.ctxSums m
  (s.onInv m fun v => { v with sums := addSums v.sums x }).clearCtx m

/-- No task waits or runs on a Mill; a TEST task of the firmware is none of these. -/
def State.millIdle (s : State) (m : Nat) : Bool :=
  ((List.range 8).all fun q => s.tqEmpty (8 * m + q) && (s.reruns m q).isEmpty) && (s.mill m).exp.isEmpty &&
    (s.mill m).run.all fun e => e.2.tq == 8

/-- The tasks of the invocation that runs on a Mill have ended: its contexts are read, and the next invocation in admission order
follows (R355, R360). -/
def State.millNext (s : State) (m : Nat) : State :=
  match (s.mill m).jobs with
  | j :: rest => if j.todo = 0 ∧ s.millIdle m then (s.takeCtx m).onMill m fun x => { x with jobs := rest } else s
  | [] => s

/-- An invocation that ends early leaves a Mill: its undispatched tasks are discarded (R342). -/
def State.leaveMill (s : State) (v : Inv) (m : Nat) : State :=
  if s.runsOn m v then
    let s := s.each (List.range 8) fun s q => s.wr .TQ_HEAD (8 * m + q) (s.rd .TQ_TAIL (8 * m + q))
    let s := s.onMill m fun x =>
      { x with
        rerun := [], jobs := x.jobs.modifyHead fun j => { j with todo := 0 }
        exp := (x.exp.filter fun e => e.2.running != 0).map fun e => (e.1, { e.2 with todo := [], failed := true }) }
    (s.each (List.range 8) fun s q => s.tqRefresh m q).millNext m
  else s.onMill m fun x => { x with jobs := x.jobs.filter fun j => !j.isFor v }

/-- A Mill is removed (R247): fenced, its tasks discarded with no posts, its transfers stopped, and the live counts down
by one Mill and its TEs. The third removal since a class-V reset retires it (R249). -/
def State.removeMill (s : State) (m cause : Nat) : State :=
  if s.rd .MILL_STAT_STATE m ≠ 0 then s
  else
    let s := s.takeCtx m
    let live := s.rd .MILL_STAT_TE_LIVE m
    let s := (s.wr .GLOBAL_AVAIL_MILLS_LIVE 0 (s.rd .GLOBAL_AVAIL_MILLS_LIVE - 1)).wr .GLOBAL_AVAIL_TES_LIVE 0
      (s.rd .GLOBAL_AVAIL_TES_LIVE - popcount 16 live)
    let s := s.each (bitList 16 live) fun s t => s.setTeCause m t causeMill
    let n := min 3 (s.rd .MILL_STAT_REMOVALS m + 1)
    let s := ((s.wr .MILL_STAT_TE_LIVE m 0).wr .MILL_STAT_REMOVALS m n).wr .MILL_STAT_STATE m (if n = 3 then 3 else 1)
    let s := s.onMill m fun x =>
      { x with
        run := [], rerun := [], exp := [], offReq := 0, testReq := 0, millPass := false, readmit := false, chans := []
        jobs := [] }
    (s.wr .MILL_CTRL_TE_OFF m 0).record (s.millOwner m) .millRemoved m [cause]

/-- The task of a removed TE is dispatched again, once (R245); a TEST task is not. -/
def State.rerunTask (s : State) (m : Nat) (r : RunTask) : State :=
  if r.tq = 8 then s
  else if r.reran then (s.tqHalt m r.tq haltRerun).record (s.millOwner m) .rerunFail m [tdTag r.desc]
  else s.onReruns m r.tq fun l => l ++ [{ r with reran := true }]

/-- A TE is removed (R244): its task discarded with its flags and counts, the live counts down by one, the cause recorded,
an error record sent; the third removal retires it (R249), and the last live TE takes the Mill with it. -/
def State.removeTe (s : State) (m t cause : Nat) : State :=
  if !s.teLive m t then s
  else
    let task := s.task m t
    let n := Table.get 0 (s.mill m).removals t + 1
    let s := (s.clearTask m t).onMill m fun x =>
      { x with
        removals := Table.set 0 x.removals t n, offReq := setBit x.offReq t false, testReq := setBit x.testReq t false
        passed := setBit x.passed t false }
    let s := (s.setBitOf .MILL_STAT_TE_LIVE m t false).setBitOf .MILL_CTRL_TE_OFF m t false
    let s := s.wr .GLOBAL_AVAIL_TES_LIVE 0 (s.rd .GLOBAL_AVAIL_TES_LIVE - 1)
    let s := s.setTeCause m t (if 3 ≤ n then causeRetired else cause)
    let s := s.record (s.millOwner m) .teRemoved m [t + cause * 2 ^ 4]
    let s := match task with | some r => s.rerunTask m r | none => s
    s.when (s.rd .MILL_STAT_TE_LIVE m == 0) fun s => s.removeMill m millLastTe

/-! ### SRAM (R221, R191) -/

/-- A byte of Mill SRAM. DESIGN CHOICE: addresses are 20 bits wide and wrap. -/
def State.sramByte (s : State) (m a : Nat) : Byte := s.ldByte (.mill m) (a % 2 ^ 20)

/-- Little-endian bytes of Mill SRAM. -/
def State.sramLe (s : State) (m a n : Nat) : Nat := ofLe ((List.range n).map fun i => s.sramByte m (a + i))

/-- Store bytes in Mill SRAM. -/
def State.stSram (s : State) (m : Nat) : Nat → List Byte → State
  | _, [] => s
  | a, b :: t => State.stSram (s.stByte (.mill m) (a % 2 ^ 20) b) m (a + 1) t

/-- Element `i` of `b` bits of an operand that begins at an address (R191). -/
def State.elementAt (s : State) (m base b i : Nat) : Nat :=
  if b < 8 then bits (s.sramByte m (base + i * b / 8)).toNat (i * b % 8) b else s.sramLe m (base + i * (b / 8)) (b / 8)

/-- The firmware rewrites the SRAM of a Mill from the images of the loaded Hatboxes placed there (R425), as after a retest,
whose march runs over all of it (R241). -/
def State.hbRewrite (s : State) (m : Nat) : State :=
  s.each (s.mail.hbs.flatMap fun e => e.2.sram.filter fun x => x.1 == m) fun s x => s.stSram m x.2.1 x.2.2

/-! ### Readmission of a Mill (R249) -/

/-- The TEs of a Mill that have passed and may be live again: a retired one may not. -/
def State.mayReturn (s : State) (m : Nat) : Nat :=
  (bitList 16 (s.mill m).passed).foldl (fun a t => if s.teCause m t = causeRetired then a else setBit a t true) 0

/-- A Mill that has passed its retest is live again with the TEs that passed. -/
def State.millReadmit (s : State) (m : Nat) : State :=
  if s.rd .MILL_STAT_STATE m = 1 ∧ (s.mill m).millPass then
    let live := s.mayReturn m
    let s := ((s.wr .MILL_STAT_STATE m 0).wr .MILL_STAT_TE_LIVE m live).wr .GLOBAL_AVAIL_MILLS_LIVE 0
      (s.rd .GLOBAL_AVAIL_MILLS_LIVE + 1)
    let s := s.wr .GLOBAL_AVAIL_TES_LIVE 0 (s.rd .GLOBAL_AVAIL_TES_LIVE + popcount 16 live)
    let s := s.each (bitList 16 live) fun s t => s.setTeCause m t 0
    (s.onMill m fun x => { x with millPass := false, readmit := false, passed := 0 }).hbRewrite m
  else s

/-- No admitted invocation of a Spur is in flight. -/
def State.noInvs (s : State) (sp : Nat) : Bool := s.mail.invs.all fun v => v.spur != sp

/-- An invocation boundary of a Spur: Mills whose readmission waited rejoin its set. DESIGN CHOICE: the boundaries are the admission
and the end of each of its invocations, and any time at which it has none. -/
def State.invBoundary (s : State) (sp : Nat) : State :=
  s.each ((List.range 128).filter fun m => (s.mill m).readmit && s.millOwner m == sp) fun s m => s.millReadmit m

/-- A Mill is to be readmitted: at once, or at the next invocation boundary of its Spur. -/
def State.askReadmit (s : State) (m : Nat) : State :=
  if s.noInvs (s.millOwner m) then s.millReadmit m
  else if s.rd .MILL_STAT_STATE m = 1 ∧ (s.mill m).millPass then s.onMill m fun x => { x with readmit := true }
  else s

/-! ### Operating points (R234, R239) -/

/-- Mill cycles in a number of nanoseconds at an operating point (Table ML-5). -/
def millCycles (op ns : Nat) : Nat :=
  match op with
  | 0 => ns * 5 / 4
  | 1 => ns
  | 2 => ns * 3 / 4
  | _ => ns * 2 / 5

/-- The cycles a task has run by now, at an operating point. -/
def RunTask.cycles (r : RunTask) (op now : Nat) : Nat := r.cyc + millCycles op (now - r.start)

/-- A quadrant runs at an operating point: the cycles of its running tasks up to now are kept. -/
def State.setOp (s : State) (q op : Nat) : State :=
  let old := s.rd .MQ_OP_CUR q
  let lap := fun (r : RunTask) => { r with cyc := r.cycles old s.raw, start := s.raw }
  (s.onMills fun t => t.map fun e =>
    if e.1 / 32 = q then (e.1, { e.2 with run := e.2.run.map fun r => (r.1, lap r.2) }) else e).wr .MQ_OP_CUR q op

/-- Corrected SRAM errors are counted (R221). -/
def State.sramCe (s : State) (m : Nat) (e : SramEcc) : State := if e.ce = 0 then s else s.millCount m 0 e.ce

/-- An uncorrectable SRAM error (R221): counted and reported; the second at one address removes the Mill. -/
def State.sramUe (s : State) (m a : Nat) : State :=
  let again := (s.mill m).ueSeen.contains (a / 8)
  let s := ((s.millCount m 1).record (s.millOwner m) .sramUe m [a]).onMill m fun x =>
    { x with ueSeen := if again then x.ueSeen else (a / 8) :: x.ueSeen }
  s.when again fun s => s.removeMill m millUe

end Sys2Proof.Machine
end

