-- ==== Sys2Proof/Machine/Claims.lean ====
section
/-!
DEFINITION. How the outcome of an invocation is claimed (R342, R356, R360, R554), and the packets of this device's
Causeway transmitter (R393, R415), which the Kerb and the later chapters share.
-/
namespace Sys2Proof.Machine

/-! ### Invocations -/

/-- A loaded Hatbox's place. -/
def State.hb (s : State) (spur idx : Nat) : Hatbox := Table.get {} s.mail.hbs (16 * spur + idx)

/-- The operating points of the quadrants. -/
def State.opsNow (s : State) : List Nat := (List.range 4).map fun q => s.rd .MQ_OP_CUR q

/-- The worst-case cost of a Hatbox on a set of Mills now (R354). -/
def State.hbCostOn (s : State) (sp i : Nat) (mills : List Nat) : Nat := Config.hbCost (s.hb sp i).cost mills s.opsNow

/-- How long an invocation has run: since its first task was dispatched. -/
def State.ranFor (s : State) (v : Inv) : Nat := if v.first = 0 then 0 else s.now - v.first

/-! ### Requests for an operating point (R238 to R240) -/

/-- An invocation has tasks in a quadrant. -/
def Inv.inQuad (v : Inv) (q : Nat) : Bool := v.mills.any fun m => quadOf m == q

/-- No admitted invocation with tasks in a quadrant fails its deadline budget at an operating point (R240). DEDUCED: what remains
of a cost is the cost less the time since the first dispatch. -/
def State.opAllowed (s : State) (q op : Nat) : Bool :=
  s.mail.invs.all fun v =>
    !v.inQuad q || s.now + (Config.hbCost (s.hb v.spur v.hb).cost v.mills (s.opsNow.set q op) - s.ranFor v) ≤ v.dl

/-- A request for an operating point of a quadrant; one that is gated takes it at once. -/
def State.opRequest (s : State) (q op : Nat) : State :=
  let s := s.wr .MQ_OP_TARGET q op
  if !s.domOn (pdMq q) then s.wr .MQ_OP_CUR q op
  else if s.rd .MQ_OP_CUR q = op && !s.flag .MQ_OP_BUSY q then s
  else s.put .MQ_OP_BUSY q true

/-- The request of an MQ_OP command goes on: it completes at once, or with the change. -/
def State.opGo (s : State) (q op mb id : Nat) : State :=
  let s := s.opRequest q op
  if s.flag .MQ_OP_BUSY q then s.onPm fun p => { p with opCmds := p.opCmds ++ [(q, op, mb, id)] } else s.finishId mb id 0 0 0

/-- Requests that the firmware delayed go on once no budget fails (R240). -/
def State.opRetry (s : State) : State :=
  s.each (s.pm.opHeld.filter fun e => s.opAllowed e.1 e.2.1) fun s e =>
    (s.onPm fun p => { p with opHeld := p.opHeld.erase e }).opGo e.1 e.2.1 e.2.2.1 e.2.2.2

/-! ### Claims -/

/-- The statistics record (R356). The operator of the first flagged tile is known to the firmware only, so it is a free value;
the operator index is 0xFFFF when no tile was flagged. -/
def State.statsRecord (s : State) (v : Inv) (stamp : Nat) : List Byte × State :=
  let g := fun i => min (2 ^ 32 - 1) ((v.sums[i]?).getD 0)
  let (opIdx, s) := s.fresh 16
  (leBytes 8 v.adm ++ leBytes 8 v.first ++ leBytes 8 stamp ++ leBytes 4 (g 0) ++ leBytes 4 (g 1) ++ leBytes 4 (g 2) ++
    leBytes 4 (g 3) ++ leBytes 1 (g 4) ++ leBytes 3 0 ++ leBytes 4 v.tiles ++ leBytes 4 v.tasks ++ leBytes 2 v.reruns ++
    leBytes 2 0 ++ leBytes 2 (if g 3 = 0 then 0xFFFF else opIdx) ++ leBytes 6 0, s)

/-- NAN_OUT to the invoking Spur when a context flagged a tile (R554): the slot, and the operator and Mill of the first
flagged tile; which one that is the firmware knows, so it is a free value. -/
def State.nanOut (s : State) (v : Inv) (nan : Nat) : State :=
  if nan = 0 then s
  else
    let (d, s) := s.fresh 23
    s.record v.spur .nanOut v.slot [d]

/-- The contexts of the Mills that run an invocation are read for it, and what it has counted so far is known (R360). -/
def State.gather (s : State) (v : Inv) : Inv × State :=
  let s := s.each v.mills fun s m => s.when (s.runsOn m v) fun s => s.takeCtx m
  ((s.mail.invs.find? fun x => x.mb == v.mb && x.id == v.id).getD v, s)

/-- An invocation has ended: one that did not end OK has its undispatched tasks discarded (R342); the Spur is at an invocation
boundary (R249), and delayed requests for an operating point are looked at again (R240). -/
def State.invEnds (s : State) (v : Inv) (discard : Bool) : State :=
  let s := s.onMail fun m => { m with invs := m.invs.filter fun x => !(x.mb == v.mb && x.id == v.id) }
  ((s.when discard fun s => s.each v.mills fun s m => s.leaveMill v m).invBoundary v.spur).opRetry

/-- The outcome of an admitted invocation is claimed (R342): the contexts are read, statistics and outputs are written, and the
command completes. A later claim finds no invocation (R341). -/
def State.claimInv (s : State) (v : Inv) (st detail stamp : Nat) : State :=
  let hb := s.hb v.spur v.hb
  let (v, s) := s.gather v
  let s := s.invEnds v (st != 0)
  match s.cmdById v.mb v.id with
  | none => s
  | some c =>
    let (rec, s) := s.statsRecord v stamp
    let s := s.when (c.opw 4 != 0 && (st == 0 || st == 2 || st == 3)) fun s => s.post v.spur (.write (c.opw 4) rec)
    let n := min hb.outLen (c.opw 3 % 2 ^ 32)
    let s := if st = 0 then
        let (b, s) := s.freshBytes n
        s.post v.spur (.write (c.opw 2) b)
      else s
    let s := s.nanOut v ((v.sums[3]?).getD 0)
    s.complete v.mb c st detail (n + v.slot * 2 ^ 32 + v.gen * 2 ^ 42) stamp

/-- The invocation that a deadline slot was armed for. -/
def State.invOf (s : State) (slot gen : Nat) : Option Inv := s.mail.invs.find? fun v => v.slot == slot && v.gen == gen

/-- Claim OK for a slot's invocation (R342). -/
def State.claimOk (s : State) (slot gen : Nat) : State :=
  match s.invOf slot gen with
  | some v => s.claimInv v 0 0 s.now
  | none => s

/-- Claim DL_MISSED for a slot's invocation, with STAMP = DEADLINE + 1 ns (R342). -/
def State.claimMissed (s : State) (slot gen dl : Nat) : State :=
  match s.invOf slot gen with
  | some v => s.claimInv v 3 slot (dl + 1)
  | none => s

/-- Claim a command in flight for a recovery or a migration: its waiters are gone, and an admitted invocation ends with
it (R345, R346, R546). The slot of an invocation stays armed (R347). -/
def State.abortCmd (s : State) (mb st detail : Nat) (c : Cmd) : State :=
  let s := s.dropWaiter mb c.id
  match s.mail.invs.find? fun v => v.mb == mb && v.id == c.id with
  | some v => s.claimInv v st detail s.now
  | none => s.complete mb c st detail 0 s.now

/-- Claim every command of a mailbox that satisfies `p`, after the epoch has risen (R345). -/
def State.abortCmds (s : State) (mb : Nat) (p : Cmd → Bool) (st detail : Nat) : State :=
  s.each ((s.cmds mb).filter p) fun s c => s.abortCmd mb st detail c

/-- A recovery that reaches one mailbox: begun and held commands end ABORTED with DETAIL 2 under the new epoch (R345). -/
def State.recoverMb (s : State) (mb : Nat) : State :=
  (s.raiseEpoch (mb / 8)).abortCmds mb (fun c => c.stage != .ready) 2 2

/-! ### Causeway packets of this device -/

/-- This device's DEVID. -/
def State.devid (s : State) : Nat := s.rd .GLOBAL_ID_DEVID

/-- CW_STAT.STATE is RING. -/
def State.inRing (s : State) : Bool := s.rd .CW_STAT_STATE == 3

/-- A packet leaves on the out-hop: an encrypted one, which is any but a MGMT packet while ENC is set, takes the next value of the
hop's packet counter (R397). -/
def State.cwPut (s : State) (cls : Nat) (t : Tx) : State :=
  (if cls ≠ 3 ∧ s.flag .CW_HOP_ENC 1 then s.onCw fun c => { c with outPkts := (c.outPkts + 1) % 2 ^ 64 } else s).emit t

/-- Send a packet: SEQ rises by 1 per class and Spur (R393). A device that is not in RING sends nothing. -/
def State.cwEmit (s : State) (cls dst : Nat) (bcast : Bool) (spur sub : Nat) (fields payload : List Byte) : State :=
  if !s.inRing then s
  else
    let q := (Table.get 0 s.cw.txSeq (8 * cls + spur) + 1) % 2 ^ 32
    (s.onCw fun c => { c with txSeq := Table.set 0 c.txSeq (8 * cls + spur) q }).cwPut cls
      (.cwSend ⟨cls, dst, s.devid, bcast, spur, sub, q, fields, payload⟩)

/-- The DEVID of the Crown in the map. -/
def State.crownId (s : State) : Option Nat := (s.cw.map.find? fun e => e.role == 1).map MapEnt.devid

/-- A DEVID stands in the map once and only once (R407). -/
def State.mapHas (s : State) (d : Nat) : Bool := (s.cw.map.filter fun e => e.devid == d).length == 1

/-- A Brim with an armed Kerb sends STOP_STATE to the Crown (R415, Table CW-7). -/
def State.sendStopState (s : State) : State :=
  if s.rd .GLOBAL_ID_ROLE = 2 ∧ s.armed then
    match s.crownId with
    | none => s
    | some d =>
      s.cwEmit 1 d false 0 0
        (leBytes 8 s.now ++ leBytes 1 (s.rd .KRB_STAT_ZG_STOP) ++ leBytes 1 (s.rd .KRB_STAT_ZG_SLOW) ++
          leBytes 1 (s.rd .KRB_STAT_ARMED + 2 * s.rd .KRB_STAT_FAULT) ++ leBytes 13 0) []
  else s

end Sys2Proof.Machine
end

