-- ==== Sys2Proof/Machine/Wake.lean ====
section
/-!
DEFINITION. Wake sources and what they do to an entry or a parked device (`spec/15_power.md` R431 to R434, R436): shared by
every unit that can wake the device.
-/
namespace Sys2Proof.Machine

/-- PM_STATUS.LAST, with vector 17 when it changes (Table HM-5). -/
def State.setLast (s : State) (v : Nat) : State :=
  if s.rd .PM_STATUS_LAST = v then s else (s.wr .PM_STATUS_LAST 0 v).irq 0 17

/-- PM_STATUS as one word (Table PW-11), the RESULT of PM_REQ. -/
def State.pmStatus (s : State) : Nat :=
  s.rd .PM_STATUS_CUR + s.rd .PM_STATUS_TGT * 2 ^ 3 + s.rd .PM_STATUS_PEND * 2 ^ 6 + s.rd .PM_STATUS_PEND_V * 2 ^ 9 +
    s.rd .PM_STATUS_BUSY * 2 ^ 10 + s.rd .PM_STATUS_PNR * 2 ^ 11 + s.rd .PM_STATUS_LAST * 2 ^ 12 +
    s.rd .PM_STATUS_DOM_ON * 2 ^ 16

/-- End a PM_REQ: OK with PM_STATUS, or PM_REFUSED with its reason (Table PW-3). -/
def State.endPm (s : State) (r : Option PmReq) (reason : Nat) : State :=
  match r with
  | none => s
  | some r => if reason = 0 then s.finishId r.mb r.id 0 0 s.pmStatus else s.finishId r.mb r.id 0x26 reason 0

/-- End the request of the transition in progress and those merged with it. -/
def State.endPms (s : State) (reason : Nat) : State :=
  let r := s.pm.req
  let m := s.pm.merged
  (((s.onPm fun p => { p with req := none, merged := [] }).endPm r reason)).each m fun s x => s.endPm (some x) reason

/-- Fields of a target (R421). -/
def tgState (t : Nat) : Nat := bits t 0 3
def tgQoff (t : Nat) : Nat := bits t 4 4
def tgSports (t : Nat) : Nat := bits t 8 8
def tgUnused (t : Nat) : Nat := bits t 16 5

/-- The domains that are on in a target (Tables PW-1 and PW-2), a mask. -/
def domainsOf (t : Nat) : Nat :=
  match tgState t with
  | 0 | 1 =>
    let off := (if bit (tgUnused t) 0 then 2 ^ 3 else 0) + (if bit (tgUnused t) 1 then 2 ^ 4 else 0) +
      (if bit (tgUnused t) 2 then 2 ^ 5 else 0) + (if bit (tgUnused t) 3 then 2 ^ 6 else 0) +
      (if bit (tgUnused t) 4 then 2 ^ 12 else 0) + (if tgState t = 1 then tgQoff t * 2 ^ 8 else 0)
    0x1FFF - off
  | 2 => 2 ^ 7 + (if bits (tgSports t) 0 4 != 0 then 2 ^ 4 else 0) + (if bits (tgSports t) 4 4 != 0 then 2 ^ 5 else 0)
  | _ => 0

/-- A target is SENTRY and does not keep a port: its island is gated. -/
def dropsPort (t p : Nat) : Bool := tgState t == 2 && !bit (tgSports t) p

/-- The rails that feed a set of domains: rail 0 VDD_CORE, rails 1 to 4 the quadrants (Table PW-1). -/
def railsOf (doms : Nat) : Nat := (if doms &&& 0x10FF != 0 then 1 else 0) + bits doms 8 4 * 2

/-- The domains that no request accepted and not yet entered turns off (R424). -/
def State.staysOn (s : State) : Nat :=
  let keep := fun (a : Nat) (r : PmReq) => a &&& domainsOf r.target
  ((s.pm.held.filter fun r => (s.cmdById r.mb r.id).isSome).foldl keep 0x1FFF) &&& (match s.pm.req with | some r => domainsOf r.target | none => 0x1FFF) &&&
    (match s.pm.pend with | some r => domainsOf r.target | none => 0x1FFF)

/-- PM_WAKE as a target word. -/
def State.wakeTarget (s : State) : Nat :=
  s.rd .PM_WAKE_STATE + s.rd .PM_WAKE_QOFF * 2 ^ 4 + s.rd .PM_WAKE_SPORTS * 2 ^ 8 + s.rd .PM_WAKE_UNUSED * 2 ^ 16

/-- PM_TARGET as a target word. -/
def State.pmTarget (s : State) : Nat :=
  s.rd .PM_TARGET_STATE + s.rd .PM_TARGET_QOFF * 2 ^ 4 + s.rd .PM_TARGET_SPORTS * 2 ^ 8 + s.rd .PM_TARGET_UNUSED * 2 ^ 16

/-- Command a rail and wait for its acknowledgement (R443). -/
def State.commandRail (s : State) (rail : Nat) (c old : RailCmd) : State :=
  (s.onPm fun p => { p with waits := p.waits ++ [⟨rail, c, 1, old, false, s.raw⟩] }).emit (.railCommand rail c)

/-- The domains in the order of Table PW-7, each with its step time in ns. -/
def wakeOrder : List (Nat × Nat) :=
  [(7, 25000), (0, 280000), (2, 320000), (4, 180000), (5, 180000), (3, 140000), (1, 150000), (6, 80000), (12, 90000),
    (8, 50000), (9, 50000), (10, 50000), (11, 50000)]

/-- The steps of a wake: the raw time at which each domain of `on` comes on, one after another from `t` (R434). -/
def wakeSteps (t on : Nat) : List (Nat × Nat) :=
  ((wakeOrder.filter fun p => bit on p.1).foldl
    (fun (acc : Nat × List (Nat × Nat)) p => (acc.1 + p.2, acc.2 ++ [(acc.1 + p.2, p.1)])) (t, [])).2

/-- Step 0 of a wake or a return to a target: the rails it needs are commanded on in parallel; with none to command, the
domains follow at once (R434). While BOW holds, a step that raises a rail or adds a domain waits (R448). -/
def State.startRaise (s : State) (target : Nat) : State :=
  let on := domainsOf target &&& (0x1FFF - s.rd .PM_STATUS_DOM_ON)
  let rails := bitList 5 (railsOf (domainsOf target) &&& (31 - s.pm.railsOn))
  let s := ((s.wr .PM_STATUS_TGT 0 (tgState target)).put .PM_STATUS_BUSY 0 true).onPm fun p =>
    { p with leaving := 0, rose := on, goal := target, phase := .railsOn, steps := (wakeOrder.filter fun q => bit on q.1).map fun q => (0, q.1) }
  let s := s.each rails fun s r => s.commandRail r .on .off
  if rails.isEmpty && !s.kerb.bow then
    s.onPm fun p => { p with phase := .waking, steps := wakeSteps s.raw on }
  else s

/-- An entry is aborted before its point of no return (R432): the clocks run again, nothing is lost, the PM_REQ completes
with reason 9. -/
def State.abortEntry (s : State) : State :=
  let s := s.when s.pm.stalled fun s => s.onRst fun r => { r with kick := s.raw }
  let s := s.onPm fun p => { p with phase := .idle, stalled := false, leaving := 0, wakeDue := false }
  let s := ((s.put .PM_STATUS_BUSY 0 false).wr .PM_STATUS_TGT 0 (s.rd .PM_STATUS_CUR)).setLast 2
  (s.count .PM_ABORTS).endPms 9

/-- The states in which a source counts (Table PW-6). -/
def State.wakeListens (s : State) (src : Nat) : Bool :=
  let st := s.rd .PM_STATUS_CUR
  let busy := s.flag .PM_STATUS_BUSY
  match src with
  | 2 => busy || st == 2
  | 6 => busy
  | 7 => st == 3
  | _ => busy || st == 2 || st == 3

/-- A wake event is latched; FIRST names the first one, of several in one cycle the lowest-numbered (R433). -/
def State.latchWake (s : State) (src : Nat) : State :=
  let none_ := s.rd .PM_WAKE_SRC_LATCHED == 0
  let first := none_ || (s.pm.firstAt == s.raw && decide (src < s.rd .PM_WAKE_SRC_FIRST))
  let s := s.when first fun s => (s.wr .PM_WAKE_SRC_FIRST 0 src).onPm fun p => { p with firstAt := s.raw }
  s.setBitOf .PM_WAKE_SRC_LATCHED 0 src

/-- A wake source fires (R431 to R433): an enabled one is latched; before the point of no return policy REPLAY aborts the
entry, later or under COMPLETE the wake starts once the state is reached; in SENTRY or PARK it starts at once; during a
wake it is latched and nothing else. -/
def State.raiseWake (s : State) (src : Nat) : State :=
  if !bit (s.rd .PM_WAKE_CFG_EN) src || !s.wakeListens src then s
  else
    let s := s.latchWake src
    match s.pm.phase with
    | .entering t =>
      if s.raw < t && bit (s.rd .PM_WAKE_CFG_REPLAY) src then s.abortEntry
      else s.onPm fun p => { p with wakeDue := true }
    | .switching _ => s.onPm fun p => { p with wakeDue := true }
    | .railsOff => s.onPm fun p => { p with wakeDue := true }
    | .idle => if s.rd .PM_STATUS_CUR = 2 ∨ s.rd .PM_STATUS_CUR = 3 then s.startRaise s.wakeTarget else s
    | _ => s

end Sys2Proof.Machine
end

