-- ==== Sys2Proof/Machine/KerbOps.lean ====
section
/-!
DEFINITION. The Kerb's demands and outputs (`spec/11_kerb_and_deadlines.md` R303 to R327): zone counts, holds, silence,
latches, the aggregated stops of Brims (`spec/14_causeway_cascade.md` R416), their combination and the safety outputs.
-/
namespace Sys2Proof.Machine

/-! ### Indices -/

/-- Global zone number (unit × 64 + zone). -/
def zoneIdx (unit zone : Nat) : Nat := 64 * unit + zone

/-- The instances of a one-bit field that are set, ascending: registers list nothing that equals the reset value 0. -/
def State.setOf (s : State) (r : Reg) : List Nat :=
  (s.regs.filter fun e => keyField e.1 == r.ctorIdx && e.2 != 0).map fun e => e.1 % 2 ^ 24

/-- The enabled rectangles of a unit, by global index. -/
def State.rectsOf (s : State) (unit : Nat) : List Nat := (s.setOf .ZR_EN).filter fun i => i / 256 == unit

/-- The zone that a rectangle belongs to. -/
def State.rectZone (s : State) (i : Nat) : Nat := zoneIdx (i / 256) (s.rd .ZR_ZONE i)

/-! ### Holds (R307) -/

/-- A condition as it stands from this cycle on: one that ends held last in the cycle before. -/
def Hold.upd (h : Hold) (cond : Bool) (raw : Nat) : Hold :=
  if cond then { h with on := true } else if h.on then { on := false, last := some (raw - 1) } else h

/-- A condition that held in this cycle only. -/
def Hold.pulse (h : Hold) (raw : Nat) : Hold := { h with last := some raw }

/-- The demand is present: its condition holds, or held no more than HOLD ms ago, counted in raw nanoseconds. -/
def Hold.active (h : Hold) (hold raw : Nat) : Bool :=
  h.on || (match h.last with | some t => raw ≤ t + hold * 10 ^ 6 | none => false)

/-! ### Zone counts (R305, R306) -/

/-- A zone beyond its registers. -/
def State.zone (s : State) (z : Nat) : ZoneSt := Table.get {} s.kerb.zones z

/-- Change a zone. -/
def State.onZone (s : State) (z : Nat) (f : ZoneSt → ZoneSt) : State :=
  s.onKerb fun k => { k with zones := Table.upd {} k.zones z f }

/-- The bins once the hub's microsecond time lies in bin `b`: older bins move up, at most 16 stay (R306). Where the number has fallen,
because Waytime stepped back, the bins stay and the current one is `b` (DESIGN CHOICE: the spec does not say). -/
def ZoneSt.roll (z : ZoneSt) (b : Nat) : ZoneSt :=
  if b ≤ z.binNo then { z with binNo := b }
  else { z with bins := (List.replicate (min 16 (b - z.binNo)) 0 ++ z.bins).take 16, binNo := b }

/-- The zone's count: the sum of its bins, clipped. -/
def ZoneSt.count (z : ZoneSt) : Nat := min (z.bins.foldl (· + ·) 0) (2 ^ 24 - 1)

/-- One more copy in the current bin, which stops at 2^24 − 1. -/
def ZoneSt.hit (z : ZoneSt) : ZoneSt :=
  match z.bins with
  | [] => { z with bins := [1] }
  | b :: t => { z with bins := min (b + 1) (2 ^ 24 - 1) :: t }

/-- The number of the bin the hub is in for a zone. -/
def State.binNow (s : State) (z : Nat) : Nat := s.nowUs / max 1 (s.rd .ZONE_BW z)

/-- The density tests of a zone after its bins changed (R307): the count register, the two conditions, and the cycle in
which the count reached TH_SLOW from below. The second part: it did so in this cycle. -/
def State.densityTest (s : State) (z : Nat) : State × Bool :=
  let old := s.rd .ZONE_COUNT z
  let c := (s.zone z).count
  let ts := s.rd .ZONE_TH_STOP z
  let tw := s.rd .ZONE_TH_SLOW z
  let en := s.flag .ZONE_EN z
  let rose := tw != 0 && old < tw && tw ≤ c
  let s := s.wr .ZONE_COUNT z c
  (s.onZone z fun x =>
    { x with
      stop := x.stop.upd (en && ts != 0 && ts ≤ c) s.raw
      slow := x.slow.upd (en && tw != 0 && tw ≤ c) s.raw
      rose := if rose then some s.raw else x.rose }, rose)

/-- What follows for a zone from a write of its thresholds, its enable or its bin width: its bins stay as they are, the current one
takes its number from the new width (DESIGN CHOICE: the spec does not say), and the tests are made on the count that it has (R307: a
zone demands while its count is at or above a threshold). -/
def State.zoneSettings (s : State) (z : Nat) : State :=
  ((s.onZone z fun x => { x with binNo := s.binNow z }).densityTest z).1

/-- A DENSITY or APPROACH demand of a zone is present. -/
def State.reflexDemand (s : State) (z : Nat) : Bool :=
  let x := s.zone z
  let h := s.rd .ZONE_HOLD z
  x.stop.active h s.raw || x.slow.active h s.raw || x.apStop.active h s.raw || x.apSlow.active h s.raw

/-- The approach pairs of a unit, after counts of the zones `rose` reached TH_SLOW from below (R308): a pair fires where its
inner zone did so in this raw cycle and its outer one in it or no more than T before; the copies of one cycle may come one after
another, in either order. -/
def State.approach (s : State) (unit : Nat) (rose : List Nat) : State :=
  s.each ((List.range 16).map fun p => 16 * unit + p) fun s p =>
    let za := zoneIdx unit (s.rd .AP_ZA p)
    let zb := zoneIdx unit (s.rd .AP_ZB p)
    let near := match (s.zone za).rose with | some t => s.raw ≤ t + s.rd .AP_T p * 1000 | none => false
    let crossed := (rose.contains za || rose.contains zb) && (s.zone zb).rose == some s.raw
    if s.flag .AP_EN p && crossed && near && s.rd .ZONE_TH_SLOW za != 0 && s.flag .ZONE_EN zb then
      s.onZone zb fun x =>
        if s.flag .AP_ACT p then { x with apSlow := x.apSlow.pulse s.raw } else { x with apStop := x.apStop.pulse s.raw }
    else s

/-! ### Silence (R309) -/

/-- What makes a slot SILENT whatever has been heard of it: a lost head, a slot lost to a table error, a port that is not RUNNING, or
a carding unit that is gated or fenced. -/
def State.slotGone (s : State) (slot : Nat) : Bool :=
  let p := slot / 32
  s.rd .HT_STATE slot == 3 || (Table.get {} s.slots slot).stopped.isSome || s.rd .WL_STAT_STATE p != 4 ||
    !s.domOn (wlDomain p) || Table.get false s.cardFenced p

/-- A head slot is SILENT, whether a head holds it or not. It stays so until an OPEN of the current interval is accepted. -/
def State.slotSilent (s : State) (slot : Nat) : Bool := bit s.kerb.silent slot

/-- A slot becomes SILENT. -/
def State.silentNow (s : State) (slot : Nat) : State := s.onKerb fun k => { k with silent := setBit k.silent slot true }

/-- The hub hears an accepted OPEN of interval `i` on a slot; `now`: it is the current interval, which ends the slot's silence. -/
def State.heardOpen (s : State) (slot i : Nat) (now : Bool) : State :=
  s.onKerb fun k =>
    { k with
      heard := Table.insert k.heard slot i
      silent := if now then setBit k.silent slot false else k.silent }

/-- The slots that enabled rectangles name become SILENT where R309 says so, and the zones of the rectangles, and those whose LOSS
demand stands, take up whether a slot of one is SILENT. -/
def State.refreshLoss (s : State) : State :=
  let rs := s.setOf .ZR_EN
  let s := s.each (((rs.map fun i => s.rd .ZR_SLOT i).dedup).filter s.slotGone) State.silentNow
  let zs := (rs.map s.rectZone ++ (s.kerb.zones.filter fun e => e.2.loss.on).map Prod.fst).dedup
  s.each zs fun s z =>
    let silent := s.flag .ZONE_EN z && rs.any fun i => s.rectZone i == z && s.slotSilent (s.rd .ZR_SLOT i)
    if silent || (s.zone z).loss.on then s.onZone z fun x => { x with loss := x.loss.upd silent s.raw } else s

/-! ### Verdict latches (R312, R313) -/

/-- The enabled verdict sets. -/
def State.sets (s : State) : List Nat := s.setOf .VS_EN

/-- A zone lies in a verdict set. -/
def State.inSet (s : State) (v z : Nat) : Bool := bit (s.rd .VS_MASK (16 * v + z / 32)) (z % 32)

/-- The zones of a verdict set. -/
def State.setZones (s : State) (v : Nat) : List Nat :=
  (List.range 16).flatMap fun w => (bitList 32 (s.rd .VS_MASK (16 * v + w))).map fun b => 32 * w + b

/-- The active latches, without repeats. -/
def State.activeLatches (s : State) : List Nat := (s.sets.flatMap s.setZones).dedup

/-- A latch takes a verdict, reason, window and stamp; LATCH shows bits [23:0] of the window. -/
def State.setLatch (s : State) (z verdict reason win stamp : Nat) : State :=
  let s := ((s.wr .LATCH_VERDICT z verdict).wr .LATCH_REASON z reason).wr .LATCH_WIN z win
  s.onKerb fun k => { k with latches := Table.set {} k.latches z ⟨win, stamp⟩ }

/-- A latch beyond its register. -/
def State.latch (s : State) (z : Nat) : LatchSt := Table.get {} s.kerb.latches z

/-- The smallest MAXAGE, in µs, of the enabled sets a zone lies in. -/
def State.maxAge (s : State) (z : Nat) : Option Nat :=
  ((s.sets.filter fun v => s.inSet v z).map fun v => s.rd .VS_MAXAGE v).min?

/-- A latch of reason VERDICT is too old (R313). -/
def State.aged (s : State) (z : Nat) : Bool :=
  s.rd .LATCH_REASON z == 1 &&
    (match s.maxAge z with | some m => (s.latch z).stamp + m * 1000 < s.now | none => false)

/-- Ageing of one active latch (R313). -/
def State.ageLatch (s : State) (z : Nat) : State :=
  if s.aged z then ((s.wr .LATCH_VERDICT z 2).wr .LATCH_REASON z 3).count .KRB_CNT 3 else s

/-! ### Aggregated stops (R416) -/

/-- The Crown groups that AGG_MAP gives for a mask of a Brim's groups. -/
def State.aggMap (s : State) (d groups : Nat) : Nat :=
  (bitList 8 groups).foldl (fun a g => a ||| bits (s.rd .AGG_MAP (2 * d + g / 4)) (8 * (g % 4)) 8) 0

/-- The last STOP_STATE of a Brim. -/
def State.aggSt (s : State) (d : Nat) : AggSt := Table.get {} s.cw.agg d

/-- A Brim is lost: flagged, never heard, or absent from the map or doubled in it; with two Crowns every Brim is (R407). -/
def State.brimLost (s : State) (d : Nat) : Bool :=
  s.flag .CW_STAT_ROLE_CONFLICT || bit (s.rd .AGG_LOST) d || (s.aggSt d).seq.isNone || !s.mapHas d

/-- The groups that the Brims demand STOP and SLOW for; a device that is no Crown aggregates nothing. -/
def State.aggDemand (s : State) : Nat × Nat :=
  if s.rd .GLOBAL_ID_ROLE ≠ 1 then (0, 0)
  else
    (bitList 16 (s.rd .AGG_EN)).foldl
      (fun a d =>
        if s.brimLost d then (a.1 ||| s.aggMap d 0xFF, a.2)
        else (a.1 ||| s.aggMap d (s.aggSt d).stop, a.2 ||| s.aggMap d (s.aggSt d).slow)) (0, 0)

/-- AGG_LOST follows the losses. -/
def State.aggRefresh (s : State) : State :=
  if s.rd .GLOBAL_ID_ROLE ≠ 1 then s
  else s.each ((bitList 16 (s.rd .AGG_EN)).filter s.brimLost) fun s d => s.setBitOf .AGG_LOST 0 d

/-! ### Tool mask (R311) -/

/-- The pose sample is young enough: its age against WT64 is at most MASK_AGE µs. -/
def State.poseFresh (s : State) (p : Pose) : Bool := s.now ≤ p.vt + s.rd .KRB_MASK_AGE * 1000

/-- A mask is in force. -/
def State.maskOn (s : State) : Bool :=
  s.flag .KRB_MASK_EN && s.flag .HB_STAT_MASK_LIVE &&
    (match s.kerb.pose with | some p => p.good && s.poseFresh p | none => false)

/-! ### Combination and outputs (R28, R29, R320 to R322) -/

/-- What one zone demands: STOP, SLOW, and the causes of its STOP as KRB_CAUSE bits. -/
structure ZoneDemand where
  stop : Bool
  slow : Bool
  cause : Nat
deriving DecidableEq, Repr

/-- The demand of a zone from all its sources (R320). DEDUCED: a zone with EN = 0 demands nothing, its latch included
(R309). -/
def State.zoneDemand (s : State) (active : List Nat) (z : Nat) : ZoneDemand :=
  if !s.flag .ZONE_EN z then ⟨false, false, 0⟩
  else
    let x := s.zone z
    let h := s.rd .ZONE_HOLD z
    let den := x.stop.active h s.raw
    let ap := x.apStop.active h s.raw
    let loss := x.loss.active h s.raw
    let lossStop := loss && !s.flag .ZONE_LOSS z
    let v := if active.contains z then s.rd .LATCH_VERDICT z else 0
    let latch := v == 2
    let why := match s.rd .LATCH_REASON z with | 0 => 2 ^ 12 | 1 => 2 ^ 8 | 2 => 2 ^ 9 | _ => 2 ^ 10
    ⟨den || ap || lossStop || latch,
      x.slow.active h s.raw || x.apSlow.active h s.raw || (loss && s.flag .ZONE_LOSS z) || v == 1,
      (if den then 2 ^ 5 else 0) + (if ap then 2 ^ 6 else 0) + (if lossStop then 2 ^ 7 else 0) + (if latch then why else 0)⟩

/-- The group demands and causes of all zones together. -/
def State.zoneGroups (s : State) : Nat × Nat × Nat :=
  let act := s.activeLatches
  ((s.kerb.zones.map Prod.fst ++ act).dedup).foldl
    (fun a z =>
      let d := s.zoneDemand act z
      let zg := s.rd .ZONE_ZG z
      (if d.stop then a.1 ||| zg else a.1, if d.slow then a.2.1 ||| zg else a.2.1, a.2.2 ||| d.cause)) (0, 0, 0)

/-- The global stop sources of Table KB-1, as KRB_CAUSE bits 0 to 3. -/
def State.globalStops (s : State) : Nat :=
  (if s.armed then 0 else 1) + (if s.kerb.faults.isEmpty then 0 else 2) + (if s.kerb.estop then 4 else 0) +
    (if s.kerb.bow then 8 else 0)

/-- The outputs that the group demands energise (Table KB-2), one bit each; none without power. -/
def State.outputsFor (s : State) (stop slow : Nat) : Nat :=
  if s.kerb.forcedOff || !s.domOn pdKerb then 0
  else
    let run := stop &&& s.rd .KRB_OUT_SSTOP_COVER == 0
    (if run then 3 else 0) + (if run && slow &&& s.rd .KRB_OUT_SLOW_COVER == 0 then 4 else 0) +
      (0xFF - stop % 256) * 8

/-- The outputs as driven: a dark test de-energises its output (R326). -/
def State.driven (s : State) (out : Nat) : Nat := s.kerb.dark.foldl (fun a e => setBit a e.1 false) out

/-- The level a feedback input is expected to hold: FB_POL while its output is energised, dark tests aside (R325). -/
def State.fbExpected (s : State) (b : Bool) (out : Nat) : Bool := bit out (if b then 1 else 0) == s.flag .KRB_FB_POL

/-- The time since which a feedback input has been away from its expected level; none while it is there or not used. -/
def State.fbAway (s : State) (b : Bool) (out : Nat) : Option Nat :=
  let en := if b then s.flag .KRB_FB_FBB_EN else s.flag .KRB_FB_FBA_EN
  let level := if b then s.kerb.fbB else s.kerb.fbA
  let old := if b then s.kerb.fbBAway else s.kerb.fbAAway
  if !en || level == s.fbExpected b out then none else some (old.getD s.raw)

/-- KRB_CAUSE with its sticky copy, and vector 16 when it changes (Table HM-5). -/
def State.setCause (s : State) (c : Nat) : State :=
  if s.rd .KRB_CAUSE = c then s
  else ((s.wr .KRB_CAUSE 0 c).wr .KRB_CAUSE_SEEN 0 (s.rd .KRB_CAUSE_SEEN ||| c)).irq 0 16

/-- Step 4 of R319: combine every demand (R28, R29, R320 to R322), drive the outputs and report what changed. -/
def State.combine (s : State) : State :=
  let (zs, zw, zc) := s.zoneGroups
  let gl := s.globalStops
  let (as, aw) := s.aggDemand
  let live := zs ||| as ||| (if gl = 0 then 0 else 0xFF)
  let manual := (s.kerb.manual ||| live) &&& s.rd .KRB_OUT_MANUAL
  let stop := live ||| manual
  let slow := zw ||| aw
  let cause := gl ||| zc ||| (if as = 0 then 0 else 2 ^ 4) ||| (if manual &&& (0xFF - live) = 0 then 0 else 2 ^ 11)
  let out := s.outputsFor stop slow
  let changed := s.rd .KRB_STAT_ZG_STOP != stop || s.rd .KRB_STAT_ZG_SLOW != slow
  let before := s.driven s.kerb.out
  let fa := s.fbAway false out
  let fb := s.fbAway true out
  let s := s.onKerb fun k => { k with manual := manual, liveStop := live, out := out, fbAAway := fa, fbBAway := fb }
  let s := (((s.wr .KRB_STAT_ZG_STOP 0 stop).wr .KRB_STAT_ZG_SLOW 0 slow).put .KRB_STAT_RUN 0 (bit out 0)).put
    .KRB_STAT_SLOWOUT 0 (bit out 2)
  let s := (s.put .KRB_STAT_FAULT 0 (!s.kerb.faults.isEmpty)).put .KRB_STAT_MASK_ON 0 s.maskOn
  let s := s.setCause cause
  let s := s.when (s.driven out != before) fun s => s.emit (.safetyOut (s.driven out))
  s.when changed State.sendStopState

/-- The hub evaluates: silence, losses of Brims, combination. With PD_KERB gated every output is off. -/
def State.kerbUpdate (s : State) : State := s.refreshLoss.aggRefresh.combine

/-! ### Faults (R327) -/

/-- A fault is latched: the first is held in KRB_FAULT, later ones are counted; an error record goes to Spur 0. Without PD_KERB no unit
is there to find one. -/
def State.kerbFault (s : State) (code unit : Nat) : State := if !s.domOn pdKerb then s else
  let s := if s.kerb.faults.isEmpty then (s.wr .KRB_FAULT_CODE 0 code).wr .KRB_FAULT_UNIT 0 unit
    else s.count .KRB_CNT 8
  let s := s.onKerb fun k =>
    { k with
      faults := if k.faults.contains (code, unit) then k.faults else k.faults ++ [(code, unit)]
      estopLowSeen := if code = 8 then false else k.estopLowSeen }
  (s.recordTo 0 0 .kerbFault unit [code]).kerbUpdate

/-! ### The tool mask (R133, R134) -/

/-- The tool mask is withdrawn (R134). -/
def State.maskWithdraw (s : State) : State :=
  let s := ((s.put .HB_STAT_MASK_LIVE 0 false).wr .HB_TOOL_CLASS 0 0).wr .HB_TOOL_VARIANT 0 0
  ((s.onHat fun h => { h with boxes := [], tool := none }).onKerb fun k => { k with boxes := [], rects := [] }).kerbUpdate

/-- The reader forgets what its polls have seen and read. -/
def HatSt.forget (h : HatSt) : HatSt :=
  { h with seen := [], missed := [], present := [], reading := none, retried := none, handled := [], tool := none, multi := false }

/-- A (class, variant) pair stands in the allow list of the armed configuration (R133). -/
def State.toolListed (s : State) (cls var : Nat) : Bool :=
  s.armed && (cls != 0 || var != 0) &&
    (List.range 16).any fun t => s.rd .KRB_TOOL_CLASS t == cls && s.rd .KRB_TOOL_VARIANT t == var

/-- The identity of the present tool is decided (R133): the boxes go to the Kerb hub and MASK_LIVE sets, or a valid record off
the list is reported. DEDUCED (Table ID-11, last paragraph): it is decided when the record has been read, and again when the
Kerb is armed while the tag is present. -/
def State.toolJudge (s : State) : State :=
  match s.hat.tool with
  | none => s
  | some (c, v, b) =>
    if s.hat.present.length = 1 ∧ !s.hat.multi then
      if s.toolListed c v then
        let s := ((s.wr .HB_TOOL_CLASS 0 c).wr .HB_TOOL_VARIANT 0 v).put .HB_STAT_MASK_LIVE 0 true
        ((s.onHat fun h => { h with boxes := b }).onKerb fun k => { k with boxes := b }).kerbUpdate
      else s.put .HB_STAT_UNLISTED 0 true
    else s

end Sys2Proof.Machine
end

