-- ==== Sys2Proof/Machine/Carding.lean ====
section
/-!
DEFINITION. The carding units (`spec/05_carding_and_queues.md` R136 to R148): the stages of an event, runs and warm-up,
table errors, and the words a port hands on.
-/
namespace Sys2Proof.Machine

/-! ### Tables (R140 to R145) -/

/-- The block size of the filter, in pixels. -/
def State.bafB (s : State) (slot : Nat) : Nat := 4 * 2 ^ min (s.rd .SLOT_BAF_BLK slot) 2

/-- The node distance of the rectification table, in pixels. -/
def State.rectG (s : State) (slot : Nat) : Nat := 16 * 2 ^ min (s.rd .SLOT_RECT_G slot) 2

/-- The space a head of this geometry needs (R145). -/
def tblNeed (w h b g : Nat) : Nat := 2 * ceilDiv w b * ceilDiv h b + 4 * ((ceilDiv w g + 1) * (ceilDiv h g + 1))

/-- The space the head of a slot takes; none without a head, or for one whose first configuration was refused. -/
def State.slotTbl (s : State) (slot : Nat) : Nat :=
  if s.rd .HT_STATE slot = 0 ∨ (s.slot slot).noTables then 0
  else tblNeed (s.headW slot) (s.headH slot) (s.bafB slot) (s.rectG slot)

/-- CARD_TBL_USED of a unit. -/
def State.tblSum (s : State) (u : Nat) : Nat := ((List.range 32).map fun p => s.slotTbl (32 * u + p)).sum

/-- The space of a unit's carding tables (R145). -/
def tblSpace : Nat := 458752

/-- Drop the entries of one slot from a table keyed slot × 2^20 + place. -/
def dropSlot (t : Table Nat) (slot : Nat) : Table Nat := Table.keep (fun k => k / 2 ^ 20 != slot) t

/-! ### Runs (R143, R150) -/

/-- The queue a slot's records go to. -/
def State.route (s : State) (slot : Nat) : Option Nat :=
  if s.flag .SLOT_ROUTE_EN slot then some (s.rd .SLOT_ROUTE_EQ slot) else none

/-- Form a control record of a slot for the queue it routes to. -/
def State.slotControl (s : State) (slot sub param : Nat) (unf : Bool) : State :=
  match s.route slot with
  | some q => s.formControl q slot sub param unf
  | none => s

/-- A run begins at the start of an interval (R143); with its HEAD_JOIN the head's Ego state is zero (R291). -/
def State.startRun (s : State) (slot interval : Nat) : State :=
  let join := interval * 256
  let baf := s.flag .SLOT_BAF_EN slot
  let warm := if baf then some (join + s.rd .CARD_CTRL_BAF_WARM (unitOfSlot slot) * 1000) else none
  let s := s.onCard (unitOfSlot slot) fun c => { c with act := dropSlot c.act slot }
  let s := s.onSlot slot fun x => { x with run := some ⟨join, warm, join % 2 ^ 31⟩, decCount := 0 }
  ((s.put .SLOT_STAT_UNF slot baf).slotControl slot subJoin (join % 2 ^ 31) baf).egoZero slot

/-- FILTER is formed with the stamp of the end of warm-up (R143). -/
def State.formFilter (s : State) (slot e : Nat) : State :=
  let s := s.onSlot slot fun x => { x with run := x.run.map fun r => { r with warmEnd := none } }
  (s.put .SLOT_STAT_UNF slot false).slotControl slot subFilter (e % 2 ^ 31) false

/-- A run ends with HEAD_LEAVE (R143, R150). -/
def State.endRun (s : State) (slot : Nat) (lost : Bool) : State :=
  match (s.slot slot).run with
  | none => s
  | some r =>
    let s := (s.onSlot slot fun x => { x with run := none }).put .SLOT_STAT_UNF slot false
    s.slotControl slot subLeave (r.lastStamp + (if lost then 2 ^ 31 else 0)) false

/-- The events lost while a slot was stopped become one UPSTREAM marker with SRC 2 (R146). -/
def State.flushStopped (s : State) (slot : Nat) : State :=
  match (s.slot slot).stopped, s.route slot with
  | some (n, first), some q => if n = 0 then s else s.offerGap q slot 2 n first
  | _, _ => s

/-- The head of a slot has left or is lost (R108, R143, R146). -/
def State.leaveSlot (s : State) (slot : Nat) (lost : Bool) : State :=
  let s := (s.flushStopped slot).onSlot slot fun x => { x with stopped := x.stopped.map fun _ => (0, 0) }
  s.endRun slot lost

/-- An uncorrectable error of a slot's tables (R146). -/
def State.tableError (s : State) (slot addr : Nat) : State :=
  let s := (s.endRun slot true).onSlot slot fun x => { x with stopped := some (x.stopped.getD (0, 0)), reloaded := false }
  (s.recordTo 0 0 .cardTblUe slot [addr]).kerbUpdate

/-- The firmware has reloaded a stopped slot's tables (R146). DEDUCED: it resumes with its next burst, and what is left of a
burst in progress is still counted. -/
def State.reloadSlot (s : State) (slot : Nat) : State :=
  if (s.slot slot).stopped.isNone then s
  else
    (s.onSlot slot fun x => { x with reloaded := true }).onCard (unitOfSlot slot) fun c => { c with act := dropSlot c.act slot }

/-- A stopped slot resumes (R146): the marker of the lost events is written, before the HEAD_JOIN of the new run. -/
def State.resumeSlot (s : State) (slot : Nat) : State :=
  ((s.flushStopped slot).onSlot slot fun x => { x with stopped := none, reloaded := false }).kerbUpdate

/-- Count events of a stopped slot, with the stamp of the first. -/
def State.countStopped (s : State) (slot n stamp : Nat) : State :=
  s.onSlot slot fun x => { x with stopped := x.stopped.map fun p => (min (p.1 + n) 0xFFFFF, if p.1 = 0 then stamp else p.2) }

/-! ### Stages (Table CD-1) -/

/-- T of R138, in microseconds. -/
def State.eventTime (s : State) (slot interval ofs : Nat) : Int :=
  (((interval * 256 + ofs) * 1000 : Nat) + (s.slot slot).trim : Int).fdiv 1000

/-- The 31-bit stamp of a time, and the full 64-bit time (R137, R138). -/
def stamp31 (t : Int) : Nat := (t % 2 ^ 31).toNat
def time64 (t : Int) : Nat := (t % 2 ^ 64).toNat

/-- A time in units of 4 µs, as the activity words hold it. -/
def actTime (t : Int) : Nat := (t.fdiv 4 % 2 ^ 15).toNat

/-- An activity word: VALID and the time in units of 4 µs (R141). -/
def actWord (t : Int) : Nat := 2 ^ 15 + actTime t

/-- The support of an event at raw (x, y) (R141). -/
def State.support (s : State) (slot x y : Nat) (t : Int) : Nat :=
  let b := s.bafB slot
  let nx := ceilDiv (s.headW slot) b
  let ny := ceilDiv (s.headH slot) b
  let a := (s.card (unitOfSlot slot)).act
  let near := fun (c n : Nat) => ((List.range 3).map fun d => c + d).filterMap fun v => if 1 ≤ v ∧ v ≤ n then some (v - 1) else none
  let ps := (near (y / b) ny).flatMap fun j => (near (x / b) nx).map fun i => (i, j)
  (ps.filter fun p =>
    let w := Table.get 0 a (slot * 2 ^ 20 + p.2 * 1024 + p.1)
    bit w 15 && (actTime t + 2 ^ 15 - w % 2 ^ 15) % 2 ^ 15 ≤ s.rd .SLOT_BAF_WIN slot).length

/-- Write an event's time into its own block (R141). -/
def State.touch (s : State) (slot x y : Nat) (t : Int) : State :=
  let b := s.bafB slot
  s.onCard (unitOfSlot slot) fun c => { c with act := Table.set 0 c.act (slot * 2 ^ 20 + y / b * 1024 + x / b) (actWord t) }

/-- Rectified coordinates (R144); none where the event is dropped. -/
def State.rectify (s : State) (slot x y : Nat) : Option (Nat × Nat) :=
  if !s.flag .SLOT_RECT_EN slot then some (x, y)
  else
    let g := s.rectG slot
    let node := fun (i j : Nat) => Table.get 0 (s.card (unitOfSlot slot)).rect (slot * 2 ^ 20 + j * 1024 + i)
    let i := x / g
    let j := y / g
    let fx := x % g
    let fy := y % g
    let ns := [(node i j, (g - fx) * (g - fy)), (node (i + 1) j, fx * (g - fy)), (node i (j + 1), (g - fx) * fy),
      (node (i + 1) (j + 1), fx * fy)]
    if ns.any fun p => bits p.1 0 16 == 0xFFFF || bits p.1 16 16 == 0xFFFF then none
    else
      let sum := fun (lo : Nat) => (ns.map fun p => bits p.1 lo 16 * p.2).sum
      let rx := (rneDiv (sum 0) (g * g * 32)).toNat
      let ry := (rneDiv (sum 16) (g * g * 32)).toNat
      if rx < s.headW slot ∧ ry < s.headH slot then some (rx, ry) else none

/-- The Kerb copy goes to every Kerb unit (R137, R303). -/
def State.kerbCopy (s : State) (slot x y : Nat) (pol : Bool) (t : Int) : State :=
  let c : KCopy := ⟨slot, x, y, pol, time64 t, s.flag .SLOT_STAT_UNF slot⟩
  s.onKcopies fun k => (List.range 8).foldl (fun k u => Table.upd [] k u (· ++ [c])) k

/-- A carding counter. -/
def State.cardCount (s : State) (u i : Nat) : State := s.count .CARD_CNT (6 * u + i)

/-- Stages 6 to 8 (R147 to R149). -/
def State.cardOffer (s : State) (slot interval x y : Nat) (pol : Bool) (t : Int) (ptrBad : Bool) : State :=
  let u := unitOfSlot slot
  if x < s.rd .SLOT_ROI_X0 slot ∨ s.rd .SLOT_ROI_X1 slot < x ∨ y < s.rd .SLOT_ROI_Y0 slot ∨ s.rd .SLOT_ROI_Y1 slot < y then
    s.cardCount u 3
  else
    let k := s.rd .SLOT_DEC_SP slot
    let n := (s.slot slot).decCount
    let s := s.onSlot slot fun z => { z with decCount := (n + 1) % (s.rd .SLOT_DEC_N slot + 1) }
    if n ≠ 0 then s.cardCount u 4
    else match s.route slot with
      | none => s
      | some q =>
        let st := stamp31 t
        let (wrote, s) := (s.upset q ptrBad).offerEvent q (evRecord pol slot (x / 2 ^ k) (y / 2 ^ k) st) t (interval % 16)
        s.when wrote fun s => s.onSlot slot fun z => { z with run := z.run.map fun r => { r with lastStamp := st } }

/-- Stages 3 to 8 of an event that the hot-pixel mask passed. -/
def State.cardFilter (s : State) (slot interval x y : Nat) (pol : Bool) (t : Int) (ptrBad : Bool) : State :=
  let u := unitOfSlot slot
  let raw := s.flag .CARD_CTRL_KCOPY_RAW u
  let s := s.when raw fun s => s.kerbCopy slot x y pol t
  let pass := s.flag .SLOT_STAT_UNF slot || !s.flag .SLOT_BAF_EN slot || s.rd .SLOT_BAF_MIN slot ≤ s.support slot x y t
  let s := s.touch slot x y t
  if !pass then s.cardCount u 1
  else match s.rectify slot x y with
    | none => s.cardCount u 2
    | some (rx, ry) =>
      let s := s.when (!raw) fun s => s.kerbCopy slot rx ry pol t
      s.cardOffer slot interval rx ry pol t ptrBad

/-- One pixel event of a slot in its interval (R136). The word: polarity [30], X [29:19], Y [18:8], OFS [7:0]. -/
def State.cardPixel (s : State) (slot interval w : Nat) (ecc : EccResult) (ptrBad : Bool) : State :=
  let u := unitOfSlot slot
  let s := s.when (ecc == .corrected) fun s => s.cardCount u 5
  let t := s.eventTime slot interval (bits w 0 8)
  if (s.slot slot).stopped.isSome then s.countStopped slot 1 (stamp31 t)
  else
    let s := s.when (s.slot slot).run.isNone fun s => s.startRun slot interval
    match ecc with
    | .uncorrectable a => (s.tableError slot a.toNat).countStopped slot 1 (stamp31 t)
    | _ =>
      let s := match (s.slot slot).run.bind RunSt.warmEnd with
        | some e => if e ≤ t then s.formFilter slot e else s
        | none => s
      let x := bits w 19 11
      let y := bits w 8 11
      if (s.card u).hot.contains (slot, x, y) then s.cardCount u 0 else s.cardFilter slot interval x y (bit w 30) t ptrBad

/-- A word that is no pixel event, in its turn. -/
def State.cardOther (s : State) (c : CardWord) : State :=
  match c with
  | .pixel _ _ _ => s
  | .opened slot i =>
    let x := s.slot slot
    if x.stopped.isSome then (if x.reloaded then (s.resumeSlot slot).startRun slot i else s)
    else if x.run.isSome then s else s.startRun slot i
  | .left slot lost => s.leaveSlot slot lost
  | .loss slot src n first =>
    match s.route slot with
    | some q => s.offerGap q slot src n first
    | none => s

/-- A word that is no pixel event. -/
def CardWord.other : CardWord → Bool
  | .pixel _ _ _ => false
  | _ => true

/-- The words before the next pixel event are taken in their order. -/
def State.cardDrain (s : State) (u : Nat) : State :=
  let now := (s.card u).inbox.takeWhile CardWord.other
  if now.isEmpty then s
  else
    let s := s.onCard u fun c => { c with inbox := c.inbox.dropWhile CardWord.other }
    s.each now State.cardOther

/-- A carding unit takes words: its domain is on and it is not fenced (R19, R542). -/
def State.cardLive (s : State) (u : Nat) : Bool := s.domOn (wlDomain u) && !Table.get false s.cardFenced u

/-- A port hands a word to its carding unit (R86). -/
def State.cardEnter (s : State) (u : Nat) (c : CardWord) : State :=
  if !s.cardLive u then s else (s.onCard u fun x => { x with inbox := x.inbox ++ [c] }).cardDrain u

/-! ### The commands -/

/-- CARD_EVENT: the unit takes its next pixel event. -/
def execCardEvent (u : Fin 8) (ecc : EccResult) (ptrBad : Bool) (s : State) : Out :=
  if !s.cardLive u.val then done s
  else
    let s := s.cardDrain u.val
    match (s.card u.val).inbox with
    | .pixel slot i w :: t =>
      let s := s.onCard u.val fun c => { c with inbox := t }
      done ((s.cardPixel slot i w.toNat ecc ptrBad).cardDrain u.val)
    | _ => done s

/-- WARMUP_END_TIMEOUT (R143): Waytime has reached the end of warm-up plus 2.5 ms. -/
def execWarmupEndTimeout (slot : Fin 256) (s : State) : Out :=
  match (s.slot slot.val).run.bind RunSt.warmEnd with
  | some e => if s.cardLive (unitOfSlot slot.val) && e + 2500 ≤ s.nowUs then done (s.formFilter slot.val e) else done s
  | none => done s

/-- BAF_SCRUB (R142): VALID is cleared in every word older than 65,536 µs. DEDUCED: a word up to 1,024 µs ahead of Waytime, which
a trim makes possible, is not old. -/
def execBafScrub (u : Fin 8) (s : State) : Out :=
  let n := s.nowUs / 4
  done (s.onCard u.val fun c =>
    { c with act := c.act.foldl (fun t e =>
        let age := (n + 2 ^ 15 - e.2 % 2 ^ 15) % 2 ^ 15
        if bit e.2 15 && 16384 < age && age < 2 ^ 15 - 256 then Table.set 0 t e.1 (e.2 % 2 ^ 15) else t) c.act })

end Sys2Proof.Machine
end

