-- ==== Sys2Proof/Machine/Kerb.lean ====
section
/-!
DEFINITION. The commands of the Kerb (`spec/11_kerb_and_deadlines.md` R303 to R329; pose frames R519, R520 of
`spec/18_aux_signals.md`), with KERB_LOAD and KERB_RESET of the command catalogue.
-/
namespace Sys2Proof.Machine

/-! ### Counting (R305 to R308) -/

/-- A copy falls inside a mask rectangle of its slot. -/
def State.masked (s : State) (c : KCopy) : Bool :=
  s.maskOn && s.kerb.rects.any fun r =>
    r.slot == c.slot && decide (r.x0 ≤ c.x) && decide ((c.x : Int) ≤ r.x1) && decide (r.y0 ≤ c.y) && decide ((c.y : Int) ≤ r.y1)

/-- A rectangle matches a copy (R305). -/
def State.rectHits (s : State) (c : KCopy) (i : Nat) : Bool :=
  s.rd .ZR_SLOT i == c.slot && s.rd .ZR_X0 i ≤ c.x && c.x ≤ s.rd .ZR_X1 i && s.rd .ZR_Y0 i ≤ c.y && c.y ≤ s.rd .ZR_Y1 i

/-- The zones of a unit in which a copy counts, each once (R305, R311). -/
def State.zonesHit (s : State) (unit : Nat) (c : KCopy) : List Nat :=
  let m := s.masked c
  ((((s.rectsOf unit).filter (s.rectHits c)).map s.rectZone).dedup).filter fun z =>
    s.flag .ZONE_EN z && !(m && s.flag .ZONE_MASKABLE z)

/-- The four reflex holds of a zone, as present or not. -/
def State.reflexBits (s : State) (z : Nat) : List Bool :=
  let x := s.zone z
  let h := s.rd .ZONE_HOLD z
  [x.stop, x.slow, x.apStop, x.apSlow].map fun d => d.active h s.raw

/-- A DENSITY or APPROACH demand has begun in one of the zones (Table PW-6). -/
def reflexBegan (a b : State) (zs : List Nat) : Bool :=
  zs.any fun z => ((a.reflexBits z).zip (b.reflexBits z)).any fun p => !p.1 && p.2

/-- One copy counts in the zones it hits: bins, thresholds, approach pairs, the KERB wake source. -/
def State.countCopy (s : State) (unit : Nat) (zs : List Nat) : State :=
  let r := zs.foldl
    (fun (a : State × List Nat) z =>
      let s := a.1.onZone z fun x => (x.roll (a.1.binNow z)).hit
      let (s, rose) := s.densityTest z
      (s, if rose then z :: a.2 else a.2)) (s, [])
  let t := r.1.approach unit r.2
  t.when (reflexBegan s t ((List.range 64).map (zoneIdx unit))) fun t => t.raiseWake 2

/-- KERB_COPY_COUNT. -/
def execKerbCopyCount (unit : Fin 8) (s : State) : Out :=
  if !s.domOn pdKerb then done s
  else match Table.get [] s.kcopies unit.val with
    | [] => done s
    | c :: rest =>
      let s := s.onKcopies fun t => Table.set [] t unit.val rest
      let s := s.countCopy unit.val (s.zonesHit unit.val c)
      done s.kerbUpdate

/-- BIN_BOUNDARY (R306): the oldest bin is dropped and the tests run again. -/
def execBinBoundary (unit : Fin 8) (zone : Fin 64) (s : State) : Out :=
  if !s.domOn pdKerb then done s
  else
    let z := zoneIdx unit.val zone.val
    let s := s.onZone z fun x => x.roll (s.binNow z)
    done (s.densityTest z).1.kerbUpdate

/-- HOLD_EXPIRY (R307): demands whose hold has run out are no longer present. -/
def execHoldExpiry (_unit : Fin 8) (_zone : Fin 64) (s : State) : Out := done s.kerbUpdate

/-! ### Pose samples and masks (R310, R311, R520) -/

/-- The nine or three little-endian FP32 words of a frame from byte `o`. -/
def frameWords (f : List Byte) (o n : Nat) : List Nat := (List.range n).map fun i => leAt f (o + 4 * i) 4

/-- A pose frame reaches the hub (R520); only the stream that MASK_SRC names does. -/
def State.poseFrame (s : State) (src : Nat) (f : List Byte) : State :=
  if s.rd .KRB_MASK_SRC ≠ src ∨ !s.domOn pdKerb then s
  else
    let cnt := fun (s : State) i => if src < 8 then s.count .SPI_CNT (4 * src + i) else s
    let vt := leAt f 4 8
    let p : Pose := ⟨true, vt, frameWords f 12 9, frameWords f 48 3⟩
    if leAt f 0 2 ≠ 0xA5E1 ∨ leAt f 60 4 ≠ crc32 (f.take 60) then
      ((cnt s 1).onKerb fun k => { k with pose := some { p with good := false } }).kerbUpdate
    else if (match s.kerb.goodVt with | some g => decide (vt ≤ g) | none => false) then cnt s 2
    else
      let q := leAt f 2 2
      let jump := match s.kerb.poseSeq with | some o => q != (o + 1) % 2 ^ 16 | none => false
      let s := if jump then cnt s 3 else s
      (s.onKerb fun k => { k with pose := some p, goodVt := some vt, poseSeq := some q }).kerbUpdate

/-- POSE_FRAME_RX. -/
def execPoseFrameRx (src : Fin 12) (frame : List Byte) (s : State) : Out := checked (frame.length == 64) <| done (s.poseFrame src.val frame)

/-- The eight corners of a tool box grown by PAD on every side (R310, step 1). -/
def boxCorners (b : List Int) (pad : Int) : List (List FVal) :=
  let g := fun i => (b[i]?).getD 0
  [g 0 - pad, g 1 + pad].flatMap fun x => [g 2 - pad, g 3 + pad].flatMap fun y => [g 4 - pad, g 5 + pad].map fun z =>
    [fInt x, fInt y, fInt z]

/-- A corner in a head's image, or none below 100 mm (R310, steps 2 and 3): from the tool flange to the cell frame, by the
head's base pose back to the head frame, and through FX, FY, CX, CY. `cp` is the copy taken at arming. -/
def projectCorner (p : Pose) (cp : List Nat) (v : List FVal) : Option (FVal × FVal) :=
  let w := fun i => f32 ((cp[i]?).getD 0)
  let add := fun (a b : List FVal) => (a.zip b).map fun q => fadd q.1 q.2
  let cell := add (fmatvec (p.rot.map f32) v) (p.trn.map f32)
  let br := (List.range 9).map fun i => w (4 + i)
  let bt := (List.range 3).map fun i => fneg (w (13 + i))
  match fmatvec (ftranspose br) (add cell bt) with
  | [x, y, z] =>
    if fle (fInt 100) z then some (fadd (fmul (fdiv x z) (w 0)) (w 2), fadd (fmul (fdiv y z) (w 1)) (w 3)) else none
  | _ => none

/-- The ceiling of a finite value. -/
def fceil : FVal → Option Int
  | .fin q => some q.ceil
  | _ => none

/-- The bounding rectangle of a box in a head's image, rounded outward (R310, step 4). -/
def boxRect (p : Pose) (slot : Nat) (c : List Nat) (pad : Int) (b : List Int) : Option MaskRect :=
  let ps := (boxCorners b pad).map (projectCorner p c)
  let us := ps.filterMap fun o => o.map Prod.fst
  let vs := ps.filterMap fun o => o.map Prod.snd
  let lo := fun (l : List FVal) => (l.filterMap ffloor).min?
  let hi := fun (l : List FVal) => (l.filterMap fceil).max?
  if us.length ≠ 8 then none
  else match lo us, hi us, lo vs, hi vs with
    | some x0, some x1, some y0, some y1 => some ⟨slot, x0, x1, y0, y1⟩
    | _, _, _, _ => none

/-- The mask rectangles of a good newest sample (R310). -/
def State.maskRects (s : State) (p : Pose) : List MaskRect :=
  s.kerb.poseCopy.flatMap fun e => s.kerb.boxes.filterMap (boxRect p e.1 e.2 (s.rd .KRB_MASK_PAD))

/-- MASK_RECT_COMPUTE. -/
def execMaskRectCompute (s : State) : Out :=
  match s.kerb.pose with
  | some p => if p.good then done (s.onKerb fun k => { k with rects := s.maskRects p }).kerbUpdate else done s
  | none => done s

/-- MASK_AGE_EXPIRY (R311). -/
def execMaskAgeExpiry (s : State) : Out := done s.kerbUpdate

/-! ### Latches and deadline slots (R312 to R319) -/

/-- LATCH_AGE (R313). -/
def execLatchAge (z : Fin 512) (s : State) : Out :=
  if s.activeLatches.contains z.val then done (s.ageLatch z.val).kerbUpdate else done s

/-- A late-log entry; a full log loses it (Table KB-6). -/
def State.lateEntry (s : State) (e : LateEnt) : State :=
  if 64 ≤ s.kerb.lateLog.length then s.count .KRB_CNT 4
  else s.onKerb fun k => { k with lateLog := k.lateLog ++ [e] }

/-- The values a slot was armed with. -/
def State.armedSlot (s : State) (d : Nat) : ArmedSlot := Table.get {} s.kerb.slots d

/-- A latch becomes STOP with reason LATE; its window becomes the larger one (R316). -/
def State.lateLatch (s : State) (win z : Nat) : State :=
  let l := s.latch z
  s.setLatch z 2 2 (max l.win win) l.stamp

/-- A slot fires (R316), and its invocation is claimed DL_MISSED (R342). -/
def State.fireSlot (s : State) (d : Nat) : State :=
  let a := s.armedSlot d
  let act := max a.act (s.rd .VS_MINACT a.vset)
  let s := s.wr .SLOT_CTRL_STATE d 3
  let s := s.lateEntry ⟨d, s.rd .SLOT_CTRL_GEN d, a.win, s.now % 2 ^ 32⟩
  let lat := s.activeLatches
  let s := match act with
    | 0 => s.count .KRB_CNT 2
    | 1 => s.each (lat.filter (s.inSet a.vset)) fun s z => s.lateLatch a.win z
    | _ => s.each lat fun s z => s.lateLatch a.win z
  s.claimMissed d (s.rd .SLOT_CTRL_GEN d) a.dl

/-- A slot is due: ARMED and WT64 greater than DL (R316). -/
def State.due (s : State) (d : Nat) : Bool := s.rd .SLOT_CTRL_STATE d == 1 && (s.armedSlot d).dl < s.now

/-- The ARMED slots, ascending. -/
def State.armedSlots (s : State) : List Nat :=
  (s.regs.filter fun e => keyField e.1 == Reg.SLOT_CTRL_STATE.ctorIdx && e.2 == 1).map fun e => e.1 % 2 ^ 24

/-- Steps 1 and 2 of R319: ageing, then every slot that is due fires. -/
def State.hubSteps (s : State) : State :=
  let s := s.each s.activeLatches State.ageLatch
  s.each (s.armedSlots.filter s.due) State.fireSlot

/-- DEADLINE_FIRE (R316, R319). -/
def execDeadlineFire (slot : Fin 1024) (s : State) : Out :=
  let s := s.each s.activeLatches State.ageLatch
  if s.due slot.val then done (s.fireSlot slot.val).kerbUpdate else done s.kerbUpdate

/-- Arm a slot with the fields it holds (R314, R315). -/
def State.armSlot (s : State) (d dl win act vset spur : Nat) : State :=
  let s := (((s.wr64 .DL_LO .DL_HI d dl).wr .SLOT_WIN d win).wr .SLOT_CTRL_ACT d act).wr .SLOT_CTRL_VSET d vset
  let s := ((s.wr .SLOT_CTRL_SPUR d spur).wr .SLOT_CTRL_GEN d (s.rd .SLOT_CTRL_GEN d + 1)).wr .SLOT_CTRL_STATE d 1
  s.onKerb fun k => { k with slots := Table.set {} k.slots d ⟨dl, win, vset, act, spur⟩ }

/-- SLOT_ARM (R314, R315): a write of SLOT_CTRL by Spur 0's firmware; an ARMED slot refuses it. One without ARM only sets the
fields. -/
def execSlotArm (who : Agent) (slot : Fin 1024) (w : Word) (s : State) : Out :=
  match s.letIn who .SLOT_CTRL_ARM slot.val with
  | .error s => done s
  | .ok s =>
    let d := slot.val
    let spur0 := match who with | .fw c => c.val / 2 == 0 | .host _ _ => false
    let act := bits w.toNat 1 2
    if !spur0 then done s
    else if act = 3 then done (s.record 0 .regRsvd (regionOf 0x70000) [0x7000C + 16 * d])
    else if s.rd .SLOT_CTRL_STATE d = 1 then done (s.count .KRB_CNT 6)
    else if !bit w.toNat 0 then
      done (((s.wr .SLOT_CTRL_ACT d act).wr .SLOT_CTRL_VSET d (bits w.toNat 3 6)).wr .SLOT_CTRL_SPUR d (bits w.toNat 9 3))
    else done (s.armSlot d (s.rd64 .DL_LO .DL_HI d) (s.rd .SLOT_WIN d) act (bits w.toNat 3 6) (bits w.toNat 9 3))

/-- The verdict code of a zone in a record. -/
def verdictCode (r : List Byte) (z : Nat) : Nat := bits (byteAt r (16 + z / 4)) (2 * (z % 4)) 2

/-- A reserved bit or code is set (R317, check 1). DEDUCED: the check comes before the slot's set is known, so it looks at the code of
every zone; a code other than 0b11 of a zone outside the set is ignored. -/
def verdictBad (r : List Byte) : Bool :=
  bits (leAt r 0 2) 10 6 != 0 || byteAt r 3 != 0 || leAt r 8 8 != 0 || (List.range 512).any fun z => verdictCode r z == 3

/-- An on-time verdict of window `w` sets a latch, or counts in VP_OLDWIN (R318). -/
def State.applyVerdict (s : State) (w code z : Nat) : State :=
  let l := s.latch z
  if l.win < w ∨ (w = l.win ∧ s.rd .LATCH_REASON z = 1) then
    (s.setLatch z code 1 w s.now).put .LATCH_LATE_SEEN z false
  else s.count .KRB_CNT 7

/-- The checks of R317 in order: 0 for a record that passes, else the number of the check. -/
def State.verdictCheck (s : State) (core : Nat) (r : List Byte) : Nat :=
  let d := bits (leAt r 0 2) 0 10
  let a := s.armedSlot d
  let st := s.rd .SLOT_CTRL_STATE d
  if verdictBad r then 1
  else if st = 0 ∨ s.rd .SLOT_CTRL_GEN d ≠ byteAt r 2 then 2
  else if core / 2 ≠ a.spur then 3
  else if leAt r 4 4 ≠ a.win then 4
  else if st = 2 then 5
  else if st = 3 then 6
  else 0

/-- VERDICT_COMMIT (R317 to R319, R342). -/
def execVerdictCommit (core : Fin 16) (rec : List Byte) (s : State) : Out := checked (rec.length == 144) <|
  let s := s.hubSteps
  let d := bits (leAt rec 0 2) 0 10
  let a := s.armedSlot d
  let k := s.verdictCheck core.val rec
  let s := s.emit (.vpStatus core.val k)
  let s := match k with
    | 0 =>
      let s := s.each (s.setZones a.vset) fun s z => s.applyVerdict a.win (verdictCode rec z) z
      (s.wr .SLOT_CTRL_STATE d 2).claimOk d (byteAt rec 2)
    | 6 =>
      let s := (s.count .KRB_CNT 1).lateEntry ⟨d, byteAt rec 2, a.win, s.now % 2 ^ 32⟩
      s.each (s.setZones a.vset) fun s z => s.put .LATCH_LATE_SEEN z true
    | 3 => (s.count .KRB_CNT 0).isoViolation (core.val / 2) isoVerdict d
    | _ => s.count .KRB_CNT 0
  done s.kerbUpdate

/-! ### KRB_RESET (R319 step 5, R322, Table KB-4) -/

/-- A latched fault may be cleared by KRB_RESET now. -/
def State.faultClears (s : State) (readback : Bool) (code : Nat) : Bool :=
  let off := !s.flag .KRB_FB_POL
  match code with
  | 5 => readback
  | 6 => true
  | 7 => (!s.flag .KRB_FB_FBA_EN || s.kerb.fbA == off) && (!s.flag .KRB_FB_FBB_EN || s.kerb.fbB == off)
  | 8 => s.kerb.estopLowSeen && s.kerb.estopA && s.kerb.estopB
  | _ => false

/-- KRB_FAULT holds the first of the faults that are latched. -/
def State.showFault (s : State) : State :=
  match s.kerb.faults with
  | [] => (s.wr .KRB_FAULT_CODE 0 0).wr .KRB_FAULT_UNIT 0 0
  | f :: _ => (s.wr .KRB_FAULT_CODE 0 f.1).wr .KRB_FAULT_UNIT 0 f.2

/-- The effect of KRB_RESET after steps 1 to 4 of R319. -/
def State.kerbReset (s : State) (readback : Bool) : State :=
  let s := s.hubSteps.kerbUpdate
  let busy := s.kerb.liveStop &&& s.rd .KRB_OUT_MANUAL != 0
  let s := s.when busy fun s => s.count .KRB_CNT 5
  let clears := s.faultClears readback
  let s := s.onKerb fun k =>
    { k with
      manual := k.manual &&& k.liveStop
      estop := k.estop && !(k.estopA && k.estopB)
      faults := k.faults.filter fun f => !clears f.1 }
  s.showFault.kerbUpdate

/-- A write to KRB_RESET. -/
def execKrbReset (who : Agent) (readback : Bool) (s : State) : Out :=
  match s.letIn who .KRB_RESET 0 with
  | .error s => done s
  | .ok s => done (s.kerbReset readback)

/-- KRB_STAT as one word (Table KB-6). -/
def State.krbStat (s : State) : Nat :=
  s.rd .KRB_STAT_ARMED + 2 * s.rd .KRB_STAT_FAULT + 4 * s.rd .KRB_STAT_RUN + 8 * s.rd .KRB_STAT_SLOWOUT +
    2 ^ 4 * s.rd .KRB_STAT_ZG_STOP + 2 ^ 12 * s.rd .KRB_STAT_ZG_SLOW + 2 ^ 20 * s.rd .KRB_STAT_MASK_ON

/-- The command KERB_RESET (Table MB-4). -/
def execKerbReset (mb : Fin 64) (tag : BitVec 16) (readback : Bool) (s : State) : Out :=
  s.runCmd mb tag 0x21 false fun s c =>
    let s := s.kerbReset readback
    s.finish mb.val c 0 0 s.krbStat

/-! ### Safety inputs (R324, R325) -/

/-- ESTOP_INPUT_CHANGE. -/
def execEstopInputChange (i : Side) (high : Bool) (s : State) : Out :=
  done (s.onKerb fun k =>
    let k := match i with
      | .a => if k.estopA = high then k else { k with estopA := high, estopASince := s.raw }
      | .b => if k.estopB = high then k else { k with estopB := high, estopBSince := s.raw }
    { k with
      estopDiff := if k.estopA = k.estopB then none else some (k.estopDiff.getD s.raw)
      estopLowSeen := k.estopLowSeen || (!k.estopA && !k.estopB) })

/-- ESTOP_FILTER_EXPIRY: an input low for ESTOP_FILT µs sets the latch. -/
def execEstopFilterExpiry (i : Side) (s : State) : Out :=
  let (lvl, since) := match i with
    | .a => (s.kerb.estopA, s.kerb.estopASince)
    | .b => (s.kerb.estopB, s.kerb.estopBSince)
  if !lvl && s.domOn pdKerb && since + s.rd .KRB_ESTOP_FILT * 1000 ≤ s.raw then
    done (s.onKerb fun k => { k with estop := true }).kerbUpdate
  else done s

/-- ESTOP_DISC_TIMEOUT: the inputs have differed for more than ESTOP_DISC × 10 ms. -/
def execEstopDiscTimeout (s : State) : Out :=
  match s.kerb.estopDiff with
  | some t => if t + s.rd .KRB_ESTOP_DISC * 10 ^ 7 < s.raw then done (s.kerbFault 8 0) else done s
  | none => done s

/-- FEEDBACK_INPUT_CHANGE. -/
def execFeedbackInputChange (i : Side) (high : Bool) (s : State) : Out :=
  done (s.onKerb fun k => match i with
    | .a => { k with fbA := high }
    | .b => { k with fbB := high }).kerbUpdate

/-- FEEDBACK_TIMEOUT: away from the expected level for more than FB_T ms. -/
def execFeedbackTimeout (i : Side) (s : State) : Out :=
  match (match i with | .a => s.kerb.fbAAway | .b => s.kerb.fbBAway) with
  | some t => if t + s.rd .KRB_FB_T * 10 ^ 6 < s.raw then done (s.kerbFault 7 0) else done s
  | none => done s

/-! ### Dark tests and readback (R326) -/

/-- A dark test is running on an output. -/
def State.inDark (s : State) (o : Nat) : Bool := s.kerb.dark.any fun e => e.1 == o

/-- DARK_TEST_START: only while the output is energised; SSTOP_A and SSTOP_B are never tested at the same time. -/
def execDarkTestStart (o : SafeOut) (s : State) : Out :=
  if o.val < 2 && s.inDark (1 - o.val) then done s
  else if bit s.kerb.out o.val && !s.inDark o.val && s.domOn pdKerb then
    let s := s.onKerb fun k => { k with dark := Table.insert k.dark o.val s.raw }
    done (s.emit (.safetyOut (s.driven s.kerb.out)))
  else done s

/-- DARK_TEST_SAMPLE: a ball without the stop level is DARK_FAIL. -/
def execDarkTestSample (o : SafeOut) (stopLevel : Bool) (s : State) : Out :=
  if s.inDark o.val && !stopLevel then done (s.kerbFault 6 0) else done s

/-- DARK_TEST_END: the output returns to its commanded state. -/
def execDarkTestEnd (o : SafeOut) (s : State) : Out :=
  if s.inDark o.val then
    let s := s.onKerb fun k => { k with dark := Table.erase k.dark o.val }
    done (s.emit (.safetyOut (s.driven s.kerb.out)))
  else done s

/-- OUT_STUCK_TIMEOUT: outside tests only. -/
def execOutStuckTimeout (o : SafeOut) (s : State) : Out := if s.inDark o.val then done s else done (s.kerbFault 5 0)

/-! ### Faults (R304, R327) -/

/-- UNIT_LOCKSTEP. -/
def execUnitLockstep (unit : Fin 8) (s : State) : Out := done (s.kerbFault 1 unit.val)

/-- CHAN_MISMATCH. -/
def execChanMismatch (s : State) : Out := done (s.kerbFault 2 0)

/-- KERB_CFG_UE. -/
def execKerbCfgUe (s : State) : Out := done (s.kerbFault 3 0)

/-- KERB_CLOCK_LOSS. -/
def execKerbClockLoss (s : State) : Out := done (s.kerbFault 4 0)

/-! ### Arming (R328) -/

/-- The words of the configuration in register order: the Kerb fields that lock on ARMED. -/
def kerbCfgOffsets : List Nat :=
  [0x60020, 0x60024, 0x60028, 0x6002C, 0x60030] ++ (List.range 16).map (fun t => 0x60040 + 4 * t) ++
    (List.range 8).flatMap (fun u =>
      (List.range 64).flatMap (fun z => [0x61000 + u * 0x1000 + z * 0x10, 0x61004 + u * 0x1000 + z * 0x10,
        0x61008 + u * 0x1000 + z * 0x10]) ++
      (List.range 512).map (fun w => 0x61400 + u * 0x1000 + 4 * w) ++
      (List.range 32).map (fun w => 0x61C00 + u * 0x1000 + 4 * w)) ++
    (List.range 64).flatMap (fun v => (List.range 17).map fun w => 0x69000 + v * 0x80 + 4 * w) ++
    (List.range 32).map (fun w => 0x78000 + 4 * w) ++ [0x78100]

/-- The configuration image's bytes. -/
def State.kerbImage (s : State) : List Byte := kerbCfgOffsets.flatMap fun o => leBytes 4 (s.readWord o)

/-- KRB_MASK.SRC names a pose source (R519). -/
def State.poseSource (s : State) : Bool :=
  let p := s.rd .KRB_MASK_SRC
  if p < 8 then s.flag .SPI_CFG_EN p && s.rd .SPI_CFG_KIND p == 1
  else if p < 12 then s.flag .I3C_CFG_EN (p - 8) && s.rd .I3C_DEV_KIND (8 * (p - 8)) == 1
  else false

/-- The reason to refuse an arm, in the order of R328, 0 for none. -/
def State.armRefusal (s : State) : Nat :=
  let badRect := (s.setOf .ZR_EN).any fun i => s.rd .ZR_X1 i < s.rd .ZR_X0 i || s.rd .ZR_Y1 i < s.rd .ZR_Y0 i
  let badZone := (s.setOf .ZONE_TH_SLOW).any fun z => s.rd .ZONE_TH_STOP z != 0 && s.rd .ZONE_TH_STOP z < s.rd .ZONE_TH_SLOW z
  let tools := (List.range 16).any fun t => s.rd .KRB_TOOL_CLASS t != 0 || s.rd .KRB_TOOL_VARIANT t != 0
  let raw := (List.range 8).any fun u => s.flag .CARD_CTRL_KCOPY_RAW u
  if badRect then 1
  else if badZone then 2
  else if s.sets.any fun v => s.rd .VS_MAXAGE v == 0 then 3
  else if tools && raw then 4
  else if s.flag .KRB_MASK_EN && !s.poseSource then 5
  else if s.kerb.safeStrict && s.rd .KRB_OUT_SSTOP_COVER != 0 && !(s.flag .KRB_FB_FBA_EN && s.flag .KRB_FB_FBB_EN) then 6
  else 0

/-- The intrinsics and base pose of a slot, as copied at arming (R310). -/
def State.poseOf (s : State) (slot : Nat) : List Nat :=
  [s.rd .CAL_FX slot, s.rd .CAL_FY slot, s.rd .CAL_CX slot, s.rd .CAL_CY slot] ++
    (List.range 9).map (fun i => s.rd .CAL_BR (9 * slot + i)) ++ (List.range 3).map fun i => s.rd .CAL_BT (3 * slot + i)

/-- The instructions that the TAP takes while the Kerb is armed (R534). -/
def tapAllowed : TapInstr → Bool
  | .bypass | .idcode | .sample => true
  | _ => false

/-- At arming, BYPASS replaces any other instruction in force (R534). -/
def State.tapForced (s : State) : State := if tapAllowed s.aux.tap then s else s.onAux fun a => { a with tap := .bypass }

/-- Arm the Kerb (R328): 0, or the reason of the refusal. -/
def State.armKerb (s : State) : Nat × State :=
  match s.armRefusal with
  | 0 =>
    let slots := (((s.setOf .ZR_EN).filter fun i => s.flag .ZONE_MASKABLE (s.rectZone i)).map fun i => s.rd .ZR_SLOT i).dedup
    let s := s.wr .KRB_CFGCRC 0 (crc32 s.kerbImage)
    let s := s.onKerb fun k => { k with poseCopy := slots.foldl (fun t p => Table.set [] t p (s.poseOf p)) [] }
    let s := s.each s.activeLatches fun s z => s.setLatch z 2 0 0 0
    let s := ((s.put .KRB_ARM_ARM 0 true).put .KRB_STAT_ARMED 0 true).onWl1 fun t => Table.set false t (Reg.key .KRB_ARM_ARM 0) true
    (0, s.tapForced.kerbUpdate.toolJudge)
  | r => (r, s.wr .KRB_ARM_ERR 0 r)

/-- KRB_ARM (R328): a write of Spur 0's firmware; once armed, every write is a lock violation. -/
def execKrbArm (who : Agent) (w : Word) (s : State) : Out :=
  match s.letIn who .KRB_ARM_ARM 0 with
  | .error s => done s
  | .ok s =>
    if s.armed then done (s.lockViolation who 0x60000)
    else if bit w.toNat 0 then done s.armKerb.2
    else done s

/-- KRB_LATELOG is read (R316): one entry is popped into the four words. A read of an empty log returns a value the spec
does not state. -/
def execKrbLatelogPop (who : Agent) (s : State) : Out :=
  match s.admitRead who .KRB_LATELOG 0 with
  | .error s => done s
  | .ok s =>
    match s.kerb.lateLog with
    | [] =>
      let (v, s) := s.fresh 32
      done (s.emit (.readData who v))
    | e :: t =>
      let s := s.onKerb fun k => { k with lateLog := t }
      let s := (((s.wr .KRB_LATELOG 0 e.slot).wr .KRB_LATELOG 1 e.gen).wr .KRB_LATELOG 2 e.win).wr .KRB_LATELOG 3 e.stamp
      done (s.emit (.readData who e.slot))

/-- The first reserved encoding of a list of words to be written by the firmware: its place in the list (R336). -/
def reservedIn (l : List (Nat × Nat)) : Option Nat :=
  (l.zipIdx.find? fun p =>
    let mine := (hitsAt p.1.1).filter fun h => mayWrite (.fw 0) h.reg
    wordReserved mine p.1.2 || mine.any fun h => h.reg.reserved h.idx (h.value p.1.2)).map Prod.snd

/-- KERB_LOAD (Table MB-4): refused while armed; a reserved encoding in the image writes nothing; else the image is loaded
and the Kerb is armed. -/
def execKerbLoad (mb : Fin 64) (tag : BitVec 16) (image : List Word) (s : State) : Out :=
  s.runCmd mb tag 0x20 true fun s c =>
    let core : Agent := .fw ⟨s.mbCore mb.val % 16, Nat.mod_lt _ (by decide)⟩
    let l := kerbCfgOffsets.zip (image.map BitVec.toNat)
    if s.armed then (s.lockViolation core 0x60020).finish mb.val c 5 0x60020 0
    else match reservedIn l with
      | some i => s.finish mb.val c 0x11 (4 * i) 0
      | none =>
        let s := s.each l fun s p => (s.applyWord core p.1 p.2).2
        let s := s.each (s.kerb.zones.map Prod.fst) State.zoneSettings
        match s.armKerb with
        | (0, s) => s.finish mb.val c 0 0 (s.rd .KRB_CFGCRC)
        | (r, s) => s.finish mb.val c 0x28 r 0

end Sys2Proof.Machine
end

