-- ==== Sys2Proof/Machine/Mailbox.lean ====
section
/-!
DEFINITION. The mailboxes (`spec/12_mailboxes_and_operators.md` R331 to R348, R361): enabling, doorbells, the fetch and its
checks, timeouts, the failure of a core, and the commands NOP, GET_INFO, PTP_CFG and PTP_STAT.
-/
namespace Sys2Proof.Machine

/-! ### Enable, disable and doorbells -/

/-- A mailbox may serve: the firmware does, and its Spur is not held (R349, R547). -/
def State.mbServed (s : State) (mb : Nat) : Bool :=
  s.ngxServing && (mb / 8 == 0 || s.rd .SPUR_STATE (mb / 8) < 3)

/-- An enabled mailbox in WAIT_FW goes to RUN once it may be served. -/
def State.mbWake (s : State) : State :=
  s.each (List.range 64) fun s mb =>
    if s.flag .MB_CFG_EN mb && s.rd .MB_STAT_STATE mb == 1 && s.mbServed mb then s.setMbState mb 2 else s

/-- The indices of both rings go to 0, and the phase with them (R332). -/
def State.mbRings (s : State) (mb : Nat) : State :=
  (((s.wr .MB_SQ_HEAD mb 0).wr .MB_SQ_TAIL mb 0).wr .MB_CQ_HEAD mb 0).wr .MB_CQ_TAIL mb 0

/-- MB_ENABLE (R332): the other fields of MB_CFG first; a reserved encoding discards the write. -/
def execMbEnable (who : Agent) (mb : Fin 64) (w : Word) (s : State) : Out :=
  let mb := mb.val
  match s.letIn who .MB_CFG_EN mb with
  | .error s => done s
  | .ok s =>
    match s.applyWord who (Reg.MB_CFG_EN.offset mb) w.toNat with
    | (false, s) => done s
    | (true, s) =>
      let was := s.flag .MB_CFG_EN mb
      let s := ((s.put .MB_CFG_EN mb true).mbRings mb)
      let s := if was || s.rd .MB_STAT_STATE mb = 6 then s else s.setMbState mb (if s.mbServed mb then 2 else 1)
      done (s.spurRefresh (mb / 8))

/-- MB_DISABLE (R361): fetching stops; the commands in flight run to completion. -/
def execMbDisable (who : Agent) (mb : Fin 64) (w : Word) (s : State) : Out :=
  let mb := mb.val
  match s.letIn who .MB_CFG_EN mb with
  | .error s => done s
  | .ok s =>
    match s.applyWord who (Reg.MB_CFG_EN.offset mb) w.toNat with
    | (false, s) => done s
    | (true, s) =>
      let s := s.put .MB_CFG_EN mb false
      let s := if s.rd .MB_STAT_STATE mb = 6 then s else s.setMbState mb (if s.cmds mb = [] then 0 else 4)
      done (s.spurRefresh (mb / 8))

/-- An invalid doorbell write (R333). -/
def State.dbErr (s : State) (mb : Nat) : State := (s.put .MB_STAT_DB_ERR mb true).count .MB_CNT (6 * mb + 3)

/-- The distance of two free-running 16-bit indices. -/
def idxDiff (a b : Nat) : Nat := (a + 2 ^ 16 - b % 2 ^ 16) % 2 ^ 16

/-- A write of MB_SQ_DB (R333); a valid doorbell is wake source 6 (R431). -/
def State.sqDoorbell (s : State) (who : Agent) (mb v : Nat) : State :=
  match s.letIn who .MB_SQ_DB mb with
  | .error s => s
  | .ok s =>
    let n := 2 ^ s.rd .MB_CFG_SQ_LOG2 mb
    if s.flag .MB_CFG_EN mb && idxDiff v (s.rd .MB_SQ_HEAD mb) ≤ n && idxDiff v (s.rd .MB_SQ_TAIL mb) ≤ n then
      (s.wr .MB_SQ_TAIL mb v).raiseWake 6
    else s.dbErr mb

/-- MB_SQ_DB. -/
def execMbSqDb (who : Agent) (mb : Fin 64) (v : BitVec 16) (s : State) : Out := done (s.sqDoorbell who mb.val v.toNat)

/-- MB_CQ_DB (R333). -/
def execMbCqDb (who : Agent) (mb : Fin 64) (v : BitVec 16) (s : State) : Out :=
  let mb := mb.val
  match s.letIn who .MB_CQ_DB mb with
  | .error s => done s
  | .ok s =>
    let t := s.rd .MB_CQ_TAIL mb
    if s.flag .MB_CFG_EN mb && idxDiff t v.toNat ≤ idxDiff t (s.rd .MB_CQ_HEAD mb) then done (s.wr .MB_CQ_HEAD mb v.toNat)
    else done (s.dbErr mb)

/-! ### What the settings of a configuration command may name (R336, R357) -/

/-- The part of the register map that a configuration command's operands carry settings for: WL_CFG, HEAD_CFG, EQ_CFG,
FUL_APPLY, FT_CFG, SPUR_CFG, CW_CFG. -/
def cfgRegion (op off : Nat) : Bool :=
  match op with
  | 0x40 => 0x80000 ≤ off && off < 0xC0000
  | 0x41 => 0x80000 ≤ off && off < 0x100000
  | 0x42 => (0x100000 ≤ off && off < 0x140000) || (0x309000 ≤ off && off < 0x309800)
  | 0x43 => 0x140000 ≤ off && off < 0x180000
  | 0x44 => 0x180000 ≤ off && off < 0x200000
  | 0x70 => (0x300000 ≤ off && off < 0x400000) || (0x500000 ≤ off && off < 0x600000)
  | 0x7C => 0x600000 ≤ off && off < 0x700000
  | _ => false

/-- The settings of a command as offsets and words. -/
def Cmd.pairs (c : Cmd) : List (Nat × Nat) := c.cfg.settings.map fun r => (r.off.toNat, r.w.toNat)

/-- A setting outside the command's registers, or in a reserved encoding (check 2 of R336); CW_CFG has a reason of its own for
the latter (Table CW-10). -/
def Cmd.settingsBad (c : Cmd) : Bool :=
  (c.pairs.any fun p => !cfgRegion c.op p.1 || p.1 % 4 != 0) || (c.op != 0x7C && (reservedIn c.pairs).isSome)

/-- The Spur that a setting's register belongs to, where it belongs to one. DEDUCED: FUL_CTRL is Spur 0's, a partition its
Spur's, and an enabled subscription that of the Spur that applied it. -/
def State.settingOwner (s : State) (off : Nat) : Option Nat :=
  match hitsAt off with
  | [] => none
  | h :: _ =>
    let a := h.reg.spec.base
    let u := h.idx / h.reg.perUnit
    if 0x80000 ≤ a ∧ a < 0x140000 then some (s.regOwner h.reg h.idx)
    else if 0x309000 ≤ a ∧ a < 0x309800 then some (s.eqOwner u)
    else if 0x140000 ≤ a ∧ a < 0x140010 then some 0
    else if 0x140010 ≤ a ∧ a < 0x140030 then some u
    else if 0x141000 ≤ a ∧ a < 0x150000 then (if s.flag .SUB_EN u then some (Table.get {} s.ful.subs u).spur else none)
    else if 0x180000 ≤ a ∧ a < 0x18C000 then some (s.portOwner (u / 32))
    else if 0x18C000 ≤ a ∧ a < 0x18C800 then some (s.rd .PRJ_SPUR u)
    else if 0x18D000 ≤ a ∧ a < 0x18F000 then some u
    else none

/-- The opcodes that Spur 0 alone may use (Table MB-4). -/
def spur0Ops : List Nat := [0x20, 0x21, 0x30, 0x50, 0x58, 0x59, 0x60, 0x61, 0x68, 0x70, 0x78, 0x7C]

/-- Check 4 of R336: the DETAIL of NOT_PERMITTED, if the command is not permitted. DEDUCED: an opcode of another Spur gives
operand 0. -/
def State.notPermitted (s : State) (mb : Nat) (c : Cmd) : Option Nat :=
  let sp := mb / 8
  let own := c.pairs.all fun p => match s.settingOwner p.1 with | some o => o == sp | none => true
  if c.op ∈ spur0Ops ∧ sp ≠ 0 then some 0
  else if c.op = 0x10 ∨ c.op = 0x12 then (if sp = 0 ∧ s.rd .SPUR_STATE 0 = 3 then some 0xFF else none)
  else if 0x31 ≤ c.op ∧ c.op ≤ 0x33 then (if s.rd .MS_CFG_OWNER (bits (c.opw 0) 0 10) = sp then none else some 0)
  else if c.op = 0x5A then
    if sp = 0 ∨ (!bit (c.opw 0) 0 && s.portOwner (bits (c.opw 0) 8 3) == sp) then none else some 0
  else if c.op = 0x40 then (if own && s.portOwner (c.cfg.target % 8) == sp then none else some 0)
  else if c.op = 0x41 then (if own && s.portOwner (c.cfg.target / 32 % 8) == sp then none else some 0)
  else if c.op = 0x42 then
    if own && s.eqOwner (c.cfg.target % 512) == sp then
      (if c.pairs.any fun p => (hitsAt p.1).any fun h =>
          h.reg == .EQ_MSBIND_MS && bits p.2 31 1 == 1 && s.rd .MS_CFG_OWNER (h.value p.2) != sp then some 1 else none)
    else some 0
  else if c.op = 0x43 ∨ c.op = 0x44 then (if own then none else some 0)
  else none

/-! ### The fetch (R334, R336, R339) -/

/-- The entries that the completion ring still has. -/
def State.cqFree (s : State) (mb : Nat) : Nat :=
  2 ^ s.rd .MB_CFG_CQ_LOG2 mb - idxDiff (s.rd .MB_CQ_TAIL mb) (s.rd .MB_CQ_HEAD mb)

/-- The mailbox may fetch (R334). -/
def State.mayFetch (s : State) (mb : Nat) : Bool :=
  s.domOn pdCtrl && s.flag .MB_CFG_EN mb && s.ngxServing && s.rd .MB_STAT_STATE mb == 2 &&
    s.rd .MB_SQ_HEAD mb != s.rd .MB_SQ_TAIL mb && (s.cmds mb).length < 32 && (s.cmds mb).length < s.cqFree mb &&
    (s.flag .MB_CFG_LOC mb || (s.fnExists (mb / 8) && s.mayIssue (mb / 8)))

/-- The descriptor at SQ_HEAD of a ring in LPDDR. -/
def State.ringDesc (s : State) (mb : Nat) : List Byte :=
  let a := s.rd .MB_SQ_BASE_LO mb * 2 ^ 12 + s.rd .MB_SQ_BASE_HI mb * 2 ^ 32 +
    s.rd .MB_SQ_HEAD mb % 2 ^ s.rd .MB_CFG_SQ_LOG2 mb * 64
  s.ldSpur (mb / 8) a 64

/-- Check 5 and what follows the checks: the wait is registered; a DEADLINE that has passed gives TIMEOUT at once (R339,
R340). -/
def State.fetchWait (s : State) (mb : Nat) (c : Cmd) : State :=
  if c.flagBit 0 then
    match s.msWait c.waitMs (mb / 8) c.waitH (if c.deadline = 0 then none else some c.deadline) (.cmd mb c.id) with
    | (0, s) =>
      let c' := { c with stage := .held }
      let s := s.onCmd mb c.id fun _ => c'
      if s.late c then (s.dropWaiter mb c.id).claimTimeout mb c' else s
    | (code, s) => s.complete mb c 0x14 code 0 s.now
  else if s.late c then s.claimTimeout mb c
  else s

/-- The checks of R336 in their order. -/
def State.fetchChecks (s : State) (mb : Nat) (c : Cmd) : State :=
  if c.op ∉ opcodes then s.complete mb c 0x10 c.op 0 s.now
  else match descBad c with
    | some i => s.complete mb c 0x11 i 0 s.now
    | none =>
      if c.settingsBad then
        let (v, s) := s.fresh 8
        s.complete mb c 0x11 (24 + v % 40) 0 s.now
      else if (s.cmds mb).any fun d => d.tag == c.tag && d.id != c.id then s.complete mb c 0x12 0 0 s.now
      else match s.notPermitted mb c with
        | some d => s.complete mb c 0x13 d 0 s.now
        | none => s.fetchWait mb c

/-- DESCRIPTOR_FETCH (R334): the whole descriptor is copied and SQ_HEAD advances; then the checks. -/
def execDescriptorFetch (mb : Fin 64) (desc : List Byte) (cfg : CfgOps) (s : State) : Out := checked (desc.length == 64) <|
  let mb := mb.val
  if !s.mayFetch mb then done s
  else
    let d := if s.flag .MB_CFG_LOC mb then s.ringDesc mb else desc.take 64
    let c : Cmd := { id := s.mail.nextId, tag := leAt d 2 2, desc := d, stage := .ready, cfg := cfg }
    let s := (s.onMail fun m => { m with nextId := m.nextId + 1 }).onCmds mb fun l => l ++ [c]
    let s := (s.wr .MB_SQ_HEAD mb (s.rd .MB_SQ_HEAD mb + 1)).count .MB_CNT (6 * mb + 4)
    done (s.fetchChecks mb c)

/-- COMMAND_TIMEOUT (R339, R340): a command other than INVOKE whose DEADLINE has passed. -/
def execCommandTimeout (mb : Fin 64) (tag : BitVec 16) (s : State) : Out :=
  match (s.cmds mb.val).find? fun c => c.tag == tag.toNat && s.late c with
  | none => done s
  | some c => done ((s.when (c.stage == .held) fun s => s.dropWaiter mb.val c.id).claimTimeout mb.val c)

/-! ### Core failure and migration (R346 to R348) -/

/-- The batts that an agent owns (R347). -/
def State.battsOf (s : State) (agent : Nat) : Nat :=
  let f := fun (t : Table BattSt) => (t.filter fun e => match e.2.owner with | some (a, _) => a == agent | none => false).length
  f s.ms.short + f s.ms.long

/-- The enabled mailboxes of a list take a state. -/
def State.mbStates (s : State) (l : List Nat) (st : Nat) : State :=
  s.each l fun s mb => if s.flag .MB_CFG_EN mb then s.setMbState mb st else s

/-- The sibling takes over the mailboxes that a core served (Table MB-5): begun commands end ABORTED under the new epoch,
the others are kept; a mailbox that was not RUN keeps its state. -/
def State.migrate (s : State) (core : Nat) : State :=
  let sp := core / 2
  let mbs := ((List.range 8).map (8 * sp + ·)).filter fun mb => s.mbCore mb == core
  let run := mbs.filter fun mb => s.rd .MB_STAT_STATE mb == 2
  let s := (s.mbStates run 3).raiseEpoch sp
  let s := s.each mbs fun s mb => s.abortCmds mb (fun c => c.stage == .begun) 2 1
  let s := s.each mbs fun s mb => s.wr .MB_STAT_LEAKED mb (s.rd .MB_STAT_LEAKED mb + s.battsOf core)
  (s.setBitOf .NGX_CORES_MIG 0 (sibling core)).mbStates run 2

/-- Both cores of a Spur have failed (R348). -/
def State.spurDies (s : State) (sp : Nat) : State :=
  (s.mbStates ((List.range 8).map (8 * sp + ·)) 6).recordTo 0 sp .spurDead sp []

/-- A control core fails (R346): it is fenced. -/
def State.nccFail (s : State) (core cause : Nat) : State :=
  if bit s.mail.fenced core || !s.domOn pdCtrl then s
  else
    let s := (s.onMail fun m => { m with fenced := setBit m.fenced core true }).setBitOf .NGX_CORES_LIVE 0 core false
    let s := s.wr .GLOBAL_AVAIL_NCC_LIVE 0 (16 - popcount 16 s.mail.fenced)
    let s := s.record2 (core / 2) .nccFail core [cause]
    if bit s.mail.fenced (sibling core) then s.spurDies (core / 2) else s.migrate core

/-- NCC_WATCHDOG_EXPIRY. -/
def execNccWatchdogExpiry (core : Fin 16) (s : State) : Out := done (s.nccFail core.val 1)

/-- NCC_UE. -/
def execNccUe (core : Fin 16) (s : State) : Out := done (s.nccFail core.val 2)

/-! ### NOP, GET_INFO, PTP_CFG, PTP_STAT (Table MB-4) -/

/-- Write a block whose contents the spec does not lay out to the host, and end with its length. -/
def State.hostBlock (s : State) (mb : Nat) (c : Cmd) (a n : Nat) : State :=
  let (b, s) := s.freshBytes n
  (s.post (mb / 8) (.write a b)).finish mb c 0 0 n

/-- NOP. -/
def execNop (mb : Fin 64) (tag : BitVec 16) (s : State) : Out :=
  s.runCmd mb tag 0x00 false fun s c => s.finish mb.val c 0 0 0

/-- GET_INFO: the layout of the block is not given. -/
def execGetInfo (mb : Fin 64) (tag : BitVec 16) (s : State) : Out :=
  s.runCmd mb tag 0x01 true fun s c => s.hostBlock mb.val c (c.opw 0) 256

/-- PTP_STAT: the layout of the servo record is not given. -/
def execPtpStat (mb : Fin 64) (tag : BitVec 16) (s : State) : Out :=
  s.runCmd mb tag 0x51 true fun s c => s.hostBlock mb.val c (c.opw 0) 64

/-- Settings of PTP_CFG within Table TB-4: a domain of 0 to 127, 0 for 802.1AS, and intervals from −7 to +1. -/
def ptpCfgOk (cfg : PtpSettings) : Bool :=
  let ok := fun (v : Int) => decide (-7 ≤ v) && decide (v ≤ 1)
  decide (cfg.domain.toNat ≤ if cfg.profile.val = 2 then 0 else 127) && ok cfg.logSync && ok cfg.logDelayReq

/-- PTP_CFG: profile, domain, intervals and the asymmetry of ETH0. DESIGN CHOICE: settings outside Table TB-4, for which the spec
names no status, end in CFG_ERR with a free reason. -/
def execPtpCfg (mb : Fin 64) (tag : BitVec 16) (cfg : PtpSettings) (s : State) : Out :=
  s.runCmd mb tag 0x50 false fun s c =>
    if !ptpCfgOk cfg then
      let (v, s) := s.fresh 32
      s.finish mb.val c 0x2A v 0
    else
    let s := s.onTime fun t => { t with ptp :=
      { profile := cfg.profile.val, domain := cfg.domain.toNat, logSync := cfg.logSync, logDelayReq := cfg.logDelayReq } }
    ((s.wr .ETH0_ASYM_IN 0 cfg.asymIn.toNat).wr .ETH0_ASYM_OUT 0 cfg.asymOut.toNat).finish mb.val c 0 0 0

end Sys2Proof.Machine
end

