-- ==== Sys2Proof/Machine/Surfaces.lean ====
section
/-!
DEFINITION. The surfaces of the Fuller (`spec/06_fuller_surfaces.md` R167 to R185): grids, Nap words, tile headers, the
write of an event, dirty marks, decay on read and the tile read.
-/
namespace Sys2Proof.Machine

/-! ### Subscriptions -/

/-- A subscription beyond its registers. -/
def State.sub (s : State) (i : Nat) : SubSt := Table.get {} s.ful.subs i

/-- Change a subscription. -/
def State.onSub (s : State) (i : Nat) (f : SubSt → SubSt) : State :=
  s.onFul fun x => { x with subs := Table.upd {} x.subs i f }

/-- The Fuller runs: its domain is on and the island has not failed. -/
def State.fulLive (s : State) : Bool := s.domOn pdFul && !bit s.fulFenced 0

/-- The queue of an enabled subscription. -/
def State.subQueue (s : State) (i : Nat) : Option Nat :=
  if s.flag .SUB_EN i && s.flag .SLOT_ROUTE_EN (s.rd .SUB_SLOT i) then some (s.rd .SLOT_ROUTE_EQ (s.rd .SUB_SLOT i)) else none

/-- The enabled subscriptions on a queue. -/
def State.subsOn (s : State) (q : Nat) : List Nat := (List.range 64).filter fun i => s.subQueue i == some q

/-- Q in microseconds. -/
def State.subQ (s : State) (i : Nat) : Nat := 2 ^ min (s.rd .SUB_Q i) 4

/-- BINS, stored as BINS − 1. -/
def State.subBins (s : State) (i : Nat) : Nat := s.rd .SUB_BINS i + 1

/-- Words of one buffer of a pixel of a COUNT or VOXEL surface, or of a plane of a time surface. -/
def State.bufWords (s : State) (i : Nat) : Nat := if s.rd .SUB_KIND i = 3 then ceilDiv (s.subBins i) 4 else 1

/-- WPP (Table FU-1). -/
def wpp (kind bins : Nat) : Nat :=
  match kind with
  | 0 => 1
  | 1 => 2
  | 2 => 2
  | _ => 2 * ceilDiv bins 4

/-- WPP of a subscription. -/
def State.subWpp (s : State) (i : Nat) : Nat := wpp (s.rd .SUB_KIND i) (s.subBins i)

/-- The pixel grid of a slot at decimation `d` (R168). -/
def State.gridAt (s : State) (slot d : Nat) : Nat × Nat :=
  (ceilDiv (s.headW slot) (2 ^ d), ceilDiv (s.headH slot) (2 ^ d))

/-- The pixel grid of a subscription at the decimation in use. -/
def State.subGrid (s : State) (i : Nat) : Nat × Nat := s.gridAt (s.rd .SUB_SLOT i) (s.sub i).dec

/-- TX and TY. -/
def State.subTiles (s : State) (i : Nat) : Nat × Nat := (ceilDiv (s.subGrid i).1 16, ceilDiv (s.subGrid i).2 16)

/-- The tile of a pixel, and the pixel's place in it. -/
def State.tileOf (s : State) (i x y : Nat) : Nat × Nat := (y / 16 * (s.subTiles i).1 + x / 16, y % 16 * 16 + x % 16)

/-- The Nap word of word `k` of a pixel of a tile (R168). DESIGN CHOICE: tiles in index order, pixels in raster order, the
words of a pixel together. -/
def State.napAddr (s : State) (i tile px k : Nat) : Nat :=
  s.rd .NAP_PART_FIRST (s.sub i).spur * 131072 + s.rd .SUB_NAP_OFF i * 256 + (tile * 256 + px) * s.subWpp i + k

/-- A Nap word. -/
def State.ldNap (s : State) (w : Nat) : Nat := s.ldLe .nap (2 * w) 2

/-- Store a Nap word. -/
def State.stNap (s : State) (w v : Nat) : State := s.stLe .nap (2 * w) 2 v

/-- NEVER (Table FU-2). -/
def never : Nat := 0xFFFF

/-- The header of a tile. -/
def State.tile (s : State) (i t : Nat) : TileSt := Table.get {} (s.sub i).tiles t

/-- Change the header of a tile. -/
def State.onTile (s : State) (i t : Nat) (f : TileSt → TileSt) : State :=
  s.onSub i fun x => { x with tiles := Table.upd {} x.tiles t f }

/-- Put one value into a word of every pixel of a tile. -/
def State.fillTile (s : State) (i tile k v : Nat) : State :=
  s.each (List.range 256) fun s px => s.stNap (s.napAddr i tile px k) v

/-! ### Windows and marks (R177 to R182) -/

/-- The length of a window in microseconds. -/
def State.winLen (s : State) (i : Nat) : Nat := s.rd .SUB_WIN i * 256

/-- The window of a time. -/
def State.winOf (s : State) (i t : Nat) : Nat := t / s.winLen i

/-- The open windows of a subscription: from the oldest one to that of now. -/
def State.openWins (s : State) (i : Nat) : List Nat :=
  let c := (s.sub i).cur
  (List.range (s.winOf i s.nowUs + 1 - c)).map (c + ·) ++ (if s.winOf i s.nowUs < c then [c] else [])

/-- Flags of R182, by bit. -/
def flGap : Nat := 0
def flUnf : Nat := 1
def flLate : Nat := 2
def flUe : Nat := 3

/-- Set a flag of one window, if it is still open. -/
def State.winFlag (s : State) (i b w : Nat) : State :=
  if w < (s.sub i).cur then s
  else s.onSub i fun x => { x with flags := Table.upd 0 x.flags w fun n => setBit n b true }

/-- Set a flag of every open window. -/
def State.openFlag (s : State) (i b : Nat) : State := s.each (s.openWins i) fun s w => s.winFlag i b w

/-- Mark one tile in the map of a window, or of the oldest open one if that is later (R180, R181). -/
def State.mark (s : State) (i w t : Nat) : State :=
  s.onSub i fun x => { x with marks := Table.upd 0 x.marks (max w x.cur) fun n => setBit n t true }

/-- The tiles an event at a tile marks: its own, and with HALO the up to eight neighbours (R180). -/
def State.haloTiles (s : State) (i t : Nat) : List Nat :=
  let (tx, ty) := s.subTiles i
  if !s.flag .SUB_HALO i then [t]
  else (List.range (tx * ty)).filter fun u =>
    u / tx ≤ t / tx + 1 && t / tx ≤ u / tx + 1 && u % tx ≤ t % tx + 1 && t % tx ≤ u % tx + 1

/-- An event marks its tiles. -/
def State.markEvent (s : State) (i w t : Nat) : State := s.each (s.haloTiles i t) fun s u => s.mark i w u

/-- Every tile of a subscription becomes FRESH (R171). -/
def State.freshen (s : State) (i : Nat) : State := s.onSub i fun x => { x with tiles := [] }

/-! ### Writing events (R171, R172, R178, R179) -/

/-- The planes of a time surface. -/
def State.planes (s : State) (i : Nat) : List Nat := if s.rd .SUB_KIND i = 1 then [0, 1] else [0]

/-- The plane of a polarity: brightness down, then up. -/
def State.planeOf (s : State) (i : Nat) (pol : Bool) : Nat := if s.rd .SUB_KIND i = 1 ∧ pol then 1 else 0

/-- A rebase of a tile (R172). -/
def State.rebase (s : State) (i t time : Nat) : State :=
  let q := s.subQ i
  let b := (s.tile i t).base
  let b' : Int := (time / q * q : Nat) - (32768 * q : Nat)
  let dl := ((b' - b) / q).toNat
  let s := s.each ((List.range 256).flatMap fun px => (s.planes i).map fun k => (px, k)) fun s p =>
    let a := s.napAddr i t p.1 p.2
    let c := s.ldNap a
    s.stNap a (if c ≠ never ∧ dl ≤ c then c - dl else never)
  s.onTile i t fun h => { h with base := b'.toNat }

/-- An event on a time surface (R171, R172). -/
def State.writeStamp (s : State) (i t px : Nat) (pol : Bool) (time : Nat) : State :=
  let q := s.subQ i
  let s := if (s.tile i t).fresh then
      (s.each (s.planes i) fun s k => s.fillTile i t k never).onTile i t fun h =>
        { h with fresh := false, base := time / q * q }
    else s
  let s := if 0xFFFE < (time - (s.tile i t).base) / q then s.rebase i t time else s
  let b := (s.tile i t).base
  let a := s.napAddr i t px (s.planeOf i pol)
  let held := s.ldNap a
  let code := (time - b) / q
  if b ≤ time ∧ (held = never ∨ held ≤ code) then s.stNap a code else s

/-- A 4-bit bin of a VOXEL word moved by one, saturating at −8 and +7 (R178). -/
def binStep (w b : Nat) (up : Bool) : Nat :=
  let v := toSigned 4 (bits w (4 * b) 4)
  let v' := clampInt (-8) 7 (if up then v + 1 else v - 1)
  w - bits w (4 * b) 4 * 2 ^ (4 * b) + ofSigned 4 v' * 2 ^ (4 * b)

/-- A COUNT word counted up, each half saturating at 255 (R178). -/
def countStep (w : Nat) (up : Bool) : Nat :=
  let u := bits w 8 8
  let d := bits w 0 8
  if up then min (u + 1) 255 * 256 + d else u * 256 + min (d + 1) 255

/-- The window whose counts a buffer of a tile holds. -/
def TileSt.win (h : TileSt) (buf : Nat) : Option Nat := if buf = 0 then h.win0 else h.win1

/-- An event of an open window on a COUNT or VOXEL surface (R178, R179). -/
def State.writeCount (s : State) (i t px : Nat) (pol : Bool) (time : Nat) : State :=
  let k := s.winOf i time
  let buf := k % 2
  let n := s.bufWords i
  let newer := match (s.tile i t).win buf with | none => true | some w => w < k
  let s := if newer then
      (s.each (List.range n) fun s j => s.fillTile i t (buf * n + j) 0).onTile i t fun h =>
        if buf = 0 then { h with fresh := false, win0 := some k } else { h with fresh := false, win1 := some k }
    else s
  if s.rd .SUB_KIND i = 2 then
    let a := s.napAddr i t px buf
    s.stNap a (countStep (s.ldNap a) pol)
  else
    let bin := (time - k * s.winLen i) * s.subBins i / s.winLen i
    let a := s.napAddr i t px (buf * n + bin / 4)
    s.stNap a (binStep (s.ldNap a) (bin % 4) pol)

/-- An event on a subscription: the write, then the marks (R179, R180). -/
def State.writeEvent (s : State) (i x y : Nat) (pol : Bool) (time : Nat) : State :=
  let (t, px) := s.tileOf i x y
  let k := s.winOf i time
  if s.rd .SUB_KIND i ≤ 1 then (s.writeStamp i t px pol time).markEvent i k t
  else if k < (s.sub i).cur then ((s.count .SUB_LATE_REC i).openFlag i flLate).markEvent i k t
  else (s.writeCount i t px pol time).markEvent i k t

/-! ### Nap errors (R184) -/

/-- An error that the SECDED of Nap memory found: the four pixels of a lost word are NEVER, whatever the surface's kind. -/
def State.napError (s : State) (e : NapErr) : State :=
  if !e.ue then s.count .FUL_CNT 0
  else
    let i := e.sub.val
    let t := e.tile.toNat
    let a := s.napAddr i t 0 (4 * e.word.toNat)
    let s := s.each (List.range 4) fun s j => s.stNap (a + j) never
    let s := ((s.onTile i t fun h => { h with ue := true }).mark i (s.sub i).cur t).openFlag i flUe
    (s.count .FUL_CNT 1).record (s.sub i).spur .napUe i [t]

/-! ### Reading (R173 to R176, R179, R182) -/

/-- The full number of a window named by its low 32 bits, near the open one. -/
def extWin (cur k : Nat) : Nat :=
  let c := cur / 2 ^ 32 * 2 ^ 32 + k % 2 ^ 32
  if cur + 2 ^ 31 ≤ c ∧ 2 ^ 32 ≤ c then c - 2 ^ 32 else if c + 2 ^ 31 < cur then c + 2 ^ 32 else c

/-- The decayed value of an age (R173). -/
def State.decay (s : State) (i age : Nat) : Nat :=
  let st := 64 * s.subQ i
  if 16384 * s.subQ i ≤ age then 0
  else
    let n := age / st
    let f := age % st
    let l : Int := s.rd .FUL_LUT (256 * i + n)
    let l' : Int := if n = 255 then 0 else s.rd .FUL_LUT (256 * i + n + 1)
    (rneDiv (l * st + (l' - l) * f) st).toNat

/-- An element of a format: 0 U8, 1 BF16, 2 FP16 (R175). A value below the smallest normal one of FP16 is written as +0 (R207);
BF16 holds every one. -/
def elementOf (fmt v : Nat) : Nat :=
  match fmt with
  | 0 => (rneDiv v 257).toNat
  | 1 => bf16.encode (bf16.round (.fin ((v : Rat) / 65535)))
  | _ => if (v : Rat) / 65535 < 1 / 2 ^ 14 then 0 else fp16.encode (fp16.round (.fin ((v : Rat) / 65535)))

/-- The bytes of an element: of a format for a time surface, of a raw word for a count. -/
def State.elementBytes (s : State) (i fmt : Nat) : Nat := if 2 ≤ s.rd .SUB_KIND i ∨ fmt ≠ 0 then 2 else 1

/-- The 256 elements of one plane of a time surface, and how many pixels counted FUT_READ. -/
def State.readPlane (s : State) (i t k ref fmt : Nat) : List Nat × Nat :=
  let h := s.tile i t
  let codes := (List.range 256).map fun px => s.ldNap (s.napAddr i t px k)
  let times := codes.map fun c => if h.fresh || c == never then none else some (h.base + c * s.subQ i)
  (times.map fun o => match o with
      | none => elementOf fmt 0
      | some u => elementOf fmt (s.decay i (ref - u)),
    (times.filter fun o => match o with | none => false | some u => ref < u).length)

/-- The slot is in warm-up, and was at some time in a window that has begun (R182). -/
def State.warmIn (s : State) (i win : Nat) : Bool :=
  match (s.sub i).warm with
  | some b => decide (b < (win + 1) * s.winLen i ∧ win * s.winLen i ≤ s.nowUs)
  | none => false

/-- The read tag of a tile (Table FU-3): the flags of a window so far. -/
def State.readTag (s : State) (i t win : Nat) (ovw : Bool) : Nat :=
  let f := Table.get 0 (s.sub i).flags win
  let f := if s.warmIn i win then setBit f flUnf true else f
  bits f 0 2 + (if ovw then 4 else 0) + (if (s.tile i t).ue then 8 else 0) + (if (s.tile i t).fresh then 16 else 0)

/-- A tile read (R176). DEDUCED: a read of a time surface, which names no window, has the flags of the last closed one. The
planes or words of the 256 pixels as lists of elements, the read tag, and the state. -/
def State.readTile (s : State) (i t ref win fmt : Nat) : List (List Nat) × Nat × State :=
  let x := s.sub i
  if s.rd .SUB_KIND i ≤ 1 then
    let ps := (s.planes i).map fun k => s.readPlane i t k ref fmt
    (ps.map Prod.fst, s.readTag i t (x.cur - 1) false, s.count .FUL_CNT 2 (ps.map Prod.snd).sum)
  else
    let k := extWin x.cur win
    let n := s.bufWords i
    let held := (s.tile i t).win (k % 2)
    let words := (List.range n).map fun j => (List.range 256).map fun px =>
      if held = some k then s.ldNap (s.napAddr i t px (k % 2 * n + j)) else 0
    (words, s.readTag i t k (match held with | some w => k < w | none => false), s)

end Sys2Proof.Machine
end

