-- ==== Sys2Proof/Machine/Fuller.lean ====
section
/-!
DEFINITION. The Fuller at work (`spec/06_fuller_surfaces.md`): ingest of queue lines and control records, the Corner and
Flow units, feature batts, and the close of a window.
-/
namespace Sys2Proof.Machine

/-! ### Feature batts (R189) -/

/-- The Fuller takes a short batt from a Spur's pool (R267): an ALLOC without WAIT on port P16, after the waiter lists (R271, step
2). -/
def State.battTake (s : State) (sp : Nat) : Option Nat × State :=
  let s := (s.serveWaiters false).serveWaiters true
  if s.grantsNow false < 4 && s.eligible false sp then
    let (h, s) := s.grant false 0x100 sp
    (some h, s.wr .BP_PTR 0 17)
  else (none, s.count .BP_CNT 0)

/-- The feature batt of a kind, false corner and true flow. -/
def SubSt.feat (x : SubSt) (flow : Bool) : Option FeatBatt := if flow then x.flow else x.corner

/-- Put a feature batt in place. -/
def SubSt.setFeat (x : SubSt) (flow : Bool) (b : Option FeatBatt) : SubSt :=
  if flow then { x with flow := b } else { x with corner := b }

/-- Note whether records of a kind have been dropped since the last batt. -/
def SubSt.setGap (x : SubSt) (flow : Bool) (g : Bool) : SubSt := if flow then { x with gapF := g } else { x with gapC := g }

/-- Records of a kind have been dropped. -/
def State.featDrop (s : State) (i : Nat) (flow : Bool) (n : Nat) : State :=
  (s.count .FUL_CNT 4 n).onSub i fun x => x.setGap flow true

/-- The header of a feature batt (Table FU-4). -/
def State.featHeader (s : State) (i : Nat) (flow : Bool) (b : FeatBatt) : Nat :=
  b.n + (if b.gap then 2 ^ 8 else 0) + (if flow then 2 ^ 9 else 0) + b.win % 2 ^ 16 * 2 ^ 16 +
    (s.sub i).epoch % 2 ^ 16 * 2 ^ 32 + i * 2 ^ 48

/-- Close a feature batt: its handle goes to the FEAT FIFO, whose agent owns it from then on, and FEAT_MS is signalled; a
full FIFO drops its records. -/
def State.featClose (s : State) (i : Nat) (flow : Bool) : State :=
  match (s.sub i).feat flow with
  | none => s
  | some b =>
    let s := s.onSub i fun x => x.setFeat flow none
    if 16 ≤ (s.sub i).fifo.length then (s.freeHandle b.handle).featDrop i flow b.n
    else
      let s := s.stLe .batts (hIndex b.handle * 256) 8 (s.featHeader i flow b)
      let s := s.onBatt false (hIndex b.handle) fun e => { e with owner := some (0x200 + i, (s.sub i).spur) }
      let s := s.onSub i fun x => { x with fifo := x.fifo ++ [b.handle] }
      s.signal (s.rd .SUB_FEAT_MS i) (s.sub i).spur 1 .fuller

/-- A feature record of 8 or 16 bytes is packed into the subscription's batt of its kind. -/
def State.featPut (s : State) (i : Nat) (flow : Bool) (win rec' : Nat) : State :=
  let size := if flow then 16 else 8
  let s :=
    match (s.sub i).feat flow with
    | some _ => s
    | none =>
      match s.battTake (s.sub i).spur with
      | (none, s) => s
      | (some h, s) =>
        let gap := if flow then (s.sub i).gapF else (s.sub i).gapC
        (s.zero .batts (hIndex h * 256) 256).onSub i fun x => (x.setFeat flow (some ⟨h, win, 0, gap⟩)).setGap flow false
  match (s.sub i).feat flow with
  | none => s.featDrop i flow 1
  | some b =>
    let s := s.stLe .batts (hIndex b.handle * 256 + 8 + b.n * size) size rec'
    let s := s.onSub i fun x => x.setFeat flow (some { b with n := b.n + 1 })
    if b.n + 1 = (if flow then 15 else 31) then s.featClose i flow else s

/-! ### The Corner unit (R186) -/

/-- The circles of R186, in order around the pixel. PRESUMED: the pixel sets of the known 16- and 20-pixel circles. -/
def circle3 : List (Int × Int) :=
  [(0, 3), (1, 3), (2, 2), (3, 1), (3, 0), (3, -1), (2, -2), (1, -3), (0, -3), (-1, -3), (-2, -2), (-3, -1), (-3, 0),
    (-3, 1), (-2, 2), (-1, 3)]
def circle4 : List (Int × Int) :=
  [(0, 4), (1, 4), (2, 3), (3, 2), (4, 1), (4, 0), (4, -1), (3, -2), (2, -3), (1, -4), (0, -4), (-1, -4), (-2, -3),
    (-3, -2), (-4, -1), (-4, 0), (-4, 1), (-3, 2), (-2, 3), (-1, 4)]

/-- The time of a pixel of a plane; none for NEVER. -/
def State.pixTime (s : State) (i k x y : Nat) : Option Nat :=
  let (t, px) := s.tileOf i x y
  let c := s.ldNap (s.napAddr i t px k)
  if (s.tile i t).fresh || c == never then none else some ((s.tile i t).base + c * s.subQ i)

/-- An arc of length in `[lo, hi]` each of whose stamps is newer than every stamp outside it, NEVER being the oldest. -/
def hasArc (ts : List Nat) (lo hi : Nat) : Bool :=
  let n := ts.length
  let two := ts ++ ts
  (List.range n).any fun a => (List.range (n + 1)).any fun l =>
    decide (lo ≤ l) && decide (l ≤ hi) && decide (0 < l) &&
      (let ins := (two.drop a).take l
       let out := (two.drop (a + l)).take (n - l)
       ins.all fun u => out.all fun v => decide (v < u))

/-- The event at a pixel of a plane is a corner. -/
def State.isCorner (s : State) (i k x y : Nat) : Bool :=
  let (w, h) := s.subGrid i
  if x < 4 ∨ y < 4 ∨ w ≤ x + 4 ∨ h ≤ y + 4 then false
  else
    let ring := fun (c : List (Int × Int)) => c.map fun d =>
      match s.pixTime i k ((x : Int) + d.1).toNat ((y : Int) + d.2).toNat with | none => 0 | some t => t + 1
    hasArc (ring circle3) (s.rd .SUB_ARC3_MIN i) (s.rd .SUB_ARC3_MIN i + s.rd .SUB_ARC3_SPAN i) &&
      hasArc (ring circle4) (s.rd .SUB_ARC4_MIN i) (s.rd .SUB_ARC4_MIN i + s.rd .SUB_ARC4_SPAN i)

/-! ### The Flow unit (R187) -/

/-- The nearest integer to a square root; a root half way between two goes to the even one. -/
def sqrtRne (q : Rat) : Nat :=
  let k := Nat.sqrt q.floor.toNat
  let m : Rat := (k : Rat) + 1 / 2
  if m * m < q then k + 1 else if q = m * m ∧ k % 2 = 1 then k + 1 else k

/-- The support of an event: offsets and times relative to it, in pixels and microseconds. -/
def State.flowSupport (s : State) (i k x y t : Nat) : List (Int × Int × Int) :=
  let r := if s.flag .SUB_FLOW_R i then 3 else 2
  let (w, h) := s.subGrid i
  (List.range ((2 * r + 1) * (2 * r + 1))).filterMap fun j =>
    let px : Int := (x : Int) + (j % (2 * r + 1) : Nat) - r
    let py : Int := (y : Int) + (j / (2 * r + 1) : Nat) - r
    if px < 0 ∨ py < 0 ∨ (w : Int) ≤ px ∨ (h : Int) ≤ py then none
    else match s.pixTime i k px.toNat py.toNat with
      | none => none
      | some u => if u ≤ t ∧ t ≤ u + s.rd .SUB_FLOW_WIN i then some (px - x, py - y, (u : Int) - t) else none

/-- The least-squares plane t = a·x + b·y + c: (a, b, mean square residual); none where no one plane is the best. -/
def planeFit (l : List (Int × Int × Int)) : Option (Rat × Rat × Rat) :=
  let n : Rat := l.length
  let f := fun (g : Int × Int × Int → Int) => (((l.map g).sum : Int) : Rat)
  let sx := f fun p => p.1
  let sy := f fun p => p.2.1
  let st := f fun p => p.2.2
  let cxx := n * f (fun p => p.1 * p.1) - sx * sx
  let cyy := n * f (fun p => p.2.1 * p.2.1) - sy * sy
  let cxy := n * f (fun p => p.1 * p.2.1) - sx * sy
  let cxt := n * f (fun p => p.1 * p.2.2) - sx * st
  let cyt := n * f (fun p => p.2.1 * p.2.2) - sy * st
  let det := cxx * cyy - cxy * cxy
  if det = 0 then none
  else
    let a := (cxt * cyy - cyt * cxy) / det
    let b := (cyt * cxx - cxt * cxy) / det
    let c := (st - a * sx - b * sy) / n
    let sse := (l.map fun p => let e := (p.2.2 : Rat) - a * p.1 - b * p.2.1 - c; e * e).sum
    some (a, b, sse / n)

/-- A component of a flow vector in units of 1/16 pixel per ms, saturating at 16 bits (Table FU-5). -/
def flowUnits (v : Rat) : Int := clampInt (-32768) 32767 (rneRat (v * 16000))

/-- The flow vector of an event: VX, VY, RES and N. Where the support fixes no one plane the outcome is free. -/
def State.flowFit (s : State) (i k x y t : Nat) : Option (Int × Int × Nat × Nat) × State :=
  let l := s.flowSupport i k x y t
  let n := l.length
  if n < s.rd .SUB_FLOW_MIN i then (none, s)
  else match planeFit l with
    | some (a, b, ms) =>
      let g := a * a + b * b
      let lim : Rat := s.rd .SUB_FLOW_RES i
      if g = 0 ∨ lim * lim < ms then (none, s)
      else (some (flowUnits (a / g), flowUnits (b / g), min (sqrtRne ms) 255, n), s)
    | none =>
      let (v, s) := s.fresh 41
      (if bit v 40 then some (toSigned 16 v, toSigned 16 (v / 2 ^ 16), bits v 32 8, n) else none, s)

/-! ### Events -/

/-- Word 0 of a feature record (Table FU-5). -/
def featWord (top : Nat) (pol : Bool) (slot x y stamp : Nat) : Nat :=
  evRecord pol slot x y stamp % 2 ^ 62 + top * 2 ^ 62

/-- The Corner unit takes an event (R186, R188). -/
def State.cornerTest (s : State) (i slot x y : Nat) (pol : Bool) (t stamp : Nat) (skip : Bool) : State :=
  if !s.flag .SUB_CORNER_EN i || 2 ≤ s.rd .SUB_KIND i then s
  else if skip then s.count .FUL_CNT 3
  else if s.isCorner i (s.planeOf i pol) x y then s.featPut i false (s.winOf i t) (featWord 1 pol slot x y stamp)
  else s

/-- The Flow unit takes an event (R187, R188); with FLOW_EGO the vector goes to the Ego unit too. -/
def State.flowTest (s : State) (i slot x y : Nat) (pol : Bool) (t stamp : Nat) (skip : Bool) : State :=
  if !s.flag .SUB_FLOW_EN i || 2 ≤ s.rd .SUB_KIND i then s
  else if skip then s.count .FUL_CNT 3
  else match s.flowFit i (s.planeOf i pol) x y t with
    | (none, s) => s
    | (some (vx, vy, res, n), s) =>
      let w1 := n * 2 ^ 16 + res * 2 ^ 24 + ofSigned 16 vy * 2 ^ 32 + ofSigned 16 vx * 2 ^ 48
      let s := s.featPut i true (s.winOf i t) (featWord 2 pol slot x y stamp + w1 * 2 ^ 64)
      s.when (s.flag .SUB_FLOW_EGO i && s.flag .EGO_CTRL_EN slot && s.egoLive) fun s =>
        s.onEgo slot fun e => { e with vecs := e.vecs ++ [⟨s.winOf i t, x, y, (s.sub i).dec, vx, vy⟩] }

/-- An event record on one subscription of its slot (R168, R172, R178 to R180, R186, R187). -/
def State.fullerEvent (s : State) (i r t : Nat) (skipC skipF : Bool) : State :=
  let d := (s.sub i).dec
  let slot := bits r 53 8
  let x := bits r 42 11 / 2 ^ d
  let y := bits r 31 11 / 2 ^ d
  let (w, h) := s.subGrid i
  if w ≤ x ∨ h ≤ y then s
  else
    let pol := bit r 61
    let s := s.writeEvent i x y pol t
    let s := s.cornerTest i slot x y pol t (bits r 0 31) skipC
    s.flowTest i slot x y pol t (bits r 0 31) skipF

/-! ### Records (R165, R183) -/

/-- The segment base of a queue in microseconds. -/
def State.segBase (s : State) (q : Nat) : Nat := Table.get 0 s.ful.segBase q

/-- The end of a slot's warm-up: UNF for the windows that it touched (R182). -/
def State.warmOff (s : State) (i e : Nat) : State :=
  match (s.sub i).warm with
  | none => s
  | some b =>
    let s := s.onSub i fun x => { x with warm := none }
    if e ≤ b then s
    else
      let k := s.winOf i b
      s.each ((List.range (s.winOf i (e - 1) + 1 - k)).map (k + ·)) fun s w => s.winFlag i flUnf w

/-- A control record on the subscriptions of its queue (R183). -/
def State.fullerControl (s : State) (q r : Nat) : State :=
  let subs := s.subsOn q
  let slot := bits r 53 8
  let mine := subs.filter fun i => s.rd .SUB_SLOT i == slot
  let param := bits r 0 32
  let t := extendUs (s.segBase q) (param % 2 ^ 31)
  match bits r 48 5 with
  | 1 => s.onFul fun f => { f with segBase := Table.set 0 f.segBase q (param * 2 ^ 28) }
  | 2 =>
    let s := s.each subs fun s i => s.onSub i fun x => { x with snaps := x.snaps.map fun e => (e.1, 0) }
    if param / 2 ^ 24 = 3 then
      s.each subs fun s i => s.onSub i fun x => { x with tiles := [], marks := [], closed := 0, hist := [], epoch := bits r 32 16 }
    else s.each subs fun s i => s.openFlag i flGap
  | 3 =>
    let s := s.each mine fun s i =>
      ((s.warmOff i t).freshen i).onSub i fun x => { x with warm := if bit r 61 then some t else none }
    s.when (!mine.isEmpty) fun s => s.egoZero slot
  | 4 => s.each mine fun s i => s.warmOff i t
  | 5 => s.each mine fun s i => s.warmOff i t
  | 6 => s.each subs fun s i => s.openFlag i flGap
  | _ => s

/-- A gap marker on the subscriptions of its queue (R182). -/
def State.fullerGap (s : State) (q r : Nat) : State :=
  let subs := s.subsOn q
  if bit r 61 then
    let t := extendUs (s.segBase q) (bits r 0 31)
    s.each (subs.filter fun i => s.rd .SUB_SLOT i == bits r 53 8) fun s i => s.winFlag i flGap (s.winOf i t)
  else s.each subs fun s i => s.openFlag i flGap

/-- One record of a line that the Fuller has read (R165). -/
def State.fullerRecord (s : State) (q : Nat) (r : Nat) (skipC skipF : Bool) : State :=
  match r / 2 ^ 62 % 4 with
  | 1 =>
    let t := extendUs (s.segBase q) (bits r 0 31)
    s.each ((s.subsOn q).filter fun i => s.rd .SUB_SLOT i == bits r 53 8) fun s i => s.fullerEvent i r t skipC skipF
  | 2 => s.fullerGap q r
  | 3 => s.fullerControl q r
  | _ => s

/-- FULLER_QUEUE_READ (R165): one line of the next queue of the rotation that has records. -/
def execFullerQueueRead (ce ue : BitVec 8) (ptrBad : Bool) (nap : List NapErr) (skipCorner skipFlow : BitVec 8)
    (s : State) : Out :=
  if !s.fulLive || !s.flag .FUL_CTRL_EN then done s
  else
    let order := (List.range 512).map fun j => (s.ful.turn + j) % 512
    match order.find? fun q => s.fullerBound q && s.eqOcc q != 0 with
    | none => done s
    | some q =>
      let (tag, line, s) := s.popLine q ce.toNat ue.toNat ptrBad
      let n := bits tag 0 7 / 8
      let s := (s.onFul fun f => { f with turn := (q + 1) % 512 }).each (s.subsOn q) fun s i =>
        s.onSub i fun x => { x with snaps := x.snaps.map fun e => (e.1, e.2 - n) }
      let s := s.each nap fun s e => s.napError e
      done (s.each (line.take n).zipIdx fun s p =>
        s.fullerRecord q p.1.toNat (bit skipCorner.toNat p.2) (bit skipFlow.toNat p.2))

/-! ### The close of a window (R177, R180 to R182) -/

/-- Waytime has reached the end of a window plus WCLOSE. -/
def State.winDue (s : State) (i k : Nat) : Bool := (k + 1) * s.winLen i + s.rd .SUB_WCLOSE i ≤ s.nowUs

/-- Waytime has reached the end of the oldest open window plus WCLOSE. -/
def State.closeDue (s : State) (i : Nat) : Bool := s.winDue i (s.sub i).cur

/-- The last window that is due, if `k` is. -/
def State.lastDue (s : State) (i : Nat) : Nat := (s.nowUs - s.rd .SUB_WCLOSE i) / s.winLen i - 1

/-- The snapshot of WP is taken at the first cycle at which a window's close is due (R177), whatever window still waits for its
own; windows that fall due in one cycle share theirs. -/
def State.takeSnap (s : State) (i : Nat) : State :=
  let k := max (s.sub i).snapTo (s.sub i).cur
  match s.subQueue i with
  | some q =>
    if s.winDue i k then
      s.onSub i fun x => { x with snaps := x.snaps ++ [(s.lastDue i, s.eqOcc q)], snapTo := s.lastDue i + 1 }
    else s
  | none => s

/-- The Fuller's reads have reached the snapshot of the oldest open window. -/
def State.snapReached (s : State) (i : Nat) : Bool :=
  match (s.sub i).snaps with
  | [] => false
  | e :: _ => (s.sub i).cur ≤ e.1 && e.2 == 0

/-- Every subscription takes the snapshots due now. -/
def State.fullerSnap (s : State) : State :=
  if s.fulLive then s.each ((List.range 64).filter fun i => s.flag .SUB_EN i) fun s i => s.takeSnap i else s

/-- The close of the oldest open window of a subscription, in the order of R177. -/
def State.closeWindow (s : State) (i : Nat) : State :=
  let x := s.sub i
  let k := x.cur
  let own := Table.get 0 x.marks k
  let map := (x.hist.take (s.rd .SUB_TAIL i)).foldl (· ||| ·) own
  let b := (k + 1) * s.winLen i
  let s := match x.warm with
    | some w => if w < b then s.winFlag i flUnf k else s
    | none => s
  let (tx, ty) := s.subTiles i
  let s := s.onSub i fun x =>
    { x with
      closed := map, hist := (own :: x.hist).take 15, marks := Table.set 0 x.marks k 0, cur := k + 1,
      snaps := x.snaps.filter fun e => decide (k < e.1) }
  let s := ((s.wr .SUB_WIN_NUM i k).wr .SUB_DIRTY_CNT i (popcount (tx * ty) map)).wr .SUB_FLAGS i (Table.get 0 x.flags k |||
    Table.get 0 (s.sub i).flags k)
  let s := (s.featClose i false).featClose i true
  let s := s.signal (s.rd .SUB_MS i) (s.sub i).spur 1 .fuller
  s.when (s.flag .SUB_FLOW_EGO i) fun s => s.egoSolve (s.rd .SUB_SLOT i) k (k * s.winLen i) b

/-- WINDOW_CLOSE: nothing happens before both conditions of R177 hold. -/
def execWindowClose (sub : Fin 64) (s : State) : Out :=
  let i := sub.val
  if !s.fulLive || (s.subQueue i).isNone || !s.closeDue i then done s
  else
    let s := s.takeSnap i
    done (if s.snapReached i then s.closeWindow i else s)

/-- FEAT_POP (R267, Table MS-6): the head handle is given to the reading core; a core of another Spur, and an empty FIFO,
get the null handle. -/
def execFeatPop (core : Fin 16) (sub : Fin 64) (s : State) : Out :=
  let x := s.sub sub.val
  if !s.fulLive then done s
  else match if core.val / 2 = x.spur then x.fifo else [] with
    | [] => done (s.emit (.featHandle core.val sub.val 0))
    | h :: t =>
      let s := s.onSub sub.val fun x => { x with fifo := t }
      let s := s.onBatt false (hIndex h) fun b => { b with owner := some (core.val, x.spur) }
      done (s.emit (.featHandle core.val sub.val h))

end Sys2Proof.Machine
end

