-- ==== Sys2Proof/Machine/Mills.lean ====
section
/-!
DEFINITION. Tasks (`spec/08_mills.md` R227 to R236, R241 to R249; `spec/07_number_formats.md` R212 to R215): dispatch,
sparse templates, completion, watchdog, faults, self-test and readmission.
-/
namespace Sys2Proof.Machine

/-! ### Dispatch (R228, R229, R233, R235, R236) -/

/-- The quadrant's operating point is changing: nothing is dispatched (R239). -/
def State.draining (s : State) (m : Nat) : Bool := s.flag .MQ_OP_BUSY (quadOf m)

/-- The lowest-numbered idle live TE. -/
def State.idleTe (s : State) (m : Nat) : Option Nat :=
  (List.range 16).find? fun t => s.teLive m t && (s.task m t).isNone

/-- A queue has a task that may be dispatched now. -/
def State.tqReady (s : State) (m q : Nat) : Bool :=
  let k := 8 * m + q
  !s.tqHalted k &&
    (!(s.reruns m q).isEmpty || (s.expanding m q).isSome || (!s.tqEmpty k && s.waitsMet m (tdWaits (s.tqHeadDesc m q))))

/-- The head is looked at: no re-run and no expansion stands before it. -/
def State.headExposed (s : State) (m q : Nat) : Bool :=
  let k := 8 * m + q
  !s.tqHalted k && (s.reruns m q).isEmpty && (s.expanding m q).isNone && !s.tqEmpty k

/-- The scheduler checks the heads it fetches (R233): a queue whose head fails halts with DESC_ERR or TASK_ALIAS. -/
def State.checkHeads (s : State) (m : Nat) : State :=
  s.each ((List.range 8).filter fun q => s.headExposed m q) fun s q =>
    let d := s.tqHeadDesc m q
    if s.taskBad m d then (s.tqHalt m q haltDesc).record (s.millOwner m) .descErr m [q]
    else if taskAlias d then (s.tqHalt m q haltAlias).record (s.millOwner m) .descErr m [q + 256]
    else s

/-- An uncorrectable error in a head's descriptor halts its queue (R221). -/
def State.headUe (s : State) (m : Nat) (a : Nat) : State :=
  let hit := (List.range 8).filter fun q =>
    s.headExposed m q && s.tqHeadAddr (8 * m + q) ≤ a && a < s.tqHeadAddr (8 * m + q) + 128
  (s.each hit fun s q => s.tqHalt m q haltUe).sramUe m a

/-- A task starts on a TE; the first dispatch of an invocation is noted (R356). -/
def State.startTask (s : State) (m t : Nat) (r : RunTask) : State :=
  (s.setTask m t { r with cyc := 0, start := s.raw }).onInv m fun v => if v.first = 0 then { v with first := s.now } else v

/-- The tiles of a tile list in SRAM (R235). -/
def State.tileList (s : State) (m a : Nat) : List Nat :=
  (List.range (s.ldLe (.mill m) a 4)).map fun i => s.ldLe (.mill m) (a + 4 + 2 * i) 2

/-- The tiles that a template visits, ascending (R235). -/
def State.visits (s : State) (m : Nat) (d : List Byte) : List Nat :=
  let l := if tdList d then s.tileList m (tdSrc d % 2 ^ 20)
    else
      let i := tdSrc d % 64
      let (tx, ty) := s.subTiles i
      bitList (tx * ty) (s.sub i).closed
  l.filter fun t => tdT0 d ≤ t && t < tdT1 d

/-- A tile list written to SRAM (R235). -/
def State.putTileList (s : State) (m a : Nat) (l : List Nat) : State :=
  s.stBytes (.mill m) a (leBytes 4 l.length ++ l.flatMap fun t => leBytes 2 t)

/-- A template completes: the output list, then the posts (R235, R236). -/
def State.endTemplate (s : State) (m : Nat) (d : List Byte) (l : List Nat) : State :=
  let s := s.when (tdListOut d != 0) fun s => s.putTileList m (tdListOut d) l
  s.each (tdPosts d) fun s p => s.doPost m p

/-- The next instance of a template goes to a TE; HEAD moves on with the last one. -/
def State.startInstance (s : State) (m q t e : Nat) (x : Expand) : State :=
  match x.todo with
  | [] => s
  | (o, tile) :: rest =>
    let s := s.setTemplate m e { x with todo := rest, running := x.running + 1 }
    let s := s.when rest.isEmpty fun s => s.tqAdvance (8 * m + q)
    s.startTask m t { tq := q, desc := x.desc, tmpl := some e, ord := o, tile := tile, reading := !tdList x.desc }

/-- The head of a queue is dispatched to a TE: its waits are consumed; a template copies its map or list (R236). -/
def State.startHead (s : State) (m q t : Nat) : State :=
  let d := s.tqHeadDesc m q
  let s := s.consume m (tdWaits d)
  if !tdSparse d then (s.tqAdvance (8 * m + q)).startTask m t { tq := q, desc := d }
  else
    let l := s.visits m d
    if l.isEmpty then ((s.endTemplate m d []).tqAdvance (8 * m + q)).millNext m
    else
      let e := (s.mill m).nextExp
      let s := s.onMill m fun x => { x with nextExp := e + 1 }
      s.startInstance m q t e { q := q, desc := d, todo := (l.zipIdx).map fun p => (p.2, p.1), visited := l }

/-- The winner of a dispatch cycle starts on a TE (R229). -/
def State.dispatchTo (s : State) (m q t : Nat) : State :=
  let s :=
    match s.reruns m q, s.expanding m q with
    | r :: rest, _ =>
      (((s.onReruns m q fun _ => rest).millCount m 3).onInv m fun v => { v with reruns := v.reruns + 1 }).startTask m t
        { r with reading := r.tmpl.isSome && !tdList r.desc }
    | [], some (e, x) => s.startInstance m q t e x
    | [], none => s.startHead m q t
  (s.onMill m fun x => { x with ptr := (q + 1) % 8 }).tqRefresh m q

/-- TASK_DISPATCH: at most one task per cycle, from the first ready queue of the rotation to the lowest idle live TE. -/
def execTaskDispatch (m : Fin 128) (ecc : SramEcc) (s : State) : Out :=
  let m := m.val
  if !s.millLive m || s.draining m then done s
  else
    let s := s.sramCe m ecc
    match ecc.ue with
    | some a => done (s.headUe m a.toNat)
    | none =>
      let s := s.checkHeads m
      match s.idleTe m with
      | none => done s
      | some t =>
        match ((List.range 8).map fun j => ((s.mill m).ptr + j) % 8).find? fun q => s.tqReady m q with
        | none => done s
        | some q => done (s.dispatchTo m q t)

/-! ### Completion (R212 to R215, R231) -/

/-- The steps of an output element: K of them, or one for EWISE and COPY. -/
def tdSteps (d : List Byte) : Nat := if tdKind d = 3 ∨ tdKind d = 5 then 1 else tdK d

/-- The KIND reads a W operand. -/
def tdReadsW (d : List Byte) : Bool := tdKind d ≤ 3

/-- An instance of a template has its A and O offset by its ordinal times OSTRIDE (R235). -/
def RunTask.shift (r : RunTask) : Nat := if r.tmpl.isSome then r.ord * tdStride r.desc else 0

/-- The address of a task's output. -/
def RunTask.outAddr (r : RunTask) : Nat := tdO r.desc + r.shift

/-- What an output element of a task is computed from, read from SRAM: A at A_ADDR, W at W_ADDR, scales and bias in the table at
SB_ADDR, the stored accumulator where ACC_INIT asks for it (Table ML-3, R191, R203). -/
def State.elIn (s : State) (m : Nat) (r : RunTask) (row col : Nat) : ElIn :=
  let d := r.desc
  let w := tdFmt d
  let l := d.map BitVec.toNat
  let ks := List.range (tdSteps d)
  let blocks := List.range ((tdK d + 31) / 32)
  let word := fun (which i : Nat) => s.sramLe m (tdSb d + Config.tableOffset which l i 0) 4
  let acc := if tdPair d then 8 else 4
  { a := ks.map fun k => s.elementAt m (tdA d + r.shift) (elBits (nfA w) false) (Config.operandIndex 0 l row col k)
    w := if tdReadsW d then ks.map fun k => s.elementAt m (tdW d) (elBits (nfW w) false) (Config.operandIndex 1 l row col k) else []
    fineA := blocks.map fun b => (s.sramByte m (tdSb d + Config.tableOffset 0 l row b)).toNat
    fineW := blocks.map fun b => (s.sramByte m (tdSb d + Config.tableOffset 1 l col b)).toNat
    sa := word 2 (if nfSclA w = 2 then row else 0)
    sw := word 3 (if nfSclW w = 2 then col else 0)
    bias := word 4 col
    init := if nfInit w then some (s.sramLe m (Config.accAddr l + acc * Config.operandIndex 2 l row col 0) acc) else none }

/-- The rows and columns of a tile in raster order. -/
def tdCells (d : List Byte) : List (Nat × Nat) := (List.range (tdTm d)).flatMap fun i => (List.range (tdTn d)).map fun j => (i, j)

/-- The operand elements that a task reads and that are flushed, each once (R196, R213). -/
def State.flushed (s : State) (m : Nat) (r : RunTask) : Nat :=
  let d := r.desc
  let w := tdFmt d
  let l := d.map BitVec.toNat
  let places := fun (o : Nat) =>
    ((tdCells d).flatMap fun c => (List.range (tdSteps d)).map fun k => Config.operandIndex o l c.1 c.2 k).eraseDups
  let count := fun (o f base : Nat) (sgn : Bool) =>
    ((places o).filter fun i => (elValue f sgn (s.elementAt m base (elBits f false) i)).2).length
  count 0 (nfA w) (tdA d + r.shift) (nfSgnA w) + (if tdReadsW d then count 1 (nfW w) (tdW d) (nfSgnW w) else 0)

/-- What a task computes from its operands in SRAM. -/
def State.taskTile (s : State) (m : Nat) (r : RunTask) (fn : TaskFn) : TileOut :=
  let d := r.desc
  elTile (tdKind d) fn (tdFmt d) (tdClipLo d) (tdClipHi d) (tdTn d) (s.flushed m r) ((tdCells d).map fun c => s.elIn m r c.1 c.2)

/-- The bytes of an output tile: its elements, in the order in which they stand, packed (R191). -/
def tileBytesOf (d : List Byte) (codes : List Nat) : List Byte :=
  packEls (tdOutBits d)
    ((List.range codes.length).map fun j => (codes[Config.outElement (d.map BitVec.toNat) j % max 1 codes.length]?).getD 0)

/-- Write-back of the output tile. -/
def State.writeBack (s : State) (m : Nat) (r : RunTask) (codes : List Nat) : State :=
  s.stSram m r.outAddr (tileBytesOf r.desc codes)

/-- The flags of a task join TE_FLAGS, its counts its queue's context, and its tile record is latched (R212 to R215). -/
def State.takeCounts (s : State) (m t : Nat) (r : RunTask) (o : TileOut) : State :=
  let te := 16 * m + t
  let cx := 8 * m + r.tq
  let s := (((s.when o.fl.ofl fun s => s.put .TE_FLAGS_OF te true).when o.fl.ufl fun s => s.put .TE_FLAGS_UF te true).when o.fl.nx
    fun s => s.put .TE_FLAGS_NX te true).when o.fl.nv fun s => s.put .TE_FLAGS_NV te true
  let s := ((s.count .OPCTX_SAT_CNT cx o.sat).count .OPCTX_FLUSH_IN cx o.flushIn).count .OPCTX_FLUSH_OUT cx o.flushOut
  let s := s.wr .OPCTX_FLAGS cx (s.rd .OPCTX_FLAGS cx ||| o.fl.toNat)
  match o.tile with
  | none => s
  | some x =>
    let s := s.count .OPCTX_NAN_TILES cx
    if s.flag .TE_FLAGS_NANTILE te then s
    else
      (((((s.put .TE_FLAGS_NANTILE te true).wr .TE_NANPOS_ROW te x.row).wr .TE_NANPOS_COL te x.col).wr .TE_NANPOS_KIND te
        x.kind).put .TE_NANPOS_ACC te x.acc).put .TE_NANPOS_VALID te true |>.wr .TE_NANTASK_TASK te (tdTag r.desc)

/-- A task has ended, with its results or by an error: its posts, or those of its template with the last instance. -/
def State.endTask (s : State) (m : Nat) (r : RunTask) (failed : Bool) : State :=
  match r.tmpl with
  | none => if failed then s else s.each (tdPosts r.desc) fun s p => s.doPost m p
  | some e =>
    match s.template m e with
    | none => s
    | some x =>
      let x := { x with running := x.running - 1, failed := x.failed || failed }
      if x.running = 0 ∧ x.todo = [] then
        let s := s.dropTemplate m e
        if x.failed then s else s.endTemplate m x.desc x.visited
      else s.setTemplate m e x

/-- The task boundary of a TE: a removal asked for takes effect, or a TEST task that waits begins, unless the quadrant drains
(R239, R243, R246). -/
def State.boundary (s : State) (m t : Nat) : State :=
  if bit (s.mill m).offReq t then s.removeTe m t causeFwOff
  else if bit (s.mill m).testReq t && !s.draining m then
    (s.onMill m fun x => { x with testReq := setBit x.testReq t false }).setTask m t { tq := 8, desc := [], start := s.raw }
  else s

/-- A TEST task is asked for on a TE: it begins at once on an idle one (R243). -/
def State.askTest (s : State) (m t : Nat) : State :=
  let s := s.onMill m fun x => { x with testReq := setBit x.testReq t true }
  if (s.task m t).isNone then s.boundary m t else s

/-- TEST tasks that waited for the end of a drain begin (R239). -/
def State.startTests (s : State) (m : Nat) : State :=
  s.each ((bitList 16 (s.mill m).testReq).filter fun t => (s.task m t).isNone) fun s t => s.boundary m t

/-- The end of a TEST task of the firmware (R243, R249): a failing live TE is removed; a removed TE that passes may be readmitted. -/
def State.testVerdict (s : State) (m t : Nat) (pass : Bool) : State :=
  if s.teLive m t then (if pass then s else s.removeTe m t causeBist)
  else s.onMill m fun x => { x with passed := setBit x.passed t pass }

/-- End a UNIT_CTRL command that waits for a self-test, with the cause code. -/
def State.endUnitCmd (s : State) (m t : Nat) : State :=
  match s.mail.unitCmds.find? fun u => u.mill == m && u.te == t with
  | none => s
  | some u =>
    let s := s.onMail fun x => { x with unitCmds := x.unitCmds.erase u }
    s.finishId u.mb u.id 0 0 (if t = 16 then 0 else s.teCause m t)

/-- A task of a queue completes: its output is written and its counts taken, then its posts (R231). -/
def State.taskDone (s : State) (m t : Nat) (r : RunTask) (fn : TaskFn) : State :=
  let test : Bool := tdKind r.desc == 15
  let o := s.taskTile m r fn
  let s := (s.when (!test) fun s => (s.writeBack m r o.codes).takeCounts m t r o).millCount m 5
  (s.onInv m fun v => { v with tasks := v.tasks + 1, tiles := v.tiles + (if r.tmpl.isSome then 1 else 0) }).endTask m r false

/-- TASK_COMPLETE: a task that met an uncorrectable word ends with no output and no posts (R221); a TEST task of a queue that
fails removes its TE, which discards it (R243 to R245). -/
def execTaskComplete (m : Fin 128) (t : Fin 16) (fn : TaskFn) (ecc : SramEcc) (s : State) : Out :=
  let m := m.val
  let t := t.val
  if !s.domOn (pdMq (quadOf m)) then done s
  else match s.task m t with
    | none => done s
    | some r =>
      if r.reading then done s
      else if r.tq = 8 then done ((((s.clearTask m t).testVerdict m t fn.pass).boundary m t).endUnitCmd m t)
      else if tdKind r.desc = 15 ∧ fn.pass = false then done ((s.removeTe m t causeBist).tqRefresh m r.tq)
      else
        let s := (s.sramCe m ecc).clearTask m t
        let s := match ecc.ue with
          | some a => (s.endTask m r true).sramUe m a.toNat
          | none => s.taskDone m t r fn
        done (((s.boundary m t).tqRefresh m r.tq).millNext m)

/-! ### Posts, watchdog and faults -/

/-- TKC_POST_ARRIVAL (R230, R232, R262). -/
def execTkcPostArrival (arriving : Nat) (s : State) : Out :=
  let (now, later) := pickBits s.ms.posts arriving
  done ((s.onMs fun x => { x with posts := later }).each now fun s p => s.applyPost p.mill p.tkc p.count)

/-- The cycles of a step by operand class (R217). -/
def stepCycles (f : Nat) : Nat × Nat :=
  let c := max (fmtClass (nfA f)) (fmtClass (nfW f))
  let pair := if nfAccm f = 2 then 2 else 1
  (if c = 4 then 16 else 8, (if c = 16 then 4 else 1) * pair)

/-- The cycle bound of a task: the dense formula (R218, R234). -/
def denseCycles (d : List Byte) : Nat :=
  let (kb, c) := stepCycles (tdFmt d)
  ceilDiv (tdK d) kb * ceilDiv (tdTn d) 8 * max (tdTm d * c) 8 + 16

/-- TASK_WATCHDOG (R234). DEDUCED: a TEST task, which takes 50 µs by R243, is not held to the dense formula. -/
def execTaskWatchdog (m : Fin 128) (t : Fin 16) (s : State) : Out :=
  match s.task m.val t.val with
  | none => done s
  | some r =>
    if r.tq = 8 ∨ tdKind r.desc = 15 then done s
    else if 2 * denseCycles r.desc + 1024 < r.cycles (s.rd .MQ_OP_CUR (quadOf m.val)) s.raw then
      done (s.removeTe m.val t.val causeWatchdog)
    else done s

/-- TE_FAULT (R220, R244): a residue mismatch counts in RESIDUE_ERR. -/
def execTeFault (m : Fin 128) (t : Fin 16) (cause : TeCause) (s : State) : Out :=
  if !s.millLive m.val || !s.teLive m.val t.val then done s
  else match cause with
    | .residue => done ((s.millCount m.val 2).removeTe m.val t.val causeResidue)
    | .accParity => done (s.removeTe m.val t.val causeAccPar)

/-- MILL_FAULT (R247). -/
def execMillFault (m : Fin 128) (clock : Bool) (s : State) : Out :=
  if !s.millLive m.val then done s else done (s.removeMill m.val (if clock then millClock else millParity))

/-- MILL_CREDIT_TIMEOUT (R247): only while transfers are pending. -/
def execMillCreditTimeout (m : Fin 128) (s : State) : Out :=
  if !s.millLive m.val || (s.mill m.val).chans.all fun e => e.2.isEmpty then done s
  else done (s.removeMill m.val millCredit)

/-! ### Register writes with a row of their own -/

/-- TE_NANTILE_CLEAR (R215): the other flags of the word clear as W1C says. -/
def execTeNantileClear (who : Agent) (m : Fin 128) (t : Fin 16) (w : Word) (s : State) : Out :=
  let te := 16 * m.val + t.val
  match s.letIn who .TE_FLAGS_NANTILE te with
  | .error s => done s
  | .ok s =>
    let (_, s) := s.applyWord who (Reg.TE_FLAGS_NANTILE.offset te) w.toNat
    done ((s.put .TE_FLAGS_NANTILE te false).put .TE_NANPOS_VALID te false)

/-- How many tasks a new TAIL adds to a queue. -/
def State.tasksAdded (s : State) (k v : Nat) : Nat :=
  let n := 2 * s.rd .TQ_SIZE k
  if n = 0 then 0 else (v % n + n - s.rd .TQ_TAIL k % n) % n

/-- A new TAIL of a queue. On a Mill with admitted invocations the tasks are those of the one that runs there; the firmware adds
none of the next one before its turn (R355), so a write that would is not made. -/
def State.addTasks (s : State) (m q v : Nat) : State :=
  let k := 8 * m + q
  match (s.mill m).jobs with
  | j :: rest =>
    let n := s.tasksAdded k v
    if j.todo < n then s
    else ((s.onMill m fun x => { x with jobs := { j with todo := j.todo - n } :: rest }).wr .TQ_TAIL k v).tqRefresh m q
  | [] => (s.wr .TQ_TAIL k v).tqRefresh m q

/-- TQ_TAIL_WRITE (R228). -/
def execTqTailWrite (who : Agent) (m : Fin 128) (q : Fin 8) (v : BitVec 9) (s : State) : Out :=
  match s.letIn who .TQ_TAIL (8 * m.val + q.val) with
  | .error s => done s
  | .ok s => done (s.addTasks m.val q.val v.toNat)

/-- Empty a queue and return it to IDLE; its running tasks are dropped with no posts, and their TEs are at a task boundary
(R246). -/
def State.tqClear (s : State) (m q : Nat) : State :=
  let k := 8 * m + q
  let busy := ((s.mill m).run.filter fun e => e.2.tq == q).map Prod.fst
  let s := s.onMill m fun x =>
    { x with
      run := x.run.filter fun e => e.2.tq != q, rerun := Table.set [] x.rerun q []
      exp := x.exp.filter fun e => e.2.q != q }
  ((s.wr .TQ_HEAD k (s.rd .TQ_TAIL k)).wr .TQ_STATE k 0).each busy fun s t => s.boundary m t

/-- TQ_CLR (R233): only a halted queue. -/
def execTqClr (who : Agent) (m : Fin 128) (q : Fin 8) (s : State) : Out :=
  match s.letIn who .TQ_CLR (8 * m.val + q.val) with
  | .error s => done s
  | .ok s => if s.tqHalted (8 * m.val + q.val) then done ((s.tqClear m.val q.val).millNext m.val) else done s

/-- TEs are asked to leave (R246): an idle one at once, a busy one at its task boundary. -/
def State.teOff (s : State) (m mask : Nat) : State :=
  if !s.millLive m then s
  else
    s.each ((bitList 16 mask).filter fun t => s.teLive m t) fun s t =>
      let s := (s.setBitOf .MILL_CTRL_TE_OFF m t).onMill m fun x => { x with offReq := setBit x.offReq t true }
      if (s.task m t).isNone then s.boundary m t else s

/-- TE_OFF. -/
def execTeOff (who : Agent) (m : Fin 128) (mask : BitVec 16) (s : State) : Out :=
  match s.letIn who .MILL_CTRL_TE_OFF m.val with
  | .error s => done s
  | .ok s => done (s.teOff m.val mask.toNat)

/-- TEs that have passed their retest are live again (R249). -/
def State.teReadmit (s : State) (m mask : Nat) : State :=
  if !s.millLive m then s
  else
    let ts := (bitList 16 (mask &&& s.mayReturn m)).filter fun t => !s.teLive m t
    let s := s.each ts fun s t => (s.setBitOf .MILL_STAT_TE_LIVE m t).setTeCause m t 0
    (s.wr .GLOBAL_AVAIL_TES_LIVE 0 (s.rd .GLOBAL_AVAIL_TES_LIVE + ts.length)).onMill m fun x =>
      { x with passed := ts.foldl (fun p t => setBit p t false) x.passed }

/-- TE_READMIT. -/
def execTeReadmit (who : Agent) (m : Fin 128) (mask : BitVec 16) (s : State) : Out :=
  match s.letIn who .MILL_CTRL_TE_READMIT m.val with
  | .error s => done s
  | .ok s => done (s.teReadmit m.val mask.toNat)

/-- The full self-test begins on a fenced Mill (R249). -/
def State.startRetest (s : State) (m : Nat) : State := if s.rd .MILL_STAT_STATE m = 1 then s.wr .MILL_STAT_STATE m 2 else s

/-- MILL_RETEST. -/
def execMillRetest (who : Agent) (m : Fin 128) (s : State) : Out :=
  match s.letIn who .MILL_CMD_RETEST m.val with
  | .error s => done s
  | .ok s => done (s.startRetest m.val)

/-- MILL_READMIT. -/
def execMillReadmit (who : Agent) (m : Fin 128) (s : State) : Out :=
  match s.letIn who .MILL_CMD_READMIT m.val with
  | .error s => done s
  | .ok s => done (s.askReadmit m.val)

/-! ### Self-test (R241 to R243) -/

/-- The failing TEs of a Mill in a list of results. -/
def failMask (l : List (Fin 128 × BitVec 16)) (m : Nat) : Nat :=
  l.foldl (fun a p => if p.1.val = m then a ||| p.2.toNat else a) 0

/-- The result of a self-test of a Mill that follows a reset or a wake (R241, R242): a TE that fails is removed with cause BIST, a
Mill that fails is removed as a whole (R247). -/
def State.bistMill (s : State) (fails : Nat) (bad : Bool) (m : Nat) : State :=
  let f := fails % 2 ^ 16
  let s := ((s.wr .MILL_STAT_TE_LIVE m (0xFFFF - f)).wr .MILL_STAT_STATE m 0).onMill m fun x =>
    { x with removals := (bitList 16 f).foldl (fun r t => Table.set 0 r t 1) x.removals }
  let s := s.each (bitList 16 f) fun s t => (s.setTeCause m t causeBist).record (s.millOwner m) .teRemoved m [t + causeBist * 2 ^ 4]
  s.when (bad || f == 0xFFFF) fun s => s.removeMill m millBist

/-- The live Mills of a list, and their live TEs. -/
def State.liveOf (s : State) (l : List Nat) : Nat × Nat :=
  let live := l.filter fun m => s.rd .MILL_STAT_STATE m == 0
  (live.length, (live.map fun m => popcount 16 (s.rd .MILL_STAT_TE_LIVE m)).sum)

/-- GLOBAL_AVAIL shows counts of Mills and TEs. -/
def State.setAvail (s : State) (mills tes : Nat) : State := (s.wr .GLOBAL_AVAIL_MILLS_LIVE 0 mills).wr .GLOBAL_AVAIL_TES_LIVE 0 tes

/-- The Mills of a quadrant. -/
def quadMills (q : Nat) : List Nat := (List.range 32).map (32 * q + ·)

/-- GLOBAL_AVAIL is loaded from the self-test results of a device reset (R36): every Mill is tested. -/
def State.loadAvail (s : State) (teFail : List (Fin 128 × BitVec 16)) (millFail : List (Fin 128)) : State :=
  let s := s.each (List.range 128) fun s m => s.bistMill (failMask teFail m) (millFail.any fun x => x.val == m) m
  let (n, t) := s.liveOf (List.range 128)
  ((s.onPm fun p => { p with bist := 0, counted := [] }).setAvail n t).wr .GLOBAL_AVAIL_NCC_LIVE 0 (16 - popcount 16 s.mail.fenced)

/-- A quadrant that has come on is under self-test (R241): none of its Mills is live before the result. -/
def State.quadTest (s : State) (q : Nat) : State :=
  (s.each (quadMills q) fun s m => (s.wr .MILL_STAT_STATE m 2).wr .MILL_STAT_TE_LIVE m 0).onPm fun p => { p with bist := setBit p.bist q true }

/-- The self-test of a quadrant ends: its results take the place in GLOBAL_AVAIL of what was counted for it (R36). -/
def State.quadTested (s : State) (q : Nat) (teFail : List (Fin 128 × BitVec 16)) (millFail : List (Fin 128)) : State :=
  let mills := s.rd .GLOBAL_AVAIL_MILLS_LIVE
  let tes := s.rd .GLOBAL_AVAIL_TES_LIVE
  let old := Table.get (0, 0) s.pm.counted q
  let s := s.each (quadMills q) fun s m => s.bistMill (failMask teFail m) (millFail.any fun x => x.val == m) m
  let (n, t) := s.liveOf (quadMills q)
  let s := (s.onPm fun p => { p with bist := setBit p.bist q false, counted := Table.erase p.counted q }).setAvail (mills + n - old.1)
    (tes + t - old.2)
  s.each (quadMills q) fun s m => s.hbRewrite m

/-- BIST_COMPLETE: of a quadrant under test, or of a Mill under retest (R249). -/
def execBistComplete (target : BistOf) (teFail : List (Fin 128 × BitVec 16)) (millFail : List (Fin 128)) (s : State) : Out :=
  match target with
  | .quadrant q => if bit s.pm.bist q.val then done (s.quadTested q.val teFail millFail) else done s
  | .mill m =>
    if s.rd .MILL_STAT_STATE m.val ≠ 2 ∨ bit s.pm.bist (quadOf m.val) then done s
    else
      let fails := failMask teFail m.val % 2 ^ 16
      let ok := !millFail.contains m && fails != 0xFFFF
      let s := (s.wr .MILL_STAT_STATE m.val 1).onMill m.val fun x =>
        { x with millPass := ok, passed := if ok then 0xFFFF - fails else 0 }
      let s := s.each ((bitList 16 fails).filter fun t => s.teCause m.val t != causeRetired) fun s t => s.setTeCause m.val t causeBist
      done (s.endUnitCmd m.val 16)

/-- TEST_PERIOD_TIMER (R243): a TEST task for every live TE of the quadrant, at once where it is idle. -/
def execTestPeriodTimer (q : Fin 4) (s : State) : Out :=
  if s.rd .MQ_TEST_PERIOD q.val = 0 ∨ !s.domOn (pdMq q.val) then done s
  else
    done (s.each (quadMills q.val) fun s m =>
      s.each ((List.range 16).filter fun t => s.millLive m && s.teLive m t) fun s t => s.askTest m t)

/-! ### UNIT_CTRL -/

/-- UNIT_CTRL (Table MB-4): remove, retest or readmit. DEDUCED: on a Mill that is fenced the command is about the Mill, else
about the TE. The reason codes of UNIT_ERR are not stated: a free value. -/
def execUnitCtrl (mb : Fin 64) (tag : BitVec 16) (s : State) : Out :=
  s.runCmd mb tag 0x68 false fun s c =>
    let m := bits (c.opw 0) 0 7
    let t := bits (c.opw 0) 7 4
    let whole := s.rd .MILL_STAT_STATE m != 0
    let live := s.millLive m && s.teLive m t
    let ok := fun (s : State) => s.finish mb.val c 0 0 (s.teCause m t)
    let no := fun (s : State) =>
      let (r, s) := s.fresh 32
      s.finish mb.val c 0x29 r 0
    match bits (c.opw 0) 11 2 with
    | 0 => if live then ok (s.teOff m (2 ^ t)) else ok s
    | 1 =>
      if whole then
        if s.rd .MILL_STAT_STATE m = 1 then
          ((s.begin_ mb.val c).startRetest m).onMail fun x => { x with unitCmds := x.unitCmds ++ [⟨mb.val, c.id, m, 16⟩] }
        else no s
      else if live || s.teCause m t == causeRetired then no s
      else
        ((s.begin_ mb.val c).askTest m t).onMail fun x => { x with unitCmds := x.unitCmds ++ [⟨mb.val, c.id, m, t⟩] }
    | _ =>
      if whole then (if (s.mill m).millPass then ok (s.askReadmit m) else no s)
      else if bit (s.mayReturn m) t then ok (s.teReadmit m (2 ^ t)) else no s

end Sys2Proof.Machine
end

