-- ==== Sys2Proof/Machine/Hatbox.lean ====
section
/-!
DEFINITION. Hatboxes (`spec/12_mailboxes_and_operators.md` R349 to R358; `spec/13_spurs_and_security.md` R374 to R376):
HB_LOAD, HB_UNLOAD, INVOKE, HB_QUERY.
-/
namespace Sys2Proof.Machine

/-- Hatbox and key operations are refused: QUARANTINE, or an open debug fuse (R349, R373). -/
def State.quarantined (s : State) : Bool := s.rd .NGX_STATE == 2 || s.flag .SEC_STAT_DBG_OPEN

/-! ### Authentication (Table SP-6, Table SP-7) -/

def hhBind (h : List Byte) : Nat := byteAt h 6
def hhNent (h : List Byte) : Nat := byteAt h 7
def hhBody (h : List Byte) : Nat := leAt h 8 8

/-- Check 1, FORMAT. -/
def hbFormatBad (img : HbImage) (length : Nat) : Bool :=
  let h := img.header
  h.length != 1152 || leAt h 0 4 != 0x7B1D0A57 || leAt h 4 2 != 1 || !(hhBind h == 1 || hhBind h == 2) ||
    (hhBind h == 1 && hhNent h != 1) || hhNent h == 0 || 16 < hhNent h || hhBody h == 0 || 268434304 < hhBody h ||
    leAt h 38 2 != 0 || leAt h 362 22 != 0 || img.length != hhBody h || length != 1152 + hhBody h

/-- Check 2: the SHA-384 of SIGNER_PUB is one of the Spur's hashes that is not zero (R375). -/
def State.signerTrusted (s : State) (sp : Nat) (h : List Byte) : Bool :=
  let d := Config.sha384 (((h.drop 168).take 97).map BitVec.toNat)
  (List.range 4).any fun k =>
    let w := (List.range 12).map fun i => s.rd .SIGNER_HASH ((4 * sp + k) * 12 + i)
    w.any (· != 0) && w == d

/-- The bytes a cryptographic check works on. -/
def hbBytes (img : HbImage) : List Nat × List Nat :=
  (img.header.map BitVec.toNat, img.length :: img.body.tasks.flatMap fun t => t.2.map BitVec.toNat)

/-- The reason of HB_AUTH, 0 for none (R376). -/
def State.hbAuth (s : State) (sp : Nat) (img : HbImage) (length : Nat) : Nat :=
  let h := img.header
  let (hb, bb) := hbBytes img
  let kit := hhBind h == 1
  let serial := s.rd64 .SEC_SERIAL_LO .SEC_SERIAL_HI
  if hbFormatBad img length then 1
  else if !s.signerTrusted sp h then 2
  else if !Config.hbCheck 3 hb bb then 3
  else if kit && !(s.flag .SEC_STAT_KIT_PRESENT && leAt h 384 8 == s.rd64 .SEC_KIT_ID_LO .SEC_KIT_ID_HI) then 4
  else if !kit && !((List.range (hhNent h)).any fun k => leAt h (384 + 48 * k) 8 == serial) then 5
  else if !Config.hbCheck 6 hb bb then 6
  else if !Config.hbCheck 7 hb bb then 7
  else 0

/-- The version that the image asks for and the firmware does not reach (R350). -/
def State.hbVersion (s : State) (h : List Byte) : Option Nat :=
  if s.rd .NGX_IF < leAt h 36 2 then some (leAt h 36 2)
  else if s.rd .NGX_VER < leAt h 40 4 then some (leAt h 40 4)
  else none

/-! ### HB_LOAD (R351) -/

/-- The NUMFMT word of a task is refused (R193). -/
def fmtErr (d : List Byte) : Bool := numfmtBad (tdFmt d) || clipBad (tdFmt d) (tdClipLo d) (tdClipHi d)

/-- Step 4: a NUMFMT word (FMT_ERR), a task descriptor or an operator (BAD_DESC) that is refused; status and DETAIL. The
spec gives no task index for an operator outside Table MB-6, so it is a free value. -/
def State.hbTasks (s : State) (b : HbBody) : Option (Nat × Nat) × State :=
  match b.numfmts.findIdx? fun w => numfmtBad w.toNat with
  | some i => (some (0x15, i), s)
  | none =>
    match b.tasks.findIdx? fun t => fmtErr t.2 with
    | some i => (some (0x15, i), s)
    | none =>
      match b.tasks.findIdx? fun t => !b.mills.contains t.1 || s.taskBad t.1.val t.2 || taskAlias t.2 with
      | some i => (some (0x11, i), s)
      | none =>
        if b.operatorsOk then (none, s)
        else
          let (v, s) := s.fresh 32
          (some (0x11, v), s)

/-- Step 5: the resource that does not fit, 0 for none: the Mills must be live ones of the Spur, the LPDDR its own. -/
def State.hbFit (s : State) (sp : Nat) (b : HbBody) : Nat :=
  if b.mills.any fun m => !bit (s.rd .SPUR_QUADS sp) (m.val / 4) || !s.millLive m.val then 1
  else if s.spurCap sp < b.lpddrBase + b.lpddrLen then 3
  else b.fit.val

/-- Step 6: weights, tables and task lists are written to the SRAM of the Mills, where the image says. -/
def State.hbWrite (s : State) (b : HbBody) : State := s.each b.sram fun s x => s.stSram x.1.val x.2.1.toNat x.2.2

/-- The place that a Hatbox takes: the lowest index with none loaded. -/
def State.hbFree (s : State) (sp : Nat) : Option Nat := (List.range 16).find? fun i => !(s.hb sp i).loaded

/-- Change a place. -/
def State.onHb (s : State) (sp i : Nat) (f : Hatbox → Hatbox) : State :=
  s.onMail fun m => { m with hbs := Table.upd {} m.hbs (16 * sp + i) f }

/-- Step 1: the image is copied into the Spur's LPDDR: the header and the sealed body, whose bytes only the source holds. An image in
LPDDR is copied from there. DESIGN CHOICE: it goes to the place that the Hatbox takes in LPDDR; an image longer than 256 MiB is not
copied, and fails check 1. -/
def State.hbCopy (s : State) (sp : Nat) (c : Cmd) (img : HbImage) : State :=
  let n := bits (c.opw 1) 0 32
  if 2 ^ 28 < n then s
  else if bit (c.opw 1) 32 then s.stSpur sp img.body.lpddrBase (s.ldSpur sp (c.opw 0) n)
  else
    let h := img.header.take n
    let (b, s) := s.freshBytes (n - h.length)
    s.stSpur sp img.body.lpddrBase (h ++ b)

/-- HB_LOAD: the first step that fails decides, and everything the load had taken is free again. An image in host memory waits while no
transfer of the function may be issued (R501). -/
def execHbLoad (mb : Fin 64) (tag : BitVec 16) (img : HbImage) (s : State) : Out :=
  s.runCmd mb tag 0x10 false fun s c =>
    let sp := mb.val / 8
    let b := img.body
    if !bit (c.opw 1) 32 && !(s.fnExists sp && s.mayIssue sp) then s
    else if s.quarantined then s.finish mb.val c 0x20 0 0
    else
      let s := s.hbCopy sp c img
      match s.hbAuth sp img (bits (c.opw 1) 0 32) with
      | r + 1 => s.finish mb.val c 0x1C (r + 1) 0
      | 0 =>
        match s.hbVersion img.header with
        | some v => s.finish mb.val c 0x1D v 0
        | none =>
          match s.hbTasks b with
          | (some (st, d), s) => s.finish mb.val c st d 0
          | (none, s) =>
            if s.hbFit sp b ≠ 0 then s.finish mb.val c 0x1E (s.hbFit sp b) 0
            else match s.hbFree sp with
              | none => s.finish mb.val c 0x1F 0 0
              | some i =>
                let g := (s.hb sp i).gen
                let s := (s.hbWrite b).onHb sp i fun _ =>
                  { gen := g, loaded := true, mills := b.mills.map Fin.val, lpddrBase := b.lpddrBase, lpddrLen := b.lpddrLen,
                    tasks := b.tasks.map fun t => (t.1.val, t.2)
                    sram := b.sram.map fun x => (x.1.val, x.2.1.toNat, x.2.2)
                    numfmts := b.numfmts.map BitVec.toNat, domains := b.domains.toNat, verdict := b.verdict, cost := b.cost,
                    outLen := b.outLen }
                s.finish mb.val c 0 0 (i + 16 * g)

/-- The loaded Hatbox that an HBID names: its index, if its generation is current. -/
def State.hbOf (s : State) (sp id : Nat) : Option Nat :=
  let i := bits id 0 4
  if bits id 12 4 = 0 ∧ (s.hb sp i).loaded ∧ (s.hb sp i).gen = bits id 4 8 then some i else none

/-- HB_UNLOAD (R351, R352): the generation rises. -/
def execHbUnload (mb : Fin 64) (tag : BitVec 16) (s : State) : Out :=
  s.runCmd mb tag 0x11 false fun s c =>
    let sp := mb.val / 8
    match s.hbOf sp (c.opw 0) with
    | none => s.finish mb.val c 0x1B 0 0
    | some i =>
      if s.mail.invs.any fun v => v.spur == sp && v.hb == i then s.finish mb.val c 0x1F 0 0
      else (s.onHb sp i fun h => { gen := (h.gen + 1) % 256 }).finish mb.val c 0 0 0


/-! ### INVOKE (R354) -/

/-- A Mill is in a Spur's set: assigned, live, and its quadrant is not about to be gated (R248, R424). -/
def State.inMillSet (s : State) (sp m : Nat) : Bool :=
  s.millHolder m == some sp && s.millLive m && bit s.staysOn (pdMq (quadOf m))

/-- The Mill on which the work of a Hatbox for a Mill runs. -/
def Hatbox.place (h : Hatbox) (m : Nat) : Nat := Table.get m h.moved m

/-- The Mills on which a Hatbox now runs. -/
def Hatbox.placed (h : Hatbox) : List Nat := (h.mills.map h.place).eraseDups

/-- A Mill that stands in for one that has left the set (R248): one of the Hatbox's own that remains, else one of the Spur's.
DESIGN CHOICE: which one, and where in its SRAM the weights and tables go, the firmware decides: free values. -/
def State.moveMill (s : State) (sp i m : Nat) : State :=
  let h := s.hb sp i
  let own := h.mills.filter fun n => s.inMillSet sp n
  let l := if own.isEmpty then (List.range 128).filter fun n => s.inMillSet sp n else own
  let (v, s) := s.fresh 7
  match l[v % max 1 l.length]? with
  | none => s
  | some n =>
    let s := s.onHb sp i fun h => { h with moved := Table.insert (Table.erase h.moved m) m n }
    s.each (h.sram.filter fun x => x.1 == m) fun s x =>
      let (a, s) := s.fresh 20
      s.stSram n a x.2.2

/-- The firmware maps a Hatbox onto the Mills of the Spur's set at an invocation boundary (R248, R425): a Mill that is in the set
runs its own work. -/
def State.hbRemap (s : State) (sp i : Nat) : State :=
  s.each (s.hb sp i).mills fun s m =>
    if s.inMillSet sp m then s.onHb sp i fun h => { h with moved := Table.erase h.moved m }
    else if (s.hb sp i).place m != m && s.inMillSet sp ((s.hb sp i).place m) then s
    else s.moveMill sp i m

/-- HB_QUERY: the record tells placement, worst-case cost, and the outputs with their bounds (R359); how it lays them out the spec does
not give. -/
def execHbQuery (mb : Fin 64) (tag : BitVec 16) (s : State) : Out :=
  s.runCmd mb tag 0x13 true fun s c =>
    let sp := mb.val / 8
    match s.hbOf sp (c.opw 0) with
    | none => s.finish mb.val c 0x1B 0 0
    | some i =>
      let h := s.hb sp i
      let rec' := (List.range 128).map fun k => BitVec.ofNat 8 (Config.hbRecord h.cost h.placed (s.hbCostOn sp i h.placed) h.outLen k)
      (s.post sp (.write (c.opw 1) rec')).finish mb.val c 0 0 128

/-- The domains that a Hatbox uses and that are off or about to be gated, its quadrants aside; the lowest of its quadrants' domains
where the Spur has no Mill left (R34, R425). -/
def State.hbDomainOff (s : State) (sp i : Nat) : Option Nat :=
  let h := s.hb sp i
  let off := h.domains &&& (0x1FFF - (s.rd .PM_STATUS_DOM_ON &&& s.staysOn))
  let isQuad := fun (d : Nat) => 8 ≤ d && d < 12
  match (bitList 13 off).find? fun d => !isQuad d with
  | some d => some d
  | none =>
    if !h.mills.isEmpty && (List.range 128).all fun m => !s.inMillSet sp m then (bitList 13 off).find? isQuad else none

/-- Steps 1 to 4 of admission at A: the status and DETAIL of the refusal. -/
def State.invokeBad (s : State) (sp i : Nat) (c : Cmd) : Option (Nat × Nat) :=
  let h := s.hb sp i
  let v := bits (c.opw 0) 16 6
  let empty := (List.range 16).all fun k => s.rd .VS_MASK (16 * v + k) == 0
  let vsOk := if h.verdict then s.flag .VS_EN v && s.rd .VS_SPUR v == sp else empty
  if !vsOk then some (0x1A, v)
  else match h.numfmts.findIdx? numfmtBad, h.tasks.findIdx? fun t => fmtErr t.2 with
    | some k, _ => some (0x15, k)
    | none, some k => some (0x15, k)
    | none, none =>
      if s.quarantined then some (0x20, 0)
      else match s.hbDomainOff sp i with
        | some d => some (0x19, d)
        | none =>
          if c.deadline < s.now + 250000 then some (0x16, ceilDiv (s.now + 250000 - c.deadline) 1000)
          else if s.now + 10 ^ 9 < c.deadline then some (0x17, 0)
          else none

/-- The worst-case cost of the invocations queued on some of these Mills (R354, step 7). -/
def State.queuedCost (s : State) (mills : List Nat) : Nat :=
  ((s.mail.invs.filter fun v => v.mills.any fun m => mills.contains m).map Inv.cost).sum

/-- The invocation is queued on its Mills in admission order (R355). -/
def State.queueInv (s : State) (v : Inv) : State :=
  let h := s.hb v.spur v.hb
  let work := fun (n : Nat) => (h.tasks.filter fun t => h.place t.1 == n).length
  let s := s.onMail fun m => { m with invs := m.invs ++ [v] }
  s.each (v.mills.filter fun n => work n != 0) fun s n =>
    s.onMill n fun x => { x with jobs := x.jobs ++ [{ mb := v.mb, id := v.id, todo := work n }] }

/-- Steps 6 to 8: the slot is armed, the Hatbox mapped onto the Mill set, the completion predicted, the invocation queued. A Hatbox
for which no Mill is left fails its budget (R248). DEDUCED: the DETAIL is then the largest. -/
def State.invokeArm (s : State) (mb sp i d spent : Nat) (c : Cmd) : State :=
  let a := s.now
  let s := s.armSlot d c.deadline (bits (c.opw 0) 32 32) (bits (c.opw 0) 22 2) (bits (c.opw 0) 16 6) sp
  let g := s.rd .SLOT_CTRL_GEN d
  let s := (s.invBoundary sp).hbRemap sp i
  let mills := (s.hb sp i).placed
  let cost := s.hbCostOn sp i mills
  let t := a + cost + (s.queuedCost mills - spent)
  if mills.any fun m => !s.inMillSet sp m then s.finish mb c 0x08 (2 ^ 32 - 1) 0
  else if c.deadline < t then s.finish mb c 0x08 (ceilDiv (t - c.deadline) 1000) 0
  else
    (s.onCmd mb c.id fun c => { c with stage := .begun, slot := some (d, g) }).queueInv
      { mb := mb, id := c.id, spur := sp, hb := i, slot := d, gen := g, win := bits (c.opw 0) 32 32, adm := a
        dl := c.deadline, cost := cost, mills := mills }

/-- INVOKE: admission (R353, R354). -/
def execInvoke (mb : Fin 64) (tag : BitVec 16) (spent : Nat) (s : State) : Out :=
  s.runCmd mb tag 0x12 false fun s c =>
    let sp := mb.val / 8
    match s.hbOf sp (c.opw 0 % 2 ^ 16) with
    | none => s.finish mb.val c 0x1B 0 0
    | some i =>
      match s.invokeBad sp i c with
      | some (st, d) => s.finish mb.val c st d 0
      | none =>
        match (List.range 1024).find? fun d => s.rd .SLOT_CTRL_STATE d != 1 with
        | none => s.finish mb.val c 0x18 0 0
        | some d => s.invokeArm mb.val sp i d spent c

end Sys2Proof.Machine
end

