-- ==== Sys2Proof/Machine/Memory.lean ====
section
/-!
DEFINITION. The LPDDR channels and the errors that reads outside the Mills meet (`spec/17_host_and_memory.md` R508, R512,
R513; `spec/09_milestones_and_buffers.md` R274), with the end of an FLR that waits for its scrubs (R547).
-/
namespace Sys2Proof.Machine

/-! ### States of a channel (Table HM-8) -/

def chReady : Nat := 2
def chSelfRefresh : Nat := 3
def chScrub : Nat := 4
def chFailed : Nat := 5

/-- A channel is held by a Spur. -/
def State.chanHeld (s : State) (c : Nat) : Bool := (List.range 8).any fun sp => bit (s.rd .SPUR_RES_CH sp) c

/-- A Spur holds a FAILED channel. -/
def State.holdsFailed (s : State) (sp : Nat) : Bool := (s.channels sp).any fun c => s.rd .MEM_STAT_STATE c == chFailed

/-- MEM_STAT of a channel from its assignment (R508, R509, R511): while no keys are ready no channel is enabled. FAILED and
SCRUB stay. -/
def State.chanRefresh (s : State) (c : Nat) : State :=
  let held := s.chanHeld c
  let on := held && s.flag .SEC_STAT_KEYS_READY
  let s := ((s.put .MEM_STAT_OWNED c held).wr .MEM_STAT_SPUR c (if held then s.chanOwner c else 0)).put .MEM_STAT_ENC c on
  let st := s.rd .MEM_STAT_STATE c
  if st = chFailed ∨ st = chScrub then s
  else s.wr .MEM_STAT_STATE c (if on then chReady else if held then 0 else chSelfRefresh)

/-- Every channel. -/
def State.chansRefresh (s : State) : State := s.each (List.range 8) fun s c => s.chanRefresh c

/-- An FLR ends once its scrubs have ended (R547): the Spur is CONFIGURED or NONE, or FAULTED while it holds a FAILED
channel. -/
def State.flrSettle (s : State) (sp : Nat) : State :=
  if s.rd .SPUR_STATE sp ≠ 4 ∨ (s.sec.scrubs.any fun x => x.spur == sp && x.cmd.isNone) then s
  else if s.holdsFailed sp then
    ((s.wr .SPUR_STATE sp 3).wr .ERR_FAULT_CODE sp 1).onSec fun x => { x with held := setBit x.held sp true }
  else ((s.wr .SPUR_STATE sp 0).wr .ERR_FAULT_CODE sp 0).spurRefresh sp

/-- A scrub of a channel stops because the channel fails: a SPUR_CFG that waits for it completes with CFG_ERR reason 2. -/
def State.scrubStops (s : State) (c : Nat) : State :=
  match s.sec.scrubs.find? fun x => x.kind == 1 && x.num == c with
  | none => s
  | some x =>
    let s := s.onSec fun y => { y with scrubs := y.scrubs.erase x }
    match x.cmd with
    | some (mb, id) =>
      (s.onSec fun y => { y with scrubs := y.scrubs.map fun z => if z.cmd = some (mb, id) then { z with cmd := none } else z }).finishId
        mb id 0x2A 2 0
    | none => s.flrSettle x.spur

/-- A channel becomes FAILED (R513, Table FR-2): 1 training, 2 PHY lock, 3 LINK_UE rate. Its Spur faults with code 1. -/
def State.chanFail (s : State) (c cause : Nat) : State :=
  if s.rd .MEM_STAT_STATE c = chFailed then s
  else
    let o := s.chanOwner c
    let s := (s.wr .MEM_STAT_STATE c chFailed).record2 o .chFailed c [cause]
    (s.when (s.chanHeld c) fun s => s.spurTrigger o 1).scrubStops c

/-- An uncorrectable link error on a read (R512, R513): more than 16 within 1 s fail the channel. -/
def State.linkUe (s : State) (c a : Nat) : State :=
  let s := (s.count .MEM_CNT (3 * c + 1)).record (s.chanOwner c) .linkUe c [a]
  let l := s.raw :: (Table.get [] s.linkUes c).filter fun t => s.raw ≤ t + 10 ^ 9
  let s := s.onLinkUes fun t => Table.set [] t c l
  s.when (16 < l.length) fun s => s.chanFail c 3

/-- The error that a read of a batt or of LPDDR meets: whether the data are lost, and the state. -/
def State.readErr (s : State) (e : ReadErr) (h : Nat) : Bool × State :=
  match e with
  | .none => (false, s)
  | .battCorrected => (false, s.count .BP_CNT 8)
  | .battUe =>
    let o := match (s.batt (hLong h) (hIndex h)).owner with | some (_, sp) => sp | none => 0
    (true, (s.count .BP_CNT 9).record o .battUe (hIndex h) [h])
  | .link ue c a => if ue then (true, s.linkUe c.val a.toNat) else (false, s.count .MEM_CNT (3 * c.val))

/-- LPDDR_RETRAIN (R508): a channel in operation retrains. -/
def execLpddrRetrain (c : Fin 8) (mr4 : Byte) (s : State) : Out :=
  if s.domOn pdMem ∧ s.rd .MEM_STAT_STATE c.val = chReady then
    done ((s.count .MEM_CNT (3 * c.val + 2)).wr .MEM_STAT_MR4 c.val mr4.toNat)
  else done s

/-- LPDDR_PHY_LOCK_LOSS (R513). -/
def execLpddrPhyLockLoss (c : Fin 8) (s : State) : Out :=
  if s.domOn pdMem then done (s.chanFail c.val 2) else done s

end Sys2Proof.Machine
end

