-- ==== Sys2Proof/Machine/Dma.lean ====
section
/-!
DEFINITION. The DMA engines of the Mills (`spec/08_mills.md` R223 to R226) and the tile reads of the Fuller for them (R176,
R224, R235).
-/
namespace Sys2Proof.Machine

/-! ### Descriptors (Table ML-2) -/

def ddKind (d : List Byte) : Nat := byteAt d 0
def ddHandle (d : List Byte) : Bool := bit (byteAt d 1) 0
def ddHalo (d : List Byte) : Nat := bits (byteAt d 1) 1 2
def ddTwoD (d : List Byte) : Bool := bit (byteAt d 1) 3
def ddWaits (d : List Byte) : List (Nat × Nat) := waitOf (leAt d 2 2)
def ddPost (d : List Byte) : Nat := leAt d 4 4
def ddSrc (d : List Byte) : Nat := leAt d 8 8
def ddDst (d : List Byte) : Nat := leAt d 16 8
def ddLen (d : List Byte) : Nat := leAt d 24 4
def ddStride (d : List Byte) : Nat := leAt d 28 4
def ddTile (d : List Byte) : Nat := bits (ddSrc d) 0 14
def ddSub (d : List Byte) : Nat := bits (ddSrc d) 14 6
def ddFmt (d : List Byte) : Nat := bits (ddSrc d) 20 2
def ddQueue (d : List Byte) : Nat := bits (ddSrc d) 0 9

/-- Row length and row count of a transfer; one row unless TWO_D. -/
def ddRow (d : List Byte) : Nat × Nat := if ddTwoD d then (ddLen d % 65536, ddLen d / 65536) else (ddLen d, 1)

/-- The row pitch of the source, or of the destination. -/
def ddPitch (d : List Byte) (dst : Bool) : Nat := if dst then ddStride d / 65536 else ddStride d % 65536

/-- The bytes from the first to the last that a side of the transfer touches. -/
def ddSpan (d : List Byte) (dst : Bool) : Nat := ((ddRow d).2 - 1) * ddPitch d dst + (ddRow d).1

/-- The offsets of the bytes that a side touches, rows in ascending order. -/
def ddOffsets (d : List Byte) (dst : Bool) : List Nat :=
  (List.range (ddRow d).2).flatMap fun r => (List.range (ddRow d).1).map fun i => r * ddPitch d dst + i

/-- The bytes of a line with its side-band tag in SRAM (R225). DESIGN CHOICE: the tag follows its line. -/
def eqrdStride : Nat := 66

/-! ### Targets -/

/-- A handle names an owned batt by its current generation (R264). -/
def State.handleLive (s : State) (h : Nat) : Bool :=
  let top := if hLong h then 2 ^ 20 else 16384
  h < 2 ^ 32 && hRsv h == 0 && hGen h != 0 && hIndex h < top && (s.batt (hLong h) (hIndex h)).gen == hGen h &&
    (s.batt (hLong h) (hIndex h)).owner.isSome

/-- The Spur that owns a batt. -/
def State.handleOwner (s : State) (h : Nat) : Option Nat := (s.batt (hLong h) (hIndex h)).owner.map Prod.snd

/-- The bytes of a batt (R263). -/
def battSize (h : Nat) : Nat := if hLong h then 4096 else 256

/-- Where a long batt of a Spur lies in its memory (R264). -/
def State.longAddr (s : State) (sp h : Nat) : Nat :=
  s.rd .BP_LONG_ADDR_LO sp * 2 ^ 12 + s.rd .BP_LONG_ADDR_HI sp * 2 ^ 32 + (hIndex h - s.rd .BP_LONG_BASE sp) * 4096

/-- A byte of a batt. -/
def State.ldBatt (s : State) (sp h i : Nat) : Byte :=
  if hLong h then ((s.ldSpur sp (s.longAddr sp h + i) 1).head?).getD 0 else s.ldByte .batts (hIndex h * 256 + i)

/-- Store a byte of a batt. -/
def State.stBatt (s : State) (sp h i : Nat) (b : Byte) : State :=
  if hLong h then s.stSpur sp (s.longAddr sp h + i) [b] else s.stByte .batts (hIndex h * 256 + i) b

/-- Bytes of a batt. -/
def State.ldBattBytes (s : State) (sp h n : Nat) : List Byte := (List.range n).map fun i => s.ldBatt sp h i

/-- The side of a transfer in the outside memory lies outside its target. -/
def State.outsideBad (s : State) (sp : Nat) (d : List Byte) (a : Nat) (dst : Bool) : Bool :=
  if ddHandle d then !s.handleLive a || s.handleOwner a != some sp || battSize a < ddSpan d dst
  else 2 ^ 40 ≤ a || s.spurCap sp < a + ddSpan d dst

/-- A range of SRAM that ends beyond it. -/
def sramBad (a n : Nat) : Bool := 2 ^ 20 < a + n

/-- Bytes of tile data for a tile read, without its trailer (R175, R224). -/
def State.tileBytes (s : State) (d : List Byte) : Nat :=
  let i := ddSub d
  let n := 16 + 2 * ddHalo d
  let words := if s.rd .SUB_KIND i ≤ 1 then (s.planes i).length else s.bufWords i
  n * n * words * s.elementBytes i (ddFmt d)

/-- The shape of a descriptor breaks Table ML-2, Table ML-3 or Table ML-4. -/
def State.dmaShapeBad (s : State) (m : Nat) (d : List Byte) : Bool :=
  let k := ddKind d
  let (row, cnt) := ddRow d
  !(1 ≤ k && k ≤ 5) || 16 ≤ byteAt d 1 || (ddTwoD d && 4 ≤ k) || (!ddTwoD d && ddStride d != 0) || ddHalo d == 3 ||
    s.postBad m (ddPost d) ||
    (k ≤ 3 && (row == 0 || cnt == 0 || 2 ^ 20 < row * cnt)) ||
    (ddTwoD d && (ddPitch d false < row || ddPitch d true < row))

/-- An address or length outside its target, a target outside the Spur, or a forbidden queue (R225, R226). -/
def State.dmaTargetBad (s : State) (m : Nat) (d : List Byte) : Bool :=
  let sp := s.millOwner m
  match ddKind d with
  | 1 => s.outsideBad sp d (ddSrc d) false || sramBad (ddDst d) (ddSpan d true)
  | 2 => sramBad (ddSrc d) (ddSpan d false) || s.outsideBad sp d (ddDst d) true
  | 3 =>
    sramBad (ddSrc d) (ddSpan d false) || sramBad (bits (ddDst d) 0 20) (ddSpan d true) || 2 ^ 27 ≤ ddDst d ||
      !s.sameSpur m (bits (ddDst d) 20 7)
  | 4 =>
    let i := ddSub d
    !s.flag .SUB_EN i || (s.sub i).spur != sp || (s.subTiles i).1 * (s.subTiles i).2 ≤ ddTile d || bits (ddSrc d) 22 2 != 0 ||
      ddFmt d == 3 || sramBad (ddDst d) (s.tileBytes d + 8)
  | _ =>
    512 ≤ ddSrc d || s.eqOwner (ddQueue d) != sp || s.fullerBound (ddQueue d) ||
      sramBad (ddDst d) (ddLen d * eqrdStride)

/-- The object of another Spur that a descriptor names, if it does (R384, class 4). DEDUCED: R226 lists these refusals and
R384 gives the class to it. -/
def State.dmaForeign (s : State) (m : Nat) (d : List Byte) : Option Nat :=
  let sp := s.millOwner m
  let batt := fun a => if ddHandle d && s.handleLive a && s.handleOwner a != some sp then some (hIndex a) else none
  match ddKind d with
  | 1 => batt (ddSrc d)
  | 2 => batt (ddDst d)
  | 3 => if !s.sameSpur m (bits (ddDst d) 20 7) then some (bits (ddDst d) 20 7) else none
  | 4 => if s.flag .SUB_EN (ddSub d) && (s.sub (ddSub d)).spur != sp then some (ddSub d) else none
  | 5 => if s.eqOwner (ddQueue d) != sp then some (ddQueue d) else none
  | _ => none

/-! ### Channels -/

/-- The transfers of a channel, oldest first. -/
def State.xfers (s : State) (m ch : Nat) : List Xfer := Table.get [] (s.mill m).chans ch

/-- Change the transfers of a channel. -/
def State.onXfers (s : State) (m ch : Nat) (f : List Xfer → List Xfer) : State :=
  s.onMill m fun x => { x with chans := Table.upd [] x.chans ch f }

/-- The descriptor that HEAD names. -/
def State.dmaDesc (s : State) (m ch : Nat) : List Byte :=
  let k := 4 * m + ch
  s.ldBytes (.mill m) ((s.rd .DC_BASE k + 32 * s.rd .DC_HEAD k) % 2 ^ 20) 32

/-- The tiles of a tile read with its halo, inside the grid (R224). -/
def State.haloRead (s : State) (d : List Byte) : List Nat :=
  let (tx, ty) := s.subTiles (ddSub d)
  let t := ddTile d
  if ddHalo d = 0 then [t]
  else (List.range (tx * ty)).filter fun u =>
    u / tx ≤ t / tx + 1 && t / tx ≤ u / tx + 1 && u % tx ≤ t % tx + 1 && t % tx ≤ u % tx + 1

/-- Room for one more transfer: 16 in flight over the four channels, 4 of them tile reads. -/
def State.dmaRoom (s : State) (m : Nat) (d : List Byte) : Bool :=
  let all := (s.mill m).chans.flatMap Prod.snd
  all.length < 16 && (ddKind d != 4 || (all.filter fun x => ddKind x.desc == 4).length < 4)

/-- A descriptor fails its check (R226): the channel halts. -/
def State.dmaRefuse (s : State) (m ch : Nat) (d : List Byte) : State :=
  let s := (s.put .DC_ERR (4 * m + ch) true).record (s.millOwner m) .dmaErr m [ch]
  match s.dmaForeign m d with
  | some o => s.isoViolation (s.millOwner m) isoDma o
  | none => s

/-- DMA_TAIL_WRITE. -/
def execDmaTailWrite (who : Agent) (m : Fin 128) (ch : Fin 4) (v : BitVec 6) (s : State) : Out :=
  let k := 4 * m.val + ch.val
  match s.letIn who .DC_TAIL k with
  | .error s => done s
  | .ok s => done (s.wr .DC_TAIL k v.toNat)

/-- DMA_DESCRIPTOR_FETCH (R226): the next descriptor of a channel once its wait is met. DEDUCED: an uncorrectable error in
the descriptor ends the transfer before it begins. -/
def execDmaDescriptorFetch (m : Fin 128) (ch : Fin 4) (ecc : SramEcc) (s : State) : Out :=
  let m := m.val
  let ch := ch.val
  let k := 4 * m + ch
  let d := s.dmaDesc m ch
  if !s.millLive m || s.draining m || s.flag .DC_ERR k || s.rd .DC_HEAD k == s.rd .DC_TAIL k || !s.waitsMet m (ddWaits d) ||
      !s.dmaRoom m d then done s
  else
    let s := s.sramCe m ecc
    match ecc.ue with
    | some a => done ((s.wr .DC_HEAD k (s.rd .DC_HEAD k + 1)).sramUe m a.toNat)
    | none =>
      if s.dmaShapeBad m d || s.dmaTargetBad m d then done (s.dmaRefuse m ch d)
      else
        let s := (s.consume m (ddWaits d)).wr .DC_HEAD k (s.rd .DC_HEAD k + 1)
        done (s.onXfers m ch fun l => l ++ [{ desc := d, todo := if ddKind d = 4 then s.haloRead d else [] }])

/-! ### Tile reads (R176, R224, R235) -/

/-- A 40-bit reference time extended against Waytime now (R224). -/
def extendRef (now r : Nat) : Nat :=
  let c : Int := now / 2 ^ 40 * 2 ^ 40 + r
  let d : Int := c - now
  (if d < -(2 ^ 39) then c + 2 ^ 40 else if 2 ^ 39 ≤ d then c - 2 ^ 40 else c).toNat

/-- The next tile of a DMA tile read, whichever of the channel's transfers it belongs to. -/
def State.readDmaTile (s : State) (m ch : Nat) : State :=
  match (s.xfers m ch).findIdx? fun x => !x.todo.isEmpty with
  | none => s
  | some j =>
    match (s.xfers m ch)[j]? with
    | none => s
    | some x =>
      match x.todo with
      | [] => s
      | t :: rest =>
        let d := x.desc
        let (ps, tag, s) := s.readTile (ddSub d) t (extendRef s.nowUs (bits (ddSrc d) 24 40)) (ddLen d) (ddFmt d)
        s.onXfers m ch fun l => l.set j { x with todo := rest, got := x.got ++ [(t, ps)], tag := x.tag ||| tag }

/-- The elements of planes as bytes, plane after plane in raster order. -/
def planeBytes (ps : List (List Nat)) (size : Nat) : List Byte := ps.flatMap fun p => p.flatMap fun v => leBytes size v

/-- The trailer of a tile read: its tag and its tile index; the other four bytes are not stated, free values (R224). -/
def State.tileTrailer (s : State) (tag tile : Nat) : List Byte × State :=
  let (v, s) := s.fresh 32
  (leBytes 2 tag ++ leBytes 2 tile ++ leBytes 4 v, s)

/-- The tile of an instance of a sparse template. DESIGN CHOICE: the spec gives this read no reference, window or format; the
reference is the end of the last closed window, the window is that one, the format is that of the A operand, or free where A has
another format. -/
def State.readTaskTile (s : State) (m te : Nat) : State :=
  match s.task m te with
  | none => s
  | some r =>
    if !r.reading then s
    else
      let i := tdSrc r.desc % 64
      let c := (s.sub i).cur
      let (v, s) := s.fresh 2
      let fmt := match nfA (tdFmt r.desc) with | 1 => 0 | 5 => 1 | 6 => 2 | _ => v % 3
      let (ps, tag, s) := s.readTile i r.tile (c * s.winLen i) (c - 1) fmt
      let (tail, s) := s.tileTrailer tag r.tile
      let s := s.stSram m (tdA r.desc + r.shift) (planeBytes ps (s.elementBytes i fmt) ++ tail)
      s.setTask m te { r with reading := false }

/-- TILE_READ. -/
def execTileRead (m : Fin 128) (req : TileReq) (nap : List NapErr) (s : State) : Out :=
  if !s.fulLive || !s.millLive m.val then done s
  else
    let s := s.each nap fun s e => s.napError e
    match req with
    | .dma ch => done (s.readDmaTile m.val ch.val)
    | .task te => done (s.readTaskTile m.val te.val)

/-! ### Completion (R224 to R226) -/

/-- The pixel of the window centred on a tile, from the tiles read; 0 beyond the grid. -/
def State.haloPixel (s : State) (x : Xfer) (k px py : Nat) : Nat :=
  let i := ddSub x.desc
  let (tx, _) := s.subTiles i
  let (w, h) := s.subGrid i
  let gx : Int := (ddTile x.desc % tx * 16 : Nat) + (px : Int) - ddHalo x.desc
  let gy : Int := (ddTile x.desc / tx * 16 : Nat) + (py : Int) - ddHalo x.desc
  if gx < 0 ∨ gy < 0 ∨ (w : Int) ≤ gx ∨ (h : Int) ≤ gy then 0
  else
    let (t, p) := s.tileOf i gx.toNat gy.toNat
    match x.got.find? fun e => e.1 == t with
    | none => 0
    | some (_, ps) => (((ps[k]?).getD [])[p]?).getD 0

/-- The pixels of a tile read. -/
def State.tileOut (s : State) (x : Xfer) : List Byte :=
  let i := ddSub x.desc
  let n := 16 + 2 * ddHalo x.desc
  let planes := match x.got with | [] => 0 | (_, ps) :: _ => ps.length
  let ps := (List.range planes).map fun k => (List.range (n * n)).map fun j => s.haloPixel x k (j % n) (j / n)
  planeBytes ps (s.elementBytes i (ddFmt x.desc))

/-- The bytes that a transfer of kind LD, ST or XM moves. -/
def State.dmaData (s : State) (m : Nat) (d : List Byte) : List Byte :=
  let sp := s.millOwner m
  (ddOffsets d false).map fun o =>
    if ddKind d = 1 then
      if ddHandle d then s.ldBatt sp (ddSrc d) o else ((s.ldSpur sp (ddSrc d + o) 1).head?).getD 0
    else s.ldByte (.mill m) (ddSrc d + o)

/-- Store one byte of a transfer at an offset of its destination. -/
def State.dmaStore (s : State) (m : Nat) (d : List Byte) (o : Nat) (b : Byte) : State :=
  let sp := s.millOwner m
  match ddKind d with
  | 2 => if ddHandle d then s.stBatt sp (ddDst d) o b else s.stSpur sp (ddDst d + o) [b]
  | 3 => s.stByte (.mill (bits (ddDst d) 20 7)) (bits (ddDst d) 0 20 + o) b
  | _ => s.stByte (.mill m) (ddDst d + o) b

/-- EQRD: line after line, each with its tag (R225). -/
def State.eqrdLines (s : State) (q : Nat) : Nat → List (BitVec 8 × BitVec 8 × Bool) → List Byte × State
  | 0, _ => ([], s)
  | n + 1, ls =>
    let (ce, ue, bad) := ls.head?.getD (0, 0, false)
    let (tag, line, s) := s.popLine q ce.toNat ue.toNat bad
    let (rest, s) := State.eqrdLines s q n ls.tail
    ((line.flatMap fun r => leBytes 8 r.toNat) ++ leBytes 2 tag ++ rest, s)

/-- The destination of a transfer takes bytes: a fenced Mill gives no credits (R19, R247). -/
def State.dmaTakes (s : State) (d : List Byte) : Bool := ddKind d != 3 || s.millLive (bits (ddDst d) 20 7)

/-- The bytes of a transfer with the offsets they go to, in order, and the state after its reads. -/
def State.dmaBytes (s : State) (m : Nat) (x : Xfer) (lines : List (BitVec 8 × BitVec 8 × Bool)) :
    List (Nat × Byte) × State :=
  let d := x.desc
  match ddKind d with
  | 4 =>
    let b := s.tileOut x
    let (tail, s) := s.tileTrailer x.tag (ddTile d)
    ((b ++ tail).zipIdx.map fun p => (p.2, p.1), s)
  | 5 =>
    let (b, s) := s.eqrdLines (ddQueue d) (ddLen d) lines
    (b.zipIdx.map fun p => (p.2, p.1), s)
  | _ => ((ddOffsets d true).zip (s.dmaData m d), s)

/-- DMA_TRANSFER_COMPLETE (R226, R221, R512): the oldest transfer of a channel. A read that loses data ends the transfer
with no post; how much of it had been written by then the spec does not say. -/
def execDmaTransferComplete (m : Fin 128) (ch : Fin 4) (ecc : SramEcc) (err : ReadErr)
    (lines : List (BitVec 8 × BitVec 8 × Bool)) (s : State) : Out :=
  let m := m.val
  if !s.millLive m then done s
  else match s.xfers m ch.val with
    | [] => done s
    | x :: rest =>
      if !x.todo.isEmpty || !s.dmaTakes x.desc then done s
      else
        let s := (s.sramCe m ecc).onXfers m ch.val fun _ => rest
        let (bs, s) := s.dmaBytes m x lines
        let (lost, s) := s.readErr err (ddSrc x.desc)
        if lost || ecc.ue.isSome then
          let (n, s) := s.fresh 21
          let s := s.each (bs.take (n % (bs.length + 1))) fun s p => s.dmaStore m x.desc p.1 p.2
          match ecc.ue with
          | some a => done (s.sramUe m a.toNat)
          | none => done s
        else
          let s := s.each bs fun s p => s.dmaStore m x.desc p.1 p.2
          done (s.doPost m (ddPost x.desc))

end Sys2Proof.Machine
end

