-- ==== Sys2Proof/Machine/Fusion.lean ====
section
/-!
DEFINITION. The Projectors and the shared grid (`spec/10_fusion_and_tracking.md` R277 to R289).
-/
namespace Sys2Proof.Machine

/-! ### The grid of a Spur (R283, R284) -/

/-- The grid of a Spur beyond its registers. -/
def State.grid (s : State) (sp : Nat) : GridSt := Table.get {} s.ft.grids sp

/-- Change the grid of a Spur. -/
def State.onGrid (s : State) (sp : Nat) (f : GridSt → GridSt) : State :=
  s.onFt fun x => { x with grids := Table.upd {} x.grids sp f }

/-- NX, NY and NB of a Spur. -/
def State.gridDims (s : State) (sp : Nat) : Nat × Nat × Nat :=
  (s.rd .GRID_CFG_NX sp + 1, s.rd .GRID_CFG_NY sp + 1, s.rd .GRID_CFG_NB sp)

/-- Bytes of a channel value: INT8 or BF16. -/
def State.gridEl (s : State) (sp : Nat) : Nat := if s.flag .GRID_CFG_FMT sp then 2 else 1

/-- Cells of a buffer. -/
def State.gridCells (s : State) (sp : Nat) : Nat := let (nx, ny, nb) := s.gridDims sp; nx * ny * nb

/-- BUFSZ (R284). -/
def State.gridBuf (s : State) (sp : Nat) : Nat := s.gridCells sp * (32 * s.gridEl sp + 4)

/-- The Spur-relative base of the buffer of a window. -/
def State.gridBase (s : State) (sp win : Nat) : Nat := s.rd .GRID_ADDR sp + win % 2 * s.gridBuf sp

/-- The number of a cell (R284). -/
def State.cellNo (s : State) (sp i j b : Nat) : Nat := let (nx, ny, _) := s.gridDims sp; (b * ny + j) * nx + i

/-- The address of a channel of a cell. -/
def State.chanAddr (s : State) (sp win cell c : Nat) : Nat := s.gridBase sp win + (cell * 32 + c) * s.gridEl sp

/-- The address of the stamp of a cell. -/
def State.stampAddr (s : State) (sp win cell : Nat) : Nat :=
  s.gridBase sp win + s.gridCells sp * 32 * s.gridEl sp + cell * 4

/-- The grid tile of a cell (R288). -/
def State.gridTile (s : State) (sp i j : Nat) : Nat := j / 16 * ((s.rd .GRID_CFG_NX sp + 1) / 16) + i / 16

/-- A number of little-endian bytes in a Spur's memory. -/
def State.ldSpurLe (s : State) (sp a n : Nat) : Nat := ofLe (s.ldSpur sp a n)

/-! ### Windows (R282, R287) -/

/-- The signed distance of two window numbers, 32 bits. -/
def winDiff (a b : Nat) : Int := toSigned 32 (a + 2 ^ 32 - b % 2 ^ 32)

/-- What a window number is to a Spur: open or next to be opened, closed (or before every open one, DEDUCED), or too far
ahead. -/
inductive WinClass where
  | ok | late | ahead
deriving DecidableEq, Repr

/-- The class of a window number. -/
def GridSt.classify (g : GridSt) (w : Nat) : WinClass :=
  if g.opened.any fun x => x.win == w then .ok
  else if (match g.closed with | some c => winDiff w c ≤ 0 | none => false : Bool) then .late
  else match g.opened with
    | [] => .ok
    | o :: _ => if winDiff w o.win = 1 then .ok else if winDiff w o.win < 0 then .late else .ahead

/-- Clear one grid tile of a buffer: channels to 0, stamps to NONE. -/
def State.clearTile (s : State) (sp win t : Nat) : State :=
  let (nx, _, nb) := s.gridDims sp
  let tx := nx / 16
  s.each (List.range nb) fun s b => s.each (List.range 256) fun s k =>
    let c := s.cellNo sp (t % tx * 16 + k % 16) (t / tx * 16 + k / 16) b
    (s.stSpur sp (s.chanAddr sp win c 0) (List.replicate (32 * s.gridEl sp) 0)).stSpur sp (s.stampAddr sp win c)
      (leBytes 4 (2 ^ 31))

/-- The tiles of a buffer to be cleared, none standing for all (R287). -/
def State.tilesOf (s : State) (sp : Nat) (d : Option Nat) : List Nat :=
  let (nx, ny, _) := s.gridDims sp
  let n := nx / 16 * (ny / 16)
  match d with
  | none => List.range n
  | some d => bitList n d

/-- Open a window that is not open yet: its buffer is cleared where a window left it dirty (R287). -/
def State.openWin (s : State) (sp w : Nat) : State :=
  let g := s.grid sp
  if g.opened.any fun x => x.win == w then s
  else
    let d := if w % 2 = 0 then g.dirty0 else g.dirty1
    let s := s.each (s.tilesOf sp d) fun s t => s.clearTile sp w t
    let susp := (List.range 256).foldl (fun a i => if s.suspended i then setBit a i true else a) 0
    s.onGrid sp fun g =>
      { g with
        opened := g.opened ++ [{ win := w, susp := susp }]
        dirty0 := if w % 2 = 0 then some 0 else g.dirty0
        dirty1 := if w % 2 = 1 then some 0 else g.dirty1 }

/-- Change an open window. -/
def State.onWin (s : State) (sp w : Nat) (f : GridWin → GridWin) : State :=
  s.onGrid sp fun g => { g with opened := g.opened.map fun x => if x.win = w then f x else x }

/-- Set a flag of a window (R289): of an open one, or of the closed one that the summary shows, GW_WIN. -/
def State.gridFlag (s : State) (sp w b : Nat) : State :=
  let g := s.grid sp
  if g.opened.any fun x => x.win == w then s.onWin sp w fun x => { x with flags := setBit x.flags b true }
  else if g.closed.isSome ∧ s.rd .GW_WIN sp = w then s.setBitOf .GW_FLAGS sp b
  else s

/-! ### Calibration (R276, R302) -/

/-- The Spurs that a register of R302 is for: a grid's own; for CAL the owner of the slot's port and every Spur to which the slot is
granted; for AUXF, which names no Spur, every one. Other registers are for none. -/
def State.ftSpurs (s : State) (off : Nat) : List Nat :=
  let slot := (off - 0x180000) / 0x80
  if 0x180000 ≤ off ∧ off < 0x188000 then
    (List.range 8).filter fun sp => s.portOwner (slot / 32) == sp || bit (s.rd .SPUR_GRANT (8 * sp + slot / 32)) (slot % 32)
  else if 0x18C800 ≤ off ∧ off < 0x18D000 then List.range 8
  else if 0x18D000 ≤ off ∧ off < 0x18D800 ∧ off % 0x100 < 0x20 then [(off - 0x18D000) / 0x100]
  else []

/-- A job of the Spur is in progress, or a window of its grid is open. -/
def State.ftBusy (s : State) (sp : Nat) : Bool := s.ft.jobs.any (fun e => e.2.spur == sp) || !(s.grid sp).opened.isEmpty

/-- R302 holds a register as it is: it is for a Spur that works. -/
def State.ftHeld (s : State) (off : Nat) : Bool := (s.ftSpurs off).any fun sp => s.ftBusy sp

/-- The firmware sets what a slot's CAL takes from its head: RAW is the inverse of SLOT_RECT.EN, and `all` copies FX, FY, CX and
CY from INTRINSICS (R276). -/
def State.calSet (s : State) (slot : Nat) (all : Bool) : State :=
  let k := fun i => ((Table.get {} s.slots slot).intrinsics[i]?).getD 0
  let s := s.put .CAL_RAW slot (!s.flag .SLOT_RECT_EN slot)
  if all then (((s.wr .CAL_FX slot (k 0)).wr .CAL_FY slot (k 1)).wr .CAL_CX slot (k 2)).wr .CAL_CY slot (k 3) else s

/-- The firmware is to set a slot's CAL: at once, or between windows (R302). -/
def State.calFollow (s : State) (slot : Nat) (all : Bool) : State :=
  if s.ftHeld (0x180000 + slot * 0x80) then
    s.onFt fun f => { f with calDue := Table.insert f.calDue slot (all || Table.get false f.calDue slot) }
  else s.calSet slot all

/-- What the firmware had to hold back is set for every slot that is free again. -/
def State.calSettle (s : State) : State :=
  let now := s.ft.calDue.filter fun e => !s.ftHeld (0x180000 + e.1 * 0x80)
  (s.onFt fun f => { f with calDue := f.calDue.filter fun e => !now.contains e }).each now fun s e => s.calSet e.1 e.2

/-! ### Job descriptors (Table FT-1, Table FT-2) -/

def pjKind (d : List Byte) : Nat := byteAt d 0
def pjMode (d : List Byte) : Nat := byteAt d 1
def pjSrc (d : List Byte) : Nat := byteAt d 2
def pjDs (d : List Byte) : Nat := byteAt d 3
def pjCh (d : List Byte) : Nat := byteAt d 4
def pjCh0 (d : List Byte) : Nat := byteAt d 5
def pjHandle (d : List Byte) : Nat := leAt d 8 4
def pjWin (d : List Byte) : Nat := leAt d 12 4

/-- A head slot belongs to a Spur: its port does, or SPUR_GRANT names it (DEDUCED: R365 grants its records). -/
def State.slotOf (s : State) (sp slot : Nat) : Bool :=
  s.portOwner (unitOfSlot slot) == sp || bit (s.rd .SPUR_GRANT (8 * sp + slot / 32)) (slot % 32)

/-- PRJ_DESC without the batt: a reserved encoding, CH0 + CH above 32, or SRC not of the Spur (R282). -/
def State.jobBad (s : State) (sp : Nat) (d : List Byte) : Bool :=
  let img := pjKind d == 1
  !(img || pjKind d == 2) || (if img then 2 ≤ pjMode d else pjMode d != 0) || 6 ≤ pjDs d ||
    pjCh d == 0 || 33 ≤ pjCh d || 33 ≤ pjCh0 d + pjCh d || leAt d 16 16 != 0 ||
    (if img then !s.slotOf sp (pjSrc d) else 16 ≤ pjSrc d)

/-- Bytes of a record (R279). -/
def State.recSize (s : State) (sp : Nat) (d : List Byte) : Nat := (16 + pjCh d * s.gridEl sp + 7) / 8 * 8

/-- Record `k` of a job's batt. -/
def State.jobRec (s : State) (sp : Nat) (d : List Byte) (k : Nat) : List Byte :=
  let n := s.recSize sp d
  (List.range n).map fun i => s.ldBatt sp (pjHandle d) (8 + k * n + i)

/-- NREC of a job's batt. -/
def State.jobNrec (s : State) (sp : Nat) (d : List Byte) : Nat := ofLe ((List.range 2).map fun i => s.ldBatt sp (pjHandle d) i)

/-! ### Cells (R285, R286) -/

/-- A stamp is the later of two, modulo 2³¹; an equal one is. -/
def stampLater (a b : Nat) : Bool := (a + 2 ^ 31 - b % 2 ^ 31) % 2 ^ 31 < 2 ^ 30

/-- The value of a channel's bits. -/
def gridValue (bf : Bool) (n : Nat) : FVal := if bf then bf16.decode n else fInt (toSigned 8 n)

/-- SUM of two channel values, and whether it saturates. -/
def gridSum (bf : Bool) (a b : Nat) : Nat × Bool :=
  if bf then
    match gridValue true a, gridValue true b with
    | .fin x, .fin y =>
      match bf16.round (.fin (x + y)) with
      | .inf neg => (bf16.encode (.fin (if neg then -bf16.maxVal else bf16.maxVal)), true)
      | v => (bf16.encode v, false)
    | x, y => (bf16.encode (fadd x y), false)
  else
    let z := toSigned 8 a + toSigned 8 b
    (ofSigned 8 (clampInt (-128) 127 z), z < -128 || 127 < z)

/-- The combine rule of a channel. -/
def State.gridComb (s : State) (sp c : Nat) : Nat :=
  if c < 16 then bits (s.rd .GRID_COMB_LO sp) (2 * c) 2 else bits (s.rd .GRID_COMB_HI sp) (2 * (c - 16)) 2

/-- A record updates one channel of a cell whose stamp word is `old`. -/
def State.cellChan (s : State) (sp win cell c old stamp v : Nat) : State :=
  let bf := s.flag .GRID_CFG_FMT sp
  let n := s.gridEl sp
  let a := s.chanAddr sp win cell c
  let cur := s.ldSpurLe sp a n
  match s.gridComb sp c with
  | 0 => if flt (gridValue bf cur) (gridValue bf v) then s.stSpur sp a (leBytes n v) else s
  | 1 =>
    let (x, sat) := gridSum bf cur v
    (s.stSpur sp a (leBytes n x)).when sat fun s => s.count .FT_CNT 4
  | _ => if bit old 31 || stampLater stamp old then s.stSpur sp a (leBytes n v) else s

/-- A record updates a cell: its channels, then the stamp, and the tile is dirty. -/
def State.cellWrite (s : State) (sp win i j b ch0 stamp : Nat) (vals : List Nat) : State :=
  let cell := s.cellNo sp i j b
  let a := s.stampAddr sp win cell
  let old := s.ldSpurLe sp a 4
  let s := s.each vals.zipIdx fun s p => s.cellChan sp win cell (ch0 + p.2) old stamp p.1
  let s := if bit old 31 || stampLater stamp old then s.stSpur sp a (leBytes 4 stamp) else s
  s.onWin sp win fun x => { x with dirty := setBit x.dirty (s.gridTile sp i j) true }

/-! ### The arithmetic of a record (R280, R281) -/

/-- The height at which band b begins; Z_TOP for b = NB. -/
def State.bandLo (s : State) (sp b : Nat) : Int :=
  if b < s.rd .GRID_CFG_NB sp then s.rdSigned .GRID_Z_LO (8 * sp + b) else s.rdSigned .GRID_Z_TOP sp

/-- The band that contains a height. -/
def State.bandOf (s : State) (sp : Nat) (z : FVal) : Option Nat :=
  (List.range (s.rd .GRID_CFG_NB sp)).find? fun b => fle (fInt (s.bandLo sp b)) z && flt z (fInt (s.bandLo sp (b + 1)))

/-- The cell of a point, inside the grid. -/
def State.cellOf (s : State) (sp : Nat) (p : List FVal) : Option (Nat × Nat) :=
  let (nx, ny, _) := s.gridDims sp
  let cell := fInt (s.rd .GRID_CFG_CELL sp)
  match ffloor (fdiv (fsub (fAt p 0) (f32 (s.rd .GRID_X0 sp))) cell), ffloor (fdiv (fsub (fAt p 1) (f32 (s.rd .GRID_Y0 sp))) cell) with
  | some i, some j => if 0 ≤ i ∧ i < nx ∧ 0 ≤ j ∧ j < ny then some (i.toNat, j.toNat) else none
  | _, _ => none

/-- The pose that a job uses: of its head, or of its auxiliary frame. -/
def State.jobPose (s : State) (d : List Byte) : List FVal × List FVal :=
  if pjKind d = 1 then s.headPose (pjSrc d)
  else ((List.range 9).map fun i => f32 (s.rd .AUXF_BR (9 * pjSrc d + i)),
    (List.range 3).map fun i => f32 (s.rd .AUXF_BT (3 * pjSrc d + i)))

/-- P = C + k · d. -/
def alongRay (c d : List FVal) (k : FVal) : List FVal := (List.range 3).map fun i => fadd (fAt c i) (fmul k (fAt d i))

/-- The ray direction of an IMG record. -/
def State.rayOf (s : State) (d : List Byte) (rot : List FVal) (r : List Byte) : List FVal :=
  let (x, y) := s.normalised (pjSrc d) (fullPixel (leAt r 0 2) (pjDs d)) (fullPixel (leAt r 2 2) (pjDs d))
  fmatvec rot [x, y, fInt 1]

/-- A record is dropped: its counter, and DROP of its window. -/
def State.dropRec (s : State) (sp win i : Nat) : State := (s.count .FT_CNT i).gridFlag sp win 1

/-- A single point of a record in DEPTH or PT mode. -/
def State.onePoint (s : State) (sp : Nat) (d : List Byte) (p : List FVal) (stamp : Nat) (vals : List Nat) : State :=
  match s.bandOf sp (fAt p 2) with
  | none => s.dropRec sp (pjWin d) 1
  | some b =>
    match s.cellOf sp p with
    | none => s.dropRec sp (pjWin d) 0
    | some (i, j) => s.cellWrite sp (pjWin d) i j b (pjCh0 d) stamp vals

/-- One band of a record in BANDS mode: the state, and whether it was written. A band with d_z = 0 or λ ≤ 0 is skipped; a point outside
the grid drops that band only. -/
def State.bandPoint (s : State) (sp : Nat) (d : List Byte) (c ray : List FVal) (stamp : Nat) (vals : List Nat) (b : Nat) : State × Bool :=
  let zm : Rat := ((s.bandLo sp b + s.bandLo sp (b + 1) : Int) : Rat) / 2
  let k := fdiv (fsub (.fin zm) (fAt c 2)) (fAt ray 2)
  if fAt ray 2 = .fin 0 ∨ !flt (.fin 0) k then (s, false)
  else match s.cellOf sp (alongRay c ray k) with
    | none => (s.count .FT_CNT 0, false)
    | some (i, j) => (s.cellWrite sp (pjWin d) i j b (pjCh0 d) stamp vals, true)

/-- A job in BANDS mode takes the bands of a record one by one. -/
def PrjJob.bands (j : PrjJob) : Bool := pjKind j.desc == 1 && pjMode j.desc == 0

/-- The point of a record that a job handles in a cycle, band `b` of it in BANDS mode: the state, and whether the record has written a
cell. A record with a channel value that is NaN or infinite is dropped at its first point and writes nothing (R281). -/
def State.projPoint (s : State) (j : PrjJob) (b : Nat) : State × Bool :=
  let sp := j.spur
  let d := j.desc
  let rot := (j.pose.take 9).map f32
  let c := (j.pose.drop 9).map f32
  let bf := s.flag .GRID_CFG_FMT sp
  let r := s.jobRec sp d j.cur
  let n := s.gridEl sp
  let vals := (List.range (pjCh d)).map fun c => leAt r (16 + c * n) n
  let stamp := leAt r 8 4 % 2 ^ 31
  let bad := bf && vals.any fun v => match bf16.decode v with | .fin _ => false | _ => true
  let last : Bool := !j.bands || b + 1 == s.rd .GRID_CFG_NB sp
  if bad then (if b = 0 then s.dropRec sp (pjWin d) 3 else s, true)
  else if pjKind d = 2 then
    let p := (List.range 3).map fun i => fInt (toSigned 16 (leAt r (2 * i) 2))
    let q := fmatvec rot p
    (s.onePoint sp d ((List.range 3).map fun i => fadd (fAt q i) (fAt c i)) stamp vals, true)
  else if pjMode d = 1 then
    let z := leAt r 4 2
    (if z = 0 then s.dropRec sp (pjWin d) 2 else s.onePoint sp d (alongRay c (s.rayOf d rot r) (fInt z)) stamp vals, true)
  else
    let (s, w) := s.bandPoint sp d c (s.rayOf d rot r) stamp vals b
    let w := w || j.wrote
    (s.when (last && !w) fun s => s.dropRec sp (pjWin d) 2, w)

/-- One cycle of a Projector. DEDUCED from the costs of R282: a record's first four cycles prepare it, then one point is handled, and
one cell written, in each cycle. -/
def State.projCycle (s : State) (p : Nat) : State :=
  match s.ft.jobs.find? fun e => e.1 == p with
  | none => s
  | some (_, j) =>
    if j.recs ≤ j.cur then s
    else
      let cost := if j.bands then s.rd .GRID_CFG_NB j.spur + 4 else 5
      let (s, w) := if j.cyc < 4 then (s, j.wrote) else s.projPoint j (j.cyc - 4)
      let j := if cost ≤ j.cyc + 1 then { j with cur := j.cur + 1, cyc := 0, wrote := false }
        else { j with cyc := j.cyc + 1, wrote := w }
      s.onFt fun x => { x with jobs := Table.insert x.jobs p j }

/-- One cycle of every Projector: the writes of lower-numbered ones are applied first (R286). -/
def State.projTick (s : State) : State :=
  if s.ft.jobs.isEmpty then s else s.each (s.ft.jobs.map Prod.fst) fun s p => s.projCycle p

/-- The rest of a Projector's job, which its completion says has been done. -/
def State.projFinish (s : State) (p : Nat) : State :=
  match s.ft.jobs.find? fun e => e.1 == p with
  | none => s
  | some (_, j) => s.each (List.range ((j.recs - j.cur) * (s.rd .GRID_CFG_NB j.spur + 4))) fun s _ => s.projCycle p

/-! ### Jobs (R277, R278, R282) -/

/-- The Projector array runs. -/
def State.projLive (s : State) : Bool := s.domOn pdFul && !bit s.fulFenced 1

/-- A Projector is busy. -/
def State.projBusy (s : State) (p : Nat) : Bool := s.ft.jobs.any fun e => e.1 == p

/-- The lowest-numbered idle Projector of a Spur (R277). -/
def State.idleProjector (s : State) (sp : Nat) : Option Nat :=
  (List.range 16).find? fun p => s.rd .PRJ_SPUR p == sp && !s.projBusy p

/-- Where a place of the Projector ring lies in control memory. PRESUMED: the spec gives the rings no addresses. -/
def ringAddr (sp place : Nat) : Nat := sp * 2048 + place * 32

/-- The ring's next descriptor is taken. -/
def State.ringTake (s : State) (sp : Nat) (d : List Byte) : Nat × State :=
  let k := (s.grid sp).next
  (k, (s.stBytes .control (ringAddr sp k) (d.take 32)).onGrid sp fun g => { g with next := (k + 1) % 64 })

/-- Records up to an error of the batt: how many are read, and whether the job ends with PRJ_UE. -/
def State.jobReads (s : State) (sp : Nat) (d : List Byte) (err : Option (Nat × ReadErr)) : Nat × Bool × State :=
  let n := s.jobNrec sp d
  match err with
  | none => (n, false, s)
  | some (k, e) =>
    if n < k then (n, false, s)
    else
      let (lost, s) := s.readErr e (pjHandle d)
      if lost then (k, true, s) else (n, false, s)

/-- A job whose window is open or opens now: its status, the records it takes, and the state. -/
def State.jobRun (s : State) (sp : Nat) (d : List Byte) (err : Option (Nat × ReadErr)) : Nat × Nat × State :=
  let s := s.openWin sp (pjWin d)
  if pjKind d = 1 ∧ s.suspended (pjSrc d) then (1, 0, s.gridFlag sp (pjWin d) 0)
  else if !s.handleLive (pjHandle d) || s.handleOwner (pjHandle d) != some sp then (4, 0, s)
  else if battSize (pjHandle d) < 8 + s.jobNrec sp d * s.recSize sp d then (5, 0, s)
  else
    let s := s.when (pjKind d == 1) fun s => s.onWin sp (pjWin d) fun x => { x with heads := setBit x.heads (pjSrc d) true }
    let (n, ue, s) := s.jobReads sp d err
    (if ue then 6 else 0, n, s)

/-- A job that names a closed window sets LATE, whatever its status (R289). -/
def State.noteLate (s : State) (sp w : Nat) : State := s.when ((s.grid sp).classify w == .late) fun s => s.gridFlag sp w 2

/-- The status of a job, the records it takes and the state it starts in. DEDUCED: the checks are made in the order of their codes,
PRJ_DESC first where it needs no batt. -/
def State.jobDo (s : State) (sp : Nat) (d : List Byte) (err : Option (Nat × ReadErr)) : Nat × Nat × State :=
  let s := s.noteLate sp (pjWin d)
  if s.jobBad sp d then (5, 0, s)
  else match (s.grid sp).classify (pjWin d) with
    | .ok => s.jobRun sp d err
    | c =>
      if pjKind d = 1 ∧ s.suspended (pjSrc d) then (1, 0, s.gridFlag sp (pjWin d) 0)
      else (if c = .late then 2 else 3, 0, s)

/-- PROJECTOR_JOB: the job that stands next in the Spur's ring starts, with the pose in force (R292). An error of its batt is met when
the job starts; the records before it are written (PRJ_UE). -/
def execProjectorJob (spur : Fin 8) (desc : List Byte) (err : Option (Nat × ReadErr)) (s : State) : Out := checked (desc.length == 32) <|
  let sp := spur.val
  match s.idleProjector sp with
  | none => done s
  | some p =>
    if !s.projLive || pjKind desc == 3 then done s
    else
      let (k, s) := s.ringTake sp desc
      let (st, n, s) := s.jobDo sp desc err
      let pose := s.jobPose desc
      let j : PrjJob := { spur := sp, place := k, status := st, desc := desc, pose := (pose.1 ++ pose.2).map toF32, recs := n }
      done (s.onFt fun x => { x with jobs := Table.insert x.jobs p j })

/-- A job ends: STATUS in its descriptor, and the completion event (R278). -/
def State.jobEnd (s : State) (sp place st : Nat) : State :=
  ((s.stLe .control (ringAddr sp place + 6) 2 st).emit (.coreSignal (s.rd .GRID_CFG2_NCC sp) 2)).calSettle

/-- PROJECTOR_JOB_COMPLETE. -/
def execProjectorJobComplete (p : Fin 16) (s : State) : Out :=
  match s.ft.jobs.find? fun e => e.1 == p.val with
  | none => done s
  | some (_, j) =>
    done (((s.projFinish p.val).onFt fun x => { x with jobs := Table.erase x.jobs p.val }).jobEnd j.spur j.place j.status)

/-- The close of an open window (R288, R289): the tile list, then the summary. -/
def State.closeWin (s : State) (sp : Nat) (w : GridWin) : State :=
  let l := s.tilesOf sp (some w.dirty)
  let s := s.stSpur sp (s.rd .GRID_LIST_ADDR sp + w.win % 2 * 2052) (leBytes 4 l.length ++ l.flatMap (leBytes 2))
  let fl := if w.heads &&& w.susp = 0 then w.flags else setBit w.flags 0 true
  let s := ((s.wr .GW_WIN sp w.win).wr .GW_DIRTY sp l.length).wr .GW_FLAGS sp fl
  s.onGrid sp fun g =>
    { g with
      opened := g.opened.filter fun x => x.win != w.win
      closed := match g.closed with
        | some c => if winDiff w.win c < 0 then some c else some w.win
        | none => some w.win
      dirty0 := if w.win % 2 = 0 then some w.dirty else g.dirty0
      dirty1 := if w.win % 2 = 1 then some w.dirty else g.dirty1 }

/-- PROJECTOR_CLOSE (R288): once every earlier job of the Spur has completed. -/
def execProjectorClose (spur : Fin 8) (desc : List Byte) (s : State) : Out := checked (desc.length == 32) <|
  let sp := spur.val
  if !s.projLive || pjKind desc != 3 || (s.ft.jobs.any fun e => e.2.spur == sp) || (s.idleProjector sp).isNone then done s
  else
    let (k, s) := s.ringTake sp desc
    let bad := pjMode desc != 0 || leAt desc 16 16 != 0
    let s := s.noteLate sp (pjWin desc)
    if bad then done (s.jobEnd sp k 5)
    else
      match (s.grid sp).classify (pjWin desc) with
      | .late => done (s.jobEnd sp k 2)
      | .ahead => done (s.jobEnd sp k 3)
      | .ok =>
        let s := s.openWin sp (pjWin desc)
        match (s.grid sp).opened.find? fun x => x.win == pjWin desc with
        | some w => done ((s.closeWin sp w).jobEnd sp k 0)
        | none => done s

end Sys2Proof.Machine
end

