-- ==== Sys2Proof/Machine/Tracker.lean ====
section
/-!
DEFINITION. The Tracker (`spec/10_fusion_and_tracking.md` R294 to R301).
-/
namespace Sys2Proof.Machine

/-! ### Passes and detections (R294, R295) -/

def paKind (d : List Byte) : Nat := byteAt d 0
def paNdb (d : List Byte) : Nat := byteAt d 1
def paWin (d : List Byte) : Nat := leAt d 4 4
def paTime (d : List Byte) : Nat := leAt d 8 8
def paHandles (d : List Byte) : List Nat := (List.range (paNdb d)).map fun i => leAt d (16 + 4 * i) 4

/-- A detection: position as FP32 words, class and score. -/
structure Detection where
  pos : List Nat
  cls : Nat
  score : Nat

/-- NREC of a detection batt. -/
def State.detCount (s : State) (sp h : Nat) : Nat := ofLe (s.ldBattBytes sp h 2)

/-- Detection `k` of a batt. -/
def State.detAt (s : State) (sp h k : Nat) : Detection :=
  let r := (List.range 24).map fun i => s.ldBatt sp h (8 + 24 * k + i)
  { pos := [leAt r 0 4, leAt r 4 4, leAt r 8 4], cls := byteAt r 18, score := byteAt r 19 }

/-- Every detection of a pass in handle order. -/
def State.detections (s : State) (sp : Nat) (d : List Byte) : List Detection :=
  (paHandles d).flatMap fun h => (List.range (s.detCount sp h)).map fun k => s.detAt sp h k

/-! ### The filter (R296) -/

/-- Prediction of an axis over dt seconds with process noise q. DEDUCED: the order of the FP32 operations. -/
def Axis.predict (a : Axis) (dt q : FVal) : Axis :=
  let c01 := fadd (f32 a.c01) (fmul dt (f32 a.c11))
  let c00 := fadd (fadd (f32 a.c00) (fmul dt (f32 a.c01))) (fmul dt c01)
  let d2 := fmul dt dt
  { p := toF32 (fadd (f32 a.p) (fmul (f32 a.v) dt))
    v := a.v
    c00 := toF32 (fadd c00 (fmul q (fdiv (fmul d2 dt) (fInt 3))))
    c01 := toF32 (fadd c01 (fmul q (fdiv d2 (fInt 2))))
    c11 := toF32 (fadd (f32 a.c11) (fmul q dt)) }

/-- The Kalman update of an axis with a measurement of variance r2. DEDUCED: the order of the FP32 operations. -/
def Axis.update (a : Axis) (z r2 : FVal) : Axis :=
  let sv := fadd (f32 a.c00) r2
  let k0 := fdiv (f32 a.c00) sv
  let k1 := fdiv (f32 a.c01) sv
  let y := fsub z (f32 a.p)
  let m := fsub (fInt 1) k0
  { p := toF32 (fadd (f32 a.p) (fmul k0 y))
    v := toF32 (fadd (f32 a.v) (fmul k1 y))
    c00 := toF32 (fmul m (f32 a.c00))
    c01 := toF32 (fmul m (f32 a.c01))
    c11 := toF32 (fsub (f32 a.c11) (fmul k1 (f32 a.c01))) }

/-- The largest position variance of a track. -/
def Track.variance (t : Track) : FVal :=
  t.axes.foldl (fun m a => if flt m (f32 a.c00) then f32 a.c00 else m) ((t.axes.head?.map fun a => f32 a.c00).getD (.fin 0))

/-- SIGMA of a track (R296). -/
def Track.sigma (t : Track) : FVal := fsqrt t.variance

/-! ### Association (R297) -/

/-- The squared distance of a track and a detection, exact; none where a coordinate is not finite. -/
def distSq (t : Track) (d : Detection) : Option Rat :=
  (t.axes.zip d.pos).foldl (fun a p =>
    match a, f32 p.1.p, f32 p.2 with
    | some x, .fin u, .fin v => some (x + (v - u) * (v - u))
    | _, _, _ => none) (some 0)

/-- A candidate pair, and its squared distance. -/
def State.candidate (s : State) (sp : Nat) (t : Track) (d : Detection) : Option Rat :=
  match distSq t d, t.variance, f32 (s.rd .TRK_R sp), f32 (s.rd .TRK_GATE sp) with
  | some q, .fin p, .fin r, .fin g =>
    if q ≤ g * g * (p + r * r) ∧ (t.cls = d.cls ∨ s.flag .TRK_CFG_CLASS_ANY sp = true) then some q else none
  | _, _, _, _ => none

/-- A pair of a track's slot and ID with a detection's index, and its squared distance. -/
structure Pair where
  q : Rat
  slot : Nat
  id : Nat
  det : Nat

/-- A pair is taken before another: ascending distance, then track ID, then detection index. -/
def Pair.before (a b : Pair) : Bool := decide (a.q < b.q) || (a.q == b.q && (a.id < b.id || (a.id == b.id && a.det < b.det)))

/-- Put a pair in its place. -/
def insertPair (a : Pair) : List Pair → List Pair
  | [] => [a]
  | b :: t => if a.before b then a :: b :: t else b :: insertPair a t

/-- The pairs taken. -/
def takePairs (l : List Pair) : List Pair :=
  (l.foldl (fun acc a => insertPair a acc) []).foldl
    (fun acc a => if acc.any fun b => b.slot == a.slot || b.det == a.det then acc else acc ++ [a]) []

/-! ### States (R298, Table FT-5) -/

/-- A track takes a hit or a miss at a pass ending at `t`. Hits of a TENTATIVE track count within its first CONF_N
passes. -/
def State.trackEvent (s : State) (sp t : Nat) (hit : Bool) (x : Track) : Track :=
  let n := s.rd .TRK_CONF_N sp
  let m := s.rd .TRK_CONF_M sp
  let passes := x.passes + 1
  let x := { x with
    passes := passes
    hist := (x.hist * 2 + (if hit then 1 else 0)) % 256
    miss := if hit then 0 else min 255 (x.miss + 1)
    hits := if hit && passes ≤ n then x.hits + 1 else x.hits
    lastHit := if hit then t else x.lastHit }
  match x.st with
  | 0 => { x with st := if m ≤ x.hits then 1 else if x.hits + (n - passes) < m then 3 else 0 }
  | 1 => { x with st := if hit then 1 else 2 }
  | 2 =>
    if hit then { x with st := 1 }
    else { x with st := if s.rd .TRK_DEL_MISS sp ≤ x.miss || x.lastHit + s.rd .TRK_DEL_COAST sp * 10 ^ 6 ≤ t then 3 else 2 }
  | _ => x

/-- Misses one after another, as long as the track lives. -/
def State.trackMisses (s : State) (sp t : Nat) : Nat → Track → Track
  | 0, x => x
  | n + 1, x => if x.st = 3 then x else State.trackMisses s sp t n (s.trackEvent sp t false x)

/-! ### The pass (R297) -/

/-- The Tracker for a Spur. -/
def State.trk (s : State) (sp : Nat) : TrkSt := Table.get {} s.ft.trk sp

/-- The track range of a Spur, as settings give it, ends beyond slot 4,095 or overlaps another Spur's (R294). -/
def trkClash (g : Reg → Nat → Nat) (sp : Nat) : Bool :=
  let b := g .TRK_BASE
  let n := g .TRK_COUNT
  4096 < b sp + n sp || (List.range 8).any fun o => o != sp && rangesMeet (b sp) (n sp) (b o) (n o)

/-- A slot of a Spur's range. -/
def State.trkIn (s : State) (sp k : Nat) : Bool := s.rd .TRK_BASE sp ≤ k && k < s.rd .TRK_BASE sp + s.rd .TRK_COUNT sp

/-- The tracks of a Spur by slot. -/
def State.tracksOf (s : State) (sp : Nat) : List (Nat × Track) := s.ft.tracks.filter fun e => s.trkIn sp e.1

/-- Change the tracks of a Spur that are not DELETED. -/
def State.eachTrack (s : State) (sp : Nat) (f : Nat → Track → Track) : State :=
  let g := fun (e : Nat × Track) => if s.trkIn sp e.1 && e.2.st != 3 then (e.1, f e.1 e.2) else e
  s.onFt fun x => { x with tracks := x.tracks.map g }

/-- Steps 3 and 4: pairs taken, updates, hits and misses. The indices of the detections taken. -/
def State.associate (s : State) (sp t : Nat) (ds : List Detection) : List Nat × State :=
  let live := (s.tracksOf sp).filter fun e => e.2.st != 3
  let cands := live.flatMap fun e => ds.zipIdx.filterMap fun p =>
    (s.candidate sp e.2 p.1).map fun q => (⟨q, e.1, e.2.id, p.2⟩ : Pair)
  let taken := takePairs cands
  let r2 := fmul (f32 (s.rd .TRK_R sp)) (f32 (s.rd .TRK_R sp))
  let s' := s.eachTrack sp fun k x =>
    match taken.find? fun p => p.slot == k with
    | none => s.trackEvent sp t false x
    | some p =>
      let z := ((ds[p.det]?).map Detection.pos).getD []
      s.trackEvent sp t true { x with axes := (x.axes.zip z).map fun a => a.1.update (f32 a.2) r2 }
  (taken.map Pair.det, s')

/-- A birth (R296, R297, R299): a free slot of the range, whichever the Tracker takes. -/
def State.birth (s : State) (sp t : Nat) (d : Detection) : State :=
  let id := s.rd .TRK_NEXTID sp
  if id = 2 ^ 32 - 1 then s
  else
    let used := s.ft.tracks.map Prod.fst
    let frees := ((List.range (s.rd .TRK_COUNT sp)).map (s.rd .TRK_BASE sp + ·)).filter fun k => !used.contains k
    if frees.isEmpty then s.count .FT_CNT 6
    else
      let (v, s) := s.fresh 12
      let k := (frees[v % frees.length]?).getD 0
      let r := f32 (s.rd .TRK_R sp)
      let v0 := f32 (s.rd .TRK_V0 sp)
      let axes := d.pos.map fun z => (⟨z, 0, toF32 (fmul r r), 0, toF32 (fmul v0 v0)⟩ : Axis)
      let x : Track := { id := id, st := 0, cls := d.cls, hist := 1, miss := 0, hits := 1, passes := 1, lastHit := t, axes := axes }
      let s := (s.onFt fun f => { f with tracks := Table.insert f.tracks k x }).wr .TRK_NEXTID sp (id + 1)
      s.when (id + 1 == 2 ^ 32 - 1) fun s => (s.put .TRK_ID_EXH sp true).record sp .trkIdExh sp []

/-- A saturating integer of a value, rounded to nearest even; none for a NaN. -/
def satInt (lo hi : Int) : FVal → Option Int
  | .nan => none
  | .inf neg => some (if neg then lo else hi)
  | .fin q => some (clampInt lo hi (rneRat q))

/-- An output field of 16 bits; the spec gives none for a NaN. -/
def State.outInt (s : State) (lo hi : Int) (v : FVal) : Nat × State :=
  match satInt lo hi v with
  | some z => (ofSigned 16 z, s)
  | none => s.fresh 16

/-- A track record of the output list (R300). -/
def State.trackRec (s : State) (x : Track) : List Byte × State :=
  let ps := x.axes.flatMap fun a => leBytes 4 a.p
  let (vs, s) := x.axes.foldl (fun (acc : List Byte × State) a =>
    let (v, s) := acc.2.outInt (-32768) 32767 (f32 a.v)
    (acc.1 ++ leBytes 2 v, s)) ([], s)
  let (sg, s) := s.outInt 0 65535 x.sigma
  (leBytes 4 x.id ++ leBytes 1 x.st ++ leBytes 1 x.cls ++ leBytes 1 x.hist ++ leBytes 1 x.miss ++ ps ++ vs ++ leBytes 2 sg ++
    leBytes 4 (x.lastHit / 1000 % 2 ^ 31), s)

/-- Step 7: the output list, then the DELETED slots are free. -/
def State.trackOutput (s : State) (sp : Nat) (d : List Byte) : State :=
  let ts := s.tracksOf sp
  let a := s.rd .TRK_OUT_ADDR sp + paWin d % 2 * (32 + s.rd .TRK_COUNT sp * 32)
  let head := leBytes 4 ts.length ++ leBytes 4 (paWin d) ++ leBytes 8 (paTime d) ++ leBytes 2 (s.rd .ERR_EPOCH sp) ++ List.replicate 14 0
  let (body, s) := ts.foldl (fun (acc : List Byte × State) e =>
    let (r, s) := acc.2.trackRec e.2
    (acc.1 ++ r, s)) ([], s)
  (s.stSpur sp a (head ++ body)).onFt fun f =>
    { f with tracks := f.tracks.filter fun e => !(s.trkIn sp e.1 && e.2.st == 3) }

/-- The Tracker's state of a Spur after a pass that ran. -/
def State.passRan (s : State) (sp : Nat) (d : List Byte) : State :=
  s.onFt fun f => { f with trk := Table.upd {} f.trk sp fun x => { x with win := some (paWin d), time := paTime d } }

/-- WIN of a pass is not above the Spur's last one (R297). -/
def State.passOld (s : State) (sp : Nat) (d : List Byte) : Bool :=
  match (s.trk sp).win with
  | some w => winDiff (paWin d) w ≤ 0
  | none => false

/-- The windows from the Spur's last pass to this one. -/
def State.passGap (s : State) (sp : Nat) (d : List Byte) : Nat :=
  match (s.trk sp).win with
  | some w => (winDiff (paWin d) w).toNat
  | none => 1

/-- Steps 1 to 7 of R297. DEDUCED: at most 64 of the misses of step 1 are counted one by one, since DEL_MISS is below 16. -/
def State.passRun (s : State) (sp : Nat) (d : List Byte) : State :=
  let t := paTime d
  let gap := s.passGap sp d
  let s := s.eachTrack sp fun _ x => s.trackMisses sp t (min (gap - 1) 64) x
  let dt := fRat ((toSigned 64 (t + 2 ^ 64 - (s.trk sp).time) : Rat) / 10 ^ 9)
  let q := f32 (s.rd .TRK_Q sp)
  let s := s.eachTrack sp fun _ x => { x with axes := x.axes.map fun a => a.predict dt q }
  let all := s.detections sp d
  let ds := all.take 1024
  let s := s.count .FT_CNT 5 (all.length - ds.length)
  let (taken, s) := s.associate sp t ds
  let births := (ds.zipIdx.filter fun p => !taken.contains p.2 && s.rd .TRK_BIRTH_SCORE sp ≤ p.1.score).map Prod.fst
  let s := s.each (sortBy (fun b : Detection => 255 - b.score) births) fun s b => s.birth sp t b
  (s.trackOutput sp d).passRan sp d

/-- The status of a pass and what it did (R301). DEDUCED: the descriptor is checked first. -/
def State.passDo (s : State) (sp : Nat) (d : List Byte) (err : ReadErr) : Nat × State :=
  let hs := paHandles d
  if 8 < paNdb d || leAt d 48 16 != 0 then (0x12, s)
  else if s.passOld sp d then (0x10, s)
  else if hs.any fun h => !s.handleLive h || s.handleOwner h != some sp then (0x11, s)
  else if hs.any fun h => battSize h < 8 + 24 * s.detCount sp h then (0x12, s)
  else
    let (lost, s) := if hs.isEmpty then (false, s) else s.readErr err (hs.headD 0)
    if lost then (0x13, s) else (0, s.passRun sp d)

/-- The Tracker runs. -/
def State.trkLive (s : State) : Bool := s.domOn pdFul && !bit s.fulFenced 3

/-- A FLUSH deletes every track of the Spur (R297). DEDUCED: the order check and the output of R297 apply. -/
def State.flushDo (s : State) (sp : Nat) (d : List Byte) : Nat × State :=
  if leAt d 48 16 != 0 || 8 < paNdb d then (0x12, s)
  else if s.passOld sp d then (0x10, s)
  else
    let s := s.eachTrack sp fun _ x => { x with st := 3 }
    (0, (s.trackOutput sp d).passRan sp d)

/-- What a descriptor asks for by its KIND: its status, and the state. -/
def State.passKind (s : State) (r : PassReq) : Nat × State :=
  match paKind r.desc with
  | 1 => s.passDo r.spur r.desc r.err
  | 2 => s.flushDo r.spur r.desc
  | _ => (0x12, s)

/-- Where a pass descriptor lies in control memory. PRESUMED: the spec gives the descriptors no addresses; each Spur has 64 places
behind the Projector rings. -/
def passAddr (sp place : Nat) : Nat := 16384 + sp * 4096 + place * 64

/-- The oldest pass submitted starts, if none runs (R294). -/
def State.passStart (s : State) : State :=
  match s.ft.pass, s.ft.passQ with
  | none, r :: rest =>
    let (st, s) := (s.onFt fun f => { f with passQ := rest }).passKind r
    s.onFt fun f => { f with pass := some ⟨r.spur, r.place, st⟩ }
  | _, _ => s

/-- The Tracker between two nanoseconds: what was submitted before may start. -/
def State.trkTick (s : State) : State := if s.trkLive then s.passStart else s

/-- Put a pass in its place: behind every pass submitted before it, and behind those of the same cycle with a Spur not above its
own. -/
def insertPass (r : PassReq) : List PassReq → List PassReq
  | [] => [r]
  | a :: t => if a.at_ = r.at_ ∧ r.spur < a.spur then r :: a :: t else a :: insertPass r t

/-- A pass is submitted: its descriptor stands in control memory, and it waits for its turn (R294). -/
def State.passSubmit (s : State) (sp : Nat) (desc : List Byte) (err : ReadErr) : State :=
  let k := (s.trk sp).next
  (s.stBytes .control (passAddr sp k) desc).onFt fun f =>
    { f with
      passQ := insertPass ⟨sp, s.raw, k, desc, err⟩ f.passQ
      trk := Table.upd {} f.trk sp fun x => { x with next := (k + 1) % 64 } }

/-- TRACKER_PASS: a descriptor of any KIND but FLUSH. -/
def execTrackerPass (spur : Fin 8) (desc : List Byte) (err : ReadErr) (s : State) : Out := checked (desc.length == 64) <|
  if s.trkLive && paKind desc != 2 then done (s.passSubmit spur.val desc err) else done s

/-- TRACKER_FLUSH. -/
def execTrackerFlush (spur : Fin 8) (desc : List Byte) (s : State) : Out := checked (desc.length == 64) <|
  if s.trkLive && paKind desc == 2 then done (s.passSubmit spur.val desc .none) else done s

/-- TRACKER_PASS_COMPLETE (R294, R301): the pass that runs, or that starts now, ends with STATUS in its descriptor and the event. -/
def execTrackerPassComplete (s : State) : Out :=
  let s := s.trkTick
  match s.ft.pass with
  | none => done s
  | some r =>
    done (((s.stLe .control (passAddr r.spur r.place + 2) 2 r.status).onFt fun f => { f with pass := none }).emit
      (.coreSignal (s.rd .TRK_CFG_NCC r.spur) 2))

end Sys2Proof.Machine
end

