-- ==== Sys2Proof/Machine/ResetOps.lean ====
section
/-!
DEFINITION. What resets and the loss of settings share (`spec/16_reset_and_persistence.md` R460, R478; `spec/00_scope.md`
R12), and the FLR of a Spur (`spec/13_spurs_and_security.md` R368, R369; `spec/09_milestones_and_buffers.md` R268;
`spec/19_faults_and_recovery.md` R547, R549, Table FR-5).
-/
namespace Sys2Proof.Machine

/-! ### Losing registers -/

/-- The register of a key. -/
def regOfKey (k : Nat) : Option Reg := Reg.all[keyField k]?

/-- A key's register satisfies a test. -/
def keyIs (p : Reg → Nat → Bool) (k : Nat) : Bool :=
  match regOfKey k with
  | some r => p r (k % 2 ^ 24)
  | none => false

/-- Registers are lost (R460): they take their reset values, and a field whose reset is flash takes the value of the active
bank's record (R478). -/
def State.lose (s : State) (p : Reg → Nat → Bool) : State :=
  let s := (s.onRegs (Table.keep fun k => !keyIs p k)).onWl1 (Table.keep fun k => !keyIs p k)
  s.each s.rst.flashSet fun s x =>
    s.each ((hitsAt x.off.toNat).filter fun h => h.reg.spec.src == .flash && p h.reg h.idx) fun s h =>
      s.wr h.reg h.idx (h.value x.w.toNat)

/-- A class that a warm device reset and the gating of a domain take, without the retention lists. -/
def Reg.volatile (r : Reg) : Bool := r.spec.cls == .V && r.spec.keep == .none

/-! ### The objects of a Spur -/

/-- A Spur holds a port, a queue block, a quad: no default owner. -/
def State.holdsPort (s : State) (sp p : Nat) : Bool := bit (s.rd .SPUR_RES_WL sp) p
def State.holdsBlock (s : State) (sp b : Nat) : Bool := bit (s.rd .SPUR_EQ sp) b
def State.holdsQuad (s : State) (sp q : Nat) : Bool := bit (s.rd .SPUR_QUADS sp) q

/-- A subscription that a Spur has applied. -/
def State.ownSub (s : State) (sp i : Nat) : Bool := s.flag .SUB_EN i && (s.sub i).spur == sp

/-- The Spur among whose objects a register is, if it is one of those (Table SP-1). -/
def State.inObjects (s : State) (sp : Nat) (r : Reg) (i : Nat) : Bool :=
  let a := r.spec.base
  let u := i / r.perUnit
  if 0x50000 ≤ a ∧ a < 0x58000 then u == sp
  else if 0x80000 ≤ a ∧ a < 0x100000 then s.holdsPort sp u
  else if 0x100000 ≤ a ∧ a < 0x140000 ∨ 0x309000 ≤ a ∧ a < 0x309800 then s.holdsBlock sp (u / 16)
  else if 0x141000 ≤ a ∧ a < 0x180000 then s.ownSub sp u
  else if 0x180000 ≤ a ∧ a < 0x18C000 then s.holdsPort sp (u / 32)
  else if 0x18D000 ≤ a ∧ a < 0x18F000 then u == sp
  else if 0x200000 ≤ a ∧ a < 0x280000 then s.holdsQuad sp (u / 4)
  else if 0x308000 ≤ a ∧ a < 0x308100 ∨ 0x310000 ≤ a ∧ a < 0x310100 then u == sp
  else if 0x400000 ≤ a ∧ a < 0x440000 then u / 8 == sp
  else if 0x500000 ≤ a ∧ a < 0x501000 then u == sp
  else false

/-- Registers that hold the assignment of resources (Table SP-1), which an FLR keeps (R369, R268). -/
def Reg.assignment (r : Reg) : Bool :=
  let a := r.spec.base
  r == .SPUR_QUADS || r == .SPUR_RES_CH || r == .SPUR_RES_WL || r == .SPUR_EQ || r == .MILL_STAT_SPUR || r == .PRJ_SPUR ||
    r == .TRK_BASE || r == .TRK_COUNT || r == .NAP_PART_FIRST || r == .NAP_PART_COUNT || r == .MS_WQUOTA ||
    (0x300000 ≤ a && a < 0x308000) || (0x310000 ≤ a && a < 0x310100)

/-- Class S settings that Spur 0's firmware makes: every one outside the other Spurs' objects, and the grants, hashes and
limits of each Spur. -/
def State.spur0Setting (s : State) (r : Reg) (i : Nat) : Bool :=
  (r == .SPUR_GRANT || r == .SIGNER_HASH || r == .ISO_FAULT_N) || !((List.range 8).any fun sp => s.inObjects sp r i)

/-- A Mill's condition, which its self-tests give and an FLR does not change (R241, R249). -/
def Reg.millHealth (r : Reg) : Bool :=
  r == .MILL_STAT_STATE || r == .MILL_STAT_REMOVALS || r == .MILL_STAT_TE_LIVE || r == .TE_CAUSE_LO || r == .TE_CAUSE_HI

/-- The registers that the FLR of a Spur takes (R368, Table RP-3): its class S settings, but for the assignment, and the
class V registers of its objects, but for its epoch. -/
def State.flrTakes (s : State) (sp : Nat) (r : Reg) (i : Nat) : Bool :=
  if r.assignment || r == .ERR_EPOCH || r.millHealth then false
  else match r.spec.cls with
    | .S =>
      if sp = 0 then s.inObjects 0 r i || s.spur0Setting r i
      else s.inObjects sp r i && !(r == .SPUR_GRANT || r == .SIGNER_HASH || r == .ISO_FAULT_N)
    | .V => s.inObjects sp r i && !(0x310000 ≤ r.spec.base && r.spec.base < 0x310100)
    | _ => false

/-! ### The FLR of a Spur -/

/-- Commands in flight receive no completion (R343, R368). -/
def State.dropCmds (s : State) (sp : Nat) : State :=
  let s := s.each ((List.range 8).map (8 * sp + ·)) fun s mb =>
    (s.each (s.cmds mb) fun s c => s.dropWaiter mb c.id).onMail fun m =>
      { m with cmds := Table.erase m.cmds mb, unitCmds := m.unitCmds.filter fun u => u.mb != mb }
  s.onMail fun m => { m with invs := m.invs.filter fun v => v.spur != sp }

/-- The Spur's ports stop: their links, heads and carding are as after a reset. -/
def State.dropPort (s : State) (p : Nat) : State :=
  let s := (s.onPorts fun t => Table.erase t p).onCards fun t => Table.erase t p
  s.onSlots (Table.keep fun i => i / 32 != p)

/-- A Mill's tasks, transfers and expansions are gone; its TEs' record of removals stays. Without a reset of class V the addresses of
uncorrectable errors stay too (R221), and so do the requests that wait for a task boundary, which this is (R246). -/
def State.dropMillWork (s : State) (m : Nat) (reset : Bool) : State :=
  let busy := (s.mill m).run.map Prod.fst
  let s := s.onMill m fun x =>
    { removals := x.removals, passed := x.passed, millPass := x.millPass, readmit := x.readmit, nextExp := x.nextExp
      ueSeen := if reset then [] else x.ueSeen, offReq := if reset then 0 else x.offReq, testReq := if reset then 0 else x.testReq }
  if reset then s else s.each busy fun s t => s.boundary m t

/-- The event queues of a block. -/
def blockQueues (b : Nat) : List Nat := (List.range 16).map (16 * b + ·)

/-- A queue is as after a reset: its contents and every record pending for it are gone. -/
def State.dropQueue (s : State) (q : Nat) : State :=
  (s.onEqs fun t => Table.erase t q).onCards fun t => t.map fun e => (e.1, { e.2 with pend := e.2.pend.filter fun p => p.q != q })

/-- Tracks of a Spur are deleted without output, and its IDs begin at 1 (R299). -/
def State.dropTracks (s : State) (sp : Nat) : State :=
  let s := s.onFt fun f =>
    { f with
      tracks := f.tracks.filter fun e => !s.trkIn sp e.1
      trk := Table.erase f.trk sp
      pass := if f.pass.any fun r => r.spur == sp then none else f.pass
      passQ := f.passQ.filter fun r => r.spur != sp }
  s.wr .TRK_NEXTID sp 1

/-- The units of PD_FUL lose what they hold for a Spur. -/
def State.dropFul (s : State) (sp : Nat) : State :=
  let mine := (List.range 64).filter fun i => s.ownSub sp i
  let s := s.onFul fun f => { f with subs := f.subs.filter fun e => !mine.contains e.1 }
  let s := s.onFt fun f =>
    { f with
      ego := f.ego.filter fun e => !s.holdsPort sp (e.1 / 32)
      grids := Table.erase f.grids sp
      jobs := f.jobs.filter fun e => e.2.spur != sp }
  (s.dropTracks sp).calSettle

/-- The cores of a Spur come back after their self-test (Table FR-3); whether a fenced one passes is a free value. -/
def State.reviveCores (s : State) (sp : Nat) : State :=
  s.each [2 * sp, 2 * sp + 1] fun s c =>
    let (ok, s) := if bit s.mail.fenced c then (let (v, s) := s.fresh 1; (v == 1, s)) else (true, s)
    let s := ((s.onMail fun m => { m with fenced := setBit m.fenced c (!ok) }).setBitOf .NGX_CORES_LIVE 0 c (s.ngxServing && ok)).setBitOf
      .NGX_CORES_MIG 0 c false
    s.wr .GLOBAL_AVAIL_NCC_LIVE 0 (16 - popcount 16 s.mail.fenced)

/-- The scrubs that an FLR starts (R369): quads, queue blocks and channels; a FAILED channel is not scrubbed (R548). -/
def State.flrScrubs (s : State) (sp : Nat) : List Scrub :=
  let cs := (bitList 8 (s.rd .SPUR_RES_CH sp)).filter fun c => s.rd .MEM_STAT_STATE c != chFailed
  (bitList 32 (s.rd .SPUR_QUADS sp)).map (⟨0, ·, sp, none⟩) ++ (bitList 32 (s.rd .SPUR_EQ sp)).map (⟨3, ·, sp, none⟩) ++
    cs.map (⟨1, ·, sp, none⟩)

/-- The host's posted requests of a function that has left D0 through an FLR cannot be issued (R502, kind 4). The mailbox
of a plain write is not known here, so it is a free value. -/
def State.dropHeld (s : State) (f : Nat) : State :=
  s.each (s.fn f).held fun s p =>
    match p with
    | .msix _ => s
    | .completion mb _ _ => (s.count .HL_DMA_ERR 4).record f .hostDma mb [4]
    | .write _ _ =>
      let (v, s) := s.fresh 3
      (s.count .HL_DMA_ERR 4).record f .hostDma (8 * f + v) [4]

/-- What a Spur holds is gone; its resources are kept. -/
def State.spurLoses (s : State) (sp : Nat) : State :=
  let s0 := s
  let ports := bitList 8 (s.rd .SPUR_RES_WL sp)
  let quads := bitList 32 (s.rd .SPUR_QUADS sp)
  let blocks := bitList 32 (s.rd .SPUR_EQ sp)
  let s := s.dropCmds sp
  let s := (s.flrMs sp).dropFul sp
  let s := s.each ports fun s p => s.dropPort p
  let s := s.each quads fun s q => s.each [0, 1, 2, 3] fun s j => s.dropMillWork (4 * q + j) true
  let s := s.each blocks fun s b => s.each (blockQueues b) fun s q => s.dropQueue q
  let s := s.onMail fun m => { m with hbs := m.hbs.map fun e =>
    (e.1, if e.1 / 16 == sp && e.2.loaded then ({ gen := (e.2.gen + 1) % 256 } : Hatbox) else e.2) }
  let s := (s.onErrs fun t => Table.erase t sp).onSec fun x =>
    { x with ideKeys := Table.erase x.ideKeys sp, ideSet := Table.erase x.ideSet sp, held := setBit x.held sp false }
  s.lose fun r i => s0.flrTakes sp r i

/-- The Hatband reader belongs to Spur 0: with its settings gone, HB_CFG.EN is cleared, and so are the carrier, the write in
progress and the mask (R134). -/
def State.dropHat (s : State) (sp : Nat) : State :=
  if sp ≠ 0 then s
  else
    let s := s.when s.hat.write.isSome fun s => s.onHat fun h => { h with write := none, awaiting := false }
    ((s.onHat HatSt.forget).emit (.carrier false)).maskWithdraw

/-- The FLR of one Spur, with its function (R368, R369): SPUR_STATE is FLR_BUSY until its scrubs have ended. -/
def State.flrSpur (s : State) (sp : Nat) : State :=
  let scr := s.flrScrubs sp
  let s := (s.dropHeld sp).onFn sp fun _ => {}
  let s := s.onTime fun t => { t with vfSnap := Table.erase t.vfSnap sp }
  let s := (((s.spurLoses sp).dropHat sp).raiseEpoch sp).reviveCores sp
  let s := (s.wr .SPUR_STATE sp 4).onSec fun x => { x with scrubs := x.scrubs ++ scr }
  let s := s.each scr fun s x => if x.kind = 1 then s.wr .MEM_STAT_STATE x.num chScrub else s
  (s.flrSettle sp).mbWake

/-- Causeway settings are class S of Spur 0: with them gone the device leaves the ring in THROUGH. -/
def State.cwGone (s : State) : State :=
  ((s.onCw fun c => { frame := c.frame, failed := c.failed }).lose fun r _ => 0x600000 ≤ r.spec.base && r.spec.base < 0x700000 && r.volatile).kerbUpdate

/-- The FLR of a function (R368): one of PF0 clears VF Enable and is the FLR of every Spur. -/
def State.flrFn (s : State) (f : Nat) : State :=
  let s := s.count .RST_COUNT 6
  if f = 0 then
    let s := s.each (List.range 8) fun s sp => s.flrSpur sp
    (s.onVfEnable fun _ => false).cwGone.kerbUpdate
  else (s.flrSpur f).kerbUpdate

end Sys2Proof.Machine
end

