-- ==== Sys2Proof/Machine/Spurs.lean ====
section
/-!
DEFINITION. The assignment of resources to Spurs (`spec/13_spurs_and_security.md` R362 to R365), scrubs (Table SP-3), the
FLR of a function, and Spur faults (`spec/19_faults_and_recovery.md` R544 to R548).
-/
namespace Sys2Proof.Machine

/-! ### Settings made by the firmware -/

/-- The core of a mailbox as an agent. -/
def State.coreAgent (s : State) (mb : Nat) : Agent := .fw ⟨s.mbCore mb % 16, Nat.mod_lt _ (by decide)⟩

/-- The firmware writes a command's settings. -/
def State.applySettings (s : State) (mb : Nat) (l : List (Nat × Nat)) : State :=
  s.each l fun s p => (s.applyWord (s.coreAgent mb) p.1 p.2).2

/-- The value that a command's settings give a field, or the one it holds. -/
def State.settingOf (s : State) (l : List (Nat × Nat)) (r : Reg) (i : Nat) : Nat :=
  l.foldl (fun v p => match (hitsAt p.1).find? fun h => h.reg == r && h.idx == i with
    | some h => h.value p.2
    | none => v) (s.rd r i)

/-! ### SPUR_CFG (R363, R364, Table SP-2) -/

/-- What a SPUR_CFG makes of a Spur's resources: quads, channels, ports, queue blocks. -/
structure Assign where
  quads : Nat
  chans : Nat
  ports : Nat
  blocks : Nat

/-- The resources that a Spur holds. -/
def State.assigned (s : State) (sp : Nat) : Assign :=
  ⟨s.rd .SPUR_QUADS sp, s.rd .SPUR_RES_CH sp, s.rd .SPUR_RES_WL sp, s.rd .SPUR_EQ sp⟩

/-- What a command asks for. -/
def State.asked (s : State) (sp : Nat) (c : Cmd) : Assign :=
  if c.cfg.release then ⟨0, 0, 0, 0⟩
  else
    let g := fun r => s.settingOf c.pairs r sp
    ⟨g .SPUR_QUADS, g .SPUR_RES_CH, g .SPUR_RES_WL, g .SPUR_EQ⟩

/-- The resources of one kind that come and go, with the kinds of `Scrub`. -/
def Assign.diff (a b : Assign) : List (Nat × Nat) :=
  let d := fun (k w x y : Nat) => (bitList w x).filterMap fun i => if bit y i then none else some (k, i)
  d 0 32 a.quads b.quads ++ d 1 8 a.chans b.chans ++ d 2 8 a.ports b.ports ++ d 3 32 a.blocks b.blocks

/-- A resource is held by a Spur other than `sp`. -/
def State.heldElsewhere (s : State) (sp : Nat) (x : Nat × Nat) : Bool :=
  (List.range 8).any fun t => t != sp &&
    bit (match x.1 with | 0 => s.rd .SPUR_QUADS t | 1 => s.rd .SPUR_RES_CH t | 2 => s.rd .SPUR_RES_WL t | _ => s.rd .SPUR_EQ t) x.2

/-- A resource is being scrubbed, or is a FAILED channel, which no Spur may take (R548; DEDUCED: the same reason). -/
def State.notReady (s : State) (x : Nat × Nat) : Bool :=
  (s.sec.scrubs.any fun y => y.kind == x.1 && y.num == x.2) || (x.1 == 1 && s.rd .MEM_STAT_STATE x.2 == chFailed)

/-- A Spur holds a loaded Hatbox. -/
def State.anyHb (s : State) (sp : Nat) : Bool := (List.range 16).any fun i => (s.hb sp i).loaded

/-- A resource may leave its Spur (R364). A FAILED channel may always leave (R548). DEDUCED: a grid is held while a window
of it is open. -/
def State.idleRes (s : State) (sp : Nat) (x : Nat × Nat) : Bool :=
  match x.1 with
  | 0 => !((List.range 16).any fun i => (s.hb sp i).loaded && (s.hb sp i).placed.any fun m => m / 4 == x.2)
  | 1 =>
    s.rd .MEM_STAT_STATE x.2 == chFailed ||
      (!s.anyMb sp && !s.anyHb sp && s.rd .BP_LONG_COUNT sp == 0 && (s.grid sp).opened.isEmpty)
  | 2 => !s.flag .WL_CTRL_EN x.2
  | _ => (blockQueues x.2).all fun q => !s.flag .EQ_CFG_EN q

/-- The quads have a channel, and the queue blocks lie in the banks that the ports write (R363). -/
def Assign.ok (a : Assign) : Bool :=
  let lo := bits a.ports 0 4 != 0
  let hi := bits a.ports 4 4 != 0
  let b0 := bits a.blocks 0 16 != 0
  let b1 := bits a.blocks 16 16 != 0
  (a.quads == 0 || a.chans != 0) && lo == b0 && hi == b1

/-- The slot grants that a command asks for. -/
def State.askedGrants (s : State) (sp : Nat) (c : Cmd) : List Nat :=
  if c.cfg.release then [] else
    (List.range 8).flatMap fun w => (bitList 32 (s.settingOf c.pairs .SPUR_GRANT (8 * sp + w))).map (32 * w + ·)

/-- A grant to a Spur's own slot, or to a slot of a port that no Spur owns (R365). -/
def State.badGrant (s : State) (sp ports slot : Nat) : Bool :=
  bit ports (slot / 32) || !((List.range 8).any fun t => t != sp && s.holdsPort t (slot / 32))

/-- A grant that is withdrawn while a subscription uses it. -/
def State.grantInUse (s : State) (sp : Nat) (grants : List Nat) : Bool :=
  (List.range 64).any fun i => s.ownSub sp i && !s.holdsPort sp (s.rd .SUB_SLOT i / 32) && !grants.contains (s.rd .SUB_SLOT i)

/-- What writes of the firmware may not leave in a Spur's row, held against the registers `g` that a word would leave (R363 to R365,
R380): while its TDI is CONFIG_LOCKED or RUN nothing changes but ISO_FAULT_N; a resource that another Spur holds, that is being
scrubbed or that is not idle does not move, and a grant is neither bad nor withdrawn in use. DEDUCED: what needs the whole
assignment (Table SP-2, reason 5) is SPUR_CFG's to test, since these words are written one by one. -/
def State.spurWordBad (s : State) (sp off : Nat) (g : Reg → Nat → Nat) : Bool :=
  let old := s.assigned sp
  let new : Assign := ⟨g .SPUR_QUADS sp, g .SPUR_RES_CH sp, g .SPUR_RES_WL sp, g .SPUR_EQ sp⟩
  let take := new.diff old
  let give := old.diff new
  let grants := (List.range 8).flatMap fun w => (bitList 32 (g .SPUR_GRANT (8 * sp + w))).map (32 * w + ·)
  let locked := s.rd .SPUR_TDI sp == 1 || s.rd .SPUR_TDI sp == 2
  let grantWord := 0x20 ≤ off % 0x100 && off % 0x100 < 0x40
  (locked && off % 0x100 != 0x10) || (sp != 0 && s.rd .SPUR_STATE sp == 3 && !take.isEmpty) || (take.any fun x => s.heldElsewhere sp x || s.notReady x) ||
    (give.any fun x => (s.sec.scrubs.any fun y => y.kind == x.1 && y.num == x.2) || !s.idleRes sp x) ||
    (grantWord && ((grants.any fun n => s.badGrant sp old.ports n) || s.grantInUse sp grants))

/-- A setting of another Spur's row of the table. -/
def Cmd.foreignRow (c : Cmd) (sp : Nat) : Bool :=
  c.pairs.any fun p => 0x500000 ≤ p.1 && p.1 < 0x501000 && (p.1 - 0x500000) / 0x100 != sp

/-- The reason of the refusal, 0 for none (Table SP-2). DEDUCED: what concerns the whole command is tested before its
resources. -/
def State.spurCfgReason (s : State) (sp : Nat) (c : Cmd) : Nat :=
  let old := s.assigned sp
  let new := s.asked sp c
  let take := new.diff old
  let give := old.diff new
  if 8 ≤ sp ∨ c.foreignRow sp then 8
  else if c.cfg.release ∧ sp = 0 then 6
  else if s.rd .SPUR_TDI sp = 1 ∨ s.rd .SPUR_TDI sp = 2 then 4
  else if take.any fun x => s.heldElsewhere sp x then 1
  else if (take ++ give).any fun x => s.sec.scrubs.any fun y => y.kind == x.1 && y.num == x.2 then 2
  else if take.any s.notReady then 2
  else if (give.any fun x => !s.idleRes sp x) || s.grantInUse sp (s.askedGrants sp c) then 3
  else if !new.ok then 5
  else if (s.askedGrants sp c).any fun g => s.badGrant sp new.ports g then 7
  else 0

/-- MILL_STAT.SPUR follows the quads. -/
def State.millSpurs (s : State) : State := s.each (List.range 128) fun s m => s.wr .MILL_STAT_SPUR m (s.millOwner m)

/-- Resources that have left a Spur are to be scrubbed, for a command or for none (R364); a FAILED channel is not (R548). -/
def State.scrubGiven (s : State) (sp : Nat) (give : List (Nat × Nat)) (cmd : Option (Nat × Nat)) : State :=
  let l := give.filter fun x => !(x.1 == 1 && s.rd .MEM_STAT_STATE x.2 == chFailed)
  let s := s.onSec fun x => { x with scrubs := x.scrubs ++ l.map fun y => ⟨y.1, y.2, sp, cmd⟩ }
  s.each l fun s y => if y.1 = 1 then s.wr .MEM_STAT_STATE y.2 chScrub else s

/-- A word of the firmware has changed the resources of one kind that a Spur holds. -/
def State.spurWordDone (s : State) (sp kind old new : Nat) : State :=
  let give := (bitList 32 old).filterMap fun i => if bit new i then none else some (kind, i)
  (((s.scrubGiven sp give none).chansRefresh.millSpurs).spurRefresh sp).mbWake

/-- The assignment changes; what leaves the Spur is to be scrubbed. -/
def State.spurAssign (s : State) (mb sp : Nat) (c : Cmd) : State :=
  let new := s.asked sp c
  let give := ((s.assigned sp).diff new).filter fun x => !(x.1 == 1 && s.rd .MEM_STAT_STATE x.2 == chFailed)
  let s := if c.cfg.release then
      s.lose fun r i => (r == .SPUR_GRANT || r == .SIGNER_HASH) && i / r.perUnit == sp
    else s.applySettings mb c.pairs
  let s := (((s.wr .SPUR_QUADS sp new.quads).wr .SPUR_RES_CH sp new.chans).wr .SPUR_RES_WL sp new.ports).wr .SPUR_EQ sp new.blocks
  let s := s.scrubGiven sp give (some (mb, c.id))
  let s := if bit s.sec.held sp && !s.holdsFailed sp then
      ((s.wr .SPUR_STATE sp 0).wr .ERR_FAULT_CODE sp 0).onSec fun x => { x with held := setBit x.held sp false }
    else s
  let s := (s.chansRefresh.millSpurs.spurRefresh sp).mbWake
  if give.isEmpty then s.finish mb c 0 0 0 else s.begin_ mb c

/-- R264 or R269 refuses what a SPUR_CFG leaves: its pool settings, over the channels that the Spur would hold. -/
def State.spurPoolBad (s : State) (sp : Nat) (c : Cmd) : Bool :=
  !c.cfg.release && s.poolRefuses (s.settingOf c.pairs) fun t =>
    if t = sp then (bitList 8 (s.asked sp c).chans).length * s.chanCap else s.spurCap t

/-- SPUR_CFG. A FAULTED Spur's resources may only be released (R547), and the pool settings of R264 and R269 are refused; the spec
gives these refusals no reason code, so it is a free value. -/
def execSpurCfg (mb : Fin 64) (tag : BitVec 16) (s : State) : Out :=
  s.runCmd mb tag 0x70 false fun s c =>
    let sp := c.cfg.target
    match s.spurCfgReason sp c with
    | r + 1 => s.finish mb.val c 0x2A (r + 1) 0
    | 0 =>
      if (sp ≠ 0 ∧ s.rd .SPUR_STATE sp = 3 ∧ !((s.asked sp c).diff (s.assigned sp)).isEmpty) ∨ s.spurPoolBad sp c then
        let (v, s) := s.fresh 32
        s.finish mb.val c 0x2A v 0
      else s.spurAssign mb.val sp c

/-! ### Scrubs (Table SP-3) -/

/-- The kind and number of a scrubbed resource. -/
def scrubKey : ScrubRes → Nat × Nat
  | .quad q => (0, q.val)
  | .channel c => (1, c.val)
  | .port p => (2, p.val)
  | .block b => (3, b.val)

/-- The registers that a scrub clears. -/
def scrubTakes (x : Nat × Nat) (r : Reg) (i : Nat) : Bool :=
  let a := r.spec.base
  let u := i / r.perUnit
  match x.1 with
  | 0 => (0x200100 ≤ a && a < 0x200380 || 0x200A00 ≤ a && a < 0x200B00) && u / 4 == x.2
  | 2 => (0x81000 ≤ a && a < 0x82000 || 0xC0000 ≤ a && a < 0x100000) && u == x.2
  | 3 => 0x100000 ≤ a && a < 0x140000 && u / 16 == x.2 && r.spec.cls == .V
  | _ => false

/-- RELEASE of each head on a port, as a management request on its ring (Table WL-5). -/
def State.releaseHeads (s : State) (p : Nat) : State :=
  let q := (Table.get {} s.ports p).seq
  s.each ((List.range 32).filter fun i => s.rd .HT_STATE (32 * p + i) != 0).zipIdx fun s e =>
    s.emit (.mgmtFrame p (mgmtWire e.1 0x31 ((q + e.2) % 256) []))

/-- What a scrub clears. -/
def State.scrubClears (s : State) (x : Nat × Nat) : State :=
  let s := s.when (x.1 == 2) fun s => s.releaseHeads x.2
  let s := s.lose (scrubTakes x)
  match x.1 with
  | 0 => s.each [0, 1, 2, 3] fun s j => (s.zero (.mill (4 * x.2 + j)) 0 (2 ^ 20)).dropMillWork (4 * x.2 + j) false
  | 1 => (s.zero (.lpddr x.2) 0 s.chanCap).wr .MEM_STAT_STATE x.2 0
  | 2 => s.dropPort x.2
  | _ => s.each (blockQueues x.2) fun s q => s.dropQueue q

/-- SCRUB_COMPLETE (R364, R369, R547): the oldest scrub of the resource ends; a SPUR_CFG completes with its last one. -/
def execScrubComplete (r : ScrubRes) (s : State) : Out :=
  let x := scrubKey r
  match s.sec.scrubs.find? fun y => y.kind == x.1 && y.num == x.2 with
  | none => done s
  | some y =>
    let s := s.onSec fun z => { z with scrubs := z.scrubs.erase y }
    let s := (s.scrubClears x).chansRefresh
    match y.cmd with
    | some (mb, id) =>
      if s.sec.scrubs.any fun z => z.cmd == some (mb, id) then done s.kerbUpdate
      else done ((s.finishId mb id 0 0 0).kerbUpdate)
    | none => done ((s.flrSettle y.spur).mbWake.kerbUpdate)

/-- FLR (R368). -/
def execFlr (fn : Fin 8) (s : State) : Out := if s.cfgOpen && s.fnExists fn.val then done (s.flrFn fn.val) else done s

/-! ### Spur faults (R544 to R548) -/

/-- The Spur's task queues are emptied and its DMA channels halted; no posts are applied (R546, step 3). -/
def State.stopMills (s : State) (sp : Nat) : State :=
  s.each ((bitList 32 (s.rd .SPUR_QUADS sp)).flatMap fun q => (List.range 4).map (4 * q + ·)) fun s m =>
    let s := s.each (List.range 8) fun s q => s.tqClear m q
    (s.each (List.range 4) fun s ch => s.put .DC_ERR (4 * m + ch) true).onMill m fun x => { x with chans := [] }

/-- Tiles FRESH, both dirty maps cleared and the new epoch taken (R183, Table FR-5). -/
def State.freshTiles (s : State) (sp : Nat) : State :=
  let ep := s.rd .ERR_EPOCH sp
  s.onFul fun f => { f with subs := f.subs.map fun e =>
    if e.2.spur = sp then (e.1, { e.2 with tiles := [], marks := [], hist := [], closed := 0, epoch := ep }) else e }

/-- The steps of R546 for a Spur with a fault code. -/
def State.spurFault (s : State) (sp code : Nat) : State :=
  let mbs := (List.range 8).map (8 * sp + ·)
  let s := ((s.wr .SPUR_STATE sp 3).wr .ERR_FAULT_CODE sp code).count .ERR_FAULT_FAULTS sp
  let s := (s.record2 sp .spurFault sp [code]).stopMills sp
  let s := s.raiseEpoch sp
  let qs := ((bitList 32 (s.rd .SPUR_EQ sp)).flatMap blockQueues).filter fun q => s.flag .EQ_CFG_EN q
  let s := s.each qs fun s q => s.eqReset q 3
  let s := (s.freshTiles sp).dropTracks sp
  let s := s.each mbs fun s mb => s.abortCmds mb (fun _ => true) 6 code
  s.each mbs fun s mb =>
    if !s.flag .MB_CFG_EN mb || s.rd .MB_STAT_STATE mb == 6 then s else s.setMbState mb (if sp = 0 then 2 else 5)

/-- SPUR_FAULT: the firmware faults a Spur for the trigger that ERR_FAULT holds, or finds an inconsistent object of it (code
5). -/
def execSpurFault (sp : Fin 8) (fwCheck : Bool) (s : State) : Out :=
  let n := sp.val
  let code := s.rd .ERR_FAULT_CODE n
  if 3 ≤ s.rd .SPUR_STATE n ∨ !s.domOn pdCtrl then done s
  else if code ≠ 0 then done ((s.spurFault n code).kerbUpdate)
  else if fwCheck then done ((s.spurFault n 5).kerbUpdate)
  else done s

end Sys2Proof.Machine
end

