-- ==== Sys2Proof/Machine/Security.lean ====
section
/-!
DEFINITION. The admission of Spurs into a trusted host domain: DOE, SPDM, IDE and TDISP (`spec/13_spurs_and_security.md`
R371, R373, R379 to R383), and the read of ISO_LOG (R384).
-/
namespace Sys2Proof.Machine

/-! ### Answers -/

/-- The DOE mailbox lies in PF0's configuration space (R506), and the security engine is in PD_CTRL (Table AR-3). -/
def State.doeUp (s : State) : Bool := s.cfgOpen && s.domOn pdCtrl

/-- SPDM answers as in QUARANTINE (R373, R383). -/
def State.spdmClosed (s : State) : Bool := s.flag .SEC_STAT_QUARANTINE || s.flag .SEC_STAT_DBG_OPEN

/-- An answer on the DOE mailbox. -/
def State.answer (s : State) (r : DoeResp) : State := s.emit (.doe r)

/-- A request that QUARANTINE leaves answered. -/
def openRequest (s : State) (r : DoeResp) : Out := if s.doeUp then done (s.answer r) else done s

/-- A request that QUARANTINE answers with Unspecified (Table SP-10). -/
def spdmRequest (s : State) (f : State → State) : Out :=
  if !s.doeUp then done s
  else if s.spdmClosed then done (s.answer (.error 0x05))
  else done (f s)

/-- An SPDM error of a request that R379 supports but whose session does not stand. The spec gives the code no value: free. -/
def State.sessionError (s : State) : State :=
  let (v, s) := s.fresh 8
  s.answer (.error v)

/-- A request inside a session: 0 when it is not open. -/
def State.session (s : State) (id : Nat) : Nat := Table.get 0 s.sec.sessions id

/-! ### Discovery and SPDM (Table SP-8) -/

/-- DOE_DISCOVERY: object types 0 to 2 are Discovery, CMA/SPDM and Secured CMA/SPDM. -/
def execDoeDiscovery (index : Byte) (s : State) : Out := openRequest s (.discovery index.toNat (index.toNat < 3))

/-- GET_VERSION: 1.2 only. -/
def execGetVersion (s : State) : Out := openRequest s .version

/-- GET_CAPABILITIES. -/
def execGetCapabilities (s : State) : Out := openRequest s .capabilities

/-- NEGOTIATE_ALGORITHMS. -/
def execNegotiateAlgorithms (s : State) : Out := openRequest s .algorithms

/-- GET_DIGESTS: slot 0 is reported empty while CERT_BAD is set (R371). -/
def execGetDigests (s : State) : Out := spdmRequest s fun s => s.answer (.digests (!s.flag .SEC_STAT_CERT_BAD))

/-- GET_CERTIFICATE: slot 0 only. -/
def execGetCertificate (slot : BitVec 4) (offset length : BitVec 16) (s : State) : Out :=
  spdmRequest s fun s =>
    if slot.toNat ≠ 0 then s.answer (.error 0x07)
    else if s.flag .SEC_STAT_CERT_BAD then s.answer (.certificate offset.toNat 0)
    else s.answer (.certificate offset.toNat length.toNat)

/-- CHALLENGE. -/
def execChallenge (nonce : BitVec 256) (s : State) : Out := spdmRequest s fun s => s.answer (.challengeAuth nonce.toNat)

/-- What measurement `i` of Table SP-8 is taken over: 1 the boot ROM, 2 the Ngabex image, 3 the fused policy, 4 the Kerb configuration
image, while it is armed, and 5 the assignment of resources. -/
def State.measured (s : State) (i : Nat) : List Nat :=
  match i with
  | 2 => [s.rd .NGX_BUILD, s.rd .NGX_VER]
  | 3 => [s.rd .SEC_STAT_DBG_OPEN, s.rd .SEC_STAT_CW_POLICY, s.rd .SEC_STAT_KIT_PRESENT, if s.kerb.safeStrict then 1 else 0, s.rd .SEC_KIT_SIZE]
  | 4 => if s.armed then kerbCfgOffsets.map s.readWord else []
  | 5 => (List.range 8).flatMap fun t => [s.rd .SPUR_QUADS t, s.rd .SPUR_RES_CH t, s.rd .SPUR_RES_WL t, s.rd .SPUR_EQ t]
  | _ => []

/-- A measurement, of 384 bits: equal data give equal values. -/
def State.measurement (s : State) (i : Nat) : Nat := Config.measurement i (s.measured i) % 2 ^ 384

/-- GET_MEASUREMENTS: index 0 asks for their number, 5. -/
def execGetMeasurements (index : Byte) (s : State) : Out :=
  spdmRequest s fun s =>
    let i := index.toNat
    if i = 0 then s.answer (.measurements [5])
    else if i = 0xFF then s.answer (.measurements ([1, 2, 3, 4, 5].map s.measurement))
    else if i ≤ 5 then s.answer (.measurements [s.measurement i])
    else s.answer (.error 0x07)

/-- KEY_EXCHANGE: at most 4 sessions. -/
def execKeyExchange (session : BitVec 16) (s : State) : Out :=
  spdmRequest s fun s =>
    if 4 ≤ s.sec.sessions.length ∧ s.session session.toNat = 0 then s.answer (.error 0x07)
    else
      (s.onSec fun x => { x with sessions := Table.set 0 x.sessions session.toNat 1 }).answer (.keyExchangeRsp session.toNat)

/-- FINISH. -/
def execFinish (session : BitVec 16) (s : State) : Out :=
  spdmRequest s fun s =>
    if s.session session.toNat = 0 then s.sessionError
    else (s.onSec fun x => { x with sessions := Table.set 0 x.sessions session.toNat 2 }).answer (.finishRsp session.toNat)

/-- A request that needs a secured session. -/
def inSession (session : BitVec 16) (s : State) (f : State → State) : Out :=
  spdmRequest s fun s => if s.session session.toNat = 2 then f s else s.sessionError

/-- HEARTBEAT. -/
def execHeartbeat (session : BitVec 16) (s : State) : Out :=
  inSession session s fun s => s.answer (.heartbeatAck session.toNat)

/-- KEY_UPDATE. -/
def execKeyUpdate (session : BitVec 16) (s : State) : Out :=
  inSession session s fun s => s.answer (.keyUpdateAck session.toNat)

/-- END_SESSION. -/
def execEndSession (session : BitVec 16) (s : State) : Out :=
  inSession session s fun s =>
    (s.onSec fun x => { x with sessions := Table.erase x.sessions session.toNat }).answer (.endSessionAck session.toNat)

/-- SPDM_UNSUPPORTED. In QUARANTINE every other request gets Unspecified (Table SP-10). -/
def execSpdmUnsupported (_code : Byte) (s : State) : Out := spdmRequest s fun s => s.answer (.error 0x07)

/-! ### IDE (Table SP-8) -/

/-- IDE_KM QUERY. -/
def execIdeKmQuery (s : State) : Out := spdmRequest s fun s => s.answer .ideKmQueryResp

/-- The bit of a key of a function's stream: set, direction, sub-stream. -/
def ideBit (set1 transmit : Bool) (sub : IdeSub) : Nat :=
  (if set1 then 6 else 0) + (if transmit then 3 else 0) + match sub with | .pr => 0 | .npr => 1 | .cpl => 2

/-- KEY_PROG. -/
def execKeyProg (fn : Fin 8) (set1 : Bool) (transmit : Bool) (sub : IdeSub) (s : State) : Out :=
  spdmRequest s fun s =>
    (s.onSec fun x => { x with ideKeys := Table.upd 0 x.ideKeys fn.val fun k => setBit k (ideBit set1 transmit sub) true }).answer
      (.keyProgAck fn.val)

/-- K_SET_GO: a set whose six keys have been programmed makes the stream Secure (Table SP-9, step 5). DEDUCED: with a key
missing the stream stays as it was. -/
def execKSetGo (fn : Fin 8) (set1 : Bool) (s : State) : Out :=
  spdmRequest s fun s =>
    let have6 := bits (Table.get 0 s.sec.ideKeys fn.val) (if set1 then 6 else 0) 6 == 0x3F
    let s := s.when have6 fun s =>
      (s.onSec fun x => { x with ideSet := Table.set 0 x.ideSet fn.val (if set1 then 2 else 1) }).put .SPUR_STREAM fn.val true
    s.answer (.kGoStopAck fn.val)

/-- K_SET_STOP: the set's keys are gone; a stream that runs on it is no longer Secure (DEDUCED). -/
def execKSetStop (fn : Fin 8) (set1 : Bool) (s : State) : Out :=
  spdmRequest s fun s =>
    let n := if set1 then 2 else 1
    let active := Table.get 0 s.sec.ideSet fn.val == n
    let s := s.onSec fun x =>
      { x with ideKeys := Table.upd 0 x.ideKeys fn.val fun k => k - bits k (6 * (n - 1)) 6 * 2 ^ (6 * (n - 1)) }
    let s := s.when active fun s =>
      (s.onSec fun x => { x with ideSet := Table.erase x.ideSet fn.val }).put .SPUR_STREAM fn.val false
    s.answer (.kGoStopAck fn.val)

/-- An integrity failure (R382): the stream is Insecure, the TDI in ERROR, the Spur's mailboxes HALTED. -/
def State.tdiError (s : State) (f : Nat) : State :=
  let s := (s.put .SPUR_STREAM f false).wr .SPUR_TDI f 3
  s.each ((List.range 8).map (8 * f + ·)) fun s mb =>
    if s.flag .MB_CFG_EN mb && s.rd .MB_STAT_STATE mb != 6 then s.setMbState mb 5 else s

/-- IDE_INTEGRITY_FAILURE: on a stream that is Secure. -/
def execIdeIntegrityFailure (fn : Fin 8) (s : State) : Out :=
  if s.flag .SPUR_STREAM fn.val && s.domOn pdHost then
    done ((s.onSec fun x => { x with ideSet := Table.erase x.ideSet fn.val }).tdiError fn.val)
  else done s

/-! ### TDISP (R380 to R382) -/

/-- GET_TDISP_VERSION: 1.0. -/
def execGetTdispVersion (s : State) : Out := spdmRequest s fun s => s.answer .tdispVersion

/-- GET_TDISP_CAPABILITIES. -/
def execGetTdispCapabilities (s : State) : Out := spdmRequest s fun s => s.answer .tdispCapabilities

/-- A lock may be taken (R380). -/
def State.lockable (s : State) (t : Nat) : Bool :=
  s.rd .SPUR_TDI t == 0 && s.flag .SPUR_STREAM t && (s.rd .SPUR_STATE t == 1 || s.rd .SPUR_STATE t == 2) &&
    !(s.sec.scrubs.any fun x => x.spur == t)

/-- LOCK_INTERFACE_REQUEST. -/
def execLockInterfaceRequest (tdi : Fin 8) (s : State) : Out :=
  spdmRequest s fun s =>
    if s.lockable tdi.val then (s.wr .SPUR_TDI tdi.val 1).answer (.lockResponse tdi.val) else s.answer (.tdispError tdi.val)

/-- The sizes of a function's windows, its BARs (Table HM-2). -/
def fnWindows (f : Nat) : List Nat := if f = 0 then [2 ^ 23, 2 ^ 16] else [2 ^ 18, 2 ^ 14]

/-- GET_DEVICE_INTERFACE_REPORT. -/
def execGetDeviceInterfaceReport (tdi : Fin 8) (s : State) : Out :=
  spdmRequest s fun s =>
    let t := tdi.val
    s.answer (.interfaceReport t (fnWindows t) (s.rd .SPUR_QUADS t) (s.rd .SPUR_RES_CH t) (s.rd .SPUR_RES_WL t) (s.rd .SPUR_EQ t)
      ((List.range 8).map fun w => s.rd .SPUR_GRANT (8 * t + w)) (s.rd .NGX_VER) (s.rd .NGX_IF))

/-- GET_DEVICE_INTERFACE_STATE. -/
def execGetDeviceInterfaceState (tdi : Fin 8) (s : State) : Out :=
  spdmRequest s fun s => s.answer (.interfaceState tdi.val (s.rd .SPUR_TDI tdi.val))

/-- START_INTERFACE_REQUEST: from CONFIG_LOCKED to RUN. -/
def execStartInterfaceRequest (tdi : Fin 8) (s : State) : Out :=
  spdmRequest s fun s =>
    if s.rd .SPUR_TDI tdi.val = 1 then (s.wr .SPUR_TDI tdi.val 2).answer (.startResponse tdi.val)
    else s.answer (.tdispError tdi.val)

/-- STOP_INTERFACE_REQUEST: CONFIG_UNLOCKED, and the Spur's FLR (R382). DEDUCED: from CONFIG_UNLOCKED it changes nothing; that of TDI 0
is the FLR of Spur 0 alone, since it names the Spur and is no FLR of PF0 that would clear VF Enable. -/
def execStopInterfaceRequest (tdi : Fin 8) (s : State) : Out :=
  spdmRequest s fun s =>
    let s := if s.rd .SPUR_TDI tdi.val = 0 then s
      else (((s.wr .SPUR_TDI tdi.val 0).count .RST_COUNT 6).flrSpur tdi.val).kerbUpdate
    s.answer (.stopResponse tdi.val)

/-! ### ISO_LOG (R384, Table SP-12) -/

/-- ISO_LOG_POP: a read of ISO_LOG pops the oldest entry; 0x44 holds its stamp. DEDUCED: an empty log reads as 0. -/
def execIsoLogPop (who : Agent) (s : State) : Out :=
  match s.admitRead who .ISO_LOG_LO 0 with
  | .error s => done s
  | .ok s =>
    match s.isoLog with
    | [] => done ((s.wr .ISO_LOG_HI 0 0).emit (.readData who 0))
    | e :: l =>
      done (((s.onIsoLog fun _ => l).wr .ISO_LOG_HI 0 e.stamp).emit
        (.readData who (e.spur + e.cls * 2 ^ 4 + e.obj * 2 ^ 16)))

end Sys2Proof.Machine
end

