-- ==== Sys2Proof/Machine/Time.lean ====
section
/-!
DEFINITION. The time base: reads that latch, the snapshot, parameter commits, the slew, reference grading, holdover and
time quality, and the stamps of network time (`spec/02_time_base.md` R38 to R74, R582; R529 for ETH0 frames).
-/
namespace Sys2Proof.Machine

/-! ### Reads and the snapshot (R46, R50) -/

/-- TIME_RAW_LO is read and TIME_RAW_HI latches the matching upper word (R50). Every function sees it (Table HM-4). -/
def execTimeRawLoRead (who : Agent) (s : State) : Out :=
  match s.readOpen who with
  | .error s => done s
  | .ok s => done ((s.wr .TIME_RAW_HI 0 (s.raw / 2 ^ 32)).emit (.readData who (s.raw % 2 ^ 32)))

/-- TIME_RC_LO is read and TIME_RC_HI latches (R46). -/
def execTimeRcLoRead (who : Agent) (s : State) : Out :=
  match s.admitRead who .TIME_RC_HI 0 with
  | .error s => done s
  | .ok s => done ((s.wr .TIME_RC_HI 0 (s.time.rcShown / 2 ^ 32)).emit (.readData who (s.time.rcShown % 2 ^ 32)))

/-- A read of Waytime that is negative sets TIME_NEG (R44). -/
def State.noteNeg (s : State) : State := s.when s.waytimeNeg fun s => s.put .TIME_STAT_TIME_NEG 0 true

/-- One raw value and the Waytime computed from it, captured together (R50): PF0 and the firmware in the SNAP registers,
a virtual function in its own set (R493). -/
def State.capture (s : State) (who : Agent) : State :=
  let w := s.waytime
  let s := s.noteNeg
  match who with
  | .host f _ =>
    if f.val = 0 then
      (((s.wr64 .SNAP_RAW_LO .SNAP_RAW_HI 0 s.raw).wr64 .SNAP_SEC_LO .SNAP_SEC_HI 0 (wtSec w)).wr .SNAP_NS 0 (wtNs w)).wr
        .SNAP_FRAC 0 (wtFrac w)
    else
      s.onTime fun t =>
        { t with vfSnap := Table.set {} t.vfSnap f.val ⟨s.raw, wtSec w % 2 ^ 64, wtNs w, wtFrac w⟩ }
  | .fw _ =>
    (((s.wr64 .SNAP_RAW_LO .SNAP_RAW_HI 0 s.raw).wr64 .SNAP_SEC_LO .SNAP_SEC_HI 0 (wtSec w)).wr .SNAP_NS 0 (wtNs w)).wr
      .SNAP_FRAC 0 (wtFrac w)

/-- TIME_SNAP.GO (R50). -/
def execTimeSnapGo (who : Agent) (s : State) : Out :=
  match s.letIn who .TIME_SNAP_GO 0 with
  | .error s => done s
  | .ok s => done (s.capture who)

/-! ### Commits (R45 to R48, R582) -/

/-- Whether some deadline slot is ARMED, and so occupied (R27, R47). -/
def State.slotOccupied (s : State) : Bool :=
  s.regs.any fun e => keyField e.1 == Reg.SLOT_CTRL_STATE.ctorIdx && e.2 == 1

/-- A STEP is refused while the Kerb is armed or any deadline slot is occupied (R47). -/
def State.stepRefused (s : State) : Bool := s.armed || s.slotOccupied

/-- The shadow rate in TIME_RATE and TIME_RATE_X: a 40-bit two's-complement value (R43). -/
def State.shadowRate (s : State) : Int := toSigned 40 (s.rd .TIME_RATE + 2 ^ 32 * s.rd .TIME_RATE_X)

/-- A commit is taken (R46): its write's SLEW_PPM and R_c are set, unless a STEP is refused, which changes nothing and sets
STEP_REFUSED (R47). DEDUCED: a write that is held is held with its SLEW_PPM field. -/
def State.takeCommit (s : State) (c : Commit) : State :=
  if c.op = .step ∧ s.stepRefused then s.put .TIME_STAT_STEP_REFUSED 0 true
  else (s.wr .TIME_CMD_SLEW_PPM 0 c.ppm).onTime fun t =>
    { t with rc := rcAfter s.raw, rcShown := rcAfter s.raw, taken := some (c, rcAfter s.raw) }

/-- An earlier commit has not reached its R_c, so a new one is held (R46). -/
def State.commitBusy (s : State) : Bool :=
  !s.time.held.isEmpty || (match s.time.taken with | some (_, rc) => s.raw < rc | none => false)

/-- The taken commit, its R_c reached, becomes part of the parameters (R45, R582). A remainder that it leaves at zero ends the
slew. DESIGN CHOICE: a sum of remainders beyond signed 64 bits, for which the spec names neither a wrap nor a limit, wraps. -/
def State.settleCommit (s : State) : State :=
  match s.time.taken with
  | none => s
  | some (c, rc) =>
    if s.raw < rc then s
    else s.onTime fun t =>
      let p := c.params rc t.params
      let t := { t with off := p.off, rate := p.rate, rbase := p.rbase, taken := none }
      match c.op with
      | .slew =>
        let r := Int.bmod (t.slewRem + c.slew * 2 ^ 16) (2 ^ 64)
        { t with slewRem := r, slewPpm := c.ppm, slewing := r != 0, slewAcc := if r = 0 then 0 else t.slewAcc }
      | _ => t

/-- A TIME_CMD write with a commit: discarded whole for a reserved SLEW_PPM (R48); else the commit is taken or held with the
values of this cycle (R46). -/
def State.commitWrite (s : State) (who : Agent) (op : CommitOp) (ppm : Nat) : State :=
  match s.letIn who .TIME_CMD_OP 0 with
  | .error s => s
  | .ok s =>
    if Reg.reserved .TIME_CMD_SLEW_PPM 0 ppm then s.record 0 .regRsvd (regionOf 0x1005C) [0x1005C]
    else
      let c : Commit := ⟨op, s.shadowRate, s.rdSigned .TIME_SLEW, ppm⟩
      if s.commitBusy then s.onTime fun t => { t with held := t.held ++ [c] }
      else s.settleCommit.takeCommit c

/-- TIME_CMD with OP NONE: its only effect is on SLEW_PPM (R46). -/
def execTimeCmdNone (who : Agent) (ppm : BitVec 8) (s : State) : Out :=
  match s.letIn who .TIME_CMD_OP 0 with
  | .error s => done s
  | .ok s =>
    if Reg.reserved .TIME_CMD_SLEW_PPM 0 ppm.toNat then done (s.record 0 .regRsvd (regionOf 0x1005C) [0x1005C])
    else done (s.wr .TIME_CMD_SLEW_PPM 0 ppm.toNat)

/-- TIME_CMD with OP FOLD (R45, R46). -/
def execTimeCmdFold (who : Agent) (ppm : BitVec 8) (s : State) : Out := done (s.commitWrite who .fold ppm.toNat)

/-- TIME_CMD with OP SLEW (R48, R582). -/
def execTimeCmdSlew (who : Agent) (ppm : BitVec 8) (s : State) : Out := done (s.commitWrite who .slew ppm.toNat)

/-- TIME_CMD with OP STEP (R47). -/
def execTimeCmdStep (who : Agent) (ppm : BitVec 8) (s : State) : Out := done (s.commitWrite who .step ppm.toNat)

/-- The oldest held commit is taken in a cycle after the earlier R_c, the STEP test included (R46, R47). -/
def execTimeCommitRelease (s : State) : Out :=
  match s.time.held with
  | [] => done s
  | c :: rest =>
    if s.raw ≤ s.time.rc then done s
    else done ((s.settleCommit.onTime fun t => { t with held := rest }).takeCommit c)

/-- At R_c the new parameters take effect (R45). -/
def execTimeCommitApply (s : State) : Out := done s.settleCommit

/-- The slew remainder is zero: the slew ends, SLEWING clears and the accumulator is cleared (R582). -/
def execSlewEnd (s : State) : Out :=
  if s.time.slewRem = 0 then done (s.onTime fun t => { t with slewing := false, slewAcc := 0 }) else done s

/-- The motion of OFF in one raw nanosecond of a slew (R582). -/
def TimeSt.slewTick (t : TimeSt) : TimeSt :=
  if t.slewRem = 0 then t
  else
    let a := t.slewAcc + t.slewPpm * 65536
    let m : Int := min (a / 10 ^ 6 : Nat) t.slewRem.natAbs
    let d := if 0 < t.slewRem then m else -m
    let r := t.slewRem - d
    if r = 0 then { t with off := wrapOff (t.off + d), slewRem := 0, slewAcc := 0, slewing := false }
    else { t with off := wrapOff (t.off + d), slewRem := r, slewAcc := a % 10 ^ 6 }

/-! ### References, holdover and time quality (R39, R63 to R73) -/

/-- Grades of Table TB-5: 0 OK, 1 WARN, 2 FAIL, 3 ABSENT. -/
def gradeOf (ppb : Int) : Nat :=
  if ppb.natAbs ≤ 20000 then 0 else if ppb.natAbs ≤ 50000 then 1 else 2

/-- This device is a Brim of a cascade: its arbiter is Crown time, not PTP. -/
def State.isBrim (s : State) : Bool := s.rd .GLOBAL_ID_ROLE == 2

/-- An arbiter is present: PTP while the ETH0 port is in SLAVE; on a Brim, the Crown's time. -/
def State.arbiterNow (s : State) : Bool :=
  if s.isBrim then s.cw.crownTime else s.rd .PTP_STAT_PORT_STATE == 5 && s.domOn pdAux

/-- The servo meets the LOCKED criterion: no offset above 100 ns in the last 16 Sync intervals (Table TB-6). DESIGN CHOICE:
while fewer than 16 offsets are held it is not locked; Table CW-8 says so of a Brim, no rule says it of PTP. -/
def State.servoLocked (s : State) : Bool := s.time.servo.length == 16 && s.time.servo.all fun o => o.natAbs ≤ 100

/-- The grade of the selected reference. -/
def State.selGrade (s : State) : Nat := if s.flag .TIME_STAT_REFSEL then s.rd .TIME_STAT_GRADE_B else s.rd .TIME_STAT_GRADE_A

/-- The time-quality code of Table TB-6, its rows in order. -/
def State.tqCode (s : State) : Nat :=
  if s.flag .TIME_STAT_REF_NONE || !s.time.arbiterSeen then 3
  else if !s.arbiterNow || 2 ≤ s.selGrade then 2
  else if s.selGrade = 1 || s.flag .TIME_STAT_DRIFT_TREND || !s.servoLocked then 1
  else 0

/-- The time-quality update of R70; a Brim's code is the worse of its own and the Crown's (R411). -/
def State.updateTq (s : State) : State :=
  let s := s.when s.arbiterNow fun s => s.onTime fun t => { t with arbiterSeen := true }
  s.setTq (if s.isBrim then max s.tqCode s.cw.crownTq else s.tqCode)

/-- A reference is lost (R39): LOS sets and it grades ABSENT. -/
def execRefLoss (r : RefId) (s : State) : Out :=
  match r with
  | .A => done ((s.put .TIME_STAT_LOS_A 0 true).wr .TIME_STAT_GRADE_A 0 3)
  | .B => done ((s.put .TIME_STAT_LOS_B 0 true).wr .TIME_STAT_GRADE_B 0 3)

/-- A reference switch restarts the trend estimator's history (R66). -/
def State.trendRestart (s : State) : State := s.onTime fun t => { t with devs := [], trendAbove := 0, trendBelow := 0 }

/-- REF_NONE clears at the end of a window in which a reference showed edges throughout; the PLL takes the first one to do
so, REF_CTRL.PREF first, without a step (R73), and where that is a switch the estimator's history restarts (R66). -/
def State.refNoneClear (s : State) (m : RefMeas) : State :=
  if s.flag .TIME_STAT_REF_NONE && (m.edgesA || m.edgesB) then
    let selB := if m.edgesA && m.edgesB then s.flag .REF_CTRL_PREF else m.edgesB
    let moved := selB != s.flag .TIME_STAT_REFSEL
    ((s.put .TIME_STAT_REF_NONE 0 false).put .TIME_STAT_REFSEL 0 selB).when moved State.trendRestart
  else s

/-- The grades of a window (R63, R64): the two grades, the deviations reported, and REF_DISAGREE. DESIGN CHOICE: where
the references disagree by more than 50 ppm with no grading base, each grade is a free value that is not FAIL; and with no base
and the selected reference absent, the other one, which no rule grades, keeps the grade it had. -/
def State.gradeWindow (s : State) (m : RefMeas) : State :=
  let base := s.arbiterNow || s.time.lastGood.isSome
  let selB := s.flag .TIME_STAT_REFSEL
  let rep := fun (s : State) (a b ab : Int) =>
    ((s.wrSigned .REF_DEV_A 0 a).wrSigned .REF_DEV_B 0 b).wrSigned .REF_DEV_AB 0 ab
  let set := fun (s : State) (ga gb : Nat) (dis : Bool) =>
    ((s.wr .TIME_STAT_GRADE_A 0 ga).wr .TIME_STAT_GRADE_B 0 gb).put .TIME_STAT_REF_DISAGREE 0 dis
  if base then
    set (rep s m.devA m.devB m.devAB) (if m.edgesA then gradeOf m.devA else 3) (if m.edgesB then gradeOf m.devB else 3) false
  else if m.edgesA && m.edgesB then
    if gradeOf m.devAB = 2 then
      let (g, s) := s.fresh 1
      set (rep s m.devA m.devB m.devAB) g g true
    else set (rep s m.devA m.devB m.devAB) (gradeOf m.devAB) (gradeOf m.devAB) false
  else
    let osc := fun (d : Int) => if d.natAbs ≤ 2050000 then 0 else 2
    let ga := if !m.edgesA then 3 else if selB then s.rd .TIME_STAT_GRADE_A else osc m.oscA
    let gb := if !m.edgesB then 3 else if selB then osc m.oscB else s.rd .TIME_STAT_GRADE_B
    set (rep s (if selB then m.devA else m.oscA) (if selB then m.oscB else m.devB) 0) ga gb false

/-- The slope of the last 60 deviations, newest first, exceeds 2 ppm per minute (R66): a least-squares fit over the
windows 0 to 59, whose sum of squared distances from the mean is 17,995. -/
def slopeAbove (devs : List Int) : Bool :=
  devs.length == 60 &&
    decide ((2000 * 17995 : Int) <
      30 * ((devs.zipIdx.map fun e => (59 - 2 * (e.2 : Int)) * e.1).foldl (· + ·) 0))

/-- The trend estimator over one window (R66). -/
def State.trendWindow (s : State) (m : RefMeas) : State :=
  let d := if s.flag .TIME_STAT_REFSEL then m.devB else m.devA
  let devs := (d :: s.time.devs).take 60
  let up := slopeAbove devs
  let s := s.onTime fun t =>
    { t with devs := devs, trendAbove := if up then t.trendAbove + 1 else 0, trendBelow := if up then 0 else t.trendBelow + 1 }
  let s := s.when (300 ≤ s.time.trendAbove) fun s =>
    (s.put .TIME_STAT_DRIFT_TREND 0 true).put .TIME_STAT_DRIFT_SEEN 0 true
  s.when (60 ≤ s.time.trendBelow) fun s => s.put .TIME_STAT_DRIFT_TREND 0 false

/-- Switch to the other reference, without a step of the raw counter; the estimator's history restarts (R65, R66, R69). -/
def State.refSwitch (s : State) : State :=
  let s := s.put .TIME_STAT_REFSEL 0 (!s.flag .TIME_STAT_REFSEL)
  ((s.put .TIME_STAT_SWITCHED 0 true).irq 0 18).trendRestart

/-- The decision on a selected reference that grades FAIL or ABSENT (R65): a switch to the other reference within 20 ppm of
the grading base, with AUTO = 1, or holdover. -/
def State.refDecide (s : State) (m : RefMeas) (base : Bool) : State :=
  if s.selGrade < 2 then s
  else
    let selB := s.flag .TIME_STAT_REFSEL
    let (d, e) := if selB then (m.devA, m.edgesA) else (m.devB, m.edgesB)
    if s.flag .REF_CTRL_AUTO && base && e && decide (d.natAbs ≤ 20000) then s.refSwitch
    else s.onTime fun t => { t with holdover := true }

/-- Holdover ends with an arbiter, a reference that grades OK against it and a locked servo (R68). -/
def State.holdoverExit (s : State) : State :=
  s.when (s.time.holdover && s.arbiterNow && s.servoLocked && (s.rd .TIME_STAT_GRADE_A == 0 || s.rd .TIME_STAT_GRADE_B == 0))
    fun s => s.onTime fun t => { t with holdover := false }

/-- A grading window ends (R63 to R70, R73). -/
def execRefWindowEnd (m : RefMeas) (s : State) : Out :=
  let base := s.arbiterNow || s.time.lastGood.isSome
  let s := s.refNoneClear m
  let s := s.gradeWindow m
  let s := s.when (s.arbiterNow && s.selGrade == 0) fun s => s.onTime fun t => { t with lastGood := some t.rate }
  let s := s.trendWindow m
  let s := s.refDecide m base
  done (s.holdoverExit.updateTq)

/-- Both references ABSENT for more than 1 s in holdover: REF_NONE sets and the code becomes FREE (R72). -/
def execRefNoneTimeout (s : State) : Out :=
  if s.time.holdover ∧ s.rd .TIME_STAT_GRADE_A = 3 ∧ s.rd .TIME_STAT_GRADE_B = 3 then
    done ((s.put .TIME_STAT_REF_NONE 0 true).setTq 3)
  else done s

/-! ### Network time on ETH0 (R51 to R55, R70, R529) -/

/-- logSyncInterval or logMinDelayReqInterval, in a message that carries one of them (Sync, Follow_Up, Delay_Resp), from −7 to
+1 (Table TB-4). -/
def ptpIntervalOk (m : PtpMsg) : Bool :=
  let v := m.logInterval.toInt
  !(m.msgType == 0 || m.msgType == 8 || m.msgType == 9) || (decide (-7 ≤ v) && decide (v ≤ 1))

/-- Whether a PTP message lies within Table TB-4: transport and UDP port, domain, interval, and none of the unsupported parts. -/
def State.ptpSupported (s : State) (m : PtpMsg) : Bool :=
  (m.transport == .layer2 || (m.transport == .udp4 && s.time.ptp.profile != 2 && (m.udpPort == 319 || m.udpPort == 320))) &&
    m.domain.toNat == s.time.ptp.domain && ptpIntervalOk m && !m.unicast && !m.authTlv && !m.mgmtSet

/-- An Announce enters its sender in the foreign-master table (Table TB-4). PRESUMED from IEEE 1588: a sender for which the table
has no place is not entered. -/
def State.foreignMaster (s : State) (m : PtpMsg) : State :=
  s.when (m.msgType == 11) fun s => s.onTime fun t =>
    { t with foreign := if t.foreign.contains m.source.toNat || 8 ≤ t.foreign.length then t.foreign
        else t.foreign ++ [m.source.toNat] }

/-- A PTP message arrives (R51, R52): within the support it is stamped, the stamp corrected by ETH0_ASYM_IN, and handed to
the servo; a Sync's offset joins the last 16, but on a Brim, where Crown time takes the place of PTP. Otherwise it is discarded
and counted. -/
def execPtpMessageRx (m : PtpMsg) (s : State) : Out :=
  if !s.domOn pdAux then done s
  else if s.ptpSupported m then
    let st := (s.waytime : Int) - asymUnits (s.rdSigned .ETH0_ASYM_IN)
    let s := (s.foreignMaster m).when (m.msgType == 0 && !s.isBrim) fun s => s.onTime fun t => { t with servo := (m.servoOffset :: t.servo).take 16 }
    done (s.emit (.ptpToServo m st))
  else done (s.count .PTP_STAT_DISCARD)

/-- Codes of the PTP port states (Table TB-10). -/
def ptpCode : PtpState → Nat
  | .initializing => 0 | .faulty => 1 | .disabled => 2 | .listening => 3 | .uncalibrated => 4 | .slave => 5 | .passive => 6

/-- The PTP port changes state and the time-quality code is updated (R70). PRESUMED from IEEE 1588: a port that starts over or
leaves service holds no foreign masters. -/
def execPtpPortStateChange (st : PtpState) (s : State) : Out :=
  let s := s.when (ptpCode st ≤ 2) fun s => s.onTime fun t => { t with foreign := [] }
  done ((s.wr .PTP_STAT_PORT_STATE 0 (ptpCode st)).updateTq)

/-- An ARP request for ETH_IP is answered; one for another address is a frame to discard (R529). -/
def execArpRequestRx (ip : Word) (s : State) : Out :=
  if !s.domOn pdAux then done s
  else if ip.toNat = s.rd .ETH_IP then done (s.emit (.arpReply ip (s.rd .ETH_MAC_LO + 2 ^ 32 * s.rd .ETH_MAC_HI)))
  else done (s.count .ETH_DISCARD)

/-- Any other ETH0 frame is discarded and counted (R529). -/
def execEthFrameDiscard (s : State) : Out := if s.domOn pdAux then done (s.count .ETH_DISCARD) else done s

/-- Push an entry onto the transmit-stamp queue; on a full queue the new stamp is lost (R53). -/
def State.txtsPush (s : State) (e : TxStamp) : State :=
  if 64 ≤ s.time.txts.length then (s.put .TXTS_STAT_OVF 0 true).count .TXTS_STAT_OVF_CNT
  else s.onTime fun t => { t with txts := t.txts ++ [e] }

/-- A stamped frame leaves ETH0: its egress stamp plus ETH0_ASYM_OUT is pushed (R52, R53). -/
def execPtpFrameTx (id : BitVec 16) (s : State) : Out :=
  if s.domOn pdAux then
    done (s.txtsPush ⟨id, false, ((s.waytime : Int) + asymUnits (s.rdSigned .ETH0_ASYM_OUT)).toNat⟩)
  else done s

/-- A stamped frame is discarded before transmission: an entry with DROPPED and a zero stamp (R54). -/
def execPtpFrameDropped (id : BitVec 16) (s : State) : Out := done (s.txtsPush ⟨id, true, 0⟩)

/-- TXTS_POP removes the head entry (R55). -/
def execTxtsPop (who : Agent) (s : State) : Out :=
  match s.letIn who .TXTS_POP 0 with
  | .error s => done s
  | .ok s => done (s.onTime fun t => { t with txts := t.txts.tail })

/-! ### Views -/

/-- TIME_OFF_HI:TIME_OFF_LO and TIME_OFF_FRAC (Table TB-7). -/
def State.offRegs (s : State) : Nat × Nat := (ofSigned 64 (s.time.off.fdiv (2 ^ 16)), ofSigned 16 s.time.off)

/-- TIME_SLEW_REM: nanoseconds, truncated toward zero, limited to 32 signed bits (Table TB-7). -/
def State.slewRemReg (s : State) : Nat := ofSigned 32 (clampInt (-(2 ^ 31)) (2 ^ 31 - 1) (s.time.slewRem.tdiv (2 ^ 16)))

end Sys2Proof.Machine
end

