-- ==== Sys2Proof/Machine/Causeway.lean ====
section
/-!
DEFINITION. The Causeway switch, its hops and its packets (`spec/14_causeway_cascade.md` R387 to R418).
-/
namespace Sys2Proof.Machine

/-! ### Roles and states (R390, R405, Table CW-2) -/

/-- ROLE: 1 Crown, 2 Brim; 0 and 3 are standalone (R405). -/
def State.cwRole (s : State) : Nat := s.rd .GLOBAL_ID_ROLE
def State.isCrown (s : State) : Bool := s.cwRole == 1
def State.standalone (s : State) : Bool := s.cwRole == 0 || s.cwRole == 3

/-- The CRC-16 of R114. -/
def crc16 (l : List Byte) : Nat := crcMsb 16 0x1021 0xFFFF l

/-- Hop 0 is the in-hop and hop 1 the out-hop. The in-hop's lanes as a mask of those in a state. -/
def State.inLanes (s : State) (st : Nat) : Nat :=
  (List.range 8).foldl (fun a l => if s.rd .CW_LANE_IN l = st then a + 2 ^ l else a) 0

/-- A width from the number of GOOD lanes (R400). -/
def widthOf (g : Nat) : Nat :=
  if 8 ≤ g then 8 else if 6 ≤ g then 6 else if 4 ≤ g then 4 else if 2 ≤ g then 2 else g

/-- GOOD of the in-hop and the HOPTAB entry of the own upstream follow the lanes (R389, R399). -/
def State.goodRefresh (s : State) : State :=
  let g := s.inLanes 0
  let s := s.wr .CW_HOP_GOOD 0 g
  if s.cw.inKnown then
    s.onCw fun c => { c with hoptab := Table.set 0 c.hoptab (s.rd .CW_HOP_PEER 0) (g + c.inEpoch * 2 ^ 8) }
  else s

/-- The out-hop begins a new epoch (R396 to R398): no lane carries data; under policy 0 a device with keys encrypts from the
start. -/
def State.newOutHop (s : State) : State :=
  let s := s.onCw fun c =>
    { c with outEpoch := (c.outEpoch + 1) % 16, outEpochAt := s.raw, outCal := 0, encNext := false, outPkts := 0 }
  let s := (((s.wr .CW_HOP_WIDTH 1 0).wr .CW_HOP_MASK 1 0).wr .CW_HOP_GOOD 1 0).wr .CW_HOP_PEER 1 0
  let s := s.put .CW_HOP_ENC 1 (!s.flag .SEC_STAT_CW_POLICY && s.flag .SEC_STAT_KEYS_READY)
  s.each (List.range 8) fun s l => s.wr .CW_LANE_OUT l 2

/-- Brims are lost (R416). -/
def State.loseBrims (s : State) (ds : List Nat) : State :=
  if s.isCrown then (s.each ds fun s d => s.setBitOf .AGG_LOST 0 d).kerbUpdate else s

/-- The in-hop begins a new epoch: its lanes train, and its upstream has neither proved nor failed anything. DEDUCED: with no lane
GOOD the hop is down, which is the loss of the Crown's in-hop (R400, R416). -/
def State.newInHop (s : State) : State :=
  let s := s.onCw fun c => { c with inEpochAt := s.raw, upProven := false, peerSerial := 0, inPkts := 0, inKnown := false }
  let s := (((s.wr .CW_HOP_WIDTH 0 0).wr .CW_HOP_MASK 0 0).put .CW_HOP_ENC 0 false).put .CW_STAT_NOT_KIT_UP 0 false
  ((s.each (List.range 8) fun s l => s.wr .CW_LANE_IN l 2).goodRefresh).loseBrims (bitList 16 (s.rd .AGG_EN))

/-- The device leaves the ring for a state of the switch: the map and what the hops held are gone. -/
def State.cwLeave (s : State) (st : Nat) : State :=
  let s := (s.wr .CW_STAT_STATE 0 st).onCw fun c =>
    { c with
      map := [], hoptab := [], markerAt := none, spliceWt := 0, joining := false, leaving := false
      inEpochAt := s.raw, inKnown := false, outPkts := 0, inPkts := 0, outCal := 0, encNext := false, upProven := false, discovering := false, timeOut := [], goodL := none
      pathDly := [], timeHist := [], ctrlOut := [] }
  let s := ((((s.clearRange .CW_HOP_WIDTH 2).clearRange .CW_HOP_MASK 2).clearRange .CW_HOP_GOOD 2).clearRange .CW_HOP_LMV 2)
  let s := ((s.clearRange .CW_HOP_PEER 2).clearRange .CW_HOP_ENC 2).clearRange .CW_MAP 64
  let s := ((s.clearRange .CW_LANE_IN 8).clearRange .CW_LANE_OUT 8).wr .CW_STAT_N_DEV 0 0
  (((s.put .CW_STAT_NOT_KIT_UP 0 false).put .CW_STAT_PLAIN 0 false).put .CW_STAT_DEVID_DUP 0 false).put
    .CW_STAT_ROLE_CONFLICT 0 false

/-- The switch follows CW_CFG.EN, ROLE and PD_CW (Table CW-2): OFF while gated; THROUGH while disabled or standalone; LISTEN
from THROUGH once enabled. FAULT stays, over a gating of PD_CW too, until a device reset (Table FR-3). ROLE 0b11 shows as
STRAP_ERR (R405). -/
def State.cwRefresh (s : State) : State :=
  let s := s.put .CW_STAT_STRAP_ERR 0 (s.domOn pdCw && s.rd .GLOBAL_ID_ROLE == 3)
  let st := s.rd .CW_STAT_STATE
  if !s.domOn pdCw then (if st = 0 then s else (s.cwLeave 0).kerbUpdate)
  else if s.cw.failed then (if st = 6 then s else (s.cwLeave 6).kerbUpdate)
  else if !s.flag .CW_CFG_EN || s.standalone then (if st = 1 ∨ st = 5 then s else (s.cwLeave 1).kerbUpdate)
  else if st = 0 ∨ st = 1 then s.cwLeave 2
  else s

/-- The device moves to RING: both of its hops begin new epochs (R406). -/
def State.joinRing (s : State) : State :=
  let s := (s.wr .CW_STAT_STATE 0 3).onCw fun c => { c with joining := false, markerAt := none, spliceWt := 0 }
  s.newOutHop.newInHop

/-! ### Markers and frames (R387 to R389, R400, R401) -/

/-- An entry of HOPTAB that an incoming marker B carries. -/
def hopEntry (n u : Nat) : Nat := bits n (24 + 12 * u) 12

/-- The next width above `w` (R401). -/
def widthUp (w : Nat) : Nat := if w = 0 then 1 else if w = 1 then 2 else if w < 4 then 4 else if w < 6 then 6 else 8

/-- The MASK of the next frame (R400, R401): the lowest of the out-hop's GOOD lanes that are not under calibration (R403), as many as
the width they allow. DEDUCED: a width that rises takes one step at each frame boundary. -/
def State.frameMask (s : State) : Nat :=
  let l := (bitList 8 (s.rd .CW_HOP_GOOD 1)).filter fun l => !bit s.cw.outCal l
  (l.take (min (widthOf l.length) (widthUp (s.rd .CW_HOP_WIDTH 1)))).foldl (fun a l => a + 2 ^ l) 0

/-- A calibration of lane mode ends with its lanes returned through TRAINING (R403). -/
def State.abortCal (s : State) : State :=
  let s := s.each (bitList 8 (s.inLanes 3)) fun s l => s.wr .CW_LANE_IN l 2
  if s.cw.outCal = 0 then s
  else
    let s := s.each (bitList 8 s.cw.outCal) fun s l => s.wr .CW_LANE_OUT l 2
    s.onCw fun c => { c with outCal := 0 }

/-- GOOD of the out-hop, as its receiver reports it. Table CW-9 gives the out-lanes the states of R399, of which the
transmitter learns only GOOD: a lane that leaves GOOD is shown BAD (DEDUCED). -/
def State.outGood (s : State) (good : Nat) : State :=
  let old := s.rd .CW_HOP_GOOD 1
  let lost := (List.range 8).any fun l => bit old l && !bit good l && !bit s.cw.outCal l
  let s := s.wr .CW_HOP_GOOD 1 good
  let s := s.each ((List.range 8).filter fun l => !bit s.cw.outCal l) fun s l =>
    if bit good l then s.wr .CW_LANE_OUT l 0 else if bit old l then s.wr .CW_LANE_OUT l 1 else s
  if lost then s.abortCal else s

/-- A valid marker has been seen, for LISTEN (R406). -/
def State.sawMarker (s : State) : State := s.onCw fun c => { c with markerAt := some s.raw }

/-- The tests of a marker: PD_CW on, a state that receives, the CRC over bits [239:0] (R388). The codewords of the lane's frame
that the FEC corrected and could not correct are counted first (Table CW-9). -/
def State.marker (s : State) (l : CwLane) (m : BitVec 256) (f : State → Nat → State) : Out :=
  let n := m.toNat
  if !s.domOn pdCw || !(s.rd .CW_STAT_STATE == 2 || s.rd .CW_STAT_STATE == 3) then done s
  else
    let s := (s.count .CW_CNT 0 l.corrected.val).count .CW_CNT 1 l.lost.val
    if bits n 240 16 ≠ crc16 (leBytes 30 n) then done (s.count .CW_CNT 2) else done (f s n)

/-- The in-hop shows what a frame's markers carry (R401); a BAD lane outside MASK trains against the PRBS31 sent there (R399). DEDUCED:
a MASK that becomes 0 takes the hop down, which loses the Crown's in-hop. -/
def State.inFrame (s : State) (n : Nat) : State :=
  let mask := bits n 8 8
  let down := s.rd .CW_HOP_MASK 0 != 0 && mask == 0
  let s := ((s.wr .CW_HOP_MASK 0 mask).wr .CW_HOP_WIDTH 0 (popcount 8 mask)).wr .CW_HOP_LMV 0 (bits n 4 4)
  let s := s.each ((List.range 8).filter fun l => !bit mask l && s.rd .CW_LANE_IN l == 1) fun s l => s.wr .CW_LANE_IN l 2
  if down then s.loseBrims (bitList 16 (s.rd .AGG_EN)) else s

/-- The device sets SPLICE_WT itself: the Crown, or with no Crown in the map the device of lowest DEVID (R406). DEDUCED: without a map
the devices of the ring are those whose hops HOPTAB shows in use. -/
def State.spliceMaster (s : State) : Bool :=
  s.inRing && (s.isCrown || (s.crownId.isNone && (s.cw.map.all fun e => s.devid ≤ e.devid) &&
    s.cw.hoptab.all fun e => bits e.2 0 8 == 0 || s.devid ≤ e.1))

/-- SPLICE_WT of the markers; one that has passed and was not held is over. -/
def State.heardSplice (s : State) (w : Nat) : State :=
  if s.spliceMaster ∨ (w ≠ s.cw.spliceWt ∧ w ≤ s.now ∧ w ≠ 0) then s else s.onCw fun c => { c with spliceWt := w }

/-- CW_MARKER_A_RX (Table CW-1): in RING the in-hop shows what the frame carries; a changed HEPOCH is a new epoch of the
in-hop. -/
def execCwMarkerARx (lane : CwLane) (m : BitVec 256) (s : State) : Out :=
  s.marker lane m fun s n =>
    let s := s.sawMarker.heardSplice (bits n 96 64)
    if s.rd .CW_STAT_STATE ≠ 3 then s
    else
      let ep := bits n 24 4
      let fresh := s.cw.inKnown && ep != s.cw.inEpoch
      let s := s.when fresh State.newInHop
      let s := (s.wr .CW_HOP_PEER 0 (bits n 20 4)).onCw fun c => { c with inEpoch := ep, inKnown := true }
      ((s.inFrame n).put .CW_HOP_ENC 0 (bit n 17)).goodRefresh

/-- CW_MARKER_B_RX: the table is relayed, its own upstream's entry aside (R389); the transmitter acts on its own entry when
that carries its current epoch (R400). -/
def execCwMarkerBRx (lane : CwLane) (m : BitVec 256) (s : State) : Out :=
  s.marker lane m fun s n =>
    let s := s.sawMarker
    if s.rd .CW_STAT_STATE ≠ 3 then s
    else
      let s := s.inFrame n
      let up := s.rd .CW_HOP_PEER 0
      let relay := fun (t : Table Nat) u => if s.cw.inKnown && u == up then t else Table.set 0 t u (hopEntry n u)
      let s := s.onCw fun c => { c with hoptab := (List.range 16).foldl relay c.hoptab }
      let s := s.goodRefresh
      let e := hopEntry n s.devid
      if bits e 8 4 = s.cw.outEpoch then s.outGood (bits e 0 8) else s

/-- The markers of a frame's eight lanes: each has its lane number and its CRC-16 over bits [239:0] (R388). -/
def laneMarkers (body : Nat) : List Nat := (List.range 8).map fun l => body + l + crc16 (leBytes 30 (body + l)) * 2 ^ 240

/-- The payload of marker A, its lane and CRC bits 0. -/
def State.markerA (s : State) : Nat :=
  s.rd .CW_HOP_LMV 1 * 2 ^ 4 + s.rd .CW_HOP_MASK 1 * 2 ^ 8 + s.rd .CW_HOP_ENC 1 * 2 ^ 17 + s.cwRole * 2 ^ 18 +
    s.devid * 2 ^ 20 + s.cw.outEpoch * 2 ^ 24 + s.now * 2 ^ 32 + s.cw.spliceWt * 2 ^ 96

/-- The payload of marker B, its lane and CRC bits 0. -/
def State.markerB (s : State) : Nat :=
  s.rd .CW_HOP_LMV 1 * 2 ^ 4 + s.rd .CW_HOP_MASK 1 * 2 ^ 8 + 2 ^ 16 +
    (s.cw.hoptab.map fun e => e.2 % 2 ^ 12 * 2 ^ (24 + 12 * (e.1 % 16))).foldl (· + ·) 0

/-- CW_FRAME_BOUNDARY: a MASK change takes effect with LMV raised by 1 (R400), ENC may be set (R398), the markers leave, and a
Brim with an armed Kerb sends STOP_STATE (R415). -/
def execCwFrameBoundary (s : State) : Out :=
  if !s.domOn pdCw || !s.inRing then done s
  else
    let s := s.onCw fun c => { c with frame := c.frame + 1 }
    let m := s.frameMask
    let s := if m = s.rd .CW_HOP_MASK 1 then s
      else ((s.wr .CW_HOP_MASK 1 m).wr .CW_HOP_WIDTH 1 (popcount 8 m)).wr .CW_HOP_LMV 1 (s.rd .CW_HOP_LMV 1 + 1)
    let s := s.when s.cw.encNext fun s => (s.put .CW_HOP_ENC 1 true).onCw fun c => { c with encNext := false }
    let s := if s.cw.frame % 2 = 0 then s.emit (.cwMarkers 0 (laneMarkers s.markerA)) else s.emit (.cwMarkers 1 (laneMarkers s.markerB))
    done s.sendStopState

/-! ### Packets (R393, R394) -/

/-- The fields of a packet header. -/
def pCls (p : CwPacket) : Nat := byteAt p.header 0
def pDst (p : CwPacket) : Nat := bits (byteAt p.header 1) 0 4
def pSrc (p : CwPacket) : Nat := bits (byteAt p.header 1) 4 4
def pBcast (p : CwPacket) : Bool := bit (byteAt p.header 2) 7
def pSpur (p : CwPacket) : Nat := bits (byteAt p.header 3) 0 3
def pSub (p : CwPacket) : Nat := bits (byteAt p.header 3) 3 5
def pSeq (p : CwPacket) : Nat := leAt p.header 4 4

/-- Two Crowns have met: neither sends TIME, CTRL or DATA (R407). -/
def State.roleConflict (s : State) : Bool := s.flag .CW_STAT_ROLE_CONFLICT

/-- The in-hop's packet counter moves with each packet that may be encrypted there (R397). -/
def State.cwIn (s : State) (p : CwPacket) : State :=
  if pCls p ≠ 3 ∧ s.flag .CW_HOP_ENC 0 then s.onCw fun c => { c with inPkts := (c.inPkts + 1) % 2 ^ 64 } else s

/-- A packet of one class arrives (R394): what is not intact or of a reserved class is dropped and counted; a receiver whose
upstream failed its proof under policy 0 drops all but MGMT (R398); the device's own packets are removed, with NO_DEST for one
that found no destination (R394, R408); the others are consumed by `use`, forwarded as `relay`, or both. A device whose DEVID
is doubled consumes only MGMT (R407). -/
def State.cwTake (s : State) (p : CwPacket) (cls : Nat) (use own : State → State) (relay : CwPacket) : Out :=
  if !s.domOn pdCw || !s.inRing then done s
  else
  let bad := !p.intact || pCls p == 0 || 5 < pCls p
  if !bad ∧ pCls p ≠ cls then done s
  else
  let s := s.cwIn p
  if bad then done (s.count .CW_CNT 3)
  else if s.flag .CW_STAT_NOT_KIT_UP && cls != 3 then done s
  else if pSrc p = s.devid then done (own (s.when (!pBcast p) fun s => s.count .CW_CNT 4))
  else
    let mine := (pBcast p || pDst p == s.devid) && !(s.flag .CW_STAT_DEVID_DUP && cls != 3)
    let s := s.when mine use
    done (s.when (pBcast p || pDst p != s.devid) fun s => s.cwPut cls (.cwForward relay.header relay.payload))

/-! ### Stop aggregation (R415, R416) -/

/-- A STOP_STATE is taken by the Crown: its SEQ is above the last accepted from that Brim, and the Brim is in the map once. -/
def State.stopState (s : State) (p : CwPacket) : State :=
  let d := pSrc p
  let old := s.aggSt d
  let newer : Bool := match old.seq with | none => true | some q => q < pSeq p
  if !s.isCrown || !newer || !s.mapHas d then s
  else
    let a : AggSt := ⟨some (pSeq p), byteAt p.header 16, byteAt p.header 17, s.raw⟩
    ((s.onCw fun c => { c with agg := Table.set {} c.agg d a }).setBitOf .AGG_LOST 0 d false).kerbUpdate

/-- STOP_STATE_RX. -/
def execStopStateRx (p : CwPacket) (s : State) : Out := checked p.wf <| s.cwTake p 1 (fun s => s.stopState p) id p

/-- AGG_TIMEOUT: AGG_TO µs after the last accepted STOP_STATE. -/
def execAggTimeout (d : Fin 16) (s : State) : Out :=
  if s.isCrown && bit (s.rd .AGG_EN) d.val && (s.aggSt d.val).seq.isSome &&
      decide ((s.aggSt d.val).at_ + s.rd .AGG_TO * 1000 ≤ s.raw) then
    done (s.loseBrims [d.val])
  else done s

/-! ### Time (R409 to R411) -/

/-- An asymmetry of R52 in units of 2⁻⁸ ns. -/
def asym8 (ps : Int) : Int := rneDiv (ps * 256) 1000

/-- The ring position of a DEVID in the map (R407). -/
def State.ringPos (s : State) (d : Nat) : Option Nat := s.cw.map.findIdx? fun e => e.devid == d

/-- The delay from the Crown to a position, in units of 2⁻⁸ ns: the programmed segments, or equal shares of C (R410). -/
def State.segSum (s : State) (c p : Nat) : Nat :=
  if (List.range 16).any fun k => s.rd .CW_SEGDLY k != 0 then
    ((List.range p).map fun k => s.rd .CW_SEGDLY k).foldl (· + ·) 0 * 256
  else p * c / max 1 s.cw.map.length

/-- The Crown's own TIME packet returns (R410). Times in units of 2⁻⁸ ns; the registers hold whole nanoseconds. -/
def State.timeReturn (s : State) (p : CwPacket) (arrival : Int) : State :=
  let bwt := leAt p.header 8 8
  let a := arrival - asym8 (s.rdSigned .CW_ASYM_IN (2 * s.rd .CW_CFG_PAIR))
  let l := (a - (bwt : Int) * 256).toNat
  let corr := leAt p.header 16 6 / 2 ^ 8
  let c := l - corr
  let s := ((s.wr .CW_LOOP_L 0 (l / 256)).wr .CW_LOOP_CORR_RET 0 (corr / 256)).wr .CW_CABLE 0 (c / 256)
  s.onCw fun x =>
    { x with
      timeOut := x.timeOut.filter fun d => d != bwt
      goodL := some (l / 256)
      pathDly := (List.range s.cw.map.length).foldl
        (fun t k => match s.cw.map[k]? with | some e => Table.set 0 t e.devid (s.segSum c k) | none => t) [] }

/-- The Brim's servo takes θ out (R411): it steps once for the first alignment, where R47 allows, and then slews at the rate
of SLEW_PPM. DESIGN CHOICE: it leaves the rate as it is. -/
def State.brimServo (s : State) (theta : Int) : State :=
  let d := -(rneDiv theta 256)
  let step := !s.cw.aligned && !s.stepRefused
  if d = 0 then s.onCw fun c => { c with aligned := true }
  else
    let v := clampInt (-(2 ^ 31)) (2 ^ 31 - 1) d
    let s := s.wrSigned .TIME_SLEW 0 v
    let c : Commit := ⟨if step then .step else .slew, s.shadowRate, v, s.rd .TIME_CMD_SLEW_PPM⟩
    let s := if s.commitBusy then s.onTime fun t => { t with held := t.held ++ [c] } else s.settleCommit.takeCommit c
    s.when step fun s => s.onCw fun c => { c with aligned := decide (v = d) }

/-- A Brim takes a TIME packet (R411). -/
def State.brimTime (s : State) (p : CwPacket) (arrival : Int) : State :=
  if !s.isBrim then s
  else
    let a := arrival - asym8 (s.rdSigned .CW_ASYM_IN (2 * s.rd .CW_CFG_PAIR))
    let th := a - ((leAt p.header 8 8 * 256 + leAt p.header 16 6 / 2 ^ 8 + leAt p.payload (4 * s.devid) 4 : Nat) : Int)
    let s := s.wrSigned .CW_THETA 0 (clampInt (-(2 ^ 31)) (2 ^ 31 - 1) th)
    let s := s.onTime fun t => { t with servo := ((((th.natAbs + 255) / 256 : Nat) : Int) :: t.servo).take 16 }
    let s := s.onCw fun c =>
      { c with
        timeHist := true :: c.timeHist.drop 1
        thetas := (th :: c.thetas).take 16
        crownTq := bits (byteAt p.header 22) 0 2 }
    (s.brimServo th).updateTq

/-- The header with this device's residence added to CORR (R410). -/
def corrAdded (p : CwPacket) (res : Nat) : CwPacket :=
  { p with header := p.header.take 16 ++ leBytes 6 (leAt p.header 16 6 + res) ++ p.header.drop 22 }

/-- TIME_PACKET_RX. -/
def execTimePacketRx (p : CwPacket) (arrival : Int) (residence : BitVec 48) (s : State) : Out := checked p.wf <|
  s.cwTake p 2 (fun s => s.brimTime p arrival) (fun s => if s.isCrown then s.timeReturn p arrival else s)
    (corrAdded p residence.toNat)

/-- The Crown sends a TIME packet at a Waymark boundary (R409, Table CW-5). -/
def State.sendTime (s : State) : State :=
  if !s.domOn pdCw || !s.inRing || !s.isCrown || s.roleConflict then s
  else
    let pay := (List.range 16).flatMap fun d => leBytes 4 (Table.get 0 s.cw.pathDly d)
    let s := s.cwEmit 2 0 true 0 0 (leBytes 8 s.now ++ leBytes 6 0 ++ leBytes 1 (s.rd .TIME_STAT_TQ) ++ leBytes 9 0) pay
    s.onCw fun c => { c with timeOut := c.timeOut ++ [s.now] }

/-- At a boundary a Brim begins to wait for that boundary's packet: the last four are those of the last four boundaries
(R411; DEDUCED: a packet that never arrives counts as not received). -/
def State.awaitTime (s : State) : State :=
  if s.isBrim then (s.onCw fun c => { c with timeHist := (false :: c.timeHist).take 4 }).updateTq else s

/-- CW_TIME_RETURN_TIMEOUT (R408): the oldest TIME packet is later than L + 2 µs. -/
def execCwTimeReturnTimeout (s : State) : Out :=
  match s.cw.timeOut, s.cw.goodL with
  | d :: rest, some l =>
    if s.isCrown && s.inRing && decide (d + l + 2000 < s.now) then
      done (((s.onCw fun c => { c with timeOut := rest }).put .CW_STAT_RING_BREAK 0 true).loseBrims (bitList 16 (s.rd .AGG_EN)))
    else done s
  | _, _ => done s

/-! ### Kit proof and the map (R396, R398, R407) -/

/-- The device may prove and accept proofs (R372, R373, R398). -/
def State.inKit (s : State) : Bool :=
  s.flag .SEC_STAT_KIT_PRESENT && s.flag .SEC_STAT_KEYS_READY && !s.flag .SEC_STAT_QUARANTINE

/-- HELLO_RX: for this device alone, from its upstream. Under policy 0 a failed proof refuses the hop (R398). -/
def execHelloRx (p : CwPacket) (proof : Bool) (s : State) : Out := checked p.wf <|
  if !s.domOn pdCw || !s.inRing then done s
  else if !p.intact || pCls p == 0 || 5 < pCls p then done ((s.cwIn p).count .CW_CNT 3)
  else if pCls p ≠ 3 ∨ pSub p ≠ 0 then done s
  else
    let ok := proof && s.inKit
    let s := s.onCw fun c => { c with upProven := ok, peerSerial := leAt p.header 8 8 }
    done (s.put .CW_STAT_NOT_KIT_UP 0 (!ok && !s.flag .SEC_STAT_CW_POLICY))

/-- HELLO_TIMER: a HELLO leaves, with a fresh nonce and PROOF, which only the keys give: a free value. DESIGN CHOICE: DST, for
which the spec gives a hop-local packet no value, is free too. -/
def execHelloTimer (nonce : BitVec 128) (s : State) : Out :=
  if !s.domOn pdCw || !s.inRing then done s
  else
    let (d, s) := s.fresh 4
    let (pf, s) := s.freshBytes 16
    done (s.cwEmit 3 d false 0 0
      (leBytes 4 (s.rd .SEC_SERIAL_LO) ++ leBytes 4 (s.rd .SEC_SERIAL_HI) ++ leBytes 4 (s.rd .SEC_KIT_ID_LO) ++
        leBytes 4 (s.rd .SEC_KIT_ID_HI) ++ leBytes 8 0) (leBytes 16 nonce.toNat ++ pf))

/-- A DISCOVER entry: serial, DEVID, ROLE, whether the upstream passed the proof. DEDUCED: in this order, the rest of the 16
bytes 0. -/
def State.ownEntry (s : State) : List Byte :=
  leBytes 4 (s.rd .SEC_SERIAL_LO) ++ leBytes 4 (s.rd .SEC_SERIAL_HI) ++ leBytes 1 s.devid ++ leBytes 1 s.cwRole ++
    leBytes 1 (if s.cw.upProven then 1 else 0) ++ leBytes 5 0

/-- The entries of a DISCOVER or MAP payload; entries of zeros fill the last block. -/
def mapEntries (l : List Byte) : List MapEnt :=
  (List.range 16).filterMap fun i =>
    let e := (l.drop (16 * i)).take 16
    if e.length = 16 ∧ leAt e 0 11 ≠ 0 then some ⟨leAt e 0 8, byteAt e 8, byteAt e 9, bit (byteAt e 10) 0⟩ else none

/-- The device after this one's downstream has this one's downstream as its upstream: its verdict proves the downstream
(R398; DEDUCED). -/
def State.downProven (s : State) : Bool :=
  match s.ringPos s.devid with
  | none => false
  | some i => match s.cw.map[(i + 2) % max 1 s.cw.map.length]? with | some e => e.proven | none => false

/-- The map is taken (R407): the registers, DEVID_DUP and ROLE_CONFLICT, and under policy 1 the encryption of the out-hop
(R398); a Kerb configuration of the active bank that waits for it is armed (R467). -/
def State.takeMap (s : State) (l : List MapEnt) : State :=
  let s := (s.onCw fun c => { c with map := l, discovering := false }).wr .CW_STAT_N_DEV 0 l.length
  let s := s.each (List.range 16) fun s d =>
    match l.findIdx? fun e => e.devid == d, l.find? fun e => e.devid == d with
    | some i, some e =>
      (((s.wr .CW_MAP (4 * d) e.serial).wr .CW_MAP (4 * d + 1) (e.serial / 2 ^ 32)).wr .CW_MAP (4 * d + 2)
        (e.role + i * 2 ^ 8)).wr .CW_MAP (4 * d + 3) (if e.proven then 1 else 0)
    | _, _ => (((s.wr .CW_MAP (4 * d) 0).wr .CW_MAP (4 * d + 1) 0).wr .CW_MAP (4 * d + 2) 0).wr .CW_MAP (4 * d + 3) 0
  let s := s.put .CW_STAT_DEVID_DUP 0 (1 < (l.filter fun e => e.devid == s.devid).length)
  let s := s.put .CW_STAT_ROLE_CONFLICT 0 (s.isCrown && 1 < (l.filter fun e => e.role == 1).length)
  let s := match s.ringPos s.devid with
    | some i => match l[(i + 1) % max 1 l.length]? with | some e => s.wr .CW_HOP_PEER 1 e.devid | none => s
    | none => s
  let s := if s.flag .SEC_STAT_CW_POLICY then
      let ok := s.downProven && s.inKit
      (s.onCw fun c => { c with encNext := ok && !s.flag .CW_HOP_ENC 1 }).put .CW_STAT_PLAIN 0 (!ok)
    else s
  let s := if s.rst.armDue then (s.onRst fun r => { r with armDue := false }).armKerb.2 else s
  s.kerbUpdate

/-- A payload padded to whole blocks of 32 bytes. -/
def padded (l : List Byte) : List Byte := l ++ List.replicate (l.length % 32 / 16 * 16) 0

/-- DISCOVER_RX: a device appends its entry and sends the packet on; back at the Crown it is the map. -/
def execDiscoverRx (p : CwPacket) (s : State) : Out := checked p.wf <|
  if pSub p ≠ 1 then done s
  else
    let ents := p.payload.take (16 * (mapEntries p.payload).length)
    let pay := padded (ents ++ s.ownEntry)
    let hdr := p.header.take 2 ++ leBytes 1 (pay.length / 32 + (if pBcast p then 128 else 0)) ++ p.header.drop 3
    s.cwTake p 3 id (fun s => if s.isCrown then s.takeMap (mapEntries p.payload) else s) { p with header := hdr, payload := pay }

/-- MAP_RX. -/
def execMapRx (p : CwPacket) (s : State) : Out := checked p.wf <|
  if pSub p ≠ 2 then done s else s.cwTake p 3 (fun s => s.takeMap (mapEntries p.payload)) id p

/-- CW_DISCOVER_START: every hop carries data. -/
def execCwDiscoverStart (s : State) : Out :=
  if s.domOn pdCw && s.inRing && s.isCrown && s.rd .CW_HOP_WIDTH 0 != 0 && s.rd .CW_HOP_WIDTH 1 != 0 then
    done ((s.onCw fun c => { c with discovering := true }).cwEmit 3 0 true 0 1 (leBytes 24 0) (padded s.ownEntry))
  else done s

/-- CW_MAP_BROADCAST: the Crown broadcasts the map every 256 µs. -/
def execCwMapBroadcast (s : State) : Out :=
  if s.domOn pdCw && s.inRing && s.isCrown && !s.cw.map.isEmpty then
    let l := s.cw.map.flatMap fun e =>
      leBytes 8 e.serial ++ leBytes 1 e.devid ++ leBytes 1 e.role ++ leBytes 1 (if e.proven then 1 else 0) ++ leBytes 5 0
    done (s.cwEmit 3 0 true 0 2 (leBytes 24 0) (padded l))
  else done s

/-! ### Work (R412, R413) -/

/-- Where a CTRL or DATA packet writes: the spec does not lay out its class fields. PRESUMED: bytes 8–15 hold the
Spur-relative address, or all ones for the doorbell of the exported mailbox; bytes 16–17 a Milestone; byte 18 bit 0 marks the
last packet of a DATA transfer. -/
def pAddr (p : CwPacket) : Nat := leAt p.header 8 8

/-- An exported mailbox: MB(8s + 7), with LOC = 1. -/
def State.exported (s : State) (sp : Nat) : Bool := s.flag .CW_EXPORT_MB sp && s.flag .MB_CFG_LOC (8 * sp + 7)

/-- A range lies in a window of 4 KiB units. -/
def inWindow (base size a n : Nat) : Bool := base * 4096 ≤ a && a + n ≤ (base + size) * 4096

/-- A write lies in the exported window, or in the rings of the exported mailbox. -/
def State.cwAllowed (s : State) (sp a n : Nat) : Bool :=
  let mb := 8 * sp + 7
  let ring := fun (lo hi : Reg) (bytes : Nat) =>
    let b := s.rd lo mb * 2 ^ 12 + s.rd hi mb * 2 ^ 32
    b ≤ a && a + n ≤ b + bytes
  inWindow (s.rd .CW_EXPORT_BASE sp) (s.rd .CW_EXPORT_SIZE sp) a n ||
    (s.exported sp && (ring .MB_SQ_BASE_LO .MB_SQ_BASE_HI (64 * 2 ^ s.rd .MB_CFG_SQ_LOG2 mb) ||
      ring .MB_CQ_BASE_LO .MB_CQ_BASE_HI (32 * 2 ^ s.rd .MB_CFG_CQ_LOG2 mb)))

/-- The write of a CTRL or DATA packet; one outside is refused as an isolation violation of class 4. -/
def State.cwWrite (s : State) (p : CwPacket) : State :=
  let sp := pSpur p
  let a := pAddr p
  if a = 2 ^ 64 - 1 then
    if s.exported sp then s.sqDoorbell (s.coreAgent (8 * sp + 7)) (8 * sp + 7) (leAt p.payload 0 2)
    else s.isoViolation sp isoDma (8 * sp + 7)
  else if s.cwAllowed sp a p.payload.length then s.stSpur sp a p.payload
  else s.isoViolation sp isoDma (8 * sp + 7)

/-- The key of the last packet applied, per source, class and Spur. -/
def rxKey (p : CwPacket) : Nat := pSrc p * 64 + pCls p * 8 + pSpur p

/-- A CTRL packet of SUB 0 is applied once and in order, and acknowledged with its SEQ (R413). DEDUCED: one that comes before
its turn is not acknowledged; the acknowledgement's header carries the SEQ. -/
def State.takeCtrl (s : State) (p : CwPacket) : State :=
  let last := Table.get 0 s.cw.rxSeq (rxKey p)
  let ack := fun (s : State) =>
    s.cwPut 4 (.cwSend ⟨4, pSrc p, s.devid, false, pSpur p, 1, pSeq p, leBytes 24 0, []⟩)
  if pSeq p = (last + 1) % 2 ^ 32 then
    ack ((s.onCw fun c => { c with rxSeq := Table.set 0 c.rxSeq (rxKey p) (pSeq p) }).cwWrite p)
  else if pSeq p ≤ last then ack s
  else s

/-- CTRL_PACKET_RX. -/
def execCtrlPacketRx (p : CwPacket) (s : State) : Out := checked p.wf <|
  if pCls p = 4 ∧ pSub p ≠ 0 then done s else s.cwTake p 4 (fun s => s.takeCtrl p) id p

/-- CTRL_ACK_RX: the packet that waits under this SEQ is acknowledged. -/
def execCtrlAckRx (p : CwPacket) (s : State) : Out := checked p.wf <|
  if pCls p = 4 ∧ pSub p ≠ 1 then done s
  else
    s.cwTake p 4 (fun s => s.onCw fun c =>
      { c with ctrlOut := c.ctrlOut.filter fun e => !(e.1.seq == pSeq p && e.1.spur == pSpur p && e.1.dst == pSrc p) }) id p

/-- CTRL_RETRY_TIMEOUT: sent again with the same SEQ, at most twice; then CW_PEER_LOST (R413). -/
def execCtrlRetryTimeout (spur : Fin 8) (seq : Word) (s : State) : Out :=
  match s.cw.ctrlOut.find? fun e => e.1.seq == seq.toNat && e.1.spur == spur.val with
  | none => done s
  | some e =>
    if e.2 < 3 then
      let f := fun (x : CwSend × Nat) => if x = e then (x.1, x.2 + 1) else x
      done (((s.onCw fun c => { c with ctrlOut := c.ctrlOut.map f }).count .CW_CNT 9).cwPut 4 (.cwSend e.1))
    else
      done (((s.onCw fun c => { c with ctrlOut := c.ctrlOut.erase e }).emit (.peerLost spur.val seq.toNat)).record spur.val
        .cwPeerLost e.1.dst [seq.toNat])

/-- DATA_PACKET_RX: a transfer is written into the window, and its last packet signals its Milestone (R413). -/
def execDataPacketRx (p : CwPacket) (s : State) : Out := checked p.wf <|
  s.cwTake p 5 (fun s =>
    let sp := pSpur p
    if s.cwAllowed sp (pAddr p) p.payload.length then
      let s := s.stSpur sp (pAddr p) p.payload
      s.when (bit (byteAt p.header 18) 0) fun s => s.signal (bits (leAt p.header 16 2) 0 10) sp 1 (.mailbox (8 * sp + 7))
    else s.isoViolation sp isoDma (8 * sp + 7)) id p

/-! ### Lanes (R399, R403) -/

/-- A lane of the in-port becomes BAD: calibration aborts, and with the last GOOD lane the Crown loses its in-hop (R416).
DEDUCED: LANE_DROPS counts lanes that leave GOOD, LANE_ADDS those that become GOOD. -/
def State.laneBad (s : State) (l : Nat) : State :=
  let was := s.rd .CW_LANE_IN l
  if !s.domOn pdCw || !s.inRing || was = 1 then s
  else
    let s := s.when (was == 0) fun s => s.count .CW_CNT 5
    let s := ((s.wr .CW_LANE_IN l 1).abortCal).goodRefresh
    if was = 0 ∧ s.inLanes 0 = 0 then s.loseBrims (bitList 16 (s.rd .AGG_EN)) else s

/-- CW_LANE_LOSS. -/
def execCwLaneLoss (lane : Fin 8) (s : State) : Out := done (s.laneBad lane.val)

/-- CW_LANE_ERROR_RATE. -/
def execCwLaneErrorRate (lane : Fin 8) (s : State) : Out := done (s.laneBad lane.val)

/-- CW_LANE_QUALIFIED. -/
def execCwLaneQualified (lane : Fin 8) (s : State) : Out :=
  if s.domOn pdCw && s.inRing && s.rd .CW_LANE_IN lane.val == 2 then
    done (((s.wr .CW_LANE_IN lane.val 0).count .CW_CNT 6).goodRefresh)
  else done s

/-- Lane mode may start a lane: both hops have at least 7 GOOD lanes and no lane is under calibration. -/
def State.laneModeOk (s : State) : Bool :=
  s.domOn pdCw && s.inRing && s.rd .CW_CFG_CAL_PERIOD != 0 && s.cw.outCal == 0 && s.inLanes 3 == 0 &&
    7 ≤ popcount 8 (s.inLanes 0) && 7 ≤ popcount 8 (s.rd .CW_HOP_GOOD 1)

/-- CW_LANE_CAL_START. -/
def execCwLaneCalStart (lane : Fin 8) (inPath : Bool) (s : State) : Out :=
  if !s.laneModeOk then done s
  else if inPath then done ((s.wr .CW_LANE_IN lane.val 3).goodRefresh)
  else
    done ((s.onCw fun c => { c with outCal := setBit c.outCal lane.val true }).wr .CW_LANE_OUT lane.val 3)

/-- CW_LANE_CAL_DONE: the lane returns through TRAINING, or is BAD with CAL_FAIL. -/
def execCwLaneCalDone (lane : Fin 8) (inPath : Bool) (locked : Bool) (s : State) : Out :=
  let l := lane.val
  let st := if locked then 2 else 1
  if inPath then
    if s.rd .CW_LANE_IN l ≠ 3 then done s
    else done (((s.wr .CW_LANE_IN l st).when (!locked) fun s => s.put .CW_STAT_CAL_FAIL 0 true).goodRefresh)
  else if !bit s.cw.outCal l then done s
  else
    let s := (s.onCw fun c => { c with outCal := setBit c.outCal l false }).wr .CW_LANE_OUT l st
    done (s.when (!locked) fun s => s.put .CW_STAT_CAL_FAIL 0 true)

/-- CW_BATCH_CAL_DONE: the device rejoins at the next splice (R403), and TRIM_WARN tells of the through paths (R404). -/
def execCwBatchCalDone (failed : BitVec 8) (crosstalkHigh : Bool) (s : State) : Out :=
  if s.rd .CW_STAT_STATE ≠ 4 then done s
  else
    let cmd := s.cw.batchCmd
    let s := (s.cwLeave 2).onCw fun c => { c with joining := true, batchCmd := none }
    let s := s.when (failed.toNat != 0) fun s => s.put .CW_STAT_CAL_FAIL 0 true
    let s := s.each (bitList 8 failed.toNat) fun s l => (s.wr .CW_LANE_IN l 1).wr .CW_LANE_OUT l 1
    let s := s.when crosstalkHigh fun s => s.put .CW_STAT_TRIM_WARN 0 true
    match cmd with
    | some (mb, id) => done ((s.finishId mb id 0 0 0).kerbUpdate)
    | none => done s.kerbUpdate

/-! ### Joining and leaving (R406) -/

/-- The device joins of itself, or has been told to. -/
def State.mayJoin (s : State) : Bool := s.flag .CW_CFG_AUTO_JOIN || s.cw.joining

/-- CW_NO_MARKER_TIMEOUT: no valid marker for 2 ms in LISTEN, counted from the last one or from the entry into LISTEN. -/
def execCwNoMarkerTimeout (s : State) : Out :=
  let quiet := decide (s.cw.markerAt.getD s.cw.inEpochAt + 2000000 ≤ s.raw)
  if s.domOn pdCw && s.rd .CW_STAT_STATE == 2 && s.mayJoin && quiet then done s.joinRing.kerbUpdate else done s

/-- CW_SPLICE: SPLICE_WT has come. -/
def execCwSplice (s : State) : Out :=
  if !s.domOn pdCw || s.cw.spliceWt = 0 || s.now < s.cw.spliceWt then done s
  else
    match s.rd .CW_STAT_STATE with
    | 2 => if s.mayJoin then done ((s.joinRing.count .CW_CNT 8).kerbUpdate) else done (s.onCw fun c => { c with spliceWt := 0 })
    | 3 =>
      if s.cw.leaving then done (((s.cwLeave 2).count .CW_CNT 8).kerbUpdate)
      else done (s.onCw fun c => { c with spliceWt := 0 })
    | _ => done s

/-- The first Waymark boundary + 128 µs that lies at least 2 ms ahead (R406). -/
def nextSplice (now : Nat) : Nat := ceilDiv (now + 2000000 - 128000) 256000 * 256000 + 128000

/-- CW_SPLICE_SCHEDULE: the Crown sets SPLICE_WT; with no Crown in the map, the device of lowest DEVID. -/
def execCwSpliceSchedule (s : State) : Out :=
  if s.domOn pdCw && s.spliceMaster then
    done (s.onCw fun c => { c with spliceWt := nextSplice s.now })
  else done s

/-- CW_HOP_DATA_TIMEOUT: a hop that a splice changed carries no data after 300 µs; it retrains, in a new epoch (R397, R406). -/
def execCwHopDataTimeout (inHop : Bool) (s : State) : Out :=
  let h := if inHop then 0 else 1
  let since := if inHop then s.cw.inEpochAt else s.cw.outEpochAt
  if s.domOn pdCw && s.inRing && s.rd .CW_HOP_WIDTH h == 0 && decide (since + 300000 ≤ s.raw) then
    done (((if inHop then s.newInHop else s.newOutHop).count .CW_CNT 7).kerbUpdate)
  else done s

/-! ### Failures (R418) -/

/-- The local receiver or transmitter has failed. -/
def State.portFail (s : State) (what : Nat) : State :=
  let s := ((s.cwLeave 6).onCw fun c => { c with failed := true }).put .CW_STAT_PORT_FAIL 0 true
  let port := 2 * s.rd .CW_CFG_PAIR + (what - 1)
  (s.record 0 .cwPortFail port [what]).kerbUpdate

/-- CW_RX_FAIL_TIMEOUT: every lane of the in-port BAD for 10 ms with light present. -/
def execCwRxFailTimeout (s : State) : Out :=
  if s.domOn pdCw && s.inRing && s.inLanes 1 == 0xFF then done (s.portFail 1) else done s

/-- CW_TX_BIAS_FAULT: in RING the local transmitter is in use. -/
def execCwTxBiasFault (s : State) : Out := if s.domOn pdCw && s.inRing then done (s.portFail 2) else done s

/-! ### CW_CFG (Table CW-9) -/

/-- Bits of CW_CFG's settings that are reserved encodings (Table CW-9). -/
def cwReserved (c : Cmd) : Bool :=
  c.pairs.any fun p => (hitsAt p.1).any fun h => h.reg.spec.own == .fw && h.reg.reserved h.idx (h.value p.2)

/-- The reason of the refusal of CW_CFG, 0 for none. -/
def State.cwCfgReason (s : State) (c : Cmd) : Nat :=
  if cwReserved c then 1
  else if s.inRing && s.settingOf c.pairs .CW_CFG_PAIR 0 != s.rd .CW_CFG_PAIR then 2
  else if c.cfg.act = .leave ∧ !s.inRing then 3
  else if c.cfg.act = .batch ∧ !s.inRing then 4
  else 0

/-- CW_CFG: its settings take effect; a batch calibration completes the command when it ends. DEDUCED: it leaves RING at once,
since R403 names a splice for the return alone. -/
def execCwCfg (mb : Fin 64) (tag : BitVec 16) (s : State) : Out :=
  s.runCmd mb tag 0x7C false fun s c =>
    match s.cwCfgReason c with
    | r + 1 => s.finish mb.val c 0x2A (r + 1) 0
    | 0 =>
      let s := (s.applySettings mb.val c.pairs).cwRefresh
      match c.cfg.act with
      | .none => s.finish mb.val c 0 0 0
      | .join => (s.onCw fun x => { x with joining := true }).finish mb.val c 0 0 0
      | .leave => (s.onCw fun x => { x with leaving := true }).finish mb.val c 0 0 0
      | .batch => ((((s.cwLeave 4).onCw fun x => { x with batchCmd := some (mb.val, c.id) }).kerbUpdate).begin_ mb.val c)

end Sys2Proof.Machine
end

