-- ==== Sys2Proof/Machine/Identity.lean ====
section
/-!
DEFINITION. Identity stores and their records (`spec/04_module_identity.md` R111 to R120), and what a head's record loads.
-/
namespace Sys2Proof.Machine

/-! ### Entries of a payload (R117, R118) -/

/-- The entries of a payload, each a type, a 2-byte length and the value; none where it does not end exactly. The fuel is at
least the number of entries. -/
def tlvs : Nat → List Byte → Option (List (Nat × List Byte))
  | _, [] => some []
  | 0, _ => none
  | n + 1, t :: l0 :: l1 :: rest =>
    let len := l0.toNat + 256 * l1.toNat
    if rest.length < len then none
    else (tlvs n (rest.drop len)).map fun m => (t.toNat, rest.take len) :: m
  | _, _ => none

/-- A signed number of `k` bytes. -/
def sAt (l : List Byte) (o k : Nat) : Int := toSigned (8 * k) (leAt l o k)

/-- An entry is allowed in a record of this type (1 head, 2 tool), with its length and range (Table ID-3). DEDUCED: any byte of
TOOL_NAME is allowed; the table gives it a length but no range, so a byte that is not ASCII leaves the record valid. -/
def tlvOk (rtype : Nat) (e : Nat × List Byte) : Bool :=
  let n := e.2.length
  match e.1 with
  | 0x01 => n == 8 && leAt e.2 0 8 != 0
  | 0x03 =>
    let w := leAt e.2 0 2
    let h := leAt e.2 2 2
    rtype == 1 && n == 8 && 1 ≤ w && w ≤ 2048 && 1 ≤ h && h ≤ 2048 && leAt e.2 6 2 == 0
  | 0x04 => rtype == 1 && n % 4 == 0 && n / 4 ≤ 16383
  | 0x05 => rtype == 1 && n == 36
  | 0x06 => rtype == 1 && n == 4 && decide (-100000 ≤ sAt e.2 0 4) && decide (sAt e.2 0 4 ≤ 100000)
  | 0x21 => rtype == 2 && n == 4
  | 0x22 =>
    rtype == 2 && n % 12 == 0 && 1 ≤ n / 12 && n / 12 ≤ 8 &&
      (List.range (n / 4)).all fun i => decide (sAt e.2 (4 * i) 2 ≤ sAt e.2 (4 * i + 2) 2)
  | 0x82 => rtype == 1 && n == 8
  | 0x83 => n == 8
  | 0xA3 => rtype == 2 && 1 ≤ n && n ≤ 32
  | t => 0x80 ≤ t

/-- The types a record must hold. -/
def tlvNeeds (rtype : Nat) : List Nat := if rtype = 1 then [0x01, 0x03, 0x05] else [0x01, 0x21, 0x22]

/-- The entries of a valid record. -/
def record? (rtype : Nat) (payload : List Byte) : Option (List (Nat × List Byte)) :=
  match tlvs payload.length payload with
  | none => none
  | some l =>
    if (rtype == 1 || rtype == 2) && l.all (tlvOk rtype) && (l.map Prod.fst).dedup.length == l.length &&
        (tlvNeeds rtype).all fun t => l.any fun e => e.1 == t then some l
    else none

/-- The value of an entry; empty where there is none. -/
def tlvVal (l : List (Nat × List Byte)) (t : Nat) : List Byte :=
  match l.find? fun e => e.1 == t with
  | some e => e.2
  | none => []

/-! ### Directory and slots (R111 to R116) -/

/-- A directory (Table ID-1). -/
structure IdDir where
  medium : Nat
  slotA : Nat
  slotB : Nat
  size : Nat
  blk : Nat
deriving DecidableEq, Repr

/-- The directory of a store on a medium of `cap` bytes, if it is valid (R112). -/
def dirOf (st : List Byte) (cap : Nat) : Option IdDir :=
  let a := leAt st 4 2
  let b := leAt st 6 2
  let n := leAt st 8 2
  let good := 32 ≤ st.length && leAt st 0 2 == 0xA7D1 && byteAt st 2 == 1 && byteAt st 3 ≤ 1 &&
    leAt st 28 4 == crc32 (st.take 28) && a % 32 == 0 && 32 ≤ a && b % 32 == 0 && 32 ≤ b && n % 32 == 0 && 64 ≤ n &&
    (a + n ≤ b || b + n ≤ a) && a + n ≤ cap && b + n ≤ cap
  if good then some ⟨byteAt st 3, a, b, n, byteAt st 10⟩ else none

/-- A slot that is valid: its SEQ, its RTYPE and its entries. -/
structure IdSlot where
  seq : Nat
  rtype : Nat
  ents : List (Nat × List Byte)
deriving DecidableEq, Repr

/-- The slot at a base, if it is valid (R115). -/
def slotAt (st : List Byte) (base size : Nat) : Option IdSlot :=
  let h := (st.drop base).take 16
  let c := (st.drop (base + size - 8)).take 8
  let seq := leAt h 0 4
  let plen := leAt h 4 2
  let pay := (st.drop (base + 16)).take plen
  let crc := crc16 (c.take 6)
  let good := byteAt c 4 == 0xA5 && leAt c 6 2 == crc && byteAt c 6 != 0 && byteAt c 7 != 0 && leAt c 0 4 == seq && seq != 0 &&
    seq != 0xFFFFFFFF && plen ≤ size - 24 && byteAt h 7 == 1 && leAt h 8 4 == crc32 (h.take 8 ++ pay)
  if good then (record? (byteAt h 6) pay).map fun l => ⟨seq, byteAt h 6, l⟩ else none

/-- What a store yields (R112, R116): none for ID_DIR_BAD; else the directory and the active slot (true for B), if any, and
whether both slots tie. -/
structure IdStore where
  dir : IdDir
  active : Option (Bool × IdSlot)
  tie : Bool
deriving DecidableEq, Repr

/-- The reading of a store. -/
def storeOf (st : List Byte) (cap : Nat) : Option IdStore :=
  (dirOf st cap).map fun d =>
    match slotAt st d.slotA d.size, slotAt st d.slotB d.size with
    | some a, some b => ⟨d, some (if a.seq < b.seq then (true, b) else (false, a)), a.seq == b.seq⟩
    | some a, none => ⟨d, some (false, a), false⟩
    | none, some b => ⟨d, some (true, b), false⟩
    | none, none => ⟨d, none, false⟩

/-- An identity counter (Table ID-9). -/
def State.idCount (s : State) (i : Nat) (n : Nat := 1) : State := s.count .ID_CNT i n

/-- What reading a store counts: SEQ_TIE, and REC_INVALID for one that yields no record. DEDUCED: REC_INVALID counts ID_NONE
and ID_DIR_BAD alike. -/
def State.countStore (s : State) (r : Option IdStore) : State :=
  match r with
  | none => s.idCount 6
  | some x => (s.when x.tie fun s => s.idCount 7).when x.active.isNone fun s => s.idCount 6

/-! ### A head's record (R118 to R120, R140) -/

/-- HOTPIX entries as x, y. -/
def hotEntries (v : List Byte) : List (Nat × Nat) :=
  (List.range (v.length / 4)).map fun i => (leAt v (4 * i) 2, leAt v (4 * i + 2) 2)

/-- The hot-pixel table of a unit is loaded from its heads in ascending position (R140): what does not fit into 16,384 entries
is not loaded, and the first position affected is kept for the report. DEDUCED: the entries of a head that has left stay in the
table, and take space, until the table is loaded for another head. -/
def State.loadHotTable (s : State) (u : Nat) : State :=
  let slots := ((List.range 32).map (32 * u + ·)).filter fun i => s.rd .HT_STATE i != 0
  let all := slots.flatMap fun i => (s.slot i).hotpix.map fun e => (i, e)
  let s := s.onCard u fun c => { c with hot := all.take 16384 }
  match (all.drop 16384).head? with
  | none => s
  | some e => (s.put .CARD_STAT_HOTPIX_PORT_OVF u true).onCard u fun c => { c with hotOver := some (e.1 % 32) }

/-- The hot pixels of a head (R119): at most the first 4,096 entries, and of these those inside its geometry. DEDUCED: an entry
that is ignored because it stands past the first 4,096 is not counted as HOTPIX_RANGE, wherever it lies. -/
def State.loadHot (s : State) (slot : Nat) (v : List Byte) : State :=
  let l := hotEntries v
  let s := s.when (4096 < l.length) fun s => s.put .HB_STAT_HOTPIX_OVF 0 true
  let l := l.take 4096
  let inside := l.filter fun e => e.1 < s.headW slot && e.2 < s.headH slot
  (s.idCount 8 (l.length - inside.length)).onSlot slot fun x => { x with hotpix := inside }

/-- An accepted head record is loaded for a slot: serial, geometry, trim, intrinsics with their copy in CAL (R276), and hot pixels. -/
def State.loadHead (s : State) (slot : Nat) (l : List (Nat × List Byte)) : State :=
  let g := tlvVal l 0x03
  let s := s.wr64 .HT_SERIAL_LO .HT_SERIAL_HI slot (leAt (tlvVal l 0x01) 0 8)
  let s := (s.wr .HT_GEOM_W slot (leAt g 0 2 - 1)).wr .HT_GEOM_H slot (leAt g 2 2 - 1)
  let ks := (List.range 9).map fun i => leAt (tlvVal l 0x05) (4 * i) 4
  let s := s.onSlot slot fun x => { x with trim := sAt (tlvVal l 0x06) 0 4, intrinsics := ks }
  (s.calFollow slot true).loadHot slot (tlvVal l 0x04)

/-- CARD_TBL_USED follows the heads of a unit (R145). -/
def State.tblRefresh (s : State) (u : Nat) : State := s.wr .CARD_TBL_USED u (s.tblSum u)

end Sys2Proof.Machine
end

