-- ==== Sys2Proof/Machine/Wayline.lean ====
section
/-!
DEFINITION. The Wayline ports (`spec/03_wayline_link.md` R75 to R110, R581, R586, R587): words and bursts, Waymarks, management
frames, enumeration and splices; the AUXEV FIFOs (`spec/18_aux_signals.md` R528).
-/
namespace Sys2Proof.Machine

/-! ### Ports and heads -/

/-- A port, and a head at a ring position. -/
def State.port (s : State) (p : Nat) : PortSt := Table.get {} s.ports p
def State.onPort (s : State) (p : Nat) (f : PortSt → PortSt) : State := s.onPorts fun t => Table.upd {} t p f
def State.head (s : State) (slot : Nat) : HeadSt := Table.get {} (s.port (slot / 32)).heads (slot % 32)
def State.onHead (s : State) (slot : Nat) (f : HeadSt → HeadSt) : State :=
  s.onPort (slot / 32) fun x => { x with heads := Table.upd {} x.heads (slot % 32) f }

/-- The port is enabled and powered. -/
def State.portUp (s : State) (p : Nat) : Bool := s.domOn (wlDomain p) && s.rd .WL_STAT_STATE p != 0

/-- SENTRY gates the island of a port that it does not keep (`spec/15_power.md`, Domains and supplies). -/
def State.portGated (s : State) (p : Nat) : Bool := dropsPort (if s.flag .PM_STATUS_PNR then s.pm.goal else s.pm.home) p

/-- A counter of Table WL-10. -/
def State.wlCount (s : State) (p i : Nat) : State := s.count .WL_CNT (14 * p + i)

/-- The slots of a port. -/
def slotsOf (p : Nat) : List Nat := (List.range 32).map (32 * p + ·)

/-- The numbered heads of a port, as slots. -/
def State.numbered (s : State) (p : Nat) : List Nat := (slotsOf p).filter fun i => s.rd .HT_STATE i != 0

/-- The sum of QUOTA over the numbered heads of a port, at its full width (R88). -/
def State.quotaSum (s : State) (p : Nat) : Nat := ((s.numbered p).map fun i => s.rd .HT_QUOTA i).sum

/-- WL_STAT.HEADS, WL_LIVE, WL_QUOTA_SUM and CARD_TBL_USED follow the head table. -/
def State.headsRefresh (s : State) (p : Nat) : State :=
  let live := (List.range 32).foldl (fun a i => if s.rd .HT_STATE (32 * p + i) = 2 then a + 2 ^ i else a) 0
  (((s.wr .WL_STAT_HEADS p (s.numbered p).length).wr .WL_LIVE p live).wr .WL_QUOTA_SUM p (s.quotaSum p)).tblRefresh p

/-- HT_STATE of a slot: 0 EMPTY, 1 NUMBERED, 2 RUNNING, 3 LOST, 4 LEAVING. -/
def State.setHead (s : State) (slot st : Nat) : State := (s.wr .HT_STATE slot st).headsRefresh (slot / 32)

/-- A position is freed (R103, R105): carding learns that its head has left. -/
def State.freeHead (s : State) (slot : Nat) : State :=
  let st := s.rd .HT_STATE slot
  let s := (s.setHead slot 0).onPort (slot / 32) fun x =>
    { x with heads := Table.erase x.heads (slot % 32), order := x.order.filter (· != slot % 32) }
  let s := (((s.wr .HT_SERIAL_LO slot 0).wr .HT_SERIAL_HI slot 0).wr .HT_WMDLY slot 0)
  if st = 0 ∨ st = 3 then s else s.cardEnter (slot / 32) (.left slot false)

/-- Enabling a port starts steps 1 to 4 of Table WL-8 with an empty head table (R587). -/
def State.portStart (s : State) (p : Nat) : State :=
  let s := (s.wr .WL_STAT_STATE p 1).onPorts fun t => Table.set {} t p { probing := true }
  (s.each (slotsOf p) fun s i => s.wr .HT_STATE i 0).headsRefresh p

/-- A port is disabled: its heads are gone from the table. DEDUCED: carding is told that they have left. -/
def State.portStop (s : State) (p : Nat) : State :=
  let s := s.each ((slotsOf p).filter fun i => s.rd .HT_STATE i != 0) fun s i => s.freeHead i
  (((s.wr .WL_STAT_STATE p 0).onPorts fun t => Table.erase t p).headsRefresh p).kerbUpdate

/-- A WL_CTRL write of the whole word. -/
def State.wlCtrl (s : State) (who : Agent) (p : Nat) (w : Word) (en : Bool) : State :=
  match s.letIn who .WL_CTRL_EN p with
  | .error s => s
  | .ok s =>
    if !s.domOn (wlDomain p) || s.portGated p then s
    else match s.applyWord who (Reg.WL_CTRL_EN.offset p) w.toNat with
      | (false, s) => s
      | (true, s) =>
        let was := s.flag .WL_CTRL_EN p
        let s := s.put .WL_CTRL_EN p en
        if en = was then s else if en then s.portStart p else s.portStop p

/-- WL_PORT_ENABLE (R587). -/
def execWlPortEnable (who : Agent) (p : Fin 8) (w : Word) (s : State) : Out := done (s.wlCtrl who p.val w true)

/-- WL_PORT_DISABLE. -/
def execWlPortDisable (who : Agent) (p : Fin 8) (w : Word) (s : State) : Out := done (s.wlCtrl who p.val w false)

/-! ### Bursts (R82 to R86) -/

/-- The stamp of an offset in an interval of a slot (R138). -/
def State.stampOf (s : State) (slot interval ofs : Nat) : Nat := stamp31 (s.eventTime slot interval ofs)

/-- A burst is cut short (R84, R150). -/
def State.cutBurst (s : State) (p : Nat) : State :=
  match (s.port p).burst with
  | none => s
  | some b =>
    let slot := 32 * p + b.pos
    let s := s.onPort p fun x => { x with burst := none }
    if b.accepted then (s.wlCount p 7).cardEnter p (.loss slot 1 (b.len - b.delivered) (s.stampOf slot b.interval 0)) else s

/-- A word takes one of the burst's places (R80). -/
def State.takePlace (s : State) (p : Nat) (delivered : Bool) : State :=
  let next (b : Burst) : Option Burst :=
    if b.len ≤ b.got + 1 then none
    else some { b with got := b.got + 1, delivered := b.delivered + (if delivered then 1 else 0) }
  s.onPort p fun x => { x with burst := x.burst.bind next }

/-- A word out of its placement, or of a reserved type (R79, R80). -/
def State.wordRsvd (s : State) (p : Nat) : State := (s.wlCount p 3).takePlace p false

/-- A port enters RETRAIN (R76, R95, R106, R109); one that is in RETRAIN stays there, and no entry is counted. -/
def State.enterRetrain (s : State) (p : Nat) : State :=
  if s.rd .WL_STAT_STATE p = 5 ∨ s.rd .WL_STAT_STATE p = 0 then s
  else
    let s := ((s.put .WL_STAT_RING_BREAK p true).wlCount p 13).wr .WL_STAT_STATE p 5
    (s.onPort p fun x => { x with runFrom := none, back := false }).kerbUpdate

/-- A port returns from RETRAIN to RUNNING (R109). -/
def State.leaveRetrain (s : State) (p : Nat) : State := (s.wr .WL_STAT_STATE p 4).kerbUpdate

/-- WL_INLANES_LOCK: TRAINING becomes LINKED (Table WL-8); RETRAIN ends if a Waymark has returned (R109). -/
def execWlInlanesLock (p : Fin 8) (s : State) : Out :=
  if !s.portUp p.val then done s
  else
    let s := s.onPort p.val fun x => { x with locked := true }
    if s.rd .WL_STAT_STATE p.val = 1 then done (s.wr .WL_STAT_STATE p.val 2)
    else if s.rd .WL_STAT_STATE p.val = 5 ∧ (s.port p.val).back then done (s.leaveRetrain p.val)
    else done s

/-- The splice window of a boundary is open: its heads change their bypasses and the lanes relock (R105). -/
def State.splicing (s : State) (p : Nat) : Bool :=
  (s.port p).splice.any fun b => decide (b * 256000 ≤ s.now ∧ s.now < b * 256000 + 300000)

/-- WL_LANE_LOSS: a ring break (R76), except in a splice window, in which either change breaks the lanes briefly (R105). -/
def execWlLaneLoss (p : Fin 8) (s : State) : Out :=
  if !s.portUp p.val then done s
  else
    let s := (s.cutBurst p.val).onPort p.val fun x => { x with locked := false }
    done (if s.splicing p.val then s else s.enterRetrain p.val)

/-- BLOCK_DISCARD (R77). -/
def execBlockDiscard (p : Fin 8) (b : BadBlock) (s : State) : Out :=
  if !s.portUp p.val then done s
  else done ((s.wlCount p.val (match b with | .syncHeader => 0 | .blockType => 1)).cutBurst p.val)

/-- LANE_ALIGN_RX. -/
def execLaneAlignRx (p : Fin 8) (aligned : Bool) (s : State) : Out :=
  if !s.portUp p.val then done s
  else done ((s.when (!aligned) fun s => s.wlCount p.val 2).cutBurst p.val)

/-- Type code of a word, and the subtype of a status word (Tables WL-2 and WL-3). -/
def wordType (w : Nat) : Nat := bits w 28 4
def wordSub (w : Nat) : Nat := bits w 20 3

/-- A word is reserved, or out of its placement (R79 to R81). -/
def wordBad (inBurst : Bool) (w : Nat) : Bool :=
  let t := wordType w
  if 8 ≤ t || t == 3 || t == 4 then !inBurst
  else if t == 0 then inBurst
  else if t == 2 then inBurst || 4 ≤ wordSub w
  else true

/-- RESERVED_WORD_RX. -/
def execReservedWordRx (p : Fin 8) (w : Word) (s : State) : Out :=
  if s.portUp p.val && wordBad (s.port p.val).burst.isSome w.toNat then done (s.wordRsvd p.val) else done s

/-- The interval that IDX names against the last returned Waymark (R83). -/
def extendIdx (w idx : Nat) : Nat :=
  let d := (idx + 4096 - w % 4096) % 4096
  if 2048 < d then w + d - 4096 else w + d

/-- A burst begins; its words are dropped unless it is accepted. -/
def State.beginBurst (s : State) (p pos len interval : Nat) (ok : Bool) : State :=
  if len = 0 then s else s.onPort p fun x => { x with burst := some ⟨pos, interval, len, 0, 0, ok⟩ }

/-- A burst is dropped: counted, and reported to carding, an empty one too (R83, R150). -/
def State.dropBurst (s : State) (p pos len cnt : Nat) (interval : Option Nat) : State :=
  let slot := 32 * p + pos
  let s := s.wlCount p cnt
  let (first, s) := match interval with
    | some i => (s.stampOf slot i 0, s)
    | none => s.fresh 31
  (s.cardEnter p (.loss slot 1 len first)).beginBurst p pos len (interval.getD 0) false

/-- A burst is accepted: the head runs (R108, R587), and the Kerb hub hears of it (R309). -/
def State.takeOpen (s : State) (p pos len i : Nat) : State :=
  let slot := 32 * p + pos
  let cur := (s.port p).lastW
  let s := if s.rd .HT_STATE slot = 1 ∨ s.rd .HT_STATE slot = 3 then s.setHead slot 2 else s
  let s := s.onHead slot fun h => { h with started := true, lastOpen := some i }
  (((s.cardEnter p (.opened slot i)).beginBurst p pos len i true).heardOpen slot i (i == cur)).kerbUpdate

/-- OPEN_RX (R83, R84). DEDUCED: a burst of a position that holds no numbered head is OPEN_ERR, whatever its interval. -/
def execOpenRx (p : Fin 8) (w : Word) (s : State) : Out :=
  let n := w.toNat
  if !s.portUp p.val || wordType n != 2 || wordSub n != 0 then done s
  else if (s.port p.val).burst.isSome then done (s.wordRsvd p.val)
  else
    let x := s.port p.val
    let pos := bits n 23 5
    let len := bits n 12 8
    let i := extendIdx x.lastW (bits n 0 12)
    let late : Bool := (s.head (32 * p.val + pos)).lastOpen.any fun k => decide (i < k)
    if s.rd .HT_STATE (32 * p.val + pos) = 0 then
      done (s.dropBurst p.val pos len 8 (if x.returned then some i else none))
    else if !x.returned then done (s.dropBurst p.val pos len 3 none)
    else if i + 7 < x.lastW then done (s.dropBurst p.val pos len 5 (some i))
    else if x.lastW < i then done (s.dropBurst p.val pos len 3 (some i))
    else if late = true then done (s.dropBurst p.val pos len 6 (some i))
    else done (s.takeOpen p.val pos len i)

/-- A word of a burst: out of a burst it is a protocol error; in a dropped one it only takes its place. -/
def burstWord (p : Fin 8) (w : Word) (types : Nat → Bool) (s : State) (f : State → Burst → State) : Out :=
  if !s.portUp p.val || !types (wordType w.toNat) then done s
  else match (s.port p.val).burst with
    | none => done (s.wordRsvd p.val)
    | some b => if b.accepted then done (f s b) else done (s.takePlace p.val false)

/-- PIXEL_EVENT_RX (R85, R86). -/
def execPixelEventRx (p : Fin 8) (w : Word) (s : State) : Out :=
  burstWord p w (fun t => 8 ≤ t) s fun s b =>
    let slot := 32 * p.val + b.pos
    if s.headW slot ≤ bits w.toNat 19 11 ∨ s.headH slot ≤ bits w.toNat 8 11 then (s.wlCount p.val 4).takePlace p.val false
    else (s.cardEnter p.val (.pixel slot b.interval w)).takePlace p.val true

/-- GAP_MARKER_WORD_RX (R150): SRC 0, COUNT = DROPS, FIRST from its OFS. -/
def execGapMarkerWordRx (p : Fin 8) (w : Word) (s : State) : Out :=
  burstWord p w (fun t => t == 3) s fun s b =>
    let slot := 32 * p.val + b.pos
    (s.cardEnter p.val (.loss slot 0 (bits w.toNat 8 20) (s.stampOf slot b.interval (bits w.toNat 0 8)))).takePlace p.val true

/-- An entry for the AUXEV FIFO of a port (R528). -/
def State.auxevPush (s : State) (p : Nat) (e : AuxEv) : State :=
  if 64 ≤ (Table.get [] s.aux.auxev p).length then s.count .AUXEV_OVF p
  else s.onAux fun a => { a with auxev := Table.upd [] a.auxev p (· ++ [e]) }

/-- TRIG_AUX_WORD_RX (R528): the carding unit stamps it. -/
def execTrigAuxWordRx (p : Fin 8) (w : Word) (s : State) : Out :=
  burstWord p w (fun t => t == 4) s fun s b =>
    let n := w.toNat
    let slot := 32 * p.val + b.pos
    let s := s.takePlace p.val true
    if s.cardLive p.val && s.domOn pdAux then
      s.auxevPush p.val ⟨slot, bits n 24 3, bits n 27 1, bits n 8 16, time64 (s.eventTime slot b.interval (bits n 0 8))⟩
    else s

/-- A status word of a subtype, outside bursts and from a numbered head. -/
def statusWord (p : Fin 8) (w : Word) (sub : Nat) (s : State) (f : State → Nat → State) : Out :=
  if !s.portUp p.val || wordType w.toNat != 2 || wordSub w.toNat != sub then done s
  else if (s.port p.val).burst.isSome then done (s.wordRsvd p.val)
  else
    let slot := 32 * p.val + bits w.toNat 23 5
    if s.rd .HT_STATE slot = 0 then done s else done (f s slot)

/-- HEALTH_RX. -/
def execHealthRx (p : Fin 8) (w : Word) (s : State) : Out :=
  statusWord p w 1 s fun s slot =>
    s.onHead slot fun h =>
      { h with healthState := bits w.toNat 16 4, healthFill := bits w.toNat 8 8, healthTemp := bits w.toNat 0 8 }

/-- LEAVE_REQ_RX: the head leaves at the next splice window (R105). -/
def execLeaveReqRx (p : Fin 8) (w : Word) (s : State) : Out :=
  statusWord p w 2 s fun s slot => (s.setHead slot 4).onHead slot fun h => { h with leaveReq := some s.now }

/-- WM_MISS_RX: the head carries on from its own counter (R93); the spec gives the port no reaction. -/
def execWmMissRx (p : Fin 8) (w : Word) (s : State) : Out := statusWord p w 3 s fun s _ => s

/-! ### Management requests (R96 to R98) -/

/-- A request goes onto the line with its SEQ (R96). -/
def State.mgmtPut (s : State) (p seq : Nat) (r : MgmtReq) : State := s.emit (.mgmtFrame p (mgmtWire r.dest r.typ seq r.payload))

/-- Send a request, or keep it until one of the four places is free (R98). -/
def State.mgmtSend (s : State) (p : Nat) (r : MgmtReq) : State :=
  if (s.port p).out.length < 4 then
    let q := (s.port p).seq
    (s.onPort p fun x => { x with seq := (q + 1) % 256, out := x.out ++ [⟨q, r, 1⟩] }).mgmtPut p q r
  else s.onPort p fun x => { x with waiting := x.waiting ++ [r] }

/-- A broadcast that takes no response. -/
def State.mgmtCast (s : State) (p : Nat) (r : MgmtReq) : State :=
  let q := (s.port p).seq
  (s.onPort p fun x => { x with seq := (q + 1) % 256 }).mgmtPut p q r

/-- A request is answered or given up: its place goes to the next. -/
def State.mgmtDone (s : State) (p seq : Nat) : State :=
  let s := s.onPort p fun x => { x with out := x.out.filter fun o => o.seq != seq }
  match (s.port p).waiting with
  | [] => s
  | r :: t => (s.onPort p fun x => { x with waiting := t }).mgmtSend p r

/-- Write a head register. -/
def cfgWr (dest addr v : Nat) : MgmtReq := ⟨dest, 0x03, leBytes 2 addr ++ leBytes 4 v, .cfg⟩

/-- RELEASE. -/
def releaseReq (dest : Nat) : MgmtReq := ⟨dest, 0x31, [], .release⟩

/-! ### WM_DELAY (R94) -/

/-- A head takes its place in the ring order that the port knows. One ENUM gives temporary IDs in ring order (R101), so the
heads that it finds on a ring with no other head follow one another. DESIGN CHOICE: where a head stands among heads that the
port knew before it is stated nowhere; its place is a free value. -/
def State.placeHead (s : State) (p id : Nat) : State :=
  let n := (s.port p).order.length
  if n = 0 then s.onPort p fun x => { x with order := [id] }
  else
    let (v, s) := s.fresh 6
    s.onPort p fun x => { x with order := x.order.take (v % (n + 1)) ++ id :: x.order.drop (v % (n + 1)) }

/-- The temporary IDs of an ENUM take their places. -/
def State.placeTemps (s : State) (p : Nat) (ids : List Nat) : State :=
  if (s.port p).order = [] then s.onPort p fun x => { x with order := ids } else s.each ids fun s i => s.placeHead p i

/-- WM_DELAY of the head at ring order k in nanoseconds, from the segments or from C (R94). DEDUCED: the sum of the equal
segments is rounded down. -/
def State.wmDelay (s : State) (p k : Nat) : Int :=
  if (List.range 33).any fun i => s.rd .WL_SEGDLY (33 * p + i) != 0 then
    (((List.range (k + 1)).map fun i => s.rd .WL_SEGDLY (33 * p + i)).sum : Nat)
  else ((s.port p).cable * (k + 1)).fdiv ((s.port p).order.length + 1)

/-- The 14 bits that WM_DELAY and HT_WMDLY hold of a delay. DESIGN CHOICE: of a delay outside their range the spec states none:
a free value. -/
def State.wmField (s : State) (v : Int) : Nat × State := if 0 ≤ v ∧ v < 2 ^ 14 then (v.toNat, s) else s.fresh 14

/-- HT_WMDLY, and CFG_WR to each numbered head whose WM_DELAY has changed by more than 20 ns (R94). -/
def State.wmRefresh (s : State) (p : Nat) : State :=
  s.each ((s.port p).order.zipIdx.filter fun e => e.1 < 32 && s.rd .HT_STATE (32 * p + e.1) != 0) fun s e =>
    let slot := 32 * p + e.1
    let v := s.wmDelay p e.2
    let (f, s) := s.wmField v
    let s := s.wr .HT_WMDLY slot f
    let far : Bool := match (s.head slot).wmSent with | none => true | some o => decide (o + 20 < v ∨ v + 20 < o)
    if far then (s.onHead slot fun h => { h with wmSent := some v }).mgmtSend p (cfgWr e.1 0 f) else s

/-! ### Enumeration (R101 to R103, R116, R120, R587) -/

/-- The whole interval in progress. -/
def State.curInterval (s : State) : Nat := s.nowUs / 256

/-- The first boundary that is at least `k` intervals ahead. DESIGN CHOICE: the firmware names the first that the rules allow. -/
def State.boundaryAhead (s : State) (k : Nat) : Nat := ceilDiv s.now 256000 + k

/-- The hot-pixel entries that found no space are reported, for the first position only (R140). -/
def State.reportHot (s : State) (p : Nat) : State :=
  match (s.card p).hotOver with
  | none => s
  | some i => (s.onCard p fun c => { c with hotOver := none }).record (s.portOwner p) .hotpixOvf p [i]

/-- START, at least 2 intervals ahead: the numbered heads from which no OPEN has been accepted are started, and the port runs
(Table WL-8, step 8; R587). DEDUCED: a head that has accepted OPENs is the one that is still started. -/
def State.startHeads (s : State) (p : Nat) : State :=
  let i := s.boundaryAhead 2
  let s := s.reportHot p
  let news := (slotsOf p).filter fun k => s.rd .HT_STATE k == 1 && !(s.head k).started
  let s := s.each news fun s k => s.onHead k fun h => { h with started := true, startAt := some i }
  let s := s.when (!news.isEmpty) fun s => s.mgmtCast p ⟨0x7F, 0x05, leBytes 2 (i % 4096), .start⟩
  if s.rd .WL_STAT_STATE p = 3 then (s.wr .WL_STAT_STATE p 4).kerbUpdate else s

/-- ENUM, once the positions have been asked (R587). A port that runs keeps running. -/
def State.sendEnum (s : State) (p : Nat) : State :=
  let s := if s.rd .WL_STAT_STATE p = 2 then s.wr .WL_STAT_STATE p 3 else s
  s.mgmtSend p ⟨0x7F, 0x01, [32, 0], .enum⟩

/-- A request of STAT_RD is on its way or waits. -/
def PortSt.asking (x : PortSt) : Bool :=
  (x.out.any fun o => o.req.use == .probe) || x.waiting.any fun r => r.use == .probe

/-- An ENUM is on its way. -/
def PortSt.enuming (x : PortSt) : Bool :=
  (x.out.any fun o => o.req.use == .enum) || x.waiting.any fun r => r.use == .enum

/-- The firmware goes on: the next identity, ENUM after the positions, START after the last head. -/
def State.nextIdent (s : State) (p : Nat) : State :=
  let x := s.port p
  if x.ident.isSome then s
  else match x.temps with
    | d :: t =>
      (s.onPort p fun x => { x with ident := some ⟨d, [], [(0, 32)]⟩, temps := t }).mgmtSend p
        ⟨d, 0x10, leBytes 2 0 ++ leBytes 1 32, .ident 0⟩
    | [] =>
      if x.asking || x.enuming then s
      else if x.probing then (s.onPort p fun x => { x with probing := false }).sendEnum p
      else s.startHeads p

/-- A head that gets no position, or may not keep its own, receives RELEASE (R102, R120, R587). -/
def State.rejectHead (s : State) (p dest : Nat) : State :=
  ((s.onPort p fun x => { x with ident := none }).mgmtSend p (releaseReq dest)).nextIdent p

/-- A head whose store yields ID_DIR_BAD or ID_NONE: its temporary ID and the outcome are recorded (R120). DEDUCED: a head that
holds a position has no temporary ID, and no record is made of it. -/
def State.rejectStore (s : State) (p dest result : Nat) : State :=
  (s.when (32 ≤ dest) fun s => s.record 0 .idReject p [dest + result * 2 ^ 8]).rejectHead p dest

/-- QUOTA, WM_DELAY and AUX_EN of a numbered head (Table WL-8, step 7). A head that does not fit into the quota sum or the
carding tables gets QUOTA 0, and one that does not fit into the tables has none (R88, R145). The spec gives AUX_EN no register:
a free value. -/
def State.configHead (s : State) (slot : Nat) : State :=
  let p := slot / 32
  let s := (s.onSlot slot fun x => { x with noTables := false }).setHead slot 1
  let full : Bool := tblSpace < s.tblSum p
  let s := s.onSlot slot fun x => { x with noTables := full }
  let s := if 230400 < s.quotaSum p || full then s.wr .HT_QUOTA slot 0 else s
  let s := ((s.headsRefresh p).loadHotTable p).onHead slot fun _ => {}
  let s := s.wmRefresh p
  let s := s.mgmtSend p (cfgWr (slot % 32) 4 (s.rd .HT_QUOTA slot))
  let (v, s) := s.fresh 8
  s.mgmtSend p (cfgWr (slot % 32) 8 v)

/-- The position of a new head (R102). One that a head on the ring holds until its RELEASE takes effect is not free. -/
def State.choosePos (s : State) (p serial : Nat) : Option Nat :=
  (List.range 32).find? fun i =>
    s.rd .HT_STATE (32 * p + i) == 0 && !(s.port p).order.contains i &&
      (!s.flag .WL_CTRL_POS_MODE p || s.rd64 .HT_BIND_LO .HT_BIND_HI (32 * p + i) == serial)

/-- A head's store has been read (R116, R120, R587). -/
def State.identDone (s : State) (p dest : Nat) (st : List Byte) : State :=
  let r := storeOf st 65536
  let s := s.countStore r
  match r with
  | none => s.rejectStore p dest 0x0D
  | some x =>
    match x.active with
    | some (_, a) =>
      let serial := leAt (tlvVal a.ents 0x01) 0 8
      if a.rtype ≠ 1 then s.rejectHead p dest
      else if dest < 32 then
        let slot := 32 * p + dest
        if s.flag .WL_CTRL_POS_MODE p && s.rd64 .HT_BIND_LO .HT_BIND_HI slot != serial then
          (s.put .WL_STAT_UNBOUND p true).rejectHead p dest
        else (((s.loadHead slot a.ents).onPort p fun x => { x with ident := none }).configHead slot).nextIdent p
      else match s.choosePos p serial with
        | none => (s.when (s.flag .WL_CTRL_POS_MODE p) fun s => s.put .WL_STAT_UNBOUND p true).rejectHead p dest
        | some pos => s.mgmtSend p ⟨dest, 0x02, leBytes 1 pos, .setPos pos⟩
    | none =>
      let (v, s) := s.fresh 8
      s.rejectStore p dest v

/-- The bytes read so far, as a list from address 0. -/
def IdentRead.store (r : IdentRead) : List Byte :=
  let n := r.bytes.foldl (fun a e => max a (e.1 + 1)) 0
  (List.range n).map fun i => Table.get 0 r.bytes i

/-- SETPOS has been answered OK: the head of the temporary ID holds the position, and its record is loaded (R102, R120). -/
def State.headNumbered (s : State) (p dest pos : Nat) : State :=
  let r := (s.port p).ident
  let s := s.onPort p fun x => { x with ident := none, order := x.order.map fun d => if d = dest then pos else d }
  match (r.bind fun r => storeOf r.store 65536).bind IdStore.active with
  | some (_, a) => (s.loadHead (32 * p + pos) a.ents).configHead (32 * p + pos)
  | none => s

/-- The ranges of a slot, 32 bytes each. -/
def ranges32 (base size : Nat) : List (Nat × Nat) := (List.range (size / 32)).map fun i => (base + 32 * i, 32)

/-- An IDRD answer: its bytes, and the next range; after the directory the two slots. -/
def State.identData (s : State) (p addr : Nat) (data : List Byte) : State :=
  match (s.port p).ident with
  | none => s
  | some r =>
    let bytes := data.zipIdx.foldl (fun t e => Table.insert (Table.erase t (addr + e.2)) (addr + e.2) e.1) r.bytes
    let r := { r with bytes := bytes, todo := r.todo.drop 1 }
    let r := if addr = 0 ∧ r.todo = [] then
        match dirOf r.store 65536 with
        | some d => { r with todo := ranges32 d.slotA d.size ++ ranges32 d.slotB d.size }
        | none => r
      else r
    let s := s.onPort p fun x => { x with ident := some r }
    match r.todo with
    | (a, n) :: _ => s.mgmtSend p ⟨r.dest, 0x10, leBytes 2 a ++ leBytes 1 n, .ident a⟩
    | [] => s.identDone p r.dest r.store

/-- A request of the firmware has its answer, or none: `ok` with the payload after the status byte. -/
def State.mgmtResult (s : State) (p : Nat) (r : MgmtReq) (ok : Bool) (data : List Byte) : State :=
  match r.use with
  | .probe =>
    (s.when ok fun s => (s.onPort p fun x => { x with temps := x.temps ++ [r.dest] }).placeHead p r.dest).nextIdent p
  | .ident a => if ok then s.identData p a data else s.rejectHead p r.dest
  | .setPos pos => if ok then (s.headNumbered p r.dest pos).nextIdent p else s.rejectHead p r.dest
  | .enum => s.nextIdent p
  | .release => s.when ok fun s => s.onPort p fun x => { x with released := x.released ++ [(r.dest, s.now)] }
  | _ => s

/-- A frame with a good CRC-32 over its header and payload (R96). -/
def frameOk (f : List Byte) : Bool :=
  let n := byteAt f 4
  f.length == 7 + n + 4 && n ≤ 64 && leAt f (7 + n) 4 == crc32 (f.take (7 + n))

/-- MGMT_RESPONSE_RX: matched to its request by SEQ; a second response to one request is discarded. -/
def execMgmtResponseRx (p : Fin 8) (frame : List Byte) (s : State) : Out :=
  if !s.portUp p.val then done s
  else
    let s := s.cutBurst p.val
    if !frameOk frame then done (s.wlCount p.val 11)
    else match (s.port p.val).out.find? fun o => o.seq == byteAt frame 3 && byteAt frame 2 == o.req.typ + 0x80 with
      | none => done s
      | some o =>
        let pay := (frame.drop 7).take (byteAt frame 4)
        done ((s.mgmtDone p.val o.seq).mgmtResult p.val o.req (!pay.isEmpty && byteAt pay 0 == 0 || o.req.use == .probe) (pay.drop 1))

/-- ENUM_RETURN (R101, R102). -/
def execEnumReturn (p : Fin 8) (frame : List Byte) (s : State) : Out :=
  if !s.portUp p.val then done s
  else
    let s := s.cutBurst p.val
    if !frameOk frame then done (s.wlCount p.val 11)
    else match (s.port p.val).out.find? fun o => o.req.use == .enum && byteAt frame 2 == 0x01 && o.seq == byteAt frame 3 with
      | none => done s
      | some o =>
        let s := s.mgmtDone p.val o.seq
        let temps := (List.range (byteAt frame 7 - 32)).map (32 + ·)
        let s := s.placeTemps p.val temps
        if bit (byteAt frame 8) 0 then
          let s := s.put .WL_STAT_RING_OVER p.val true
          done ((s.each temps fun s t => s.mgmtSend p.val (releaseReq t)).nextIdent p.val)
        else done ((s.onPort p.val fun x => { x with temps := x.temps ++ temps }).nextIdent p.val)

/-- MGMT_REQUEST_TIMEOUT (R98): sent again with the same SEQ, at most twice; then FRAME_TMO. -/
def execMgmtRequestTimeout (p : Fin 8) (seq : Byte) (s : State) : Out :=
  match (s.port p.val).out.find? fun o => o.seq == seq.toNat with
  | none => done s
  | some o =>
    if !s.portUp p.val then done s
    else if o.sends < 3 then
      let again := fun (x : MgmtOut) => if x.seq = o.seq then { x with sends := x.sends + 1 } else x
      done ((s.onPort p.val fun x => { x with out := x.out.map again }).mgmtPut p.val o.seq o.req)
    else
      let s := ((s.wlCount p.val 12).emit (.frameTimeout p.val o.req.dest)).mgmtDone p.val o.seq
      let dead := fun (w : IdWriteSt) => { w with dead := true }
      let s := s.when (o.req.use == .idWrite) fun s => s.onHat fun h => { h with write := h.write.map dead }
      done (s.mgmtResult p.val o.req false [])

/-! ### Waymarks (R56, R83, R94, R95, R108, R581) -/

/-- The Waymark CRC-8 over the first half and bits [31:8] of the second (R581). -/
def waymarkCrc (w0 w1 : Nat) : Nat :=
  crcMsb 8 0x07 0 ((leBytes 4 w0).reverse ++ ((leBytes 4 w1).drop 1).reverse)

/-- A Waymark leaves a port at a boundary. -/
def State.sendWaymark (s : State) (p : Nat) : State :=
  let i := s.curInterval
  let w0 := 0x10000000 + i % 2 ^ 28
  let w1 := s.rd .TIME_STAT_TQ * 2 ^ 30
  (s.onPort p fun x => { x with inFlight := x.inFlight ++ [i] }).emit
    (.waymark p (BitVec.ofNat 32 w0) (BitVec.ofNat 32 (w1 + waymarkCrc w0 w1)))

/-- WAYMARK_BOUNDARY: every enabled port sends a Waymark; a Crown sends TIME (R409), a Brim begins to wait for it. A boundary
that has been served is not repeated (R57). -/
def execWaymarkBoundary (s : State) : Out :=
  if s.nowUs % 256 ≠ 0 ∨ s.time.lastMark = some s.nowUs then done s
  else
    let s := s.onTime fun t => { t with lastMark := some s.nowUs }
    done ((s.each ((List.range 8).filter s.portUp) State.sendWaymark).sendTime.awaitTime)

/-- A head is lost (R108). -/
def State.loseHead (s : State) (slot : Nat) : State :=
  let p := slot / 32
  let last := (s.head slot).lastOpen.getD 0
  let s := (s.setHead slot 3).put .WL_STAT_HEAD_LOST p true
  (s.cardEnter p (.left slot true)).record (s.portOwner p) .headLost slot [last % 2 ^ 32]

/-- The tests of R108 on the return of interval `w`: n is the interval after the last one heard, at earliest the one that START
named and that of the first Waymark since RUNNING resumed. -/
def State.liveness (s : State) (p w : Nat) : State :=
  let x := s.port p
  s.each ((s.numbered p).filter fun i => s.rd .HT_STATE i != 3) fun s i =>
    let h := s.head i
    let n := max (max ((h.lastOpen.map (· + 1)).getD 0) (h.startAt.getD 0)) (x.runFrom.getD 0)
    if h.started && n + 4 ≤ w then s.loseHead i else s

/-- SILENT from the return of interval n + SLOT_TO with no OPEN for n or later (R309): every slot of the port, EMPTY ones too. -/
def State.silence (s : State) (p w : Nat) : State :=
  let to_ := s.rd .KRB_SLOT_TO + 1
  s.each (slotsOf p) fun s i =>
    if (s.kerb.heard.find? fun e => e.1 == i).any fun e => w ≤ e.2 + to_ then s else s.silentNow i

/-- WL_LOOP and WL_CABLE of a returned Waymark: C is L − CORR_RET (R94, Table WL-9). -/
def State.loopRegs (s : State) (p delay corr : Nat) : State :=
  ((s.wr .WL_LOOP_L p (min delay 0xFFFF)).wr .WL_LOOP_CORR_RET p (min corr 0xFFFF)).wr .WL_CABLE p (min (delay - corr) 0xFFFF)

/-- The Waymark of interval `w` is no longer in flight; those sent before it can no longer return and are lost (R95). -/
def State.landed (s : State) (p w : Nat) : State :=
  let fs := (s.port p).inFlight
  let s := s.onPort p fun x => { x with inFlight := (fs.dropWhile (· != w)).drop 1 }
  s.each (fs.takeWhile (· != w)) fun s _ => s.wlCount p 10

/-- The end of RETRAIN with a Waymark's return, and the first return after RUNNING resumed (R108, R109). DEDUCED: the Waymark
whose return ends RETRAIN is itself the first one returned after RUNNING resumed. -/
def State.resumeAt (s : State) (p w : Nat) : State :=
  let s := if s.rd .WL_STAT_STATE p = 5 then
      let s := s.onPort p fun x => { x with back := true }
      if (s.port p).locked then s.leaveRetrain p else s
    else s
  if s.rd .WL_STAT_STATE p = 4 ∧ (s.port p).back then s.onPort p fun x => { x with runFrom := some w, back := false } else s

/-- STAT_RD to every position, once the first Waymark has returned on a port that was enabled (R587). -/
def State.askPositions (s : State) (p : Nat) : State :=
  let x := s.port p
  if (s.rd .WL_STAT_STATE p == 2 || s.rd .WL_STAT_STATE p == 4) && x.probing && !x.asking && x.ident.isNone && x.temps.isEmpty then
    s.each (List.range 32) fun s i => s.mgmtSend p ⟨i, 0x20, [], .probe⟩
  else s

/-- A Waymark has returned good: its delays, the state of the port, and the tests of R94, R108 and R309. -/
def State.waymarkBack (s : State) (p w delay corr : Nat) : State :=
  let s := ((s.loopRegs p delay corr).landed p w).onPort p fun x =>
    { x with returned := true, goodL := some delay, cable := (delay : Int) - corr, lastW := w }
  let s := (s.resumeAt p w).wmRefresh p
  let s := if s.rd .WL_STAT_STATE p = 4 then s.liveness p w else s
  ((s.silence p w).askPositions p).kerbUpdate

/-- WAYMARK_RETURN: a bad CRC, or a WT other than the one sent, is WM_CRC; that Waymark has returned all the same (R95).
DEDUCED: one whose WT names none in flight is the last one sent. A Waymark cuts a burst (R84). -/
def execWaymarkReturn (p : Fin 8) (w0 w1 : Word) (delay : Nat) (s : State) : Out :=
  if !s.portUp p.val then done s
  else
    let s := s.cutBurst p.val
    let good := waymarkCrc w0.toNat w1.toNat == bits w1.toNat 0 8 && wordType w0.toNat == 1
    match (s.port p.val).inFlight.find? fun i => i % 2 ^ 28 == bits w0.toNat 0 28 with
    | some i =>
      if good then done (s.waymarkBack p.val i delay (bits w1.toNat 16 14)) else done ((s.wlCount p.val 9).landed p.val i)
    | none =>
      let s := s.wlCount p.val 9
      done (match (s.port p.val).inFlight.getLast? with | some i => s.landed p.val i | none => s)

/-- The limit within which a Waymark returns (R95). -/
def PortSt.returnLimit (x : PortSt) : Nat := match x.goodL with | some l => l + 2000 | none => 20000

/-- WAYMARK_RETURN_TIMEOUT: WM_LOST; the ring is broken if the in-lanes are locked (R95). -/
def execWaymarkReturnTimeout (p : Fin 8) (s : State) : Out :=
  let x := s.port p.val
  match x.inFlight with
  | i :: t =>
    if s.portUp p.val && decide (i * 256000 + x.returnLimit < s.now) then
      let s := (s.onPort p.val fun x => { x with inFlight := t }).wlCount p.val 10
      done (if x.locked then s.enterRetrain p.val else s)
    else done s
  | [] => done s

/-! ### Splices (R105, R106) -/

/-- SPLICE_PERIOD_EXPIRY: a SPLICE frame names a boundary at least 4 intervals ahead (R105). -/
def execSplicePeriodExpiry (p : Fin 8) (s : State) : Out :=
  if s.portUp p.val && s.flag .WL_CTRL_AUTO_SPLICE p.val then
    let b := s.boundaryAhead 4
    done ((s.onPort p.val fun x => { x with splice := x.splice ++ [b] }).mgmtCast p.val ⟨0x7F, 0x30, leBytes 2 (b % 4096), .splice⟩)
  else done s

/-- The heads that close their bypass at a boundary: those that had asked to leave or received RELEASE by then (R105). A
numbered one frees its position (R103). -/
def State.spliceOut (s : State) (p b : Nat) : State :=
  let gone := ((s.port p).released.filter fun r => r.2 ≤ b * 256000).map Prod.fst
  let s := s.onPort p fun x =>
    { x with released := x.released.filter fun r => decide (b * 256000 < r.2), order := x.order.filter fun d => !gone.contains d }
  s.each ((s.numbered p).filter fun i => gone.contains (i % 32) || (s.head i).leaveReq.any fun t => decide (t ≤ b * 256000)) State.freeHead

/-- SPLICE_WINDOW_END (R106): after a splice that succeeds the firmware sends ENUM, unless the first one is still to come; after
one that fails SPLICE_FAIL and RING_BREAK are set and the port retrains. -/
def execSpliceWindowEnd (p : Fin 8) (s : State) : Out :=
  match (s.port p.val).splice with
  | [] => done s
  | b :: t =>
    if !s.portUp p.val || s.now < b * 256000 + 300000 then done s
    else
      let x := s.port p.val
      let s := (s.onPort p.val fun x => { x with splice := t }).spliceOut p.val b
      if x.locked && x.returned && b ≤ x.lastW then done ((if x.probing then s else s.sendEnum p.val).kerbUpdate)
      else done ((((s.put .WL_STAT_SPLICE_FAIL p.val true).put .WL_STAT_RING_BREAK p.val true).enterRetrain p.val).kerbUpdate)

end Sys2Proof.Machine
end

