-- ==== Sys2Proof/Machine/Hatband.lean ====
section
/-!
DEFINITION. The Hatband reader and the identity operations (`spec/04_module_identity.md` R121 to R135; the commands ID_WRITE,
ID_LOCKDIR and ID_READ of Table MB-4).
-/
namespace Sys2Proof.Machine

/-! ### Results (Table ID-7) -/

def idDone : Nat := 0x00
def idDoneAfterResume : Nat := 0x01
def idAborted : Nat := 0x02
def idTagChanged : Nat := 0x03
def idVerifyFail : Nat := 0x04
def idTagLocked : Nat := 0x05
def idTagWriteErr : Nat := 0x06
def idWriteProtect : Nat := 0x07
def idSeqExhausted : Nat := 0x08
def idTooLarge : Nat := 0x09
def idTagMulti : Nat := 0x0A
def idNoMedium : Nat := 0x0B
def idKerbArmed : Nat := 0x0C
def idDirBad : Nat := 0x0D
def idTagLockFail : Nat := 0x0E

/-- The status IDW_FAIL (Table MB-3). -/
def stIdwFail : Nat := 0x07

/-! ### The reader (R123 to R125, R133, R134) -/

/-- The reader is powered and enabled. -/
def State.hbOn (s : State) : Bool := s.domOn pdAux && s.flag .HB_CFG_EN

/-- HB_STAT.STATE from what the reader holds (Table ID-8). -/
def State.hbState (s : State) : State :=
  let tagWrite : Bool := match s.hat.write with | some w => w.medium == .tag | none => false
  s.wr .HB_STAT_STATE 0
    (if s.hat.fault then 6 else if !s.hbOn then 0 else if s.hat.multi then 4 else if s.hat.reading.isSome then 2
      else if tagWrite then 5 else if s.hat.present.isEmpty then 1 else 3)

/-- The carrier amplitude is measured; outside 0x200 to 0xE00 the reader enters FAULT (R123). -/
def State.antCheck (s : State) (amp : Nat) : State :=
  let s := s.wr .HB_ANT 0 amp
  if 0x200 ≤ amp ∧ amp ≤ 0xE00 then s
  else ((s.put .HB_STAT_ANT_FAULT 0 true).onHat fun h => { h.forget with fault := true }).maskWithdraw

/-- HB_ENABLE: a write to HB_CFG with EN = 1. From 0 it turns the carrier on, starts polling and leaves FAULT (R123, R124). -/
def execHbEnable (who : Agent) (w : Word) (amplitude : BitVec 12) (s : State) : Out :=
  match s.letIn who .HB_CFG_EN 0 with
  | .error s => done s
  | .ok s =>
    match s.applyWord who (Reg.HB_CFG_EN.offset 0) w.toNat with
    | (false, s) => done s
    | (true, s) =>
      if s.flag .HB_CFG_EN then done s
      else
        let s := (s.put .HB_CFG_EN 0 true).onHat fun h => { h.forget with fault := false }
        done (((s.emit (.carrier true)).antCheck amplitude.toNat).hbState)

/-- HB_CFG.EN is cleared: carrier, polling and mask end (R134). A reader in FAULT stays there (R123). -/
def State.hbDisable (s : State) : State :=
  let s := (s.put .HB_CFG_EN 0 false).wr64 .HB_UID_LO .HB_UID_HI 0 0
  (((s.onHat HatSt.forget).emit (.carrier false)).maskWithdraw).hbState

/-- The counts of consecutive polls with and without a UID after a poll (R124), and MULTI, which lasts until a poll sees exactly
one UID (R125). -/
def HatSt.poll (h : HatSt) (uids : List Nat) : HatSt :=
  let all := (h.seen.map Prod.fst ++ h.present ++ uids).dedup
  let seen := all.foldl (fun t u => if uids.contains u then Table.set 0 t u (min 2 (Table.get 0 h.seen u + 1)) else t) []
  let missed := all.foldl (fun t u => if uids.contains u then t else Table.set 0 t u (min 2 (Table.get 0 h.missed u + 1))) []
  let present := all.filter fun u =>
    if h.present.contains u then decide (Table.get 0 missed u < 2) else decide (2 ≤ Table.get 0 seen u)
  { h with seen := seen, missed := missed, present := present, multi := 2 ≤ uids.length || (h.multi && uids.length != 1) }

/-- What a poll leaves of the readings: none in MULTI; a UID that has become the only one present is to be read again, since no
identity was accepted beside another. -/
def HatSt.settle (h : HatSt) (was : List Nat) : HatSt :=
  if h.multi then { h with reading := none, retried := none, handled := [], tool := none }
  else
    let keep : Option Nat := h.reading.filter h.present.contains
    let handled := if h.present = was then h.handled else if h.present.length = 1 then keep.toList else h.handled.filter h.present.contains
    { h with reading := keep, handled := handled, tool := if h.present = was then h.tool else none }

/-- A command to a tag, with Select before it where HB_CFG.SEL = 1 (Table ID-4). PRESUMED: the command codes of ISO/IEC 15693. -/
def State.tagSend (s : State) (uid code arg : Nat) : State :=
  (s.when (s.flag .HB_CFG_SEL) fun s => s.emit (.tagCommand uid 0x25 0)).emit (.tagCommand uid (BitVec.ofNat 8 code) arg)

/-- Read Multiple Blocks of a range of bytes, at most 32 blocks each (Table ID-4). -/
def State.tagReadRange (s : State) (uid blk base size : Nat) : State :=
  s.each (List.range (ceilDiv size (32 * blk))) fun s i => s.tagSend uid 0x23 (base / blk + 32 * i)

/-- The reading of a present tag begins with Get System Information (R124). -/
def State.tagReadStart (s : State) : State :=
  match s.hat.present.filter fun u => !s.hat.handled.contains u with
  | u :: _ =>
    if s.hat.multi || s.hat.reading.isSome then s
    else (s.onHat fun h => { h with reading := some u, retried := none, handled := u :: h.handled }).tagSend u 0x2B 0
  | [] => s

/-- HB_POLL (R123 to R125, R134): a 16-slot Inventory. -/
def execHbPoll (uids : List DWord) (air : PollAir) (s : State) : Out :=
  if !s.hbOn then done s
  else
    let s := s.antCheck air.amplitude.toNat
    if s.hat.fault then done s.hbState
    else
      let s := ((s.emit (.tagCommand 0 0x01 16)).idCount 2 air.collisions.val).idCount 1 air.badCrcs.val
      let was := s.hat.present
      let s := s.onHat fun h => (h.poll (uids.map BitVec.toNat).dedup).settle was
      let s := s.when s.hat.multi fun s => s.put .HB_STAT_MULTI 0 true
      let s := s.when ((s.hat.multi || s.hat.present != was) && s.flag .HB_STAT_MASK_LIVE) State.maskWithdraw
      let s := match s.hat.present with
        | [u] => s.wr64 .HB_UID_LO .HB_UID_HI 0 u
        | [] => s.wr64 .HB_UID_LO .HB_UID_HI 0 0
        | _ => s
      done s.tagReadStart.hbState

/-- The boxes of a tool record, in mm. -/
def toolBoxes (v : List Byte) : List (List Int) :=
  (List.range (v.length / 12)).map fun i => (List.range 6).map fun k => sAt v (12 * i + 2 * k) 2

/-- A valid tool record has been read: it is held and judged (R133). -/
def State.toolAccept (s : State) (l : List (Nat × List Byte)) : State :=
  let c := leAt (tlvVal l 0x21) 0 2
  let v := leAt (tlvVal l 0x21) 2 2
  (s.onHat fun h => { h with tool := some (c, v, toolBoxes (tlvVal l 0x22)) }).toolJudge

/-- ID_OP after an operation: result, outcome, restarts; SLOT and SEQ of the active slot where it is known (Table ID-8). -/
def State.idOp (s : State) (result : Nat) (newValid : Bool) (restarts : Nat) (active : Option (Bool × Nat)) : State :=
  let s := ((s.wr .ID_OP_RESULT 0 result).put .ID_OP_OUTCOME 0 newValid).wr .ID_OP_RESTARTS 0 restarts
  match active with
  | some (b, q) => (s.put .ID_OP_SLOT 0 b).wr .ID_OP_SEQ 0 q
  | none => s

/-- The active slot and its SEQ of a store that was read; slot A and 0 where none is valid. -/
def IdStore.act (x : IdStore) : Bool × Nat :=
  match x.active with
  | some (b, a) => (b, a.seq)
  | none => (false, 0)

/-- The commands by which a tag's store is read once its block size is known (R124): the directory, then both slots. -/
def State.tagReadCmds (s : State) (uid blk : Nat) (r : Option IdStore) : State :=
  let s := s.tagReadRange uid blk 0 32
  match r with
  | none => s
  | some x => (s.tagReadRange uid blk x.dir.slotA x.dir.size).tagReadRange uid blk x.dir.slotB x.dir.size

/-- HB_TAG_READ_DONE (R124, R133): the store of the tag being read, and the block size that Get System Information gave. DESIGN
CHOICE: Table ID-7 has no code for ID_NONE, and none for a block size that Table ID-4 does not support, of which no store is
read; RESULT is then a free value. -/
def execHbTagReadDone (uid : DWord) (block : Nat) (store : List Byte) (s : State) : Out :=
  if !s.hbOn || s.hat.reading != some uid.toNat then done s
  else if block ≠ 4 ∧ block ≠ 8 then
    let (v, s) := (s.onHat fun h => { h with reading := none, retried := none }).fresh 8
    done (s.idOp v false 0 none).hbState
  else
    let s := s.onHat fun h => { h with reading := none, retried := none, blk := block }
    let r := storeOf store store.length
    let s := (s.tagReadCmds uid.toNat block r).countStore r
    let s := match r with
      | none => s.idOp idDirBad false 0 none
      | some x =>
        match x.active with
        | none =>
          let (v, s) := s.fresh 8
          s.idOp v false 0 (some x.act)
        | some (_, a) => if a.rtype = 2 then s.toolAccept a.ents else s
    done s.hbState

/-! ### Writing a record (R126 to R132) -/

/-- The commit block of a SEQ (Table ID-2, R114): the first SALT that leaves no zero byte in the CRC. -/
def commitBlock (seq : Nat) : List Byte :=
  let body := fun salt => leBytes 4 seq ++ [0xA5, BitVec.ofNat 8 salt]
  let ok := fun salt => crc16 (body salt) % 256 != 0 && crc16 (body salt) / 256 != 0
  let salt := ((List.range 256).find? ok).getD 0
  body salt ++ leBytes 2 (crc16 (body salt))

/-- The header of a slot (Table ID-2). -/
def slotHeader (seq rtype : Nat) (payload : List Byte) : List Byte :=
  let h := leBytes 4 seq ++ leBytes 2 payload.length ++ leBytes 1 rtype ++ [0x01]
  h ++ leBytes 4 (crc32 (h ++ payload)) ++ leBytes 4 0

/-- Bytes from an address cut into writes of `unit` bytes, in ascending order. -/
def chunks : Nat → Nat → Nat → List Byte → List (Nat × List Byte)
  | 0, _, _, _ => []
  | _, _, _, [] => []
  | n + 1, unit, a, l => (a, l.take unit) :: chunks n unit (a + unit) (l.drop unit)

/-- The writes of a step of R127; steps 4 and 6 read back and write nothing. -/
def IdWriteSt.writes (w : IdWriteSt) (step : Nat) : List (Nat × List Byte) :=
  let c := w.base + w.size - 8
  let go := fun (a : Nat) (l : List Byte) => chunks l.length (max 1 w.unit) a l
  match step with
  | 1 => go c (leBytes 8 0)
  | 2 => go (w.base + 16) (w.payload ++ List.replicate (w.size - 24 - w.payload.length) 0)
  | 3 => go w.base (slotHeader w.seq w.rtype w.payload)
  | 5 => go c (commitBlock w.seq)
  | _ => []

/-- The range that steps 4 and 6 read back. -/
def IdWriteSt.back (w : IdWriteSt) : Nat × Nat :=
  if w.step = 4 then (w.base, 16 + w.payload.length) else (w.base + w.size - 8, 8)

/-- The next command of a write goes out: one write of the step, or its read-back. -/
def State.idSend (s : State) (w : IdWriteSt) : State :=
  match w.medium with
  | .tag =>
    match w.todo with
    | (a, d) :: _ => (s.when (s.flag .HB_CFG_SEL) fun s => s.emit (.tagCommand w.ident 0x25 0)).emit (.tagWrite a d)
    | [] => s.tagReadRange w.ident (max 1 w.unit) w.back.1 w.back.2
  | .head slot =>
    let p := slot.val / 32
    let d := slot.val % 32
    match w.todo with
    | (a, b) :: _ => s.mgmtSend p ⟨d, 0x11, leBytes 2 a ++ leBytes 1 b.length ++ b, .idWrite⟩
    | [] =>
      s.each (List.range (ceilDiv w.back.2 32)) fun s i =>
        s.mgmtSend p ⟨d, 0x10, leBytes 2 (w.back.1 + 32 * i) ++ leBytes 1 (min 32 (w.back.2 - 32 * i)), .idWrite⟩

/-- The counter of Table ID-9 for a tag command that failed. -/
def tagFailCounter : TagFail → Nat
  | .none => 0 | .badCrc => 1 | .error => 3

/-- HB_TAG_NO_RESPONSE (R124, R129): a read's failing command is sent again once, then the read has failed; a write's command
without a good response is sent again twice. DEDUCED: a failure is counted once, when the retries are used up; a write's error
response is ID_WRITE_BLOCK_DONE. DESIGN CHOICE: Table ID-7 has no code for a read that failed, so RESULT is a free value. -/
def execHbTagNoResponse (miss : TagMiss) (s : State) : Out :=
  let uid := miss.uid.toNat
  if !s.domOn pdAux then done s
  else if s.hat.reading = some uid then
    if s.hat.retried = some (miss.code.toNat, miss.arg) then
      let s := s.onHat fun h => { h with reading := none, retried := none }
      let (v, s) := (s.idCount (tagFailCounter miss.why)).fresh 8
      done (s.idOp v false 0 none).hbState
    else done ((s.onHat fun h => { h with retried := some (miss.code.toNat, miss.arg) }).tagSend uid miss.code.toNat miss.arg)
  else
    match s.hat.write with
    | some w =>
      if w.medium = .tag ∧ w.ident = uid ∧ s.hat.awaiting = false ∧ w.dead = false ∧ miss.why ≠ .error then
        if w.retries < 2 then
          let w := { w with retries := w.retries + 1 }
          done ((s.onHat fun h => { h with write := some w }).idSend w)
        else done ((s.idCount (tagFailCounter miss.why)).onHat fun h => { h with write := some { w with dead := true } })
      else done s
    | none => done s

/-- A write enters a step. -/
def State.idStep (s : State) (w : IdWriteSt) (step : Nat) : State :=
  let w := { w with step := step, todo := w.writes step, retries := 0, dead := false }
  ((s.onHat fun h => { h with write := some w }).idSend w).hbState

/-- A write ends (R132): ID_OP, and the completion OK with ID_OP_SEQ or IDW_FAIL. -/
def State.idEnd (s : State) (w : IdWriteSt) (result : Nat) (newValid : Bool) : State :=
  let act := if newValid then (w.slotB, w.seq) else if w.seq = 1 then (false, 0) else (!w.slotB, w.seq - 1)
  let s := s.onHat fun h => { h with write := none, awaiting := false }
  let s := (s.idOp result newValid w.restarts (some act)).hbState
  if result ≤ 1 then s.finishId w.mb w.id 0 0 act.2
  else s.finishId w.mb w.id stIdwFail (result + (if newValid then 256 else 0)) 0

/-- A refused operation: ID_OP and IDW_FAIL; nothing is changed on the medium (R126, R128). -/
def State.idRefuse (s : State) (mb : Nat) (c : Cmd) (result : Nat) (x : Option IdStore) : State :=
  (s.idOp result false 0 (x.map IdStore.act)).finish mb c stIdwFail result 0

/-- The medium that operand word 0 of ID_WRITE and ID_READ names. -/
def opMedium (op0 : Nat) : Medium :=
  if bit op0 0 then .tag else .head (Fin.ofNat 256 (32 * bits op0 8 3 + bits op0 11 5))

/-- Why a medium is not there (R128): the tag is not alone in the field or is absent; a head's position is empty. -/
def State.mediumBad (s : State) : Medium → Option Nat
  | .tag =>
    if !s.hbOn || s.hat.fault then some idNoMedium
    else if s.hat.multi || 2 ≤ s.hat.present.length then some idTagMulti
    else if s.hat.present.isEmpty then some idNoMedium
    else none
  | .head slot => if s.rd .HT_STATE slot.val = 0 ∨ s.rd .HT_STATE slot.val = 3 then some idNoMedium else none

/-- What identifies a medium (R130): the UID of the tag, the SERIAL of the head. -/
def State.mediumIdent (s : State) : Medium → Nat
  | .tag => (s.hat.present.head?).getD 0
  | .head slot => s.rd64 .HT_SERIAL_LO .HT_SERIAL_HI slot.val

/-- The inactive slot of a store that was read (R116): true for B. -/
def IdStore.inactive (x : IdStore) : Bool :=
  match x.active with
  | some (b, _) => !b
  | none => false

/-- The write unit in bytes: what one IDWR carries at most, or the block size that Get System Information gave. DEDUCED: of a tag
that has not been read it is that of its directory. -/
def State.writeUnit (s : State) (m : Medium) (x : IdStore) : Nat :=
  if m ≠ .tag then 32 else if s.hat.blk = 0 then max 1 x.dir.blk else s.hat.blk

/-- The store of a medium is read before a write or a lock: what the reading counts (R116). -/
def State.readForWrite (s : State) (m : Medium) (x : Option IdStore) : State :=
  if (s.mediumBad m).isSome || (m == .tag && s.armed) then s else s.countStore x

/-- The refusals of R126 and R128. DEDUCED: where several hold, those of the medium come first, because the others need its
store. -/
def State.idWriteBad (s : State) (m : Medium) (x : Option IdStore) (len : Nat) (locked : List Nat) : Option Nat :=
  match s.mediumBad m with
  | some r => some r
  | none =>
    if m = .tag ∧ s.armed then some idKerbArmed
    else match x with
      | none => some idDirBad
      | some x =>
        let base := if x.inactive then x.dir.slotB else x.dir.slotA
        let unit := s.writeUnit m x
        if x.act.2 = 0xFFFFFFFE then some idSeqExhausted
        else if x.dir.size - 24 < len then some idTooLarge
        else if m = .tag ∧ locked.any (fun b => base / unit ≤ b && b < (base + x.dir.size) / unit) then some idTagLocked
        else none

/-- ID_WRITE (R126 to R128): refused, or step 1 begins. It waits for a read of the tag and for another identity write to
end. -/
def execIdWrite (mb : Fin 64) (tag : BitVec 16) (m : Medium) (payload store : List Byte) (lockedBlocks : List Nat) (s : State) :
    Out :=
  if s.hat.write.isSome || (m == .tag && s.hat.reading.isSome) then done s
  else s.runCmd mb tag 0x58 true fun s c =>
    if opMedium (c.opw 0) ≠ m then s
    else
      let x := storeOf store store.length
      let s := s.readForWrite m x
      match s.idWriteBad m x (c.opw 2) lockedBlocks, x with
      | some r, _ => s.idRefuse mb.val c r x
      | none, none => s.idRefuse mb.val c idDirBad x
      | none, some x =>
        if payload.length ≠ c.opw 2 then s
        else
          let b := x.inactive
          let w : IdWriteSt :=
            { mb := mb.val, id := c.id, medium := m, ident := s.mediumIdent m, slotB := b
              base := if b then x.dir.slotB else x.dir.slotA, size := x.dir.size
              unit := s.writeUnit m x
              seq := x.act.2 + 1, payload := payload, rtype := if m = .tag then 2 else 1, step := 1, todo := []
              restarts := 0, collapsed := false, retries := 0 }
          let s := s.when (m == .tag) fun s => (s.tagSend w.ident 0x2B 0).tagSend w.ident 0x2C (w.base / max 1 w.unit)
          (s.begin_ mb.val c).idStep w 1

/-- The outcome that the step in progress fixes (Table ID-6). -/
def IdWriteSt.newValid (w : IdWriteSt) : Bool := 6 ≤ w.step

/-- The read-back of a step matches (R127). -/
def IdWriteSt.matches (w : IdWriteSt) (st : List Byte) : Bool :=
  let want := if w.step = 4 then slotHeader w.seq w.rtype w.payload ++ w.payload else commitBlock w.seq
  (st.drop w.back.1).take w.back.2 == want

/-- An error answer to a write (R131): the result and whether TAG_ERR counts. -/
def idAnswerResult : IdAnswer → Nat × Bool
  | .ok => (idDone, false)
  | .tagError c => (if c = 0x12 then idTagLocked else idTagWriteErr, true)
  | .writeProtect => (idWriteProtect, false)
  | .i2cNak => (idTagWriteErr, false)

/-- ID_WRITE_BLOCK_DONE (R127, R131): the answer to the write or read-back in progress. -/
def execIdWriteBlockDone (m : Medium) (a : IdAnswer) (store : List Byte) (s : State) : Out :=
  match s.hat.write with
  | none => done s
  | some w =>
    if w.medium ≠ m ∨ s.hat.awaiting = true then done s
    else if a ≠ .ok then done ((s.when (idAnswerResult a).2 fun s => s.idCount 3).idEnd w (idAnswerResult a).1 w.newValid)
    else if w.step = 4 ∨ w.step = 6 then
      if !w.matches store then done ((s.idCount 5).idEnd w idVerifyFail false)
      else if w.step = 4 then done (s.idStep w 5)
      else done (s.idEnd w (if w.collapsed then idDoneAfterResume else idDone) true)
    else
      match w.todo with
      | _ :: b :: t =>
        let w := { w with todo := b :: t, retries := 0 }
        done ((s.onHat fun h => { h with write := some w }).idSend w)
      | _ => done (s.idStep w (w.step + 1))

/-- The medium of a write has collapsed (R129): a tag gave no response to a command and its 2 retries and is absent; for a
head FRAME_TMO was counted, or it is LOST or has released its position. -/
def State.collapsed (s : State) (w : IdWriteSt) : Bool :=
  match w.medium with
  | .tag => w.dead && !s.hat.present.contains w.ident
  | .head slot => w.dead || s.rd .HT_STATE slot.val == 0 || s.rd .HT_STATE slot.val == 3

/-- ID_WRITE_COLLAPSE (R129): the write waits for its medium; a tag counts FIELD_LOST. -/
def execIdWriteCollapse (m : Medium) (s : State) : Out :=
  match s.hat.write with
  | none => done s
  | some w =>
    if w.medium ≠ m ∨ s.hat.awaiting = true ∨ s.collapsed w = false then done s
    else
      let s := s.when (m == .tag) fun s => s.idCount 4
      done (s.onHat fun h => { h with write := some { w with collapsed := true }, awaiting := true, since := s.raw })

/-- The window in which a medium may return has passed: HB_CFG.RESUME seconds (R130). -/
def State.resumeOver (s : State) : Bool := s.hat.since + s.rd .HB_CFG_RESUME * 10 ^ 9 < s.raw

/-- ID_WRITE_RESUME (R130): a medium returns in time. The same one is read again: NEW_VALID ends the write, OLD_KEPT
restarts it at most twice; another one ends it with TAG_CHANGED. DEDUCED: NEW_VALID found so reports DONE_AFTER_RESUME. -/
def execIdWriteResume (m : Medium) (ident : DWord) (store : List Byte) (s : State) : Out :=
  match s.hat.write with
  | none => done s
  | some w =>
    if w.medium ≠ m ∨ s.hat.awaiting = false ∨ s.resumeOver = true then done s
    else if ident.toNat ≠ w.ident then done (s.idEnd w idTagChanged w.newValid)
    else
      let s := s.countStore (storeOf store store.length)
      let new : Bool := match slotAt store w.base w.size with | some x => x.seq == w.seq | none => false
      if new then done (s.idEnd w idDoneAfterResume true)
      else if 2 ≤ w.restarts then done (s.idEnd w idAborted false)
      else done ((s.onHat fun h => { h with awaiting := false }).idStep { w with restarts := w.restarts + 1 } 1)

/-- ID_WRITE_RESUME_TIMEOUT (R130): no medium has returned. -/
def execIdWriteResumeTimeout (m : Medium) (s : State) : Out :=
  match s.hat.write with
  | none => done s
  | some w =>
    if w.medium ≠ m ∨ s.hat.awaiting = false ∨ s.resumeOver = false then done s else done (s.idEnd w idAborted w.newValid)

/-- ID_LOCKDIR (R126): Lock Block for each directory block, up to one that fails. DEDUCED: every failure ends the command
with IDW_FAIL and the result of Table ID-7. -/
def execIdLockdir (mb : Fin 64) (tag : BitVec 16) (store : List Byte) (answers : List IdAnswer) (s : State) : Out :=
  if s.hat.write.isSome || s.hat.reading.isSome then done s
  else s.runCmd mb tag 0x59 false fun s c =>
    let x := storeOf store store.length
    let s := s.when (s.mediumBad .tag).isNone fun s => s.countStore x
    match s.mediumBad .tag, x with
    | some r, _ => s.idRefuse mb.val c r none
    | none, none => s.idRefuse mb.val c idDirBad none
    | none, some d =>
      let n := ceilDiv 32 (s.writeUnit .tag d)
      let good := (answers.take n).takeWhile fun a => a == .ok
      let s := s.each (List.range (min n (good.length + 1))) fun s i => s.tagSend (s.mediumIdent .tag) 0x22 i
      if n ≤ good.length then (s.idOp idDone false 0 (some d.act)).finish mb.val c 0 0 0
      else
        let s := s.when (idAnswerResult ((answers[good.length]?).getD .ok)).2 fun s => s.idCount 3
        s.idRefuse mb.val c idTagLockFail x

/-- ID_READ (R116): the store goes to host memory. DEDUCED: with no medium it ends with IDW_FAIL and NO_MEDIUM or
TAG_MULTI. -/
def execIdRead (mb : Fin 64) (tag : BitVec 16) (m : Medium) (store : List Byte) (s : State) : Out :=
  s.runCmd mb tag 0x5A true fun s c =>
    if opMedium (c.opw 0) ≠ m then s
    else match s.mediumBad m with
      | some r => s.idRefuse mb.val c r none
      | none =>
        let s := s.countStore (storeOf store store.length)
        (s.post (mb.val / 8) (.write (c.opw 1) store)).finish mb.val c 0 0 store.length

end Sys2Proof.Machine
end

