-- ==== Sys2Proof/Machine/AuxSignals.lean ====
section
/-!
DEFINITION. The triggers (`spec/02_time_base.md` R58 to R62), the AUXSPI ports, I3C controllers and decimation chains
(`spec/18_aux_signals.md` R514 to R526), AUXEV, ETH0, GPIO and the TAP (R528, R529, R531, R534).
-/
namespace Sys2Proof.Machine

/-! ### Decimation chains (R521 to R526) -/

/-- A decimation chain. -/
def State.chain (s : State) (k : Nat) : ChainSt := Table.get {} s.aux.chains k

/-- Change a decimation chain. -/
def State.onChain (s : State) (k : Nat) (f : ChainSt → ChainSt) : State :=
  s.onAux fun a => { a with chains := Table.upd {} a.chains k f }

/-- The decimation factor M. -/
def State.chainM (s : State) (k : Nat) : Nat := 2 ^ s.rd .CH_CFG_LOG2M k

/-- Tap `i` of the symmetric 31-tap FIR, whose taps sum to exactly 1 (R522). -/
def firTapAt (log2m i : Nat) : Rat :=
  if i < 15 then Config.firTap log2m i
  else if i = 15 then 1 - 2 * ((List.range 15).map (Config.firTap log2m)).foldl (· + ·) 0
  else Config.firTap log2m (30 - i)

/-- One input through the four integrators (R522). -/
def integrate (x : Int) (l : List Int) : List Int :=
  (l.foldl (fun (acc : Int × List Int) v => (acc.1 + v, acc.2 ++ [acc.1 + v])) (x, [])).2

/-- One value through the four combs: what comes out, and the combs' memory. -/
def comb (x : Int) (l : List Int) : Int × List Int :=
  l.foldl (fun (acc : Int × List Int) v => (acc.1 - v, acc.2 ++ [acc.1])) (x, [])

/-- An output of a chain that the arithmetic gives: its value before saturation, and 2 × D in input periods. -/
structure ChainRaw where
  value : Int
  d2 : Nat
  settled : Bool
deriving DecidableEq, Repr

/-- An input goes through the filter: the chain after it and an output, if one is due (R522 to R524). -/
def ChainSt.filter (c : ChainSt) (log2m : Nat) (step : Bool) (x : Int) : ChainSt × Option ChainRaw :=
  let m := 2 ^ log2m
  let n := c.n + 1
  let c := { c with n := n, last := x }
  let v := x * 2 ^ 8
  if step then
    let sum := c.sum + v
    if n % (4 * m) = 0 then ({ c with sum := 0 }, some ⟨rneDiv sum (4 * m), 4 * m - 1, true⟩) else ({ c with sum := sum }, none)
  else if log2m = 0 then (c, some ⟨v, 0, true⟩)
  else
    let ints := integrate v c.ints
    let c := { c with ints := ints }
    if n % m = 0 then
      let (y, combs) := comb ((ints.getLast?).getD 0) c.combs
      let taps := (y :: c.taps).take 31
      let acc := (taps.zipIdx.map fun e => firTapAt log2m e.2 * (e.1 : Rat)).foldl (· + ·) 0
      ({ c with combs := combs, taps := taps },
        some ⟨rneRat (acc / (m : Rat) ^ 4), 2 * (2 * (m - 1) + 15 * m), 2 * (m - 1) + 45 * m ≤ n⟩)
    else (c, none)

/-- The stamp of an output: that of the last input minus D × CH_PERIOD, rounded down (R525). -/
def chainStamp (stamp d2 period : Nat) : Nat := ((((stamp : Int) * 2 - (d2 * period : Nat)).fdiv 2) % 2 ^ 64).toNat

/-- An output enters the FIFO, or is dropped and counted (R526). -/
def State.chainPush (s : State) (k : Nat) (o : ChOut) : State :=
  if 64 ≤ (s.chain k).fifo.length then (s.onChain k fun c => { c with dropped := true }).count .CH_STAT_OVF_CNT k
  else s.onChain k fun c => { c with fifo := c.fifo ++ [{ o with gap := o.gap || c.dropped }], dropped := false }

/-- The head slots whose cross-check reads a chain (R527). -/
def State.xchkSlots (s : State) (k : Nat) : List Nat :=
  (s.setOf .EGO_CTRL_XCHK_EN).filter fun slot => s.rd .EGO_CTRL_XCHK_SRC slot ≤ k && k ≤ s.rd .EGO_CTRL_XCHK_SRC slot + 5

/-- A chain takes an input with its stamp; a missing sample repeats the previous input, and the output whose window holds it
carries GAP (R521). -/
def State.chainTake (s : State) (k stamp : Nat) (x : Option Int) : State :=
  let c := s.chain k
  let (c', o) := c.filter (s.rd .CH_CFG_LOG2M k) (s.flag .CH_CFG_STEP k) (x.getD c.last)
  let missed := c.missed || x.isNone
  match o with
  | none => s.onChain k fun _ => { c' with missed := missed }
  | some r =>
    let v := clampInt (-(2 ^ 31)) (2 ^ 31 - 1) r.value
    let st := chainStamp stamp r.d2 (s.rd .CH_PERIOD k)
    let s := s.onChain k fun _ => { c' with missed := false }
    let s := s.each (s.xchkSlots k) fun s slot =>
      s.onEgo slot fun e => { e with refs := e.refs ++ [⟨k, st, v, !missed && r.settled⟩] }
    s.chainPush k ⟨v, st, missed, v != r.value, r.settled⟩

/-- The chains that read a source (R521). -/
def State.chainsOf (s : State) (src : Nat) : List Nat :=
  (List.range 16).filter fun k => s.flag .CH_CFG_EN k && s.rd .CH_CFG_SRC k == src

/-- The field of a frame that a chain reads (R521). -/
def State.chainField (s : State) (k : Nat) (data : List Byte) : Int :=
  let w := s.rd .CH_CFG_WIDTH k + 1
  let l := (data.drop (s.rd .CH_CFG_OFS k)).take w
  let n := ofLe (if s.flag .CH_CFG_BE k then l.reverse else l)
  if s.flag .CH_CFG_SGN k then toSigned (8 * w) n else n

/-- A frame with its stamp feeds every chain of its source, then the samples missed meanwhile (R516, R521). -/
def State.feed (s : State) (src stamp : Nat) (data : List Byte) (missed : List Nat) : State :=
  s.each (s.chainsOf src) fun s k =>
    (s.chainTake k stamp (some (s.chainField k data))).each missed fun s t => s.chainTake k t none

/-- CH_POP (R526). -/
def execChPop (who : Agent) (k : Fin 16) (s : State) : Out :=
  match s.letIn who .CH_POP k.val with
  | .error s => done s
  | .ok s => done (s.onChain k.val fun c => { c with fifo := c.fifo.tail })

/-! ### AUXSPI ports (R515, R516) -/

/-- The frame in progress of a port, its stamp first. -/
def State.spiBusy (s : State) (p : Nat) : List Nat := Table.get [] s.aux.spi p

/-- An acquisition event of a port: a frame with this stamp starts, or OVERRUN counts. -/
def State.spiEvent (s : State) (p stamp : Nat) : State :=
  if !s.flag .SPI_CFG_EN p then s
  else match s.spiBusy p with
    | [] => (s.onAux fun a => { a with spi := Table.set [] a.spi p [stamp] }).emit (.spiFrame p)
    | l => (s.onAux fun a => { a with spi := Table.set [] a.spi p (l ++ [stamp]) }).count .SPI_CNT (4 * p)

/-- DRDY_EDGE: its stamp is the WT64 of the edge (R515). -/
def execDrdyEdge (p : Fin 8) (s : State) : Out :=
  if s.domOn pdAux ∧ s.rd .SPI_CFG_STAMP p.val = 1 then done (s.spiEvent p.val s.now) else done s

/-- SPI_FRAME_DONE: the data of the frame feed the chains and, with KIND POSE, the pose stream (R515, R519). -/
def execSpiFrameDone (p : Fin 8) (data : List Byte) (s : State) : Out :=
  match s.spiBusy p.val with
  | [] => done s
  | stamp :: missed =>
    let s := s.onAux fun a => { a with spi := Table.erase a.spi p.val }
    let pose : Bool := s.rd .SPI_CFG_KIND p.val == 1
    let d := data.take (if pose then 64 else s.rd .SPI_CFG_LEN p.val + 1)
    let s := s.feed p.val stamp d missed
    done (s.when pose fun s => s.poseFrame p.val d)

/-! ### I3C controllers (R517, R518) -/

/-- The index of entry d of controller c. -/
def i3cIdx (c d : Nat) : Nat := 8 * c + d

/-- The read in progress of an entry, its stamp first. -/
def State.i3cBusy (s : State) (c d : Nat) : List Nat := Table.get [] s.aux.i3c (i3cIdx c d)

/-- An entry is in use. DEDUCED: it has a static or an assigned dynamic address. -/
def State.i3cUsed (s : State) (i : Nat) : Bool := s.rd .I3C_DEV_SA i != 0 || s.rd .I3C_DEV_DA i != 0

/-- An acquisition event of an entry: a read with this stamp starts, or it counts as an overrun; no counter of a controller
is given (R516, R518). -/
def State.i3cEvent (s : State) (c d stamp : Nat) : State :=
  let i := i3cIdx c d
  if !s.flag .I3C_CFG_EN c || !s.i3cUsed i then s
  else match s.i3cBusy c d with
    | [] => (s.onAux fun a => { a with i3c := Table.set [] a.i3c i [stamp] }).emit (.i3cRead c d)
    | l => s.onAux fun a => { a with i3c := Table.set [] a.i3c i (l ++ [stamp]) }

/-- I3C_IBI: an entry with ACQ = 1 is read, stamped with the interrupt's START condition (R518). -/
def execI3cIbi (c : Fin 4) (d : Fin 8) (s : State) : Out :=
  if s.domOn pdAux ∧ s.flag .I3C_DEV_ACQ (i3cIdx c.val d.val) then done (s.i3cEvent c.val d.val s.now) else done s

/-- I3C_READ_DONE (R518, R519): the pose stream of a controller comes from entry 0. -/
def execI3cReadDone (c : Fin 4) (d : Fin 8) (data : List Byte) (s : State) : Out :=
  match s.i3cBusy c.val d.val with
  | [] => done s
  | stamp :: missed =>
    let i := i3cIdx c.val d.val
    let s := s.onAux fun a => { a with i3c := Table.erase a.i3c i }
    let pose : Bool := s.rd .I3C_DEV_KIND i == 1
    let b := data.take (if pose then 64 else s.rd .I3C_DEV_LEN i + 1)
    let s := s.feed (8 + i) stamp b missed
    done (s.when (pose && d.val == 0) fun s => s.poseFrame (8 + c.val) b)

/-- I3C_HOT_JOIN (R517): the joiner is given an address by ENTDAA; which one is free. -/
def execI3cHotJoin (c : Fin 4) (d : Fin 8) (s : State) : Out :=
  if s.domOn pdAux ∧ s.flag .I3C_CFG_EN c.val then
    let (a, s) := s.fresh 7
    done ((s.wr .I3C_DEV_DA (i3cIdx c.val d.val) a).emit (.i3cAddress c.val d.val a))
  else done s

/-! ### Triggers (R58 to R62) -/

/-- A trigger engine. -/
def State.trig (s : State) (n : Nat) : TrigSt := Table.get {} s.time.trig n

/-- Change a trigger engine. -/
def State.onTrig (s : State) (n : Nat) (f : TrigSt → TrigSt) : State :=
  s.onTime fun t => { t with trig := Table.upd {} t.trig n f }

/-- Edges are skipped: counted in TRIGn_MISS (R60, R61). -/
def State.trigMiss (s : State) (n k : Nat) : State := s.count .TRIG_MISS n k

/-- A trigger fires no further edge and its EN clears. -/
def State.trigStop (s : State) (n : Nat) : State := (s.onTrig n fun t => { t with next := none }).put .TRIG_CTRL_EN n false

/-- TRIGn_START. -/
def State.trigStart (s : State) (n : Nat) : Nat := s.rd64 .TRIG_START_LO .TRIG_START_HI n

/-- EN goes from 0 to 1 (R59, R60, R62): the shadow settings are checked and taken. -/
def State.trigArm (s : State) (n : Nat) : State :=
  let per := s.flag .TRIG_CTRL_MODE n
  let period := s.rd .TRIG_PERIOD n
  let width := s.rd .TRIG_WIDTH n
  let start := s.trigStart n
  let count := s.rd .TRIG_COUNT n
  if width = 0 ∨ period < 100 ∨ (per = true ∧ period ≤ width) then s.put .TRIG_CTRL_CFGERR n true
  else
    let arm := fun (s : State) (t : Nat) =>
      (s.onTrig n fun x =>
        { x with periodic := per, activeLow := s.flag .TRIG_CTRL_POL n, period := period, width := width
                 limited := count != 0, next := some t }).put .TRIG_CTRL_EN n true
    if s.now ≤ start then arm s start
    else
      let s := s.put .TRIG_CTRL_LATE n true
      if !per then s
      else
        let k := ceilDiv (s.now + 100 - start) period
        let s := s.trigMiss n k
        if count ≠ 0 ∧ count ≤ k then s.wr .TRIG_COUNT n 0
        else arm (s.when (count != 0) fun s => s.wr .TRIG_COUNT n (count - k)) (start + k * period)

/-- TRIG_ENABLE: a TRIGn_CTRL write with EN = 1; while EN = 1 it changes the shadow only (R62). -/
def execTrigEnable (who : Agent) (n : Fin 8) (w : Word) (s : State) : Out :=
  match s.letIn who .TRIG_CTRL_EN n.val with
  | .error s => done s
  | .ok s =>
    match s.applyWord who (Reg.TRIG_CTRL_EN.offset n.val) w.toNat with
    | (false, s) => done s
    | (true, s) => if s.flag .TRIG_CTRL_EN n.val then done s else done (s.trigArm n.val)

/-- TRIG_DISABLE: a TRIGn_CTRL write with EN = 0; a pulse in progress ends at its width (R62). -/
def execTrigDisable (who : Agent) (n : Fin 8) (w : Word) (s : State) : Out :=
  match s.letIn who .TRIG_CTRL_EN n.val with
  | .error s => done s
  | .ok s =>
    match s.applyWord who (Reg.TRIG_CTRL_EN.offset n.val) w.toNat with
    | (false, s) => done s
    | (true, s) => done (s.trigStop n.val)

/-- TRIG_COUNT_WRITE: while EN = 1 the edges remaining, 0 for no limit (R62). -/
def execTrigCountWrite (who : Agent) (n : Fin 8) (count : BitVec 16) (s : State) : Out :=
  match s.letIn who .TRIG_COUNT n.val with
  | .error s => done s
  | .ok s =>
    let s := s.wr .TRIG_COUNT n.val count.toNat
    done (s.when (s.flag .TRIG_CTRL_EN n.val) fun s => s.onTrig n.val fun t => { t with limited := count.toNat != 0 })

/-- The frames and reads that a trigger edge starts (R515, R518). -/
def State.trigFrames (s : State) (n edge : Nat) : State :=
  let s := s.each (List.range 8) fun s p =>
    let st := s.rd .SPI_CFG_STAMP p
    if s.rd .SPI_CFG_TRIG p = n ∧ st ≠ 1 then s.spiEvent p (if st = 2 then edge + s.rd .SPI_DLY p else edge) else s
  s.each (List.range 32) fun s i =>
    if s.rd .I3C_DEV_TRIG i = n ∧ s.flag .I3C_DEV_ACQ i = false then s.i3cEvent (i / 8) (i % 8) edge else s

/-- TRIG_EDGE (R58): the active edge at its scheduled WT64. DEDUCED: a one-shot trigger that has fired is done, and its EN
clears. -/
def execTrigEdge (n : Fin 8) (s : State) : Out :=
  let n := n.val
  match (s.trig n).next with
  | none => done s
  | some t =>
    if !s.domOn pdAux ∨ s.now < t then done s
    else
      let x := s.trig n
      let s := (s.wr64 .TRIG_LAST_LO .TRIG_LAST_HI n t).emit (.trigLevel n (!x.activeLow))
      let s := s.onTrig n fun y => { y with pulseEnd := some (t + x.width), next := some (t + x.period) }
      let left := s.rd .TRIG_COUNT n - 1
      let s := s.when x.limited fun s => s.wr .TRIG_COUNT n left
      let s := if !x.periodic ∨ (x.limited = true ∧ left = 0) then s.trigStop n else s
      done (s.trigFrames n t)

/-- TRIG_PULSE_END (R58): the output returns to its inactive level. -/
def execTrigPulseEnd (n : Fin 8) (s : State) : Out :=
  match (s.trig n.val).pulseEnd with
  | none => done s
  | some t =>
    if s.now < t then done s
    else done ((s.onTrig n.val fun y => { y with pulseEnd := none }).emit (.trigLevel n.val (s.trig n.val).activeLow))

/-- PD_AUX is gated: the outputs are held inactive (R61). -/
def State.trigGate (s : State) : State :=
  s.each (List.range 8) fun s n =>
    if (s.trig n).pulseEnd.isSome then
      (s.onTrig n fun y => { y with pulseEnd := none }).emit (.trigLevel n (s.trig n).activeLow)
    else s

/-- PD_AUX is back (R61): a periodic trigger resumes at its next scheduled edge and counts those it missed. DESIGN CHOICE: the
edges missed leave TRIGn_COUNT as it was; a one-shot trigger whose edge has passed fires no more, counts that edge in
TRIGn_MISS and clears EN. -/
def State.trigResume (s : State) : State :=
  s.each (List.range 8) fun s n =>
    match (s.trig n).next with
    | none => s
    | some t =>
      if s.now ≤ t then s
      else if (s.trig n).periodic then
        let k := ceilDiv (s.now - t) (max 1 (s.trig n).period)
        (s.trigMiss n k).onTrig n fun x => { x with next := some (t + k * (max 1 x.period)) }
      else (s.trigMiss n 1).trigStop n

/-! ### AUXEV (R528) -/

/-- AUXEV_POP. -/
def execAuxevPop (who : Agent) (p : Fin 8) (s : State) : Out :=
  match s.letIn who .AUXEV_POP p.val with
  | .error s => done s
  | .ok s => done (s.onAux fun a => { a with auxev := Table.upd [] a.auxev p.val List.tail })

/-! ### ETH0 (R529) -/

/-- ETH_LINK_LOSS: the PTP port goes to FAULTY. -/
def execEthLinkLoss (s : State) : Out :=
  if s.domOn pdAux then done (((s.put .ETH_STAT_LINK 0 false).wr .PTP_STAT_PORT_STATE 0 1).updateTq) else done s

/-- ETH_LINK_UP: the PTP port can leave FAULTY. DEDUCED: it leaves for LISTENING. -/
def execEthLinkUp (s : State) : Out :=
  if s.domOn pdAux then
    let s := s.put .ETH_STAT_LINK 0 true
    done (if s.rd .PTP_STAT_PORT_STATE = 1 then (s.wr .PTP_STAT_PORT_STATE 0 3).updateTq else s)
  else done s

/-- ETH_TX_FAULT: TX_DIS follows TX_FAULT. -/
def execEthTxFault (asserted : Bool) (s : State) : Out :=
  if s.domOn pdAux then done ((s.put .ETH_STAT_TX_FAULT 0 asserted).emit (.ethTxDis asserted)) else done s

/-! ### GPIO (R531) and the TAP (R534) -/

/-- An edge is chosen by a 2-bit code: 1 rising, 2 falling, 3 both. -/
def edgeChosen (code : Nat) (high : Bool) : Bool := if high then bit code 0 else bit code 1

/-- GPIO_EDGE: an input edge chosen in GPIO_EDGE enters the FIFO while PD_AUX is on; one chosen in GPIO_WAKE is wake source
5. -/
def execGpioEdge (pin : Fin 16) (high : Bool) (s : State) : Out :=
  let n := pin.val
  if s.rd .PM_STATUS_CUR = 4 ∨ (4 ≤ n ∧ s.domOn pdAux = false) then done s
  else
    let s := s.setBitOf .GPIO_IN 0 n high
    if bit (s.rd .GPIO_DIR) n then done s
    else
      let s := if s.domOn pdAux && edgeChosen (bits (s.rd .GPIO_EDGE) (2 * n) 2) high then
          if 32 ≤ s.aux.gpio.length then s.count .GPIO_OVF
          else s.onAux fun a => { a with gpio := a.gpio ++ [(n, high, s.now)] }
        else s
      done (if n < 4 ∧ edgeChosen (bits (s.rd .GPIO_WAKE) (2 * n) 2) high then s.raiseWake 5 else s)

/-- GPIO_POP. -/
def execGpioPop (who : Agent) (s : State) : Out :=
  match s.letIn who .GPIO_POP 0 with
  | .error s => done s
  | .ok s => done (s.onAux fun a => { a with gpio := a.gpio.tail })

/-- The IDCODE of R533: the step, 0x9640, the JEP106 code and a 1. -/
def State.idcode (s : State) : Nat :=
  s.rd .GLOBAL_ID_STEP_MAJ % 16 * 2 ^ 28 + 0x9640 * 2 ^ 12 + Config.jep106 % 2 ^ 11 * 2 + 1

/-- TAP_INSTRUCTION: while the Kerb is armed one beyond BYPASS, IDCODE and SAMPLE/PRELOAD is replaced by BYPASS and counted.
A code that R533 does not list acts as BYPASS (DEDUCED: as IEEE 1149.1 has it). IDCODE puts the code out. -/
def execTapInstruction (i : TapInstr) (s : State) : Out :=
  if s.armed && !tapAllowed i then done ((s.onAux fun a => { a with tap := .bypass }).count .TAP_REFUSED)
  else
    done ((s.onAux fun a => { a with tap := if i = .other then .bypass else i }).when (i == .idcode) fun s =>
      s.emit (.tapIdcode s.idcode))

end Sys2Proof.Machine
end

