-- ==== Sys2Proof/Machine/Domains.lean ====
section
/-!
DEFINITION. What a power domain loses when it is gated or reset, and how it comes back (`spec/15_power.md` R428, R430, R434,
Tables PW-5 and PW-7; `spec/16_reset_and_persistence.md` Table RP-3), and the HOT reset (Table RP-1).
-/
namespace Sys2Proof.Machine

/-! ### Losing a domain -/

/-- Class V fields that a domain keeps although it is gated. DEDUCED: the image of the firmware and its cores are the same
after a wake (R427, R435), and a core returns only as Table FR-3 states; the batt counts are the owner and free state of the batts,
which stay (Table PW-5). -/
def Reg.staysGated (r : Reg) : Bool :=
  r == .NGX_VER || r == .NGX_IF || r == .NGX_BUILD || r == .NGX_CORES_LIVE || r == .NGX_CORES_MIG ||
    r == .BP_USED_SHORT || r == .BP_USED_LONG || r == .BP_FREE

/-- The class V registers of a domain are lost. -/
def State.loseRegs (s : State) (d : Nat) : State :=
  s.lose fun r i => r.volatile && r.domain i == some d && !r.staysGated

/-- PD_CTRL: queues and every record pending for them, waiters and signals, error rings, sessions and keys, control memory.
Batts stay (ARR); what Ngabex holds is its own state, saved and restored by it (FWS). DEDUCED: a scrub that is due is such state, since
R364 lets no Spur take the resource before it. -/
def State.loseCtrl (s : State) : State :=
  let dead := (List.range 64).filter fun mb => s.rd .MB_STAT_STATE mb == 6
  let s := (s.onPm fun p => { p with ngx := s.rd .NGX_STATE }).loseRegs pdCtrl
  let s := s.each dead fun s mb => s.wr .MB_STAT_STATE mb 6
  let s := (s.onEqs fun _ => []).onCards fun t => t.map fun e => (e.1, { e.2 with pend := [] })
  let s := s.onMs fun m => { short := m.short, long := m.long }
  let s := ((s.onErrs fun _ => []).onIsoLog fun _ => []).onSec fun x =>
    { held := x.held, scrubs := x.scrubs.map fun y => { y with cmd := none } }
  s.zero .control 0 (2 ^ 36)

/-- PD_HOST: the functions' configuration, the virtual functions and the link (R505: the host restores them). -/
def State.loseHost (s : State) : State :=
  let s := ((s.loseRegs pdHost).onFns fun _ => []).onHostIn fun _ => []
  ((s.onVfEnable fun _ => false).onNumVfs fun _ => 0).onTime fun t => { t with vfSnap := [] }

/-- PD_MEM: a FAILED channel stays FAILED (R513); the contents stay in self-refresh. -/
def State.loseMem (s : State) : State :=
  let failed := (List.range 8).filter fun c => s.rd .MEM_STAT_STATE c == chFailed
  let s := (s.loseRegs pdMem).onLinkUes fun _ => []
  s.each failed fun s c => s.wr .MEM_STAT_STATE c chFailed

/-- PD_AUX: chains, FIFOs and frames in progress, the transmit-stamp queue, the Hatband reader; triggers are held inactive
(R61, R134). DEDUCED: an identity write in progress ends ABORTED. -/
def State.loseAux (s : State) : State :=
  let s := match s.hat.write with
    | some w => s.idEnd w idAborted w.newValid
    | none => s
  let s := s.trigGate.loseRegs pdAux
  let s := (s.onAux fun a => { tap := a.tap }).onTime fun t => { t with txts := [], servo := [] }
  (s.onHat fun h => { fault := h.fault }).maskWithdraw

/-- One Wayline port and its carding unit. -/
def State.losePort (s : State) (p : Nat) : State :=
  (s.lose fun r i => r.volatile && 0x80000 ≤ r.spec.base && r.spec.base < 0x100000 && i / r.perUnit == p).dropPort p

/-- The ports of PD_WLA or PD_WLB. -/
def wlPorts (d : Nat) : List Nat := if d = pdWla then [0, 1, 2, 3] else [4, 5, 6, 7]

/-- PD_FUL: surfaces, windows in progress, jobs, tracks and corrections; the numbers of the last grid and pass windows stay
(Table PW-5). A failed island returns (R543). -/
def State.loseFul (s : State) : State :=
  let s := (s.loseRegs pdFul).onFul fun f =>
    { subs := f.subs.map fun e => (e.1, ({ spur := e.2.spur, dec := e.2.dec, epoch := e.2.epoch } : SubSt)) }
  let s := s.onFt fun f =>
    { grids := (f.grids.map fun e => (e.1, ({ closed := e.2.closed } : GridSt))).filter fun e => e.2 != {}
      trk := (f.trk.map fun e => (e.1, ({ win := e.2.win } : TrkSt))).filter fun e => e.2 != {}
      calDue := f.calDue }
  (s.calSettle.onFulFenced fun _ => 0).zero .nap 0 (2 ^ 36)

/-- PD_KERB: every class K field and the live state stay in place; the late log and copies on their way are lost. -/
def State.loseKerb (s : State) : State :=
  ((s.loseRegs pdKerb).onKerb fun k => { k with lateLog := [] }).onKcopies fun _ => []

/-- The Mills of a quadrant with their SRAM. GLOBAL_AVAIL stays as it is (R36): what it counts for the quadrant is kept. -/
def State.loseQuad (s : State) (q : Nat) : State :=
  let ms := quadMills q
  let s := s.when (!bit s.pm.bist q) fun s => s.onPm fun p => { p with counted := Table.insert (Table.erase p.counted q) q (s.liveOf ms) }
  let s := ((s.onPm fun p => { p with bist := setBit p.bist q false }).loseRegs (pdMq q)).onMills (Table.keep fun m => m / 32 != q)
  s.each ms fun s m => s.zero (.mill m) 0 (2 ^ 36)

/-- PD_CW: the device leaves the ring. -/
def State.loseCw (s : State) : State := (s.loseRegs pdCw).onCw fun c => { agg := c.agg, frame := c.frame, failed := c.failed }

/-- What a domain loses. -/
def State.loseDomain (s : State) (d : Nat) : State :=
  if d = pdCtrl then s.loseCtrl
  else if d = pdHost then s.loseHost
  else if d = pdMem then s.loseMem
  else if d = pdAux then s.loseAux
  else if d = pdWla ∨ d = pdWlb then (s.each (wlPorts d) fun s p => s.losePort p).loseRegs d
  else if d = pdFul then s.loseFul
  else if d = pdKerb then s.loseKerb
  else if d = pdCw then s.loseCw
  else s.loseQuad (d - 8)

/-! ### Coming back -/

/-- A domain's bit of PM_STATUS.DOM_ON. -/
def State.setDom (s : State) (d : Nat) (on : Bool) : State := s.setBitOf .PM_STATUS_DOM_ON 0 d on

/-- The port of a Wayline port that is enabled starts again (R587). -/
def State.portBack (s : State) (p : Nat) : State := if s.flag .WL_CTRL_EN p then s.portStart p else s

/-- PCIE_WAKE_N is driven low at the end of the PD_HOST step (R506). -/
def State.hostBack (s : State) : State :=
  (s.onLink fun l => { l with cfgFrom := max l.cfgFrom s.raw, wakeLow := some s.raw }).emit (.pcieWake true)

/-- The reader starts anew with HB_CFG.EN = 1. DEDUCED: one in FAULT is in FAULT again, which it leaves only when HB_CFG.EN goes
from 0 to 1 (R123). -/
def State.auxBack (s : State) : State :=
  let s := s.trigResume
  (s.when (s.flag .HB_CFG_EN) fun s => s.emit (.carrier true)).hbState

/-- A subscription begins anew: tiles FRESH, maps clear, in the window that holds now, under its Spur's epoch. -/
def State.freshSub (s : State) (i : Nat) : State :=
  let w := s.nowUs / max 1 (s.winLen i)
  s.onSub i fun x => { spur := x.spur, dec := x.dec, cur := w, epoch := s.rd .ERR_EPOCH x.spur }

/-- Every enabled subscription stands in the window that holds now, its tiles FRESH and its maps clear (R183, R185). DEDUCED: it
keeps the decimation that admission gave it, which DEC_USED reports again. -/
def State.fulBack (s : State) : State :=
  s.each ((List.range 64).filter fun i => s.flag .SUB_EN i) fun s i => (s.freshSub i).wr .SUB_DEC_USED i (s.sub i).dec

/-- The carding units of PD_WLA or PD_WLB that were fenced return if their self-check passes (R542): `pass` where it is given;
the result of one run at a wake is a free value. -/
def State.cardBack (s : State) (d : Nat) (pass : Option Nat) : State :=
  if (wlPorts d).any fun u => Table.get false s.cardFenced u then
    let (v, s) := match pass with
      | some v => (v, s)
      | none => s.fresh 8
    s.onCardFenced (Table.keep fun u => !((wlPorts d).contains u && bit v u))
  else s

/-- The engine derives the keys, but not in QUARANTINE or with DBG_OPEN set (R370, R373, R383). -/
def State.keysDerive (s : State) : Bool := !s.flag .SEC_STAT_QUARANTINE && !s.flag .SEC_STAT_DBG_OPEN

/-- A domain has come on (Table PW-7): at the PD_CTRL step the keys are derived again. A port that the target leaves gated stays so. -/
def State.domainUp (s : State) (d : Nat) (pass : Option Nat := none) : State :=
  let s := s.setDom d true
  let s :=
    if d = pdHost then s.hostBack
    else if d = pdMem then s.chansRefresh
    else if d = pdCtrl then (s.put .SEC_STAT_KEYS_READY 0 s.keysDerive).chansRefresh
    else if d = pdAux then s.auxBack
    else if d = pdWla ∨ d = pdWlb then (s.cardBack d pass).each (wlPorts d) fun s p => if dropsPort s.pm.goal p then s else s.portBack p
    else if d = pdFul then s.fulBack
    else if d = pdCw then s.cwRefresh
    else if 8 ≤ d ∧ d < 12 then s.quadTest (d - 8)
    else s
  s.kerbUpdate

/-- The domain of a die temperature sensor; sensor 0 is in AON (Table EP-17). -/
def sensorDomain (k : Nat) : Option Nat := [none, some (pdMq 0), some (pdMq 1), some (pdMq 2), some (pdMq 3), some pdCtrl, some pdKerb, some pdCw][k]?.join

/-- A sensor is live. -/
def State.sensorLive (s : State) (k : Nat) : Bool := match sensorDomain k with | some d => s.domOn d | none => true

/-- A gated sensor reads 0; THERM_MAX is the highest live sensor, THERM_PEAK its highest value (Table EP-17). DEDUCED: of equal
sensors the lowest gives THERM_MAX. -/
def State.thermRefresh (s : State) : State :=
  let s := s.each ((List.range 8).filter fun k => !s.sensorLive k) fun s k => s.wr .THERM_TEMP k 0
  let m := ((List.range 8).map fun k => s.rd .THERM_TEMP k).foldl max 0
  let s := (s.wr .THERM_MAX 0 m).wr .THERM_MAX_SENSOR 0 (((List.range 8).find? fun k => s.rd .THERM_TEMP k == m).getD 0)
  s.wr .THERM_PEAK 0 (max (s.rd .THERM_PEAK) m)

/-- Isolation engages on a domain and its switches open. -/
def State.gateDomain (s : State) (d : Nat) : State := ((s.loseDomain d).setDom d false).thermRefresh

/-! ### The HOT reset (Table RP-1) -/

/-- RST_CAUSE and RST_COUNT of a device or HOT reset: kinds 1 to 6 in the rank order of R454. -/
def State.rstCause (s : State) (kind : Nat) : State :=
  ((s.count .RST_COUNT (kind - 1)).wr .RST_CAUSE_LAST 0 kind).setBitOf .RST_CAUSE_SEEN 0 (kind - 1)

/-- A HOT reset: PD_HOST, and an FLR of every Spur. One that arrives while a device reset waits is absorbed (R454). -/
def State.hotReset (s : State) : State :=
  if s.rst.waiting.isSome then s.count .RST_COUNT 5
  else if !s.domOn pdHost || !s.domOn pdCtrl then s
  else
    let s := s.rstCause 6
    let s := s.each (List.range 8) fun s sp => s.flrSpur sp
    (s.cwGone.loseHost).kerbUpdate

/-- HOT_RESET: a link that goes down in L2/L3 Ready is none (R504). -/
def execHotReset (s : State) : Out := if s.flag .HL_LINK_L2 then done s else done s.hotReset

end Sys2Proof.Machine
end

