-- ==== Sys2Proof/Machine/Host.lean ====
section
/-!
DEFINITION. The host link as the device sees it (`spec/17_host_and_memory.md` R488, R499 to R506): MSI-X masks, Bus Master
Enable and D-states, host DMA and its errors, L2 entry, PCIE_PERST_N and PCIE_WAKE_N, VF Enable.
-/
namespace Sys2Proof.Machine

/-- What waits on a function is sent, in order, once requests are allowed (R501). -/
def State.flushHeld (s : State) (f : Nat) : State :=
  if s.fnExists f && s.mayIssue f then
    let l := (s.fn f).held
    (s.onFn f fun x => { x with held := [] }).each l fun s p => s.request f p
  else s

/-- Every unmasked vector with its PBA bit set sends one message and clears the bit (R499). -/
def State.flushPba (s : State) (f : Nat) : State :=
  let x := s.fn f
  if !x.msixEn || x.fnMask then s
  else
    let vs := (bitList 32 x.pba).filter fun v => !bit x.vecMask v
    s.each vs fun s v => (s.onFn f fun y => { y with pba := setBit y.pba v false }).post f (.msix v)

/-- MSIX_UNMASK: a function's MSI-X enable, Function Mask and vector mask bits are written (R499). -/
def execMsixUnmask (f : Fin 8) (en fnMask : Bool) (vecMask : Word) (s : State) : Out :=
  if s.cfgOpen && s.fnExists f.val then
    done ((s.onFn f.val fun x => { x with msixEn := en, fnMask := fnMask, vecMask := vecMask.toNat }).flushPba f.val)
  else done s

/-- BUS_MASTER_ENABLE (R501). -/
def execBusMasterEnable (f : Fin 8) (en : Bool) (s : State) : Out :=
  if s.cfgOpen && s.fnExists f.val then done ((s.onFn f.val fun x => { x with bme := en }).flushHeld f.val) else done s

/-- D_STATE_CHANGE (R503): the return to D0 resets nothing. -/
def execDStateChange (f : Fin 8) (d3hot : Bool) (s : State) : Out :=
  if s.cfgOpen && s.fnExists f.val then
    done ((s.onFn f.val fun x => { x with d3hot := d3hot }).flushHeld f.val)
  else done s

/-- HOST_DMA_COMPLETION (R500): the data of a host read for a mailbox. -/
def execHostDmaCompletion (mb : Fin 64) (data : List Byte) (s : State) : Out :=
  if s.domOn pdHost && s.fnExists (mb.val / 8) then done (s.onHostIn fun t => Table.set [] t mb.val data) else done s

/-- A mailbox that serves becomes HALTED. -/
def State.haltMb (s : State) (mb : Nat) : State :=
  if s.rd .MB_STAT_STATE mb = 0 ∨ s.rd .MB_STAT_STATE mb = 6 then s else s.setMbState mb 5

/-- HOST_DMA_ERROR (R502): a descriptor fetch, an operand or output transfer, or a completion write has failed. -/
def execHostDmaError (mb : Fin 64) (what : DmaUse) (kind : Fin 5) (s : State) : Out :=
  let mb := mb.val
  if !s.domOn pdHost || !s.fnExists (mb / 8) || s.rd .MB_STAT_STATE mb == 0 then done s
  else
    let s := (s.count .HL_DMA_ERR kind.val).record (mb / 8) .hostDma mb [kind.val]
    match what with
    | .fetch =>
      let s := (s.put .MB_STAT_FETCH_ERR mb true).haltMb mb
      done (s.record (mb / 8) .mbFetch mb [s.rd .MB_SQ_HEAD mb])
    | .operand => done (((s.recoverMb mb).put .MB_STAT_FETCH_ERR mb true).haltMb mb)
    | .completion => done ((s.count .MB_CNT (6 * mb + 1)).haltMb mb)

/-- At L2 entry every IDE stream becomes Insecure, and every TDI in CONFIG_LOCKED or RUN moves to ERROR (R505). -/
def State.enterL2 (s : State) : State :=
  let s := s.put .HL_LINK_L2 0 true
  let s := s.onSec fun x => { x with ideSet := [] }
  s.each (List.range 8) fun s f =>
    let s := s.put .SPUR_STREAM f false
    if s.rd .SPUR_TDI f = 1 ∨ s.rd .SPUR_TDI f = 2 then s.tdiError f else s

/-- PME_TURN_OFF (R504): PME_TO_Ack is sent and the link enters L2/L3 Ready. -/
def execPmeTurnOff (s : State) : Out :=
  if s.domOn pdHost && !s.flag .HL_LINK_L2 then done (s.emit .pmeToAck).enterL2 else done s

/-- PCIE_WAKE_N is no longer driven low. -/
def State.wakeRelease (s : State) : State :=
  if s.link.wakeLow.isSome then (s.onLink fun l => { l with wakeLow := none }).emit (.pcieWake false) else s

/-- PCIE_PERST (R506): low takes the link down, which outside L2 is a HOT reset; high starts the 100 ms before configuration
requests. -/
def execPciePerst (low : Bool) (s : State) : Out :=
  if low then
    let s := s.onLink fun l => { l with perstLow := true }
    let l2 := s.flag .HL_LINK_L2
    let s := (s.wr .HL_LINK_SPEED 0 0).wr .HL_LINK_WIDTH 0 0
    done (if l2 then s else s.hotReset)
  else done (s.onLink fun l => { l with perstLow := false, cfgFrom := max l.cfgFrom (s.raw + 10 ^ 8) })

/-- PCIE_WAKE_TIMEOUT: after 1 s without L0 (R506). -/
def execPcieWakeTimeout (s : State) : Out :=
  match s.link.wakeLow with
  | some t => if t + 10 ^ 9 ≤ s.raw then done s.wakeRelease else done s
  | none => done s

/-- PCIE_LINK_UP: the link reaches L0 (R506). -/
def execPcieLinkUp (speed : BitVec 3) (width : BitVec 4) (s : State) : Out :=
  if s.domOn pdHost && !s.link.perstLow then
    done (((s.wr .HL_LINK_SPEED 0 speed.toNat).wr .HL_LINK_WIDTH 0 width.toNat).put .HL_LINK_L2 0 false).wakeRelease
  else done s

/-- VF_ENABLE_WRITE (R488): functions come into or go out of existence; what a function that goes held is gone with it. -/
def execVfEnableWrite (en : Bool) (num : Fin 8) (s : State) : Out :=
  if s.cfgOpen then
    let s := (s.onVfEnable fun _ => en).onNumVfs fun _ => num.val
    done (s.onFns (Table.keep fun f => f == 0 || (en && decide (f ≤ num.val))))
  else done s

end Sys2Proof.Machine
end

