-- ==== Sys2Proof/Machine/Power.lean ====
section
/-!
DEFINITION. The AON sequencer (`spec/15_power.md`): power requests, entries and wakes, rails, operating points, the supply
monitors' warning, residency. What passes with time is done by `State.pmTick`, one raw nanosecond at a time.
-/
namespace Sys2Proof.Machine

/-! ### Requests (R421 to R424, R436, R437, R504) -/

/-- The firmware's status PM_REFUSED (Table MB-3). -/
def stPmRefused : Nat := 0x26

/-- An enabled unit of PD_AUX (R421). -/
def State.auxBusy (s : State) : Bool :=
  s.flag .HB_CFG_EN || s.flag .ETH_STAT_LINK || (List.range 8).any (fun p => s.flag .SPI_CFG_EN p || s.flag .TRIG_CTRL_EN p) ||
    (List.range 4).any (fun c => s.flag .I3C_CFG_EN c)

/-- An UNUSED domain of a target that holds an enabled unit (R421). DEDUCED: ETH0 counts as enabled while its link is up. -/
def State.badUnused (s : State) (t : Nat) : Bool :=
  let u := tgUnused t
  let port := fun (l : List Nat) => l.any fun p => s.flag .WL_CTRL_EN p
  tgState t < 2 &&
    ((bit u 0 && s.auxBusy) || (bit u 1 && port (wlPorts pdWla)) || (bit u 2 && port (wlPorts pdWlb)) ||
      (bit u 3 && (List.range 64).any fun i => s.flag .SUB_EN i) || (bit u 4 && s.flag .CW_CFG_EN))

/-- A mailbox has a command in flight that is no PM_REQ (Table PW-3). -/
def State.othersInFlight (s : State) : Bool :=
  s.mail.cmds.any fun e => e.2.any fun c => c.op != opPmReq

/-- A request changes a domain of a rail whose domains take no further transition (R444). -/
def State.badRails (s : State) (t : Nat) : Bool := s.pm.railsBad &&& railsOf (domainsOf t ^^^ s.rd .PM_STATUS_DOM_ON) != 0

/-- The reason to refuse a request, in the order of Table PW-3, 0 for none. -/
def State.pmReason (s : State) (t : Nat) : Nat :=
  let ctrlOff := 2 ≤ tgState t
  if tgState t = 3 ∧ s.armed then 1
  else if ctrlOff && s.othersInFlight then 2
  else if bit s.mail.fenced 0 then 3
  else if s.badUnused t then 4
  else if s.badRails t then 7
  else if ctrlOff && !(s.channels 0).any (fun c => s.rd .MEM_STAT_STATE c != chFailed) then 8
  else 0

/-- No transition is in progress. -/
def State.pmIdle (s : State) : Bool := !s.flag .PM_STATUS_BUSY

/-- A request equals the current state. -/
def State.pmEqual (s : State) (t : Nat) : Bool :=
  s.pmIdle && tgState t == s.rd .PM_STATUS_CUR && domainsOf t == s.rd .PM_STATUS_DOM_ON && t == s.pm.home

/-- A held request turns PD_HOST off, so it waits for the link to reach L2 (R504). -/
def PmReq.needsL2 (r : PmReq) : Bool := !bit (domainsOf r.target) pdHost

/-- No admitted invocation uses a domain that a request turns off (R424). -/
def State.invsClear (s : State) (t : Nat) : Bool :=
  s.mail.invs.all fun v => (s.hb v.spur v.hb).domains &&& (s.rd .PM_STATUS_DOM_ON &&& (0x1FFF - domainsOf t)) == 0

/-- HL_L2.RDY follows the held requests: set, with vector 17, when the first of them waits for L2, the work of R424 is done and no
transition is in progress (R504). -/
def State.rdyRefresh (s : State) : State :=
  match s.pm.held with
  | r :: _ =>
    if r.needsL2 && s.pmIdle && s.domOn pdHost && s.invsClear r.target then
      if s.flag .HL_L2_RDY || s.flag .HL_LINK_L2 then s else (s.put .HL_L2_RDY 0 true).irq 0 17
    else s.put .HL_L2_RDY 0 false
  | [] => s.put .HL_L2_RDY 0 false

/-- A held request that waits for L2 is superseded by a new one, until PME_TO_Ack has been sent (R504). -/
def State.supersede (s : State) : State :=
  if s.flag .HL_LINK_L2 then s
  else
  let old := s.pm.held.filter PmReq.needsL2
  ((s.onPm fun p => { p with held := p.held.filter fun r => !r.needsL2 }).each old fun s r => s.endPm (some r) 5).rdyRefresh

/-- PM_REQ (R423): refused with its reason, completed at once, or held by the firmware until WAITP. -/
def execPmReq (mb : Fin 64) (tag : BitVec 16) (s : State) : Out :=
  s.runCmd mb tag opPmReq false fun s c =>
    let t := c.opw 0
    let r := s.pmReason t
    if r ≠ 0 then s.finish mb.val c stPmRefused r 0
    else
      let s := s.supersede
      if s.pmEqual t && s.pm.held.isEmpty then s.finish mb.val c 0 0 s.pmStatus
      else
        let s := s.begin_ mb.val c
        (s.onPm fun p => { p with held := p.held ++ [⟨mb.val, c.id, t, c.opw 1, c.opw 2⟩] }).rdyRefresh

/-! ### Entry (R426, R427, R441) -/

/-- The AON current in PARK in units of 0.1 mA (Table PW-8, R441), margin included. -/
def State.aonSum (s : State) (temp : Int) : Nat :=
  let cool := decide (temp ≤ 85) && decide (s.rd .PM_AON_CFG_TMAX ≤ 85)
  let base := if cool then 13 + 30 + 13 + 7 + 22 + 16 + 19 + 1 + 1 + 1 else 16 + 32 + 14 + 8 + 44 + 32 + 38 + 2 + 1 + 1
  base + 3 * popcount 2 (s.rd .PM_AON_CFG_REFS) + (if cool then 7 else 8) * popcount 8 (s.rd .PM_AON_CFG_WL_WAKE) +
    5 * popcount 4 (s.rd .PM_AON_CFG_CW_WAKE) + 10

/-- Retention words of a set of domains (Table PW-1; MST with PD_CTRL). -/
def retWords (doms : Nat) : Nat :=
  let per := [640 + 3072, 90, 300, 260, 90, 90, 140, 0, 40, 40, 40, 40, 120]
  ((bitList 13 doms).map fun d => (per[d]?).getD 0).sum

/-- PM_TARGET as a target word is put into its fields. -/
def State.setPmTarget (s : State) (t : Nat) : State :=
  (((s.wr .PM_TARGET_STATE 0 (tgState t)).wr .PM_TARGET_QOFF 0 (tgQoff t)).wr .PM_TARGET_SPORTS 0 (tgSports t)).wr
    .PM_TARGET_UNUSED 0 (tgUnused t)

/-- PM_WAKE and PM_WAKE_TIME of a request. -/
def State.setPmWake (s : State) (r : PmReq) : State :=
  let s := ((s.wr .PM_WAKE_STATE 0 (tgState r.wake)).wr .PM_WAKE_QOFF 0 (tgQoff r.wake)).wr .PM_WAKE_SPORTS 0 (tgSports r.wake)
  (s.wr .PM_WAKE_UNUSED 0 (tgUnused r.wake)).wr64 .PM_WAKE_TIME_LO .PM_WAKE_TIME_HI 0 r.time

/-- The transition of a request begins: an entry if it turns a domain off, else a raise. -/
def State.startReq (s : State) (r : PmReq) (drain : Nat) : State :=
  let doms := domainsOf r.target
  let leaving := s.rd .PM_STATUS_DOM_ON &&& (0x1FFF - doms)
  let s := s.onPm fun p => { p with req := some r }
  if leaving = 0 then s.startRaise r.target
  else
    let s := (s.wr .PM_STATUS_TGT 0 (tgState r.target)).put .PM_STATUS_BUSY 0 true
    s.onPm fun p =>
      { p with phase := .entering (s.raw + drain + 25 * retWords leaving), leaving := leaving, rose := 0, goal := r.target, wakeDue := false
               stalled := bit leaving pdCtrl }

/-- The pending slot takes a request; one that it replaces completes with reason 5 (R436). -/
def State.pendReq (s : State) (r : PmReq) : State :=
  let old := s.pm.pend
  let s := s.onPm fun p => { p with pend := some r, stalled := p.stalled || !bit (domainsOf r.target) pdCtrl }
  let s := (s.wr .PM_STATUS_PEND 0 (tgState r.target)).put .PM_STATUS_PEND_V 0 true
  s.when old.isSome fun s => s.endPm old 5

/-- The pending slot is emptied. -/
def State.clearPend (s : State) : State :=
  ((s.onPm fun p => { p with pend := none }).wr .PM_STATUS_PEND 0 0).put .PM_STATUS_PEND_V 0 false

/-- A target brings a domain on. -/
def State.addsDomain (s : State) (t : Nat) : Bool := domainsOf t &&& (0x1FFF - s.rd .PM_STATUS_DOM_ON) != 0

/-- NCC0 may hand a request over: admitted invocations no longer use the domains it turns off (R424), and a link that goes
with PD_HOST is in L2 (R427, R504). -/
def State.waitpReady (s : State) (r : PmReq) : Bool :=
  let leaving := s.rd .PM_STATUS_DOM_ON &&& (0x1FFF - domainsOf r.target)
  s.domOn pdCtrl && !bit s.mail.fenced 0 && !s.pm.stalled &&
    s.invsClear r.target &&
    (!bit leaving pdHost || s.flag .HL_LINK_L2)

/-- WAITP (R422, R426, R436, R437): the oldest request held is handed over. DEDUCED: PM_AON_EST shows the sum that R441 forms, at
a WAITP for PARK. -/
def execWaitp (temp : Int) (drain : Nat) (s : State) : Out :=
  let s := s.onPm fun p => { p with held := p.held.filter fun r => (s.cmdById r.mb r.id).isSome }
  match s.pm.held with
  | [] => done s
  | r :: rest =>
    if !s.waitpReady r then done s
    else
      let s := (s.onPm fun p => { p with held := rest }).put .HL_L2_RDY 0 false
      let park : Bool := tgState r.target == 3
      let s := if park then s.wr .PM_AON_EST 0 (s.aonSum temp) else s
      if park && s.armed then done (s.endPm (some r) 1)
      else if park && decide (150 < s.aonSum temp) then done (s.endPm (some r) 6)
      else
        let s := (s.setPmTarget r.target).setPmWake r
        if !s.pmIdle then
          if r.target = s.pm.goal then
            let old := s.pm.pend
            let s := s.clearPend.onPm fun p => { p with merged := p.merged ++ [r] }
            done (s.when old.isSome fun s => s.endPm old 5)
          else done (s.pendReq r)
        else if s.pmEqual r.target then done (s.endPm (some r) 0)
        else if s.kerb.bow && s.addsDomain r.target then done (s.pendReq r)
        else done (s.startReq r (min drain 5000))

/-! ### Reaching a state -/

/-- PM_DONE to NCC0, or to NCC1 when NCC0 is fenced (R422). -/
def State.pmDone (s : State) : State := s.emit (.coreSignal (if bit s.mail.fenced 0 then 1 else 0) 0)

/-- A transition ends in its state: CUR, LAST and the entry count; without a stalled NCC0 the requests complete. A port whose island
SENTRY had gated in a domain that stayed on starts again. -/
def State.pmReached (s : State) (last : Nat) : State :=
  let g := s.pm.goal
  let dropped := (List.range 8).filter fun p => dropsPort s.pm.home p && !dropsPort g p && s.domOn (wlDomain p) && !bit s.pm.rose (wlDomain p)
  let s := s.onPm fun p => { p with phase := .idle, leaving := 0, home := g }
  let s := ((s.wr .PM_STATUS_CUR 0 (tgState g)).wr .PM_STATUS_TGT 0 (tgState g)).put .PM_STATUS_BUSY 0 false
  let s := ((s.put .PM_STATUS_PNR 0 false).setLast last).count .PM_ENTRIES (tgState g)
  let s := if s.pm.stalled then s else s.pmDone.endPms 0
  (s.each dropped fun s p => s.portBack p).rdyRefresh.kerbUpdate

/-- The rails that no domain uses any more, of those that the device commands (R443). -/
def State.idleRails (s : State) : List Nat :=
  (bitList 5 (s.pm.railsOn &&& (31 - railsOf (s.rd .PM_STATUS_DOM_ON)))).filter fun r => s.flag .PM_RAIL_EN r

/-- What follows an entry once its rails are off: the domains that the same request adds, or the state, in which a wake
that is due starts at once (R432). -/
def State.entryDone (s : State) : State :=
  if s.addsDomain s.pm.goal then s.startRaise s.pm.goal
  else
    let s := s.pmReached 1
    if s.pm.wakeDue && tgState s.pm.home != 4 then (s.onPm fun p => { p with wakeDue := false }).startRaise s.wakeTarget else s

/-- The point of no return (R427): isolation engages on every leaving domain; ports that SENTRY does not keep lose their
islands. -/
def State.pointOfNoReturn (s : State) : State :=
  let ds := bitList 13 s.pm.leaving
  let s := s.put .PM_STATUS_PNR 0 true
  let g := s.pm.goal
  let s := if tgState g = 2 then
      s.each ((List.range 8).filter fun p => !bit (tgSports g) p && bit (domainsOf g) (wlDomain p)) fun s p => s.losePort p
    else s
  let s := s.each ds fun s d => s.gateDomain d
  (s.onPm fun p => { p with phase := .switching (s.raw + 5000 * ds.length) }).kerbUpdate

/-- The switches are open: the rails that feed nothing are commanded off (Table PW-4, step 6). -/
def State.switchesOpen (s : State) : State :=
  let rails := s.idleRails
  let s := s.onPm fun p => { p with phase := .railsOff }
  let s := s.each rails fun s r => s.commandRail r .off .on
  if rails.isEmpty then s.entryDone else s

/-- The wake step due now, if there is one: its domain comes on. While BOW holds none does (R448). -/
def State.wakeStep (s : State) : State :=
  match s.pm.steps with
  | (t, d) :: rest =>
    if t ≤ s.raw && !s.kerb.bow then (s.onPm fun p => { p with steps := rest }).domainUp d else s
  | [] => s

/-- The sequencer in one raw nanosecond: an armed Kerb keeps a pending PARK from starting (R438). -/
def State.pmSettle (s : State) : State :=
  match s.pm.phase with
  | .entering t => if t ≤ s.raw then s.pointOfNoReturn else s
  | .switching t => if t ≤ s.raw then s.switchesOpen else s
  | .waking => s.wakeStep
  | .idle =>
    match s.pm.pend with
    | some r =>
      if s.kerb.bow && s.addsDomain r.target then s
      else if tgState r.target = 3 ∧ s.armed then (s.clearPend.onPm fun p => { p with stalled := false }).endPm (some r) 1
      else
        let (d, s) := s.clearPend.fresh 12
        s.startReq r d
    | none => if s.pm.held.isEmpty then s else s.rdyRefresh
  | _ => s

/-- A residency counter in µs (R439). -/
def State.resCount (s : State) (k : Nat) : State := s.onPm fun p => { p with res := Table.upd 0 p.res k fun n => (n + 1) % 2 ^ 64 }

/-- The residency counters, once a microsecond. -/
def State.residency (s : State) : State :=
  if s.raw % 1000 ≠ 0 then s
  else
    let s := if s.pmIdle then (if s.rd .PM_STATUS_CUR < 4 then s.resCount (s.rd .PM_STATUS_CUR) else s) else s.resCount 4
    s.each (bitList 13 (s.rd .PM_STATUS_DOM_ON)) fun s d => s.resCount (5 + d)

/-- One raw nanosecond of the sequencer. -/
def State.pmTick (s : State) : State := s.pmSettle.residency

/-! ### Rails (R443, R444) -/

/-- The value a rail is commanded to, in mV; the fused AVS trim of a quadrant's voltage has no stated place, so that voltage
is a free value. -/
def State.railMv (s : State) (rail : Nat) (c : RailCmd) : Nat × State :=
  match c with
  | .off => (0, s)
  | _ => if rail = 0 then (750, s) else s.fresh 16

/-- MQ_OP commands that satisfy a test complete. -/
def State.opComplete (s : State) (p : Nat × Nat × Nat × Nat → Bool) (st detail : Nat) : State :=
  let mine := s.pm.opCmds.filter p
  let s := s.onPm fun x => { x with opCmds := x.opCmds.filter fun e => !p e }
  s.each mine fun s e => s.finishId e.2.2.1 e.2.2.2 st detail 0

/-- A quadrant's change of operating point ends: dispatch resumes, TEST tasks that waited begin, and its MQ_OP commands complete. -/
def State.opEnd (s : State) (q st detail : Nat) : State :=
  let s := (s.put .MQ_OP_BUSY q false).opComplete (fun e => e.1 == q) st detail
  s.each (quadMills q) fun s m => s.startTests m

/-- A step of a quadrant has reached a point: the commands that asked for it complete, and the change ends unless TARGET names
another point by now (R238). -/
def State.opReached (s : State) (q op : Nat) : State :=
  let s := s.setOp q op
  if s.rd .MQ_OP_TARGET q = op then s.opEnd q 0 0 else s.opComplete (fun e => e.1 == q && e.2.1 == op) 0 0

/-- A rail has reached what it was commanded to. -/
def State.railDone (s : State) (w : RailWait) : State :=
  match w.cmd with
  | .on => s.onPm fun p => { p with railsOn := setBit p.railsOn w.rail true }
  | .off => s.onPm fun p => { p with railsOn := setBit p.railsOn w.rail false }
  | .volt op => s.opReached (w.rail - 1) op

/-- The wait of a rail. -/
def State.railWait (s : State) (rail : Nat) : Option RailWait := s.pm.waits.find? fun w => w.rail == rail

/-- A wait ends. -/
def State.dropWait (s : State) (w : RailWait) : State := s.onPm fun p => { p with waits := p.waits.filter (· != w) }

/-- A wait of the transition in progress. -/
def RailWait.ofTransition (w : RailWait) : Bool :=
  !w.restoring && (match w.cmd with | .volt _ => false | _ => true)

/-- What follows once the transition waits for no rail. -/
def State.railsReady (s : State) : State :=
  if s.pm.waits.any RailWait.ofTransition then s
  else match s.pm.phase with
    | .railsOff => s.entryDone
    | .railsOn => if s.kerb.bow then s else s.onPm fun p => { p with phase := .waking, steps := wakeSteps s.raw p.rose }
    | _ => s

/-- RAIL_ACK (R443): the old value of an aborted step restored leaves the rail at its old point (R444). -/
def execRailAck (rail : Fin 5) (s : State) : Out :=
  match s.railWait rail.val with
  | none => done s
  | some w =>
    let s := s.dropWait w
    if w.restoring then
      match w.cmd with
      | .volt op => done (s.setOp (rail.val - 1) op)
      | .on => done (s.onPm fun p => { p with railsOn := setBit p.railsOn rail.val true })
      | .off => done (s.onPm fun p => { p with railsOn := setBit p.railsOn rail.val false })
    else done ((s.railDone w).railsReady)

/-- A transition is aborted by a rail (R444): a wake or a raise leaves the device in its old state; an entry past its point
of no return comes back to its old state by a wake (DEDUCED). -/
def State.abortRails (s : State) : State :=
  let raise : Bool := s.pm.phase == .railsOn
  let s := s.onPm fun p => { p with waits := p.waits.filter fun w => !w.ofTransition, steps := [] }
  if raise then
    let s := s.onPm fun p => { p with phase := .idle }
    let s := (s.put .PM_STATUS_BUSY 0 false).wr .PM_STATUS_TGT 0 (s.rd .PM_STATUS_CUR)
    if s.pm.stalled then s else s.endPms 7
  else
    let home := s.pm.home
    (s.put .PM_STATUS_PNR 0 false).startRaise home |>.endPms 7

/-- RAIL_ACK_TIMEOUT (R444), 2 ms after the command: one retry, then the abort with the old value commanded once more; if that
fails too, the rail's domains run at the safe clock. -/
def execRailAckTimeout (rail : Fin 5) (s : State) : Out :=
  match s.railWait rail.val with
  | none => done s
  | some w =>
    if s.raw < w.since + 2000000 then done s
    else if w.tries < 2 ∧ w.restoring = false then
      done ((s.onPm fun p =>
        { p with waits := p.waits.map fun x => if x = w then { x with tries := 2, since := s.raw } else x }).emit (.railCommand rail.val w.cmd))
    else
      let s := s.dropWait w
      if w.restoring then
        let s := s.onPm fun p => { p with railsBad := setBit p.railsBad rail.val true }
        done (if rail.val = 0 then s else s.setOp (rail.val - 1) 3)
      else
        let s := (s.setBitOf .PM_REGSTAT_FAIL 0 rail.val).setLast 3
        let (mv, s) := s.railMv rail.val w.cmd
        let s := s.record 0 .regFail rail.val [mv]
        let s := match w.cmd with
          | .volt _ => s.opEnd (rail.val - 1) stPmRefused 7
          | _ => s.abortRails
        done ((s.onPm fun p => { p with waits := p.waits ++ [⟨rail.val, w.old, 2, w.old, true, s.raw⟩] }).emit
          (.railCommand rail.val w.old))

/-! ### Wakes (R431 to R435, R441) -/

/-- WAKE_HOSTPIN. -/
def execWakeHostpin (s : State) : Out := done (s.raiseWake 0)

/-- PM_WAKE_TIME. -/
def State.wakeTime (s : State) : Nat := s.rd64 .PM_WAKE_TIME_LO .PM_WAKE_TIME_HI

/-- WAKE_TIMER: a time of 0 is none. -/
def execWakeTimer (s : State) : Out := if s.wakeTime ≠ 0 ∧ s.wakeTime ≤ s.now then done (s.raiseWake 1) else done s

/-- WAKE_WLPORT: a kept port in SENTRY and during its entry, a watched one in PARK and during its entry (Table PW-6). -/
def execWakeWlport (p : Fin 8) (s : State) : Out :=
  let t := if s.pmIdle then s.pm.home else s.pm.goal
  let watched := if tgState t = 3 then s.rd .PM_AON_CFG_WL_WAKE else tgSports t
  if bit watched p.val then done (s.raiseWake 3) else done s

/-- WAKE_CWLIGHT: an in-port in CW_WAKE. -/
def execWakeCwlight (p : Fin 4) (s : State) : Out :=
  if bit (s.rd .PM_AON_CFG_CW_WAKE) p.val then done (s.raiseWake 4) else done s

/-- AON_THERM: in PARK the die temperature rises above TMAX. -/
def execAonTherm (temp : Int) (s : State) : Out := if (s.rd .PM_AON_CFG_TMAX : Int) < temp then done (s.raiseWake 7) else done s

/-- AON_ILIM. -/
def execAonIlim (s : State) : Out := done (s.raiseWake 7)

/-- The Spurs whose class S settings lie in a domain (R429). -/
def State.spursIn (s : State) (d : Nat) : List Nat :=
  if d = pdCtrl then (List.range 8).filter s.hasRes
  else if d = pdWla ∨ d = pdWlb then (List.range 8).filter fun sp => (wlPorts d).any fun p => s.holdsPort sp p
  else if d = pdFul then (List.range 8).filter fun sp => (List.range 64).any fun i => s.ownSub sp i
  else if 8 ≤ d ∧ d < 12 then
    (List.range 8).filter fun sp => (List.range 8).any fun k => s.holdsQuad sp (8 * (d - 8) + k)
  else [0]

/-- A retention group failed its check (R429): the domain stays at its reset values, a record goes to Spur 0, and the Spurs
whose settings were in it fault. Which of PD_CTRL's two groups it was is a free value. -/
def State.retFail (s : State) (d : Nat) : State :=
  let sps := s.spursIn d
  let s := s.lose fun r i => r.domain i == some d && r.spec.cls != .K && r.spec.cls != .F && !r.staysGated && !r.millHealth
  let (g, s) := if d = pdCtrl then s.fresh 1 else (0, s)
  (s.record 0 .retErr d [g]).each sps fun s sp => s.spurTrigger sp 3

/-- What the firmware does after a wake of PD_CTRL (R430, R435; a Spur that holds a FAILED channel is FAULTED, R547): its state
and mailboxes are back, every enabled queue is reset, fetching resumes, and the device watchdog starts a full PERIOD (R456). -/
def State.ctrlBack (s : State) : State :=
  let s := s.setNgx s.pm.ngx
  let s := s.each ((List.range 512).filter fun q => s.flag .EQ_CFG_EN q) fun s q => s.eqReset q 2
  let s := s.each (List.range 64) fun s mb =>
    if s.flag .MB_CFG_EN mb && s.rd .MB_STAT_STATE mb == 0 then s.setMbState mb 1 else s
  let s := (s.each (List.range 8) fun s sp =>
    if bit s.sec.held sp then (s.wr .SPUR_STATE sp 3).wr .ERR_FAULT_CODE sp 1 else s.spurRefresh sp).chansRefresh
  ((s.onRst fun r => { r with kick := s.raw }).onPm fun p => { p with stalled := false }).mbWake

/-- The last domain of a wake or raise is on, and the last quadrant's self-test has ended (Table PW-7). -/
def State.wakeOver (s : State) : Bool := s.pm.phase == .waking && s.pm.steps.isEmpty && s.pm.bist &&& s.pm.rose / 2 ^ 8 == 0

/-- WAKE_COMPLETE (R429, R435). -/
def execWakeComplete (badGroups : BitVec 13) (s : State) : Out :=
  if !s.wakeOver then done s
  else
    let woke : Bool := 2 ≤ s.rd .PM_STATUS_CUR
    let bad := bitList 13 (badGroups.toNat &&& s.pm.rose)
    let back := bit s.pm.rose pdCtrl
    let s := s.each bad fun s d => s.retFail d
    let s := s.when back State.ctrlBack
    done (s.pmReached (if !bad.isEmpty then 5 else if woke then 4 else 1))

/-! ### Operating points (R239, R240, R445) -/

/-- MQ_OP. A slower point at which a deadline budget fails is delayed (R240). -/
def execMqOp (mb : Fin 64) (tag : BitVec 16) (s : State) : Out :=
  s.runCmd mb tag 0x61 false fun s c =>
    let q := bits (c.opw 0) 0 2
    let op := bits (c.opw 0) 2 2
    if bit s.pm.railsBad (q + 1) then s.finish mb.val c stPmRefused 7 0
    else
      let s := s.begin_ mb.val c
      if s.rd .MQ_OP_CUR q < op && !s.opAllowed q op then
        s.onPm fun p => { p with opHeld := p.opHeld ++ [(q, op, mb.val, c.id)] }
      else s.opGo q op mb.val c.id

/-- No task runs and no transfer is in flight in a quadrant. -/
def State.quadIdle (s : State) (q : Nat) : Bool :=
  ((List.range 32).map (32 * q + ·)).all fun m => (s.mill m).run.isEmpty && (s.mill m).chans.isEmpty

/-- OPPOINT_SWITCH (R239, R445): the clock falls before the voltage; the voltage rises before the clock, and not while BOW
holds (R448). -/
def execOppointSwitch (q : Fin 4) (s : State) : Out :=
  let q := q.val
  let op := s.rd .MQ_OP_TARGET q
  let cur := s.rd .MQ_OP_CUR q
  if !s.flag .MQ_OP_BUSY q || !s.domOn (pdMq q) || !s.quadIdle q || (s.railWait (q + 1)).isSome then done s
  else if op < cur ∧ s.kerb.bow = true then done s
  else if op = cur then done (s.opEnd q 0 0)
  else if !s.flag .PM_RAIL_EN (q + 1) then done (s.opReached q op)
  else if cur < op then done ((s.setOp q op).commandRail (q + 1) (.volt op) (.volt cur))
  else done (s.commandRail (q + 1) (.volt op) (.volt cur))

/-! ### Supply warnings and alerts (R446 to R449) -/

/-- The VDD_CORE monitor is masked from the command that turns the rail off until its acknowledgement on wake (R447). -/
def State.monMasked (s : State) (rail : Nat) : Bool :=
  rail == 0 && (!bit s.pm.railsOn 0 || s.pm.waits.any fun w => w.rail == 0 && w.cmd != .on && !w.restoring)

/-- BOW_CROSSING (R448). -/
def execBowCrossing (rail : Fin 3) (s : State) : Out :=
  if s.monMasked rail.val then done s
  else
    let s := (s.setBitOf .PM_MON_BOW 0 rail.val).setBitOf .PM_MON_BOW_SEEN 0 rail.val
    let s := (s.put .PM_MON_BOW_HOLD 0 true).onKerb fun k => { k with bow := true }
    let s := s.each ((List.range 4).filter fun q => s.domOn (pdMq q)) fun s q => s.setOp q 3
    done ((s.emit (.coreSignal 0 1)).record 0 .bow rail.val [0]).kerbUpdate

/-- BOW_END (R449): the stop is withdrawn, held steps go on, and each quadrant returns to its operating point. -/
def execBowEnd (s : State) : Out :=
  if !s.flag .PM_MON_BOW_HOLD then done s
  else
    let s := ((s.wr .PM_MON_BOW 0 0).put .PM_MON_BOW_HOLD 0 false).onKerb fun k => { k with bow := false }
    let s := s.each ((List.range 4).filter fun q => s.domOn (pdMq q) && s.rd .MQ_OP_CUR q != s.rd .MQ_OP_TARGET q)
      fun s q => s.put .MQ_OP_BUSY q true
    let s := match s.pm.phase with
      | .railsOn => s.railsReady
      | .waking => s.onPm fun p => { p with steps := wakeSteps s.raw ((p.steps.map Prod.snd).foldl (fun a d => setBit a d true) 0) }
      | _ => s
    done s.kerbUpdate

/-- PMB_ALERT (R446): outside a transition a fault of a quadrant's rail gates the quadrant; its Mills leave their Spurs' sets
without a fault. The STATUS_WORD is a free value. -/
def execPmbAlert (rail : Fin 5) (fault : Bool) (s : State) : Out :=
  if !s.pmIdle || !fault || rail.val = 0 || !s.domOn (pdMq (rail.val - 1)) then done s
  else
    let q := rail.val - 1
    let sps := s.spursIn (pdMq q)
    let (w, s) := s.fresh 16
    let s := (s.setBitOf .PM_REGSTAT_FAULT 0 rail.val).gateDomain (pdMq q)
    let s := s.opEnd q stPmRefused 7
    done ((s.record 0 .regFault rail.val [w]).each (sps.filter (· != 0)) fun s sp => s.recordTo sp 0 .regFault rail.val [w])

end Sys2Proof.Machine
end

