-- ==== Sys2Proof/Machine/Stored.lean ====
section
/-!
DEFINITION. Boot flash and stored calibration (`spec/16_reset_and_persistence.md` R462, R463, R475 to R486): the directory, the
banks and their records, the hold-up check, and the store.
-/
namespace Sys2Proof.Machine

/-! ### The directory (Table RP-4) -/

/-- `n` little-endian bytes of the flash. -/
def State.flashLe (s : State) (a n : Nat) : Nat := s.ldLe .flash a n

/-- BANK_SIZE and the base of a bank. -/
def State.bankSize (s : State) : Nat := s.flashLe 40 4
def State.bankBase (s : State) (b : Bool) : Nat := s.flashLe (if b then 36 else 32) 4

/-- The regions that the directory names, with the directory itself. -/
def State.flashRegions (s : State) : List (Nat × Nat) :=
  [(0, 64), (s.flashLe 8 4, s.flashLe 12 4), (s.flashLe 16 4, s.flashLe 20 4), (s.flashLe 24 4, s.flashLe 28 4),
    (s.bankBase false, s.bankSize), (s.bankBase true, s.bankSize)]

/-- Two regions overlap. -/
def overlaps (a b : Nat × Nat) : Bool := 0 < a.2 && 0 < b.2 && a.1 < b.1 + b.2 && b.1 < a.1 + a.2

/-- A directory with a bad MAGIC, FMT or DCRC, or with overlapping regions (R463). -/
def State.dirBad (s : State) : Bool :=
  let r := s.flashRegions
  s.flashLe 0 4 != 0x1A7ED1B0 || s.flashLe 4 2 != 1 || s.flashLe 60 4 != crc32 (s.ldBytes .flash 0 60) ||
    (List.range 6).any fun i => (List.range i).any fun j => overlaps ((r[i]?).getD (0, 0)) ((r[j]?).getD (0, 0))

/-! ### Records (R476, Table RP-8) -/

/-- The records of a payload: type and value; none where it does not end exactly. -/
def calTlvs : Nat → List Byte → Option (List (Nat × List Byte))
  | _, [] => some []
  | 0, _ => none
  | n + 1, t :: _ :: l0 :: l1 :: rest =>
    let len := l0.toNat + 256 * l1.toNat
    if rest.length < len then none
    else (calTlvs n (rest.drop len)).map fun m => (t.toNat, rest.take len) :: m
  | _, _ => none

/-- The words of a KERB_CFG record with their offsets. -/
def kerbWords (v : List Byte) : List (Nat × Nat) := kerbCfgOffsets.zipIdx.map fun p => (p.1, leAt v (1 + 4 * p.2) 4)

/-- A record that R117 allows: a known type in its length and range, or a skippable one. -/
def calRecOk (e : Nat × List Byte) : Bool :=
  match e.1 with
  | 0x01 => e.2.length == 1 + 4 * kerbCfgOffsets.length && (reservedIn (kerbWords e.2)).isNone
  | 0x08 => e.2.length == 192
  | 2 | 3 | 4 | 5 | 6 | 7 => true
  | t => 0x80 ≤ t

/-- The records of a payload that parses. -/
def calRecs (l : List Byte) : Option (List (Nat × List Byte)) :=
  match calTlvs l.length l with
  | none => none
  | some r => if r.all calRecOk && (r.map Prod.fst).dedup.length == r.length then some r else none

/-- The phase codes of a CW_TRIM record (Table RP-8). -/
def trimCodes (r : List (Nat × List Byte)) : Option (List Nat) :=
  if r.any fun e => e.1 == 8 then some ((List.range 96).map fun i => leAt (tlvVal r 8) (2 * i) 2) else none

/-! ### Banks (R475, R477, R478) -/

/-- The payload of a bank. -/
def State.bankPayload (s : State) (b : Bool) : List Byte := s.ldBytes .flash (s.bankBase b + 256) (s.flashLe (s.bankBase b + 12) 4)

/-- The SEQ and records of a bank, if it is valid (R477). -/
def State.bank (s : State) (b : Bool) : Option (Nat × List (Nat × List Byte)) :=
  let a := s.bankBase b
  let h := s.ldBytes .flash a 32
  let seq := leAt h 8 4
  let len := leAt h 12 4
  let c := a + s.bankSize - 8
  if leAt h 0 4 == 0x7C3AB4E1 && leAt h 4 2 == 1 && byteAt h 6 == (if b then 1 else 0) && leAt h 28 4 == crc32 (h.take 28) &&
      1 ≤ seq && seq ≤ 0xFFFFFFFE && len + 264 ≤ s.bankSize && leAt h 16 4 == crc32 (s.bankPayload b) && s.flashLe c 4 == seq &&
      s.flashLe (c + 4) 4 == 0xC3A55A3C then
    (calRecs (s.bankPayload b)).map fun r => (seq, r)
  else none

/-- The active bank (R477): 0 A, 1 B, 2 NONE. -/
def State.activeBank (s : State) : Nat :=
  match s.bank false, s.bank true with
  | some a, some b => if a.1 < b.1 then 1 else 0
  | some _, none => 0
  | none, some _ => 1
  | none, none => 2

/-- The records of the active bank. -/
def State.activeRecs (s : State) : List (Nat × List Byte) :=
  match s.activeBank with
  | 0 => ((s.bank false).map Prod.snd).getD []
  | 1 => ((s.bank true).map Prod.snd).getD []
  | _ => []

/-- The inactive bank is neither valid nor fully erased (R478). -/
def State.bankPartial (s : State) : Bool :=
  let b : Bool := s.activeBank == 0 || s.activeBank == 2
  (s.bank b).isNone && (s.ldBytes .flash (s.bankBase b) s.bankSize).any fun x => x != 0xFF

/-- CAL_STAT and CAL_SEQ as a boot finds the banks. -/
def State.loadBanks (s : State) : State :=
  let act := s.activeBank
  let seq := match (if act = 1 then s.bank true else s.bank false) with | some x => x.1 | none => 0
  let tie : Bool := match s.bank false, s.bank true with | some a, some b => a.1 == b.1 | _, _ => false
  (((s.wr .CAL_STAT_ACTIVE 0 act).put .CAL_STAT_PARTIAL 0 s.bankPartial).put .CAL_STAT_SEQ_TIE 0 tie).wr .CAL_SEQ 0 seq

/-! ### The hold-up check (R479, R480) -/

/-- The energy in the hold-up capacitor in mJ, rounded down: V = code × 0.3 mV × DIV ÷ 16. -/
def State.holdUp (s : State) (code : Nat) : Nat :=
  let v := 3 * code * s.rd .HU_CFG_DIV
  let m := 160 * s.rd .HU_CFG2_VMIN
  if v ≤ m ∨ s.kerb.bow = true then 0 else s.rd .HU_CFG_CAP * (v ^ 2 - m ^ 2) / (2 * 10 ^ 9 * 25600)

/-- The energy that `us` microseconds of a store need, in mJ, rounded up. -/
def State.holdUpReq (s : State) (us : Nat) : Nat :=
  ceilDiv (s.rd .HU_CFG2_PSTORE * us * (100 + s.rd .HU_CFG3_MARGIN)) (10 ^ 8)

/-- A value into a field; one that does not fit leaves a value that the spec does not state. -/
def State.wrFit (s : State) (r : Reg) (v : Nat) : State :=
  if v < 2 ^ r.spec.width then s.wr r 0 v
  else
    let (x, s) := s.fresh r.spec.width
    s.wr r 0 x

/-- One hold-up check: its energies, and the registers that show it. -/
def State.holdUpCheck (s : State) (code us : Nat) : Nat × Nat × State :=
  let e := s.holdUp code
  let q := s.holdUpReq us
  (e, q, ((s.wr .HU_MEAS_CODE 0 code).wrFit .HU_ENERGY_E e).wrFit .HU_ENERGY_E_REQ q)

/-! ### The store (R481 to R485) -/

/-- The 4 KiB sector that holds the commit block, and the others that the header or payload occupies. -/
def commitSector (size : Nat) : Nat := (size - 8) / 4096
def dataSectors (size len : Nat) : List Nat := (List.range (ceilDiv (256 + len) 4096)).filter (· != commitSector size)

/-- The pages that the payload occupies. -/
def dataPages (page len : Nat) : List Nat := (List.range (ceilDiv (256 + len) page)).filter fun i => 256 < (i + 1) * page && 0 < len

/-- t_max of a store in µs (R480). -/
def storeUs (t : FlashTimes) (size len : Nat) (trim : Bool) : Nat :=
  (1 + (dataSectors size len).length) * t.sectorUs * t.factor +
    ((dataPages (max 1 t.page) len).length + 2) * t.pageUs * t.factor + 1000 + (if trim then 500 * 96 else 0)

/-- The header of a bank (Table RP-7). -/
def bankHeader (b : Bool) (seq : Nat) (payload : List Byte) : List Byte :=
  let h := leBytes 4 0x7C3AB4E1 ++ leBytes 2 1 ++ [if b then 1 else 0, 0] ++ leBytes 4 seq ++ leBytes 4 payload.length ++
    leBytes 4 (crc32 payload) ++ leBytes 8 0
  h ++ leBytes 4 (crc32 h)

/-- The commit block of a bank. -/
def bankCommit (seq : Nat) : List Byte := leBytes 4 seq ++ leBytes 4 0xC3A55A3C

/-- The operations of a step: sectors to erase, or pages to program. -/
def StoreSt.ops (x : StoreSt) (step : Nat) : List Nat :=
  match step with
  | 1 => [commitSector x.size]
  | 2 => dataSectors x.size x.payload.length
  | 3 => dataPages x.page x.payload.length
  | 4 | 6 => [0]
  | _ => []

/-- The bytes that the operation in progress writes, and where. -/
def StoreSt.target (x : StoreSt) : Nat × List Byte :=
  let n := (x.todo.head?).getD 0
  match x.step with
  | 1 | 2 => (x.base + 4096 * n, List.replicate 4096 0xFF)
  | 3 =>
    let lo := max 256 (n * x.page)
    (x.base + lo, (x.payload.drop (lo - 256)).take ((n + 1) * x.page - lo))
  | 4 => (x.base, bankHeader x.bankB x.seq x.payload)
  | _ => (x.base + x.size - 8, bankCommit x.seq)

/-- The operation in progress does not end as it should: the bytes that it wrote to hold free values. -/
def State.storeTorn (s : State) (x : StoreSt) : State :=
  let t := x.target
  let (l, s) := s.freshBytes t.2.length
  s.stBytes .flash t.1 l

/-- A store is cut short by a reset or a power failure: nothing is reported (R483, R485). -/
def State.storeCut (s : State) : State :=
  match s.rst.store with
  | none => s
  | some x => (s.storeTorn x).onRst fun r => { r with store := none }

/-- A store ends (Table RP-9, R485); DEDUCED: no step is in progress then. -/
def State.storeEnd (s : State) (x : StoreSt) (out : Nat) : State :=
  let new := out == 0 || out == 4
  let s := s.onRst fun r => { r with store := none }
  let s := ((s.put .CAL_STAT_BUSY 0 false).wr .CAL_STAT_STEP 0 0).wr .CAL_STAT_OUT 0 out
  let s := if new then
      ((s.wr .CAL_STAT_ACTIVE 0 (if x.bankB then 1 else 0)).wr .CAL_SEQ 0 x.seq).onRst fun r => { r with flashSet := x.settings }
    else s
  s.finishId x.mb x.id 0 0 (s.rd .CAL_SEQ + out * 2 ^ 32)

/-- Step 8: the trim codes go into the phase-change cells; cells that do not read back hold free values. -/
def State.storeTrim (s : State) (x : StoreSt) (cells : Bool) : State :=
  match (calRecs x.payload).bind trimCodes with
  | none => s.storeEnd x 0
  | some codes =>
    let s := s.wr .CAL_STAT_STEP 0 8
    if s.kerb.bow then s.storeEnd x 4
    else if cells then (s.onRst fun r => { r with cells := codes }).storeEnd x 0
    else
      let (l, s) := s.freshBytes 192
      (s.onRst fun r => { r with cells := (List.range 96).map fun i => leAt l (2 * i) 2 }).storeEnd x 4

/-- The store enters a step of R482, or passes over one with nothing to do; BOW stops it before its next operation (R484).
DEDUCED: with the commit block programmed, BOW leaves the bank as its read-back shows it. -/
def State.storeStep (s : State) (x : StoreSt) (cells : Bool) : Nat → Nat → State
  | 0, _ => s
  | n + 1, step =>
    let x := { x with step := step, todo := x.ops step }
    let s := s.wr .CAL_STAT_STEP 0 step
    if step = 5 then
      if s.ldBytes .flash x.base 32 = bankHeader x.bankB x.seq x.payload ∧
          s.ldBytes .flash (x.base + 256) x.payload.length = x.payload then s.storeStep x cells n 6
      else s.storeEnd x 2
    else if step = 7 then
      if s.ldBytes .flash (x.base + x.size - 8) 8 = bankCommit x.seq then s.storeTrim x cells else s.storeEnd x 2
    else if x.todo = [] then s.storeStep x cells n (step + 1)
    else if s.kerb.bow then s.storeEnd x 1
    else s.onRst fun r => { r with store := some x }

/-- CAL_STORE (R481): the checks in the order of their codes, the hold-up check last. DEDUCED: with a bad directory there is no
bank size to exceed. -/
def execCalStore (mb : Fin 64) (tag : BitVec 16) (payload : List Byte) (settings : List RegSet) (code : BitVec 12)
    (times : FlashTimes) (s : State) : Out :=
  s.runCmd mb tag 0x78 true fun s c =>
    let no := fun (r : Nat) => s.finish mb.val c 0x2A r 0
    let active := s.rd .CAL_STAT_ACTIVE
    let size := s.bankSize
    let bad := s.dirBad
    if s.rst.store.isSome then no 1
    else if active ≠ 2 ∧ s.rd .CAL_SEQ = 0xFFFFFFFE then no 2
    else if bad = false ∧ size < payload.length + 264 then no 3
    else match calRecs payload with
      | none => no 4
      | some recs =>
        if bad then no 5
        else
          let (e, q, s) := s.holdUpCheck code.toNat (storeUs times size payload.length (trimCodes recs).isSome)
          if e < q then s.finish mb.val c 0x27 (q - e) 0
          else
            let b : Bool := active != 1
            let x : StoreSt :=
              { mb := mb.val, id := c.id, payload := payload, settings := settings, bankB := b, base := s.bankBase b, size := size
                seq := if active = 2 then 1 else s.rd .CAL_SEQ + 1, page := max 1 times.page, step := 1, todo := [] }
            ((s.begin_ mb.val c).put .CAL_STAT_BUSY 0 true).storeStep x false 9 1

/-- FLASH_OP_COMPLETE (R482, R484). -/
def execFlashOpComplete (ok good cells : Bool) (s : State) : Out :=
  match s.rst.store with
  | none => done s
  | some x =>
    if !ok then done ((s.storeTorn x).storeEnd x 3)
    else
      let s := if good then s.stBytes .flash x.target.1 x.target.2 else s.storeTorn x
      match x.todo with
      | _ :: y :: rest =>
        let x := { x with todo := y :: rest }
        if s.kerb.bow then done (s.storeEnd x 1) else done (s.onRst fun r => { r with store := some x })
      | _ => done (s.storeStep x cells 9 (x.step + 1))

end Sys2Proof.Machine
end

