-- ==== Sys2Proof/Machine/Boot.lean ====
section
/-!
DEFINITION. Fuses, straps and boots (`spec/16_reset_and_persistence.md` R457 to R474, R478, R486, Tables RP-2 to RP-6;
`spec/18_aux_signals.md` R530, R535; `spec/19_faults_and_recovery.md` Table FR-5): what a cold and a warm device reset lose, and
what the boots that follow them do.
-/
namespace Sys2Proof.Machine

/-! ### Fuses (R469 to R474) -/

/-- The majority of three copies (R470). -/
def majority (a b c : Word) : Nat := ((a &&& b) ||| (a &&& c) ||| (b &&& c)).toNat

/-- What the latches hold of a sensed word: its majority value, and whether a bit is marginal or discordant (R469). -/
def fuseLatch (w : FuseWord) : Nat :=
  let marg : Bool := w.nA != w.tA || w.nB != w.tB || w.nC != w.tC
  let disc : Bool := !(w.nA == w.nB && w.nB == w.nC)
  majority w.nA w.nB w.nC + (if marg then 2 ^ 32 else 0) + (if disc then 2 ^ 33 else 0)

/-- The latches of a fuse read. -/
def senseFuses (l : List FuseWord) : Table Nat := l.foldl (fun t w => Table.set 0 t w.word.val (fuseLatch w)) []

/-- The words with a marginal or discordant bit, in ascending order. -/
def flaggedWords (t : Table Nat) : List Nat := (t.filter fun e => 2 ^ 32 ≤ e.2).map Prod.fst

/-- The fused part, stepping, identity and policy (Tables SC-7 and RP-6). -/
def State.takeFused (s : State) (f : FusedId) : State :=
  let s := ((s.wr .GLOBAL_ID_PART 0 f.part.toNat).wr .GLOBAL_ID_STEP_MAJ 0 f.stepMaj.toNat).wr .GLOBAL_ID_STEP_MIN 0 f.stepMin.toNat
  let s := (s.wr64 .SEC_SERIAL_LO .SEC_SERIAL_HI 0 f.serial.toNat).wr64 .SEC_KIT_ID_LO .SEC_KIT_ID_HI 0 f.kitId.toNat
  let s := ((s.wr .SEC_KIT_SIZE 0 f.kitSize.toNat).put .SEC_STAT_KIT_PRESENT 0 f.kitPresent).put .SEC_STAT_CW_POLICY 0 f.cwPolicy
  let s := (s.put .SEC_STAT_DBG_OPEN 0 f.dbgOpen).wr64 .ETH_MAC_LO .ETH_MAC_HI 0 f.mac.toNat
  s.onKerb fun k => { k with safeStrict := f.safeStrict }

/-- The cold fuse read (R471 to R473). -/
def State.coldFuses (s : State) (f : BootFacts) : State :=
  let t := senseFuses f.fuses
  let sec := (flaggedWords t).any (· < 64)
  let ns := (flaggedWords t).filter (64 ≤ ·)
  let s := (s.takeFused f.fused).onRst fun r => { r with fuses := t }
  let s := (s.wr .FUSE_TEMP_TCOLD 0 f.temp.toNat).put .FUSE_STAT_SEC_MARG 0 sec
  ((s.put .SEC_STAT_QUARANTINE 0 sec).wr .FUSE_STAT_NS_COUNT 0 ns.length).wr .FUSE_STAT_NS_FIRST 0 ((ns.head?).getD 0)

/-- The warm fuse read at PIN (R474): the latches stay. -/
def State.warmFuses (s : State) (f : BootFacts) : State :=
  let t := senseFuses f.fuses
  match (List.range 512).find? fun w => Table.get 0 t w != Table.get 0 s.rst.fuses w with
  | none => s
  | some w =>
    let s := (s.put .FUSE_STAT_FUSE_DRIFT 0 true).wr .FUSE_STAT_DRIFT_WORD 0 w
    (s.wr .FUSE_TEMP_TWARM 0 f.temp.toNat).record 0 .fuseDrift w [f.temp.toNat]

/-! ### Straps (R535, Table RP-5 step 1) -/

/-- The straps are latched. -/
def State.takeStraps (s : State) (f : BootFacts) : State :=
  let s := (s.wr .GLOBAL_ID_DEVID 0 f.devid.toNat).wr .GLOBAL_ID_ROLE 0 f.role.toNat
  s.put .STRAP_UNSTABLE 0 f.strapUnstable

/-- The Wayclock PLL takes the reference that is present, REF_CTRL.PREF first (R40, Table RP-5 step 3); with neither, the internal
oscillator drives the counter, REF_NONE is set and the code is FREE. -/
def State.takeRefs (s : State) (f : BootFacts) : State :=
  let selB := if f.refA && f.refB then s.flag .REF_CTRL_PREF else f.refB
  let s := (s.put .TIME_STAT_REF_NONE 0 (!f.refA && !f.refB)).put .TIME_STAT_REFSEL 0 selB
  let s := (s.when (!f.refA) fun s => s.put .TIME_STAT_LOS_A 0 true).when (!f.refB) fun s => s.put .TIME_STAT_LOS_B 0 true
  s.wr .TIME_STAT_TQ 0 3

/-! ### The ROM (R456, R462 to R464, R371, R373) -/

/-- Every boot: the watchdog runs, the SFDP tables and the directory are read; false where the boot stops. -/
def State.romStart (s : State) (f : BootFacts) : Bool × State :=
  let s := (s.put .RST_WDT_EN 0 true).onRst fun r => { r with kick := s.raw, wdtHeld := false }
  if !f.sfdpOk then (false, s.put .XSPI_SFDP_BAD 0 true)
  else if s.dirBad then (false, (s.put .XSPI_SFDP_BAD 0 false).put .BOOT_STAT_DIR_BAD 0 true)
  else (true, (s.put .XSPI_SFDP_BAD 0 false).put .BOOT_STAT_DIR_BAD 0 false)

/-- The image is taken from flash: A, else B with BOOT_B; false where neither verifies (R464). -/
def State.flashImage (s : State) (f : BootFacts) : Bool × State :=
  let ok := f.imgA || f.imgB
  (ok, (s.put .BOOT_STAT_IMG_BAD 0 (!ok)).put .RST_CAUSE_BOOT_B 0 (!f.imgA && f.imgB))

/-- A boot that stops (R463, R464): FAILED, and after three in a row the watchdog is stopped. Only PD_CTRL and PD_KERB are on. -/
def State.bootFails (s : State) : State :=
  let n := satAdd 2 (s.rd .RST_CAUSE_FAILS) 1
  let s := (s.wr .RST_CAUSE_FAILS 0 n).wr .PM_STATUS_DOM_ON 0 (2 ^ pdCtrl + 2 ^ pdKerb)
  ((s.onRst fun r => { r with wdtHeld := n == 3 }).setNgx 3).kerbUpdate

/-- The security engine derives its keys and checks the certificate (R371, R373, R383). -/
def State.deriveKeys (s : State) (f : BootFacts) : State :=
  (s.put .SEC_STAT_KEYS_READY 0 s.keysDerive).put .SEC_STAT_CERT_BAD 0 f.certBad

/-! ### Ngabex starts -/

/-- The control cores after their self-test (R15, R36): a core that fails is fenced, its sibling serves its mailboxes, and a Spur with
no live core has none served (R348). -/
def State.coresUp (s : State) (fail : Nat) : State :=
  let s := (s.onMail fun m => { m with fenced := fail }).wr .NGX_CORES_MIG 0 0
  let s := s.each ((bitList 16 fail).filter fun c => !bit fail (sibling c)) fun s c => s.setBitOf .NGX_CORES_MIG 0 (sibling c)
  s.each ((List.range 8).filter fun sp => bit fail (2 * sp) && bit fail (2 * sp + 1)) fun s sp => s.spurDies sp

/-- The registers that name the firmware; NGX_BUILD of an image is a free value. -/
def State.ngxRegs (s : State) (f : BootFacts) : State :=
  let (b, s) := s.fresh 32
  (((s.wr .NGX_VER 0 f.ngxVer.toNat).wr .NGX_IF 0 0x100).wr .NGX_BUILD 0 b).wr .NGX_CORES_LIVE 0 (0xFFFF - s.mail.fenced)

/-- What every boot that succeeds ends with: the domains come on, what is enabled starts afresh, fenced carding units return if
their self-check passes, and READY or QUARANTINE is reported (R349, R465). -/
def State.bootUp (s : State) (f : BootFacts) : State :=
  let s := s.wr .PM_STATUS_DOM_ON 0 0x1FFF
  let s := s.onCardFenced (Table.keep fun u => !bit f.cardPass.toNat u)
  let s := s.chansRefresh.millSpurs
  let s := s.each (List.range 8) fun s p => s.portBack p
  let s := s.each ((List.range 512).filter fun q => s.flag .EQ_CFG_EN q) fun s q => s.eqStart q
  let s := s.each ((List.range 64).filter fun mb => s.flag .MB_CFG_EN mb) fun s mb => (s.mbRings mb).setMbState mb 1
  let s := (((s.fulBack.auxBack.cwRefresh.coresUp f.coreFail.toNat).loadAvail f.teFail f.millFail)).ngxRegs f
  let s := (s.each (List.range 8) fun s sp => s.spurRefresh sp).wr .RST_CAUSE_FAILS 0 0
  ((s.setNgx (if s.flag .SEC_STAT_QUARANTINE then 2 else 1)).mbWake).kerbUpdate

/-! ### Cold boot (Table RP-5) -/

/-- The state that a cold reset leaves: everything is lost but the flash, the trim cells, the pins and whether a carding unit is
fenced. The raw counter starts at 0. -/
def State.coldClear (s : State) : State :=
  let s := (s.storeCut.wr .PM_STATUS_DOM_ON 0 0).kerbUpdate
  let k := s.kerb
  let z : State :=
    { free := s.free, tx := s.tx, pending := s.pending, recSeq := s.recSeq, supply := s.supply, cardFenced := s.cardFenced
      mem := s.mem, rst := { resetLow := s.rst.resetLow, cells := s.rst.cells }, link := { perstLow := s.link.perstLow }
      kerb := { estopA := k.estopA, estopB := k.estopB, fbA := k.fbA, fbB := k.fbB, forcedOff := k.forcedOff } }
  (z.onMem (Table.keep fun a => Space.flash.base ≤ a)).wr .PM_STATUS_DOM_ON 0 0

/-- The Kerb configuration is taken from its record, and armed with AUTO_ARM: at once on a standalone device, else once the MAP
is formed (R467). -/
def State.bootKerb (s : State) : State :=
  if s.activeRecs.any fun e => e.1 == 1 then
    let v := tlvVal s.activeRecs 1
    let s := s.each (kerbWords v) fun s p => (s.applyWord (.fw 0) p.1 p.2).2
    if !bit (byteAt v 0) 0 then s
    else if s.standalone then s.armKerb.2
    else s.onRst fun r => { r with armDue := true }
  else s

/-- The through-path cells are compared with the active bank's codes, and rewritten if the hold-up check passes (R486). -/
def State.bootTrim (s : State) (f : BootFacts) : State :=
  match trimCodes s.activeRecs with
  | none => s
  | some codes =>
    let same := if s.rst.cells = [] then f.cellsMatch else s.rst.cells == codes
    if same then s.onRst fun r => { r with cells := codes }
    else
      let s := s.put .CAL_STAT_TRIM_PEND 0 true
      let (e, q, s) := s.holdUpCheck f.huCode.toNat (500 * 96)
      if e < q then s
      else if f.cellsTake then s.onRst fun r => { r with cells := codes }
      else
        let (l, s) := s.freshBytes 192
        s.onRst fun r => { r with cells := (List.range 96).map fun i => leAt l (2 * i) 2 }

/-- A cold boot of a device that a cold reset has cleared. -/
def State.coldBoot (s : State) (f : BootFacts) : State :=
  let s := s.onRst fun r => { r with waiting := none }
  let s := s.each f.flash fun s c => s.stBytes .flash c.1.toNat c.2
  let s := (((s.takeStraps f).coldFuses f).takeRefs f).wr .PM_STATUS_DOM_ON 0 (2 ^ pdCtrl + 2 ^ pdKerb)
  match s.romStart f with
  | (false, s) => s.bootFails
  | (true, s) =>
    match s.flashImage f with
    | (false, s) => s.bootFails
    | (true, s) =>
      let s := (s.deriveKeys f).loadBanks
      let s := s.onRst fun r => { r with flashSet := if s.rd .CAL_STAT_ACTIVE = 2 then [] else f.settings }
      let s := s.lose fun r _ => r.spec.src == .flash
      let s := s.each ((List.range 5).filter fun r => s.flag .PM_RAIL_EN r) fun s r => s.emit (.railCommand r .on)
      let s := (s.onMemCap fun _ => s.rd .MEM_CFG_CAP).wr .PM_STATUS_DOM_ON 0 0x1FFF
      let s := s.hostBack.chansRefresh
      let s := s.each (bitList 8 f.trainFail.toNat) fun s c => s.chanFail c 1
      ((s.bootKerb.bootTrim f).bootUp f)

/-! ### Warm device reset (Tables RP-2 and RP-3, R457 to R461) -/

/-- What a PIN, WDT or SOFT reset loses: all class V outside the REG and MST groups, and what no register holds, in every domain
but PD_KERB, which loses its late log alone. Classes F, K, T, P and S stay, and the epoch of every Spur rises. FAILED channels
are still told until the boot. The Hatboxes are no longer loaded. A device in SENTRY or PARK, or in a transition, is in RUN after it
(R458): the rails that are off are commanded on. -/
def State.warmLose (s : State) : State :=
  let s := s.storeCut
  let failed := (List.range 8).filter fun c => s.rd .MEM_STAT_STATE c == chFailed
  let s := s.each ((List.range 13).filter (· != pdKerb)) fun s d => s.loseDomain d
  let s := (s.loseKerb.lose fun r _ => r.volatile).onMs fun _ => {}
  let s := s.each failed fun s c => s.wr .MEM_STAT_STATE c chFailed
  let s := s.onMail fun m =>
    { hbs := m.hbs.map fun e => (e.1, if e.2.loaded then ({ gen := (e.2.gen + 1) % 256 } : Hatbox) else e.2), nextId := m.nextId }
  let s := s.onSec fun _ => {}
  let off := (bitList 5 (31 - s.pm.railsOn)).filter fun r => s.flag .PM_RAIL_EN r
  let s := ((s.each off fun s r => s.emit (.railCommand r .on)).onCw fun c => { c with failed := false }).onPm fun p => { res := p.res }
  let s := s.onTime fun t => { t with rcShown := 0 }
  let s := (((s.wr .PM_STATUS_CUR 0 0).wr .PM_STATUS_TGT 0 0).wr .PM_STATUS_PEND 0 0).put .PM_STATUS_PEND_V 0 false
  let s := (s.put .PM_STATUS_BUSY 0 false).put .PM_STATUS_PNR 0 false
  let s := s.each (List.range 8) fun s sp => (s.raiseEpoch sp).wr .TRK_NEXTID sp 1
  (s.wr .PM_STATUS_DOM_ON 0 (2 ^ pdKerb)).kerbUpdate

/-- The journal cannot be replayed: every Spur starts as after its own FLR, keeping its assignment (R461). -/
def State.journalLost (s : State) (why : Nat) : State :=
  let s0 := s
  let s := s.each (List.range 8) fun s sp => (s.flrMs sp).lose fun r i => s0.flrTakes sp r i
  (s.put .RST_CAUSE_S_LOST 0 true).record 0 .sLost 0 [why]

/-- The boot that follows a warm device reset (R466). -/
def State.warmBoot (s : State) (pin : Bool) (f : BootFacts) : State :=
  let s := s.onRst fun r => { r with waiting := none }
  let s := s.when pin fun s => s.warmFuses f
  match s.romStart f with
  | (false, s) => s.bootFails
  | (true, s) =>
    let chan := (s.channels 0).any fun c => s.rd .MEM_STAT_STATE c != chFailed
    let (copy, s) := if chan then s.fresh 1 else (0, s)
    match (if copy = 1 then (true, s.put .BOOT_STAT_IMG_BAD 0 false) else s.flashImage f) with
    | (false, s) => s.bootFails
    | (true, s) =>
      let s := (s.deriveKeys f).put .RST_CAUSE_S_LOST 0 false
      let s := if !chan then s.journalLost 1 else if !f.journalOk then s.journalLost 0 else s
      let s := s.clearRange .MEM_STAT_STATE 8
      let s := s.onLink fun l => { l with cfgFrom := max l.cfgFrom (s.raw + 10 ^ 8), wakeLow := none }
      s.bootUp f

end Sys2Proof.Machine
end

