-- ==== Sys2Proof/Machine/Reset.lean ====
section
/-!
DEFINITION. The resets (`spec/16_reset_and_persistence.md` R452 to R458, Table RP-1), the device watchdog, and the straps
sampled again (`spec/18_aux_signals.md` R536).
-/
namespace Sys2Proof.Machine

/-- A cold reset of a kind (1 POR, 2 BOR): the settings are lost, and its cause is recorded. -/
def State.coldReset (s : State) (kind : Nat) : State := s.coldClear.rstCause kind

/-- The boot of a cold reset follows at once, or once RESET_N is high (R455). -/
def State.coldGo (s : State) (kind : Nat) (f : BootFacts) : State :=
  if s.rst.resetLow then s.onRst fun r => { r with waiting := some (kind - 1) } else s.coldBoot f

/-- POR: THERMTRIP_N is released (R564). -/
def execPor (facts : BootFacts) (resetLow : Bool) (s : State) : Out := checked facts.wf <|
  let s := (s.onSupply fun x => { x with trip := false }).onRst fun r => { r with resetLow := resetLow }
  let s := s.onKerb fun k => { k with forcedOff := s.supply.v33Lost }
  done ((s.coldReset 1).coldGo 1 facts)

/-- BOR_CROSSING (R450): the outputs take their unpowered states. One that arrives during a POR or BOR is absorbed (R454). -/
def execBorCrossing (rail : Fin 3) (s : State) : Out :=
  if s.monMasked rail.val || s.inOff then done s
  else
    let low := setBit s.pm.bor rail.val true
    let mark := fun (s : State) => s.onPm fun p => { p with bor := low }
    match s.rst.waiting with
    | some 0 => done (mark (s.count .RST_COUNT 1))
    | some 1 => done (mark (s.count .RST_COUNT 1))
    | _ => done (mark ((s.coldReset 2).onRst fun r => { r with waiting := some 1 }))

/-- BOR_END: the boot follows, unless RESET_N is low (R455). -/
def execBorEnd (facts : BootFacts) (s : State) : Out := checked facts.wf <|
  let s := s.onPm fun p => { p with bor := 0 }
  match s.rst.waiting with
  | some 0 => done (if s.rst.resetLow then s else s.coldBoot facts)
  | some 1 => done (if s.rst.resetLow then s else s.coldBoot facts)
  | _ => done s

/-- A warm reset of a kind (3 PIN, 4 WDT, 5 SOFT): absorbed by a reset of equal or higher rank that waits. -/
def State.warmReset (s : State) (kind : Nat) (after : State → State) : State :=
  if s.inOff then s
  else if s.resetWaits then s.count .RST_COUNT (kind - 1)
  else after (s.rstCause kind).warmLose

/-- PIN_RESET: what the reset takes is gone; the boot waits for RESET_N to rise (Table RP-2, step 5). -/
def execPinReset (s : State) : Out :=
  if s.rst.resetLow then done s
  else
    let s := s.onRst fun r => { r with resetLow := true }
    done (s.warmReset 3 fun s => s.onRst fun r => { r with waiting := some 2 })

/-- RESET_N_RELEASE: a boot that waited for it runs, if no rail is below BOR; in OFF it is a POR (Table RP-1). -/
def execResetNRelease (facts : BootFacts) (s : State) : Out := checked facts.wf <|
  let off := s.inOff
  let s := s.onRst fun r => { r with resetLow := false }
  if off then done ((s.coldReset 1).coldGo 1 facts)
  else match s.rst.waiting with
    | some 2 => done (s.warmBoot true facts)
    | some _ => done (if s.pm.bor = 0 then s.coldBoot facts else s)
    | none => done s

/-- The device watchdog has run out (R456). -/
def State.wdtDue (s : State) : Bool :=
  s.flag .RST_WDT_EN && !s.rst.wdtHeld && s.domOn pdCtrl && !s.pm.stalled && s.rst.kick + s.rd .RST_WDT_PERIOD * 10 ^ 7 ≤ s.raw

/-- WDT_EXPIRY. -/
def execWdtExpiry (facts : BootFacts) (s : State) : Out := checked facts.wf <|
  if s.wdtDue then done (s.warmReset 4 fun s => s.warmBoot false facts) else done s

/-- A SOFT reset. -/
def State.softReset (s : State) (f : BootFacts) : State := s.warmReset 5 fun s => s.warmBoot false f

/-- SOFT_RESET. -/
def execSoftReset (who : Agent) (facts : BootFacts) (s : State) : Out := checked facts.wf <|
  match s.letIn who .RST_CTRL_SOFT 0 with
  | .error s => done s
  | .ok s => done (s.softReset facts)

/-- DOMAIN_RESET: PD_CTRL, and PD_KERB while armed, are refused (Table RP-10). A number that Table PW-1 does not give, and a
domain that is gated, leave nothing to reset. -/
def execDomainReset (who : Agent) (d : BitVec 4) (cardPass : BitVec 8) (s : State) : Out :=
  match s.letIn who .RST_DOM_GO 0 with
  | .error s => done s
  | .ok s =>
    let d := d.toNat
    if d = pdCtrl || (d == pdKerb && s.armed) then done (s.put .RST_DOM_ERR 0 true)
    else if 13 ≤ d || !s.domOn d then done s
    else done (((s.count .RST_COUNT 7).loseDomain d).domainUp d (some cardPass.toNat))

/-- RST_WDT_KICK: any live core of Spur 0. -/
def execRstWdtKick (who : Agent) (s : State) : Out :=
  match s.letIn who .RST_WDT_KICK 0 with
  | .error s => done s
  | .ok s =>
    match who with
    | .fw c => if c.val < 2 ∧ bit s.mail.fenced c.val = false then done (s.onRst fun r => { r with kick := s.raw }) else done s
    | .host _ _ => done s

/-- STRAP_RESAMPLE (R536): every sample that differs from the latched straps is reported. -/
def execStrapResample (devid : BitVec 4) (role : BitVec 2) (s : State) : Out :=
  if s.inOff || s.resetWaits then done s
  else
    let live := devid.toNat + 16 * role.toNat
    let s := s.wr .STRAP_LIVE 0 live
    if live = s.rd .GLOBAL_ID_DEVID + 16 * s.rd .GLOBAL_ID_ROLE then done s
    else done ((s.put .STRAP_CHG 0 true).record 0 .strapChg 0 [live])

end Sys2Proof.Machine
end

