-- ==== Sys2Proof/Machine/Faults.lean ====
section
/-!
DEFINITION. Failed carding units and shared islands, and the read side of the error rings
(`spec/19_faults_and_recovery.md` R537 to R543).
-/
namespace Sys2Proof.Machine

/-! ### Carding units (R542) -/

/-- HEAD_LEAVE of a run that a fenced unit leaves behind, held by the bank, unless its HEAD_JOIN is still pending (R157): PARAM
bit 31, and the stamp of the last event record written for the run or of its HEAD_JOIN. -/
def State.bankLeave (s : State) (slot : Nat) : State :=
  match (s.slot slot).run, s.route slot with
  | some r, some q =>
    let s := s.segmentDue q
    if !s.eqRuns q || (s.card (unitOfSlot slot)).pend.any (fun p => p.slot == slot && p.sub == subJoin) then s
    else
      (s.onEq q fun e => { e with leaves := e.leaves ++ [pendRec s.recSeq q slot subLeave (r.lastStamp + 2 ^ 31) false] }).onRecSeq (· + 1)
  | _, _ => s

/-- A carding unit fails and is fenced: causes 1 clock, 2 parity, 3 handshake. DEDUCED: an enabled slot without a run has no
HEAD_LEAVE; what the unit itself held is lost, but for the tables that the firmware reloads when it returns. -/
def State.cardFail (s : State) (u cause : Nat) : State :=
  if !s.cardLive u then s
  else
    let slots := (List.range 32).map (32 * u + ·)
    let s := (s.onCardFenced fun t => Table.set false t u true).record2 (s.portOwner u) .cardFail u [cause]
    let s := s.each slots fun s i => s.bankLeave i
    let s := s.each slots fun s i =>
      (s.onSlot i fun x => { x with run := none, decCount := 0, stopped := none, reloaded := false }).put .SLOT_STAT_UNF i false
    (s.onCard u fun c => { c with inbox := [], pend := [], act := [] }).kerbUpdate

/-- CARD_UNIT_FAULT. -/
def execCardUnitFault (u : Fin 8) (parity : Bool) (s : State) : Out := done (s.cardFail u.val (if parity then 2 else 1))

/-- CARD_HANDSHAKE_TIMEOUT. -/
def execCardHandshakeTimeout (u : Fin 8) (s : State) : Out := done (s.cardFail u.val 3)

/-! ### Shared islands (R543) -/

/-- The bit of an island of PD_FUL in `fulFenced`, or the code of an island of PD_CTRL in ERR_DEVFAULT (Table FR-9). -/
def sharedPlace : SharedIsland → Bool × Nat
  | .fuller => (true, 0) | .projectors => (true, 1) | .ego => (true, 2) | .tracker => (true, 3)
  | .milestone => (false, 1) | .batts => (false, 2) | .bank0 => (false, 3) | .bank1 => (false, 4)
  | .mailboxes => (false, 5) | .security => (false, 6) | .router => (false, 7)

/-- Cause codes of Tables FR-2 and FR-9. -/
def causeCode : IslandCause → Nat
  | .clock => 1 | .parity => 2 | .handshake => 3

/-- A Spur has an enabled subscription, a Projector, an enabled Ego slot or a Tracker range in an island of PD_FUL. DEDUCED: a
Projector has no enable of its own and counts for the Spur it is assigned to. -/
def State.usesIsland (s : State) (k sp : Nat) : Bool :=
  match k with
  | 0 => (List.range 64).any fun i => s.ownSub sp i
  | 1 => (List.range 16).any fun i => s.rd .PRJ_SPUR i == sp
  | 2 => (List.range 256).any fun i => s.flag .EGO_CTRL_EN i && s.portOwner (i / 32) == sp
  | _ => s.rd .TRK_COUNT sp != 0

/-- An island of PD_FUL is fenced, and the Spurs that use it fault with code 4. The island codes of SHARED_FAIL are not stated
for these: a free value. DEDUCED: the record goes to Spur 0 and to every Spur that faults. -/
def State.fulFail (s : State) (k cause : Nat) : State :=
  if !s.domOn pdFul || bit s.fulFenced k then s
  else
    let sps := (List.range 8).filter fun sp => s.usesIsland k sp
    let (u, s) := s.fresh 16
    let s := (s.onFulFenced fun m => setBit m k true).recordTo 0 0 .sharedFail u [cause]
    let s := s.each (sps.filter (· != 0)) fun s sp => s.recordTo sp 0 .sharedFail u [cause]
    s.each sps fun s sp => s.spurTrigger sp 4

/-- A core of Spur 0 can issue the SOFT reset. -/
def State.softCore (s : State) : Bool := s.ngxServing && !s.pm.stalled && bits s.mail.fenced 0 2 != 3

/-- SHARED_UNIT_FAULT. -/
def execSharedUnitFault (i : SharedIsland) (cause : IslandCause) (facts : BootFacts) (s : State) : Out := checked facts.wf <|
  match sharedPlace i with
  | (true, k) => done ((s.fulFail k (causeCode cause)).kerbUpdate)
  | (false, k) =>
    if !s.domOn pdCtrl then done s
    else
      let s := (s.wr .ERR_DEVFAULT_ISLAND 0 k).wr .ERR_DEVFAULT_CAUSE 0 (causeCode cause)
      done (if s.softCore then s.softReset facts else s)

/-! ### ERR_POP (R539) -/

/-- The 32 bytes of a record (Table FR-1). -/
def ErrRec.bytes (r : ErrRec) : List Byte :=
  leBytes 2 r.typ.code.1 ++ leBytes 1 r.typ.code.2 ++
    leBytes 1 (r.spur + (if r.copy then 8 else 0) + (if r.lost then 16 else 0)) ++ leBytes 2 r.epoch ++ leBytes 2 r.unit ++
    leBytes 8 r.stamp ++ r.detail.flatMap (leBytes 4)

/-- Words into ERR_REC. -/
def State.setErrRec (s : State) (sp : Nat) (l : List Byte) : State :=
  s.each (List.range 8) fun s i => s.wr .ERR_REC (8 * sp + i) (leAt l (4 * i) 4)

/-- ERR_POP: the oldest record goes to ERR_REC; an empty ring answers 0. -/
def execErrPop (who : Agent) (sp : Fin 8) (s : State) : Out :=
  let sp := sp.val
  match s.admitRead who .ERR_POP_VALID sp with
  | .error s => done s
  | .ok s =>
    match (s.errRing sp).recs with
    | [] => done ((s.setErrRec sp (List.replicate 32 0)).emit (.readData who 0))
    | r :: rest =>
      let s := s.onErrs fun e => Table.upd {} e sp fun g => { g with recs := rest }
      done ((s.setErrRec sp r.bytes).emit (.readData who (1 + 2 * rest.length)))

end Sys2Proof.Machine
end

