-- ==== Sys2Proof/Machine/Supply.lean ====
section
/-!
DEFINITION. VDD_3V3 and the die temperature (`spec/20_electrical_and_package.md` R561, R564, Table EP-17): the drivers of the
safety outputs are off whatever the Kerb commands.
-/
namespace Sys2Proof.Machine

/-- The drivers follow the supply conditions. -/
def State.driversRefresh (s : State) : State :=
  (s.onKerb fun k => { k with forcedOff := s.supply.v33Lost || s.supply.trip }).kerbUpdate

/-- VDD_3V3_LOSS (R561). -/
def execVdd3v3Loss (s : State) : Out := done (s.onSupply fun x => { x with v33Lost := true }).driversRefresh

/-- VDD_3V3_RETURN. -/
def execVdd3v3Return (s : State) : Out := done (s.onSupply fun x => { x with v33Lost := false }).driversRefresh

/-- The reading, in °C + 64, at which the device trips. -/
def tripReading : Nat := 125 + 64

/-- THERMTRIP (R564): a reading of a live sensor; at 125 °C or more THERMTRIP_N is asserted until the next POR. -/
def execThermtrip (sensor : Fin 8) (reading : Byte) (s : State) : Out :=
  if s.inOff || !s.sensorLive sensor.val then done s
  else
    let s := (s.wr .THERM_TEMP sensor.val reading.toNat).thermRefresh
    if reading.toNat < tripReading then done s
    else
      let s := s.when (!s.supply.trip) fun s => s.emit .thermtripN
      done (s.onSupply fun x => { x with trip := true }).driversRefresh

end Sys2Proof.Machine
end

