-- ==== Sys2Proof/Machine/RegisterWrite.lean ====
section
/-!
DEFINITION. Register accesses as a whole: REGISTER_WRITE with what the chapters attach to a change of a field (R3, R490 to
R496), the words that show another part of the state, and RC_FIELD_READ (R491).
-/
namespace Sys2Proof.Machine

/-! ### What a change of a field brings with it -/

/-- A field as a word written at an offset would leave it. -/
def State.asWritten (s : State) (off w : Nat) (r : Reg) (i : Nat) : Nat :=
  match (hitsAt off).find? fun h => h.reg == r && h.idx == i with
  | some h => h.value w
  | none => s.rd r i

/-- A write that the owner of the register refuses whole: one of a deadline slot by a core that is not Spur 0's (R314); DL, WIN,
ACT, VSET or SPUR of an ARMED slot, which counts DL_BUSY (R315), a new owner of a Milestone while waiters are present (R584), a
register of R302 for a Spur with a job or an open window, pool settings of R264 and R269, a row of the Spur table that R363 to
R365 or R380 refuses, track ranges of R294, and grid heights that do not rise, which are a reserved encoding (R11, R283). -/
def State.refusedWrite (s : State) (who : Agent) (off w : Nat) : Option State :=
  match who with
  | .host _ _ => none
  | .fw core =>
    if 0x70000 ≤ off ∧ off < 0x74000 then
      if 2 ≤ core.val then some s
      else if s.rd .SLOT_CTRL_STATE ((off - 0x70000) / 16) = 1 then some (s.count .KRB_CNT 6) else none
    else if 0x300000 ≤ off ∧ off < 0x308000 ∧ off % 0x20 = 8 then
      let ms := (off - 0x300000) / 0x20
      if s.rd .MS_CFG_WAITERS ms ≠ 0 ∧ bits w 1 3 ≠ s.rd .MS_CFG_OWNER ms then some s else none
    else if s.ftHeld off then some s
    else if 0x500000 ≤ off ∧ off < 0x500800 ∧ s.spurWordBad ((off - 0x500000) / 0x100) off (s.asWritten off w) then some s
    else if poolSetting off && s.poolRefuses (s.asWritten off w) s.spurCap then some s
    else if 0x18E000 ≤ off ∧ off < 0x18E800 ∧ trkClash (s.asWritten off w) ((off - 0x18E000) / 0x100) then some s
    else if s.zRsv (hitsAt off) w then some (s.record 0 .regRsvd (regionOf off) [off])
    else none

/-- A subscription's EN changes: enabled, it is fresh and belongs to the Spur of the writer; disabled, it holds nothing
(R169, R585). -/
def State.subEnChange (s : State) (who : Agent) (i : Nat) (en : Bool) : State :=
  let sp := match who with | .fw c => c.val / 2 | .host _ _ => 0
  if en then (s.onSub i fun x => { x with spur := sp, dec := s.rd .SUB_DEC_USED i }).freshSub i
  else s.onFul fun x => { x with subs := Table.erase x.subs i }

/-- A new base pose ends the suspension of a head (R292). -/
def State.newPose (s : State) (slot : Nat) : State := if 2 ≤ s.rd .EGO_STAT_STATE slot then s.egoUnconv slot else s

/-- The grid of a Spur is laid out anew: every tile of both buffers is to be cleared (R287). -/
def State.gridAnew (s : State) (sp : Nat) : State := s.onGrid sp fun g => { g with dirty0 := none, dirty1 := none }

/-- What follows from the value that a write has given a field: `old` is the value before. -/
def State.fieldHook (s : State) (who : Agent) (h : Hit) (old : Nat) : State :=
  let i := h.idx
  let v := s.rd h.reg i
  let changed := v != old
  match h.reg with
  | .CAL_BR => s.newPose (i / 9)
  | .CAL_BT => s.newPose (i / 3)
  | .HB_CFG_MOD => s
  | r =>
    if !changed then s
    else match r with
      | .CH_CFG_EN => if v = 1 then s.onChain i fun _ => {} else s
      | .ZONE_TH_STOP | .ZONE_TH_SLOW | .ZONE_BW | .ZONE_EN => s.zoneSettings i
      | .HT_QUOTA =>
        let s := s.headsRefresh (i / 32)
        if s.rd .HT_STATE i = 0 then s else s.mgmtSend (i / 32) (cfgWr (i % 32) 4 v)
      | .SLOT_BAF_BLK => (s.onCard (unitOfSlot i) fun c => { c with act := dropSlot c.act i }).tblRefresh (unitOfSlot i)
      | .SLOT_RECT_EN => s.calFollow i false
      | .SLOT_RECT_G => s.tblRefresh (unitOfSlot i)
      | .SUB_EN => s.subEnChange who i (v == 1)
      | .GRID_CFG_NX | .GRID_CFG_NY | .GRID_CFG_NB | .GRID_CFG_FMT | .GRID_ADDR => s.gridAnew i
      | .MQ_OP_TARGET => if bit s.pm.railsBad (i + 1) then s else s.opRequest i v
      | .PM_REGSTAT_FAIL => s.onPm fun p => { p with railsBad := p.railsBad &&& v }
      | .CW_CFG_EN | .CW_CFG_AUTO_JOIN => s.cwRefresh
      | .SPUR_QUADS => s.spurWordDone i 0 old v
      | .SPUR_RES_CH => s.spurWordDone i 1 old v
      | .SPUR_RES_WL => s.spurWordDone i 2 old v
      | .SPUR_EQ => s.spurWordDone i 3 old v
      | _ => s

/-- What follows from a write that was carried out: the fields that the writer may write, in the order of their bits, then
HB_CFG.EN = 0 (R134) and the Kerb's combination. -/
def State.wordHooks (s s0 : State) (who : Agent) (off w : Nat) : State :=
  let hs := (hitsAt off).filter fun h => mayWrite who h.reg
  let s := s.each hs fun s h => s.fieldHook who h (s0.rd h.reg h.idx)
  let s := s.when (off == 0x708000 && !bit w 0 && s.flag .HB_CFG_EN && mayWrite who .HB_CFG_EN) fun s => s.hbDisable
  s.when (0x60000 ≤ off && off < 0x80000 && !hs.isEmpty) fun s => s.kerbUpdate

/-- A word is applied, with what follows from it. -/
def State.wordApplied (s : State) (who : Agent) (off w : Nat) : State :=
  match s.applyWord who off w with
  | (false, s') => s'
  | (true, s') => s'.wordHooks s who off w

/-- A word takes effect at an offset of PF0's BAR0 that admitted it. -/
def State.wordEffect (s : State) (who : Agent) (off w : Nat) : State :=
  match s.refusedWrite who off w with
  | some s => s
  | none => s.wordApplied who off w

/-! ### REGISTER_WRITE -/

/-- Admission and effect of one aligned word written at an offset of PF0's BAR0 (R492, R496). -/
def State.busWord (s : State) (who : Agent) (off w : Nat) : State :=
  match hitsAt off with
  | [] => s
  | h :: _ =>
    match who with
    | .fw _ => if s.islandOff h.reg h.idx then s else s.wordEffect who off w
    | .host f _ =>
      if f.val = 0 ∧ s.lockedTenant h.reg h.idx then s.isoViolation 0 isoMmio (h.idx / h.reg.perUnit)
      else if s.islandGone h.reg h.idx then s.count .HL_GATED
      else s.wordEffect who off w

/-- One word written at an offset of the agent's own BAR0 (R490, R493). -/
def State.writeWord (s : State) (who : Agent) (off w : Nat) : State :=
  match who with
  | .fw _ => s.busWord who off w
  | .host f _ =>
    if f.val = 0 then s.busWord who off w
    else match s.vfRoute f.val off with
      | .writable o => s.busWord who o w
      | .readOnly => s.count .HL_VFRO f.val
      | .nothing => s

/-- Whether a write keeps to R491: 4 bytes aligned to 4 or 8 bytes aligned to 8, every byte enabled. -/
def writeShapeOk (off size : Nat) (allBytes : Bool) : Bool :=
  allBytes && ((size == 4 && off % 4 == 0) || (size == 8 && off % 8 == 0))

/-- The access comes over PCIe. -/
def isHost : Agent → Bool
  | .host _ _ => true
  | .fw _ => false

/-- A register write of 4 or 8 bytes, the lower address first (R491); a poisoned one is dropped and counted (R502). -/
def State.busWrite (s : State) (who : Agent) (off size : Nat) (allBytes poisoned : Bool) (data : Nat) : State :=
  match s.readOpen who with
  | .error s => s
  | .ok s =>
    if poisoned && isHost who then s.count .HL_POISON
    else if !writeShapeOk off size allBytes then
      match who with
      | .host f _ => s.count .HL_BADWR f.val
      | .fw _ => s
    else
      let s := s.writeWord who off (data % 2 ^ 32)
      if size = 8 then s.writeWord who (off + 4) (data / 2 ^ 32 % 2 ^ 32) else s

/-- REGISTER_WRITE (R3): the fields that have no row of their own. -/
def execRegisterWrite (who : Agent) (off : BitVec 23) (size : Nat) (allBytes poisoned : Bool) (data : DWord)
    (s : State) : Out :=
  done (s.busWrite who off.toNat size allBytes poisoned data.toNat)

/-! ### Words that show another part of the state -/

/-- FUSE_DATA: the latched value of the word that FUSE_RD names; security words read as 0 (Table RP-11). -/
def State.fuseData (s : State) : Nat :=
  let w := s.rd .FUSE_RD_WORD
  if w < 64 then 0 else Table.get 0 s.rst.fuses w % 2 ^ 32

/-- The words of the time base that follow from its parameters (Table TB-7), and SLEWING. -/
def State.timeView (s : State) (off : Nat) : Nat :=
  match off with
  | 0x40 => s.offRegs.1 % 2 ^ 32
  | 0x44 => s.offRegs.1 / 2 ^ 32
  | 0x48 => s.offRegs.2
  | 0x54 => s.time.rbase % 2 ^ 32
  | 0x58 => s.time.rbase / 2 ^ 32 % 2 ^ 32
  | 0x64 => s.slewRemReg
  | 0x80 => if s.time.slewRem = 0 then 0 else 2 ^ 12
  | _ => 0

/-- The head of the transmit-stamp queue (Table TB-10). The spec does not say what the stamp of an empty queue reads as. -/
def State.txtsView (s : State) (off : Nat) : Nat × State :=
  match off with
  | 0x200 => (s.time.txts.length, s)
  | 0x204 =>
    match s.time.txts with
    | [] => let (v, s) := s.fresh 17; (v, s)
    | e :: _ => (e.id.toNat + (if e.dropped then 2 ^ 16 else 0) + 2 ^ 17, s)
  | _ =>
    if off = 0x208 ∨ off = 0x20C ∨ off = 0x210 ∨ off = 0x214 then
      match s.time.txts with
      | [] => s.fresh (if off = 0x214 then 16 else 32)
      | e :: _ =>
        (match off with
          | 0x208 => wtSec e.stamp % 2 ^ 32
          | 0x20C => wtSec e.stamp / 2 ^ 32 % 2 ^ 32
          | 0x210 => wtNs e.stamp
          | _ => wtFrac e.stamp, s)
    else (0, s)

/-- A decimation chain's FIFO (Table AX-6): the head, and COUNT. -/
def State.chainView (s : State) (k off : Nat) : Nat × State :=
  let l := (s.chain k).fifo
  if off = 0x20 then (l.length, s)
  else if 0x10 ≤ off ∧ off ≤ 0x1C then
    match l with
    | [] => if off = 0x1C then (let (v, s) := s.fresh 3; (2 * v, s)) else s.fresh 32
    | o :: _ =>
      (match off with
        | 0x10 => ofSigned 32 o.value
        | 0x14 => o.stamp % 2 ^ 32
        | 0x18 => o.stamp / 2 ^ 32 % 2 ^ 32
        | _ => 1 + (if o.gap then 2 else 0) + (if o.sat then 4 else 0) + (if o.settled then 8 else 0), s)
  else (0, s)

/-- The head of the GPIO FIFO (Table AX-6): pin, level and WT64; none is stated for an empty FIFO. -/
def State.gpioView (s : State) (off : Nat) : Nat × State :=
  match s.aux.gpio with
  | [] => s.fresh 32
  | (pin, lvl, t) :: _ =>
    (match off with
      | 0x14 => pin
      | 0x18 => if lvl then 1 else 0
      | 0x1C => t % 2 ^ 32
      | _ => t / 2 ^ 32 % 2 ^ 32, s)

/-- The head of an AUXEV FIFO (Table AX-6). -/
def State.auxevView (s : State) (p off : Nat) : Nat × State :=
  match Table.get [] s.aux.auxev p with
  | [] => s.fresh 32
  | e :: _ =>
    (match off with
      | 0x4 => Config.auxevWord 0 e.slot e.inp e.lvl e.data % 2 ^ 32
      | 0x8 => Config.auxevWord 1 e.slot e.inp e.lvl e.data % 2 ^ 32
      | 0xC => e.t % 2 ^ 32
      | _ => e.t / 2 ^ 32 % 2 ^ 32, s)

/-- A word of the line that a queue's read window shows (R164). -/
def State.lineWord (s : State) (q off : Nat) : Nat :=
  let d := (((s.eq q).line)[off / 8]?).getD 0
  if off % 8 = 0 then d.toNat % 2 ^ 32 else d.toNat / 2 ^ 32

/-- A residency counter (R439); a read of its low word latches the high one. -/
def State.resView (s : State) (k i : Nat) (hi : Reg) : Nat × State :=
  let v := Table.get 0 s.pm.res k
  (v % 2 ^ 32, s.wr hi i (v / 2 ^ 32))

/-- The part of a word that no stored field holds, and the state after what such a read latches. -/
def State.viewWord (s : State) (off : Nat) : Nat × State :=
  if 0x10000 ≤ off ∧ off < 0x10200 then (s.timeView (off - 0x10000), s)
  else if 0x10200 ≤ off ∧ off < 0x10218 then s.txtsView (off - 0x10000)
  else if 0x20100 ≤ off ∧ off < 0x20120 ∧ off % 8 = 0 then s.resView ((off - 0x20100) / 8) ((off - 0x20100) / 8) .PM_RES_S_HI
  else if off = 0x20120 then s.resView 4 0 .PM_RES_TRANS_HI
  else if 0x20140 ≤ off ∧ off < 0x201A8 ∧ off % 8 = 0 then
    s.resView (5 + (off - 0x20140) / 8) ((off - 0x20140) / 8) .PM_RES_D_HI
  else if off = 0x40014 then (s.fuseData, s)
  else if 0x50000 ≤ off ∧ off < 0x58000 ∧ off % 0x1000 = 4 then ((s.errRing ((off - 0x50000) / 0x1000)).recs.length, s)
  else if 0x50000 ≤ off ∧ off < 0x58000 ∧ off % 0x1000 = 0x10 then
    (if s.rd .SPUR_STATE ((off - 0x50000) / 0x1000) = 3 then 8 else 0, s)
  else if 0x100000 ≤ off ∧ off < 0x108000 ∧ off % 0x40 = 0x14 then (s.eqOcc ((off - 0x100000) / 0x40), s)
  else if 0x120000 ≤ off ∧ off < 0x130000 ∧ 0x40 ≤ off % 0x80 then (s.lineWord ((off - 0x120000) / 0x80) (off % 0x40), s)
  else if 0x400000 ≤ off ∧ off < 0x440000 ∧ off % 0x1000 = 0x28 then
    let mb := (off - 0x400000) / 0x1000
    ((s.cmds mb).length * 2 ^ 3 + s.mbCore mb * 2 ^ 9, s)
  else if 0x701000 ≤ off ∧ off < 0x701400 then s.chainView ((off - 0x701000) / 0x40) (off % 0x40)
  else if 0x702014 ≤ off ∧ off < 0x702024 then s.gpioView (off - 0x702000)
  else if 0x704000 ≤ off ∧ off < 0x704100 ∧ 4 ≤ off % 0x20 ∧ off % 0x20 < 0x14 then
    s.auxevView ((off - 0x704000) / 0x20) (off % 0x20)
  else (0, s)

/-! ### RC_FIELD_READ (R491) -/

/-- What a read with a row of its own answered. -/
def popped (s : State) (o : Out) : Nat × State :=
  match o with
  | .next t =>
    if t.tx.length ≤ s.tx.length then (0, t)
    else match t.tx with
      | .readData _ v :: l => (v, t.onTx fun _ => l)
      | .eqLine _ _ _ tag :: l => (tag, t.onTx fun _ => l)
      | .featHandle _ _ h :: l => (h, t.onTx fun _ => l)
      | _ => (0, t)
  | _ => (0, s)

/-- A word whose read is a row of its own: the two latches and the pops. -/
def State.popRead (s : State) (who : Agent) (l : LineChecks) (off : Nat) : Option (Nat × State) :=
  if off = 0x10000 then some (popped s (execTimeRawLoRead who s))
  else if off = 0x10068 then some (popped s (execTimeRcLoRead who s))
  else if 0x50000 ≤ off ∧ off < 0x58000 ∧ off % 0x1000 = 0 then
    some (popped s (execErrPop who (Fin.ofNat 8 ((off - 0x50000) / 0x1000)) s))
  else if off = 0x6B800 then some (popped s (execKrbLatelogPop who s))
  else if off = 0x501040 then some (popped s (execIsoLogPop who s))
  else if 0x120000 ≤ off ∧ off < 0x130000 ∧ off % 0x80 = 0 then
    some (popped s (execEqPop who (Fin.ofNat 512 ((off - 0x120000) / 0x80)) l.ce l.ue l.ptrBad s))
  else if 0x141000 ≤ off ∧ off < 0x142000 ∧ off % 0x40 = 0x30 then
    match who with
    | .fw c => some (popped s (execFeatPop c (Fin.ofNat 64 ((off - 0x141000) / 0x40)) s))
    | .host _ _ => some (0, s)
  else none

/-- Where a read at an offset of VFn's BAR0 leads (Table HM-4): the set of the function's own snapshot, or a PF0 offset. -/
def State.vfRead (s : State) (n off : Nat) : Option Nat :=
  let a := off / 4 * 4
  if a < 0x0C then some a
  else if a = 0x100 then some (0x500000 + n * 0x100)
  else if a = 0x110 then some (0x1010 + 4 * n)
  else if a = 0x114 then some (0x1040 + 4 * n)
  else if a = 0x1000 ∨ a = 0x1004 ∨ a = 0x1080 then some (0xF000 + a)
  else if 0x2000 ≤ a ∧ a < 0x2020 then some (0x440000 + (a - 0x2000))
  else match s.vfRoute n a with
    | .writable o => if 0x4000 ≤ a then some o else none
    | _ => none

/-- A word of the snapshot set of a function (Table TB-7). -/
def State.vfSnapWord (s : State) (n off : Nat) : Nat :=
  let x := Table.get {} s.time.vfSnap n
  match off with
  | 0x1010 => x.raw % 2 ^ 32
  | 0x1014 => x.raw / 2 ^ 32 % 2 ^ 32
  | 0x1018 => x.sec % 2 ^ 32
  | 0x101C => x.sec / 2 ^ 32 % 2 ^ 32
  | 0x1020 => x.ns
  | 0x1024 => x.frac
  | _ => 0

/-- The RC fields of a word go to their reset values (R3). -/
def State.clearRc (s : State) (off : Nat) : State :=
  s.each ((hitsAt off).filter fun h => h.reg.spec.acc == .rc && !h.reg.spec.ownRow) fun s h => s.wr h.reg h.idx h.reg.spec.rst

/-- The number of the unit that an offset of the ports, carding units or Mills belongs to. -/
def unitAt (off : Nat) : Nat :=
  if off < 0xC0000 then (off - 0x80000) / 0x8000
  else if off < 0x100000 then (off - 0xC0000) / 0x4000
  else (off - 0x200000) / 0x1000

/-- The island of a word does not answer. -/
def State.wordGone (s : State) (who : Agent) (off : Nat) : Bool :=
  match hitsAt off with
  | h :: _ => (match who with | .fw _ => s.islandOff h.reg h.idx | .host _ _ => s.islandGone h.reg h.idx)
  | [] => match domainAt off (unitAt off) with | some d => !s.domOn d | none => false

/-- PF0 may not see the word (R496). -/
def State.wordHidden (s : State) (who : Agent) (off : Nat) : Bool :=
  match who with
  | .fw _ => false
  | .host f _ =>
    f.val == 0 && (match hitsAt off with
      | h :: _ => s.lockedTenant h.reg h.idx
      | [] => 0x120000 ≤ off && off < 0x130000 && s.lockedTenant .EQ_WP ((off - 0x120000) / 0x80))

/-- One register read whole, with its side effects, at an offset of PF0's BAR0. -/
def State.readOne (s : State) (who : Agent) (l : LineChecks) (off : Nat) : Nat × State :=
  if s.wordHidden who off then (0, s)
  else if s.wordGone who off then (0, match who with | .fw _ => s | .host _ _ => s.count .HL_GATED)
  else match s.popRead who l off with
    | some r => r
    | none =>
      let (v, s) := s.viewWord off
      (s.readWord off ||| v, s.clearRc off)

/-- One word read at an offset of the agent's own BAR0. -/
def State.readAt (s : State) (who : Agent) (l : LineChecks) (off : Nat) : Nat × State :=
  match who with
  | .fw _ => s.readOne who l off
  | .host f _ =>
    if f.val = 0 then s.readOne who l off
    else if 0x1010 ≤ off ∧ off < 0x1028 then (s.vfSnapWord f.val off, s)
    else match s.vfRead f.val off with
      | some o => s.readOne who l o
      | none => (0, s)

/-- The words from an offset on, in ascending order (R491). -/
def State.readRun (s : State) (who : Agent) (l : LineChecks) (off : Nat) : Nat → Nat × State
  | 0 => (0, s)
  | n + 1 =>
    let (v, s) := s.readAt who l off
    let (t, s) := s.readRun who l (off + 4) n
    (v + t * 2 ^ 32, s)

/-- A read keeps to R491: 1 to 64 bytes within one aligned block of 64. -/
def readShapeOk (off size : Nat) : Bool := 1 ≤ size && size ≤ 64 && off % 64 + size ≤ 64

/-- RC_FIELD_READ (R3, R491): every register that the read covers is read whole, and the bytes asked for are returned; a read
outside the limits completes as Unsupported Request. -/
def execRcFieldRead (who : Agent) (off : BitVec 23) (len : ReadLen) (s : State) : Out :=
  match s.readOpen who with
  | .error s => done s
  | .ok s =>
    if !readShapeOk off.toNat len.size then done s
    else
      let a := off.toNat / 4 * 4
      let (v, s) := s.readRun who len.line a ((off.toNat + len.size + 3 - a) / 4)
      done (s.emit (.readData who (v / 256 ^ (off.toNat % 4) % 256 ^ len.size)))

end Sys2Proof.Machine
end

