-- ==== Sys2Proof/Machine/Configure.lean ====
section
/-!
DEFINITION. The configuration commands WL_CFG, HEAD_CFG, EQ_CFG, FUL_APPLY and FT_CFG (Table MB-4): each is refused by the
rules of its chapter with nothing written, or its settings are written by the serving core.
-/
namespace Sys2Proof.Machine

/-! ### Settings -/

/-- The fields that a command's settings name, each with its word. -/
def Cmd.hits (c : Cmd) : List (Hit × Nat × Nat) := c.pairs.flatMap fun p => (hitsAt p.1).map fun h => (h, p)

/-- The instances of a field that the settings name. -/
def Cmd.idxOf (c : Cmd) (r : Reg) : List Nat := ((c.hits.filter fun x => x.1.reg == r).map fun x => x.1.idx).dedup

/-- The first setting that a lock refuses (R6): its offset. -/
def State.cfgLocked (s : State) (mb : Nat) (c : Cmd) : Option Nat :=
  (c.pairs.find? fun p =>
    let hs := (hitsAt p.1).filter fun h => mayWrite (s.coreAgent mb) h.reg
    hs.any fun h => s.violates hs p.2 h && !h.reg.spec.ownRow).map Prod.fst

/-- The domain of a setting's register, if it is off. DEDUCED: the command then ends with DOMAIN_OFF. -/
def State.cfgDomain (s : State) (c : Cmd) : Option Nat :=
  (c.hits.find? fun x => s.islandOff x.1.reg x.1.idx).bind fun x => x.1.reg.domain x.1.idx

/-- A configuration command: its lock and domain checks, the refusal of its chapter (status, DETAIL and the state, which a free
DETAIL advances), or its effect and RESULT. -/
def State.configure (s : State) (mb : Nat) (c : Cmd) (refuse : State → Option (Nat × Nat × State))
    (apply : State → State × Nat × Nat × Nat) : State :=
  match s.cfgLocked mb c, s.cfgDomain c with
  | some off, _ => (s.lockViolation (s.coreAgent mb) off).finish mb c 5 off 0
  | none, some d => s.finish mb c 0x19 d 0
  | none, none =>
    match refuse s with
    | some (st, detail, t) => t.finish mb c st detail 0
    | none =>
      let (t, st, detail, result) := apply s
      t.finish mb c st detail result

/-- A refusal whose DETAIL the spec does not give. -/
def State.freeDetail (s : State) (st base n : Nat) : Option (Nat × Nat × State) :=
  let (v, s) := s.fresh 32
  some (st, base + v % n, s)

/-- The settings of a command that was accepted as a whole, written one after another, each with what follows from it. -/
def State.cfgWrite (s : State) (mb : Nat) (l : List (Nat × Nat)) : State :=
  s.each l fun s p =>
    match hitsAt p.1 with
    | [] => s
    | h :: _ => if s.islandOff h.reg h.idx then s else s.wordApplied (s.coreAgent mb) p.1 p.2

/-! ### WL_CFG and HEAD_CFG (R88, R145, R153) -/

/-- The sum of QUOTA over the numbered heads of a port, after settings that need not have been written. -/
def State.quotaAfter (s : State) (c : Cmd) (p : Nat) : Nat :=
  (((slotsOf p).filter fun i => s.rd .HT_STATE i != 0).map fun i => s.settingOf c.pairs .HT_QUOTA i).sum

/-- A port whose quotas would exceed their limit (R88). -/
def State.quotaBad (s : State) (c : Cmd) : Bool :=
  ((c.idxOf .HT_QUOTA).map (· / 32)).any fun p => 230400 < s.quotaAfter c p

/-- WL_CFG: a WL_CTRL word enables or disables its port (R587). DESIGN CHOICE: the spec names no status for a quota sum that is
refused; it is CFG_ERR with a free reason. -/
def execWlCfg (mb : Fin 64) (tag : BitVec 16) (s : State) : Out :=
  s.runCmd mb tag 0x40 false fun s c =>
    s.configure mb.val c
      (fun s => if s.quotaBad c then s.freeDetail 0x2A 0 (2 ^ 32) else none)
      (fun s =>
        (s.each c.pairs fun s p =>
          if p.1 % 0x8000 = 0 then s.wlCtrl (s.coreAgent mb.val) ((p.1 - 0x80000) / 0x8000) (BitVec.ofNat 32 p.2) (bit p.2 0)
          else s.busWord (s.coreAgent mb.val) p.1 p.2, 0, 0, 0))

/-- The queue of a route that R153 refuses. -/
def State.badRoute (s : State) (slots : List Nat) : Option Nat :=
  let bad := fun i =>
    let q := s.rd .SLOT_ROUTE_EQ i
    let u := unitOfSlot i
    s.flag .SLOT_ROUTE_EN i &&
      (s.eqOwner q != s.portOwner u || q / 256 != u / 4 ||
        (List.range 256).any fun j => unitOfSlot j != u && s.flag .SLOT_ROUTE_EN j && s.rd .SLOT_ROUTE_EQ j == q)
  (slots.find? bad).map fun i => s.rd .SLOT_ROUTE_EQ i

/-- The slots that a HEAD_CFG configures: that of its target and those of its settings. -/
def Cmd.slots (c : Cmd) : List Nat :=
  (c.cfg.target % 256 :: c.idxOf .SLOT_BAF_BLK ++ c.idxOf .SLOT_RECT_G ++ c.idxOf .HT_QUOTA).dedup

/-- A command configures a head of a unit. -/
def Cmd.touches (c : Cmd) (u : Nat) : Bool := c.slots.any fun i => unitOfSlot i == u

/-- The slots of a configuration that is accepted have their tables (R145). -/
def State.giveTables (s : State) (c : Cmd) : State := s.each c.slots fun s i => s.onSlot i fun x => { x with noTables := false }

/-- The refusal of HEAD_CFG: quotas, the table space with the heads it configures (R145), routes. -/
def State.headCfgRefuse (s : State) (mb : Nat) (c : Cmd) : Option (Nat × Nat × State) :=
  let t := (s.applySettings mb c.pairs).giveTables c
  if s.quotaBad c then s.freeDetail 0x2A 0 (2 ^ 32)
  else if (List.range 8).any fun u => c.touches u && tblSpace < t.tblSum u then some (0x21, c.cfg.target, s)
  else (t.badRoute (c.idxOf .SLOT_ROUTE_EN)).map fun q => (0x22, q, s)

/-- The rectification nodes of a slot, in raster order (R144). -/
def State.loadRect (s : State) (slot : Nat) (nodes : List Nat) : State :=
  if nodes.isEmpty then s
  else
    let cols := ceilDiv (s.headW slot) (s.rectG slot) + 1
    s.onCard (unitOfSlot slot) fun c =>
      { c with rect := nodes.zipIdx.foldl (fun t e =>
          Table.set 0 t (slot * 2 ^ 20 + e.2 / cols * 1024 + e.2 % cols) (e.1 % 2 ^ 32)) (dropSlot c.rect slot) }

/-- What the SECDED finds in a slot's tables while they are loaded (R146). -/
def State.tableEcc (s : State) (slot : Nat) (ecc : EccResult) : State :=
  match ecc with
  | .uncorrectable a => s.tableError slot a.toNat
  | .corrected => s.cardCount (unitOfSlot slot) 5
  | .clean => s

/-- HEAD_CFG: accepted, it loads the tables of its slot, which a stopped slot resumes from (R146). -/
def execHeadCfg (mb : Fin 64) (tag : BitVec 16) (tables : HeadTables) (s : State) : Out :=
  s.runCmd mb tag 0x41 false fun s c =>
    let slot := c.cfg.target % 256
    s.configure mb.val c (fun s => s.headCfgRefuse mb.val c)
      (fun s =>
        let s := (((s.giveTables c).cfgWrite mb.val c.pairs).loadRect slot tables.rect).reloadSlot slot
        let s := (s.tableEcc slot tables.ecc).each (c.idxOf .SLOT_RECT_EN) fun s i => s.calFollow i false
        (s.each ((List.range 8).filter c.touches) State.tblRefresh, 0, 0, 0))

/-! ### EQ_CFG (R153, R585) -/

/-- A queue's configuration after the command: enable, class, LOG2N and BASE in records. -/
def State.eqAfter (s : State) (c : Cmd) (q : Nat) : Nat × Nat × Nat × Nat :=
  let g := fun r => s.settingOf c.pairs r q
  (g .EQ_CFG_EN, g .EQ_CFG_CLASS, g .EQ_CFG_LOG2N, g .EQ_CFG_BASE * 64)

/-- A queue's configuration is refused (R153). -/
def State.eqCfgBad (s : State) (c : Cmd) (q : Nat) : Bool :=
  let (_, cls, lg, base) := s.eqAfter c q
  let n := 2 ^ lg
  let moved := lg != s.rd .EQ_CFG_LOG2N q || base != s.rd .EQ_CFG_BASE q * 64 || cls != s.rd .EQ_CFG_CLASS q
  (s.flag .EQ_CFG_EN q && moved) || base % n != 0 || 262144 < base + n ||
    (List.range 256).any fun j =>
      let o := q / 256 * 256 + j
      let (en, _, lo, bo) := s.eqAfter c o
      o != q && en == 1 && base < bo + 2 ^ lo && bo < base + n

/-- EQ_CFG: a word of EQ_CFG enables or disables its queue (R585). -/
def execEqCfg (mb : Fin 64) (tag : BitVec 16) (s : State) : Out :=
  s.runCmd mb tag 0x42 false fun s c =>
    s.configure mb.val c
      (fun s => ((c.idxOf .EQ_CFG_EN).find? fun q => s.eqCfgBad c q).map fun q => (0x22, q, s))
      (fun s =>
        (s.each c.pairs fun s p =>
          if p.1 < 0x108000 ∧ p.1 % 0x40 = 0 then
            s.eqCfgWrite (s.coreAgent mb.val) ((p.1 - 0x100000) / 0x40) p.2 (bit p.2 0)
          else s.busWord (s.coreAgent mb.val) p.1 p.2, 0, 0, 0))

/-! ### FUL_APPLY (R167 to R169, R290, R365) -/

/-- The subscriptions whose registers the settings name. -/
def Cmd.subs (c : Cmd) : List Nat :=
  ((c.pairs.filter fun p => 0x141000 ≤ p.1 && p.1 < 0x142000).map fun p => (p.1 - 0x141000) / 0x40).dedup

/-- The Nap words of a subscription of a Spur at decimation `d`: first and length (R168). -/
def State.footprint (s : State) (sp i d : Nat) : Nat × Nat :=
  let (w, h) := s.gridAt (s.rd .SUB_SLOT i) d
  (s.rd .NAP_PART_FIRST sp * 131072 + s.rd .SUB_NAP_OFF i * 256, ceilDiv w 16 * ceilDiv h 16 * 256 * s.subWpp i)

/-- A subscription fits: inside its Spur's partition, and clear of the ranges that others hold (R168). -/
def State.napFits (s : State) (sp i d : Nat) (held : List (Nat × Nat)) : Bool :=
  let (a, n) := s.footprint sp i d
  let last := (s.rd .NAP_PART_FIRST sp + s.rd .NAP_PART_COUNT sp) * 131072
  a + n ≤ last && held.all fun r => a + n ≤ r.1 || r.1 + r.2 ≤ a

/-- The decimations that a subscription may take, in order (R169). -/
def State.decTries (s : State) (i : Nat) : List Nat :=
  let d := s.rd .SUB_DEC i
  if s.flag .SUB_AUTO_DEC i then (List.range (s.rd .SUB_DMAX i + 1 - d)).map (d + ·) ++ (if s.rd .SUB_DMAX i < d then [d] else [])
  else [d]

/-- Admission in ascending PRIO and number (R169): for each subscription the decimation in use, or none. -/
def State.admitSubs (s : State) (sp : Nat) (held : List (Nat × Nat)) : List Nat → List (Nat × Option Nat)
  | [] => []
  | i :: t =>
    match (s.decTries i).find? fun d => s.napFits sp i d held with
    | some d => (i, some d) :: s.admitSubs sp (s.footprint sp i d :: held) t
    | none => (i, none) :: s.admitSubs sp held t

/-- A partition that the settings change while an enabled subscription uses it, or to one that overlaps another (R167). A
partition that overlaps names no subscription, so its DETAIL is a free value. -/
def State.partBad (s t : State) (c : Cmd) : Option (Nat × Nat × State) :=
  let moved := (c.idxOf .NAP_PART_FIRST).filter fun n =>
    t.rd .NAP_PART_FIRST n != s.rd .NAP_PART_FIRST n || t.rd .NAP_PART_COUNT n != s.rd .NAP_PART_COUNT n
  match (List.range 64).find? fun i => s.flag .SUB_EN i && moved.contains (s.sub i).spur with
  | some i => some (0x23, i, s)
  | none =>
    let clash := fun n m =>
      n != m && t.rd .NAP_PART_COUNT n != 0 && t.rd .NAP_PART_COUNT m != 0 &&
        t.rd .NAP_PART_FIRST n < t.rd .NAP_PART_FIRST m + t.rd .NAP_PART_COUNT m &&
        t.rd .NAP_PART_FIRST m < t.rd .NAP_PART_FIRST n + t.rd .NAP_PART_COUNT n
    if moved.any fun n => (List.range 8).any fun m => clash n m then s.freeDetail 0x23 0 64 else none

/-- A subscription of a Spur whose slot or queue it may not use (R365). -/
def State.grantBad (s : State) (sp i : Nat) : Bool :=
  let slot := s.rd .SUB_SLOT i
  let own := s.portOwner (slot / 32)
  let granted := bit (s.rd .SPUR_GRANT (8 * sp + slot / 32)) (slot % 32)
  match s.route slot with
  | some q => s.eqOwner q != sp && !(granted && own == s.eqOwner q)
  | none => own != sp && !granted

/-- A second subscription of a slot with FLOW_EGO = 1 (R290). -/
def State.flowTwice (s : State) (i : Nat) : Bool :=
  s.flag .SUB_FLOW_EGO i && (List.range 64).any fun j =>
    j != i && s.flag .SUB_EN j && s.flag .SUB_FLOW_EGO j && s.rd .SUB_SLOT j == s.rd .SUB_SLOT i

/-- The refusal of FUL_APPLY as a whole; `t` has the settings. -/
def State.fulRefuse (s : State) (mb : Nat) (c : Cmd) : Option (Nat × Nat × State) :=
  let t := s.applySettings mb c.pairs
  match s.partBad t c with
  | some r => some r
  | none =>
    let on := c.subs.filter fun i => t.flag .SUB_EN i
    match on.find? fun i => t.grantBad (mb / 8) i with
    | some i => some (0x23, i, s)
    | none => (on.find? fun i => t.flowTwice i).map fun i => (0x25, 0x141010 + 0x40 * i, s)

/-- What a subscription becomes: admitted with a decimation it is enabled and fresh, else it is disabled and empty. -/
def State.subApply (s : State) (who : Agent) (i : Nat) (d : Option Nat) : State :=
  match d with
  | some d => ((s.put .SUB_EN i true).wr .SUB_DEC_USED i d).subEnChange who i true
  | none => (s.put .SUB_EN i false).subEnChange who i false

/-- FUL_APPLY: the settings, then admission; DEC_USED of subscriptions 0 to 31, or NAP_FULL with the first one refused.
DEDUCED: one that is refused is left disabled. -/
def State.fulApply (s : State) (mb : Nat) (c : Cmd) : State × Nat × Nat × Nat :=
  let sp := mb / 8
  let t := s.applySettings mb c.pairs
  let on := (c.subs.filter fun i => t.flag .SUB_EN i).mergeSort fun i j =>
    t.rd .SUB_PRIO i < t.rd .SUB_PRIO j || (t.rd .SUB_PRIO i == t.rd .SUB_PRIO j && i ≤ j)
  let rest := (List.range 64).filter fun i => s.flag .SUB_EN i && !c.subs.contains i
  let held := rest.map fun i => s.footprint (s.sub i).spur i (s.sub i).dec
  let ad := t.admitSubs sp held on
  let off := c.subs.filter fun i => !t.flag .SUB_EN i
  let u := (t.each off fun t i => t.subApply (t.coreAgent mb) i none).each ad fun t p => t.subApply (t.coreAgent mb) p.1 p.2
  match ad.find? fun p => p.2.isNone with
  | some p => (u, 0x24, p.1, 0)
  | none => (u, 0, 0, ((List.range 32).map fun i => u.rd .SUB_DEC_USED i * 4 ^ i).sum)

/-- FUL_APPLY. -/
def execFulApply (mb : Fin 64) (tag : BitVec 16) (s : State) : Out :=
  s.runCmd mb tag 0x43 false fun s c => s.configure mb.val c (fun s => s.fulRefuse mb.val c) (fun s => s.fulApply mb.val c)

/-! ### FT_CFG (R275, R283, R294, R302) -/

/-- The finite value of an FP32 word. -/
def finOf (w : Nat) : Option Rat := match f32 w with | .fin q => some q | _ => none

/-- A rotation of nine FP32 words in row order is refused (R275): exact dot products of the rows, and the determinant. -/
def rotBad (l : List Nat) : Bool :=
  match l.mapM finOf with
  | some [a, b, c, d, e, f, g, h, i] =>
    let off := fun (x y : Rat) => decide (1 / 65536 < |x - y|)
    off (a * a + b * b + c * c) 1 || off (d * d + e * e + f * f) 1 || off (g * g + h * h + i * i) 1 ||
      off (a * d + b * e + c * f) 0 || off (a * g + b * h + c * i) 0 || off (d * g + e * h + f * i) 0 ||
      decide (a * (e * i - f * h) - b * (d * i - f * g) + c * (d * h - e * g) ≤ 0)
  | _ => true

/-- The offset of the first base pose in the settings that is refused. -/
def State.poseBad (s : State) (c : Cmd) : Option Nat :=
  let bad := fun r k => rotBad ((List.range 9).map fun j => s.settingOf c.pairs r (9 * k + j))
  match ((c.idxOf .CAL_BR).map (· / 9)).find? fun k => bad .CAL_BR k with
  | some k => some (0x180010 + 0x80 * k)
  | none => (((c.idxOf .AUXF_BR).map (· / 9)).find? fun k => bad .AUXF_BR k).map fun k => 0x18C810 + 0x80 * k

/-- The heights of a Spur's grid do not rise strictly (R283), as the settings leave them. -/
def State.zBad (s : State) (c : Cmd) (sp : Nat) : Bool := !zRising (s.settingOf c.pairs) sp

/-- The Spurs whose heights, or number of bands, the settings change (R283). -/
def State.zSpurs (s : State) (c : Cmd) : List Nat :=
  ((c.idxOf .GRID_Z_LO).map (· / 8) ++ c.idxOf .GRID_Z_TOP ++
    (c.idxOf .GRID_CFG_NB).filter fun sp => s.settingOf c.pairs .GRID_CFG_NB sp != s.rd .GRID_CFG_NB sp).dedup

/-- The track ranges that the settings name are refused (R294). -/
def State.trkBad (s : State) (c : Cmd) : Bool := (c.idxOf .TRK_BASE).any fun sp => trkClash (s.settingOf c.pairs) sp

/-- The refusal of FT_CFG. The byte of a reserved height and the reason of a refused track range are not given. -/
def State.ftRefuse (s : State) (c : Cmd) : Option (Nat × Nat × State) :=
  match c.pairs.find? fun p => s.ftHeld p.1 with
  | some p => some (0x25, p.1, s)
  | none =>
    match s.poseBad c with
    | some off => some (0x25, off, s)
    | none =>
      if (s.zSpurs c).any fun sp => s.zBad c sp then s.freeDetail 0x11 24 40
      else if s.trkBad c then s.freeDetail 0x2A 0 (2 ^ 32)
      else none

/-- FT_CFG. -/
def execFtCfg (mb : Fin 64) (tag : BitVec 16) (s : State) : Out :=
  s.runCmd mb tag 0x44 false fun s c =>
    s.configure mb.val c (fun s => s.ftRefuse c) (fun s => (s.cfgWrite mb.val c.pairs, 0, 0, 0))

end Sys2Proof.Machine
end

