-- ==== Sys2Proof/Machine/Dispatch.lean ====
section
/-!
DEFINITION. The dispatch: one arm per command, each one call of the command's meaning.
-/
namespace Sys2Proof.Machine

/-- The effect of a command on everything but the queue of waiting commands. -/
def exec (i : Instr) (s : State) : Host.Outcome State Fault Refusal :=
  match i with
  | .registerWrite who off size allBytes poisoned data => Sys2Proof.Machine.execRegisterWrite who off size allBytes poisoned data s
  | .timeRawLoRead who => Sys2Proof.Machine.execTimeRawLoRead who s
  | .timeRcLoRead who => Sys2Proof.Machine.execTimeRcLoRead who s
  | .timeSnapGo who => Sys2Proof.Machine.execTimeSnapGo who s
  | .timeCmdNone who ppm => Sys2Proof.Machine.execTimeCmdNone who ppm s
  | .timeCmdFold who ppm => Sys2Proof.Machine.execTimeCmdFold who ppm s
  | .timeCmdSlew who ppm => Sys2Proof.Machine.execTimeCmdSlew who ppm s
  | .timeCmdStep who ppm => Sys2Proof.Machine.execTimeCmdStep who ppm s
  | .timeCommitRelease => Sys2Proof.Machine.execTimeCommitRelease s
  | .timeCommitApply => Sys2Proof.Machine.execTimeCommitApply s
  | .slewEnd => Sys2Proof.Machine.execSlewEnd s
  | .refLoss r => Sys2Proof.Machine.execRefLoss r s
  | .refWindowEnd m => Sys2Proof.Machine.execRefWindowEnd m s
  | .refNoneTimeout => Sys2Proof.Machine.execRefNoneTimeout s
  | .ptpMessageRx m => Sys2Proof.Machine.execPtpMessageRx m s
  | .ptpPortStateChange st => Sys2Proof.Machine.execPtpPortStateChange st s
  | .arpRequestRx ip => Sys2Proof.Machine.execArpRequestRx ip s
  | .ethFrameDiscard => Sys2Proof.Machine.execEthFrameDiscard s
  | .ptpFrameTx id => Sys2Proof.Machine.execPtpFrameTx id s
  | .ptpFrameDropped id => Sys2Proof.Machine.execPtpFrameDropped id s
  | .txtsPop who => Sys2Proof.Machine.execTxtsPop who s
  | .waymarkBoundary => Sys2Proof.Machine.execWaymarkBoundary s
  | .trigEnable who n w => Sys2Proof.Machine.execTrigEnable who n w s
  | .trigDisable who n w => Sys2Proof.Machine.execTrigDisable who n w s
  | .trigCountWrite who n count => Sys2Proof.Machine.execTrigCountWrite who n count s
  | .trigEdge n => Sys2Proof.Machine.execTrigEdge n s
  | .trigPulseEnd n => Sys2Proof.Machine.execTrigPulseEnd n s
  | .wlPortEnable who p w => Sys2Proof.Machine.execWlPortEnable who p w s
  | .wlPortDisable who p w => Sys2Proof.Machine.execWlPortDisable who p w s
  | .wlInlanesLock p => Sys2Proof.Machine.execWlInlanesLock p s
  | .wlLaneLoss p => Sys2Proof.Machine.execWlLaneLoss p s
  | .blockDiscard p b => Sys2Proof.Machine.execBlockDiscard p b s
  | .laneAlignRx p aligned => Sys2Proof.Machine.execLaneAlignRx p aligned s
  | .reservedWordRx p w => Sys2Proof.Machine.execReservedWordRx p w s
  | .openRx p w => Sys2Proof.Machine.execOpenRx p w s
  | .pixelEventRx p w => Sys2Proof.Machine.execPixelEventRx p w s
  | .gapMarkerWordRx p w => Sys2Proof.Machine.execGapMarkerWordRx p w s
  | .trigAuxWordRx p w => Sys2Proof.Machine.execTrigAuxWordRx p w s
  | .healthRx p w => Sys2Proof.Machine.execHealthRx p w s
  | .leaveReqRx p w => Sys2Proof.Machine.execLeaveReqRx p w s
  | .wmMissRx p w => Sys2Proof.Machine.execWmMissRx p w s
  | .waymarkReturn p w0 w1 delay => Sys2Proof.Machine.execWaymarkReturn p w0 w1 delay s
  | .waymarkReturnTimeout p => Sys2Proof.Machine.execWaymarkReturnTimeout p s
  | .mgmtResponseRx p frame => Sys2Proof.Machine.execMgmtResponseRx p frame s
  | .enumReturn p frame => Sys2Proof.Machine.execEnumReturn p frame s
  | .mgmtRequestTimeout p seq => Sys2Proof.Machine.execMgmtRequestTimeout p seq s
  | .splicePeriodExpiry p => Sys2Proof.Machine.execSplicePeriodExpiry p s
  | .spliceWindowEnd p => Sys2Proof.Machine.execSpliceWindowEnd p s
  | .hbEnable who w amplitude => Sys2Proof.Machine.execHbEnable who w amplitude s
  | .hbPoll uids air => Sys2Proof.Machine.execHbPoll uids air s
  | .hbTagReadDone uid block store => Sys2Proof.Machine.execHbTagReadDone uid block store s
  | .hbTagNoResponse miss => Sys2Proof.Machine.execHbTagNoResponse miss s
  | .idWrite mb tag m payload store lockedBlocks => Sys2Proof.Machine.execIdWrite mb tag m payload store lockedBlocks s
  | .idWriteBlockDone m a store => Sys2Proof.Machine.execIdWriteBlockDone m a store s
  | .idWriteCollapse m => Sys2Proof.Machine.execIdWriteCollapse m s
  | .idWriteResume m ident store => Sys2Proof.Machine.execIdWriteResume m ident store s
  | .idWriteResumeTimeout m => Sys2Proof.Machine.execIdWriteResumeTimeout m s
  | .idLockdir mb tag store answers => Sys2Proof.Machine.execIdLockdir mb tag store answers s
  | .idRead mb tag m store => Sys2Proof.Machine.execIdRead mb tag m store s
  | .cardEvent u ecc ptrBad => Sys2Proof.Machine.execCardEvent u ecc ptrBad s
  | .warmupEndTimeout slot => Sys2Proof.Machine.execWarmupEndTimeout slot s
  | .bafScrub u => Sys2Proof.Machine.execBafScrub u s
  | .segmentBoundary => Sys2Proof.Machine.execSegmentBoundary s
  | .eqPendingWrite q ptrBad => Sys2Proof.Machine.execEqPendingWrite q ptrBad s
  | .eqPop who q ce ue ptrBad => Sys2Proof.Machine.execEqPop who q ce ue ptrBad s
  | .eqReset who q => Sys2Proof.Machine.execEqReset who q s
  | .eqSkipGo who q => Sys2Proof.Machine.execEqSkipGo who q s
  | .eqEnable who q w => Sys2Proof.Machine.execEqEnable who q w s
  | .eqDisable who q w => Sys2Proof.Machine.execEqDisable who q w s
  | .fullerQueueRead ce ue ptrBad nap skipCorner skipFlow => Sys2Proof.Machine.execFullerQueueRead ce ue ptrBad nap skipCorner skipFlow s
  | .windowClose sub => Sys2Proof.Machine.execWindowClose sub s
  | .tileRead m req nap => Sys2Proof.Machine.execTileRead m req nap s
  | .featPop core sub => Sys2Proof.Machine.execFeatPop core sub s
  | .teNantileClear who m t w => Sys2Proof.Machine.execTeNantileClear who m t w s
  | .tqTailWrite who m q v => Sys2Proof.Machine.execTqTailWrite who m q v s
  | .taskDispatch m ecc => Sys2Proof.Machine.execTaskDispatch m ecc s
  | .taskComplete m t fn ecc => Sys2Proof.Machine.execTaskComplete m t fn ecc s
  | .tkcPostArrival arriving => Sys2Proof.Machine.execTkcPostArrival arriving s
  | .taskWatchdog m t => Sys2Proof.Machine.execTaskWatchdog m t s
  | .teFault m t cause => Sys2Proof.Machine.execTeFault m t cause s
  | .dmaTailWrite who m ch v => Sys2Proof.Machine.execDmaTailWrite who m ch v s
  | .dmaDescriptorFetch m ch ecc => Sys2Proof.Machine.execDmaDescriptorFetch m ch ecc s
  | .dmaTransferComplete m ch ecc err lines => Sys2Proof.Machine.execDmaTransferComplete m ch ecc err lines s
  | .tqClr who m q => Sys2Proof.Machine.execTqClr who m q s
  | .teOff who m mask => Sys2Proof.Machine.execTeOff who m mask s
  | .teReadmit who m mask => Sys2Proof.Machine.execTeReadmit who m mask s
  | .millRetest who m => Sys2Proof.Machine.execMillRetest who m s
  | .millReadmit who m => Sys2Proof.Machine.execMillReadmit who m s
  | .millFault m clock => Sys2Proof.Machine.execMillFault m clock s
  | .millCreditTimeout m => Sys2Proof.Machine.execMillCreditTimeout m s
  | .bistComplete target teFail millFail => Sys2Proof.Machine.execBistComplete target teFail millFail s
  | .testPeriodTimer q => Sys2Proof.Machine.execTestPeriodTimer q s
  | .oppointSwitch q => Sys2Proof.Machine.execOppointSwitch q s
  | .msSignalArrival arriving => Sys2Proof.Machine.execMsSignalArrival arriving s
  | .msig core ms count => Sys2Proof.Machine.execMsig core ms count s
  | .mwait core ms h timeout act => Sys2Proof.Machine.execMwait core ms h timeout act s
  | .mrearm core ms value target => Sys2Proof.Machine.execMrearm core ms value target s
  | .msCoreRead core ms => Sys2Proof.Machine.execMsCoreRead core ms s
  | .waiterTimeout => Sys2Proof.Machine.execWaiterTimeout s
  | .battAlloc reqs => Sys2Proof.Machine.execBattAlloc reqs s
  | .battFree agent handle => Sys2Proof.Machine.execBattFree agent handle s
  | .battGive agent handle target => Sys2Proof.Machine.execBattGive agent handle target s
  | .battWaiterGrant long => Sys2Proof.Machine.execBattWaiterGrant long s
  | .battWaitTimeout long => Sys2Proof.Machine.execBattWaitTimeout long s
  | .projectorJob spur desc err => Sys2Proof.Machine.execProjectorJob spur desc err s
  | .projectorJobComplete p => Sys2Proof.Machine.execProjectorJobComplete p s
  | .projectorClose spur desc => Sys2Proof.Machine.execProjectorClose spur desc s
  | .egoXchkCompare slot => Sys2Proof.Machine.execEgoXchkCompare slot s
  | .egoClr who slot => Sys2Proof.Machine.execEgoClr who slot s
  | .trackerPass spur desc err => Sys2Proof.Machine.execTrackerPass spur desc err s
  | .trackerFlush spur desc => Sys2Proof.Machine.execTrackerFlush spur desc s
  | .trackerPassComplete => Sys2Proof.Machine.execTrackerPassComplete s
  | .kerbCopyCount unit => Sys2Proof.Machine.execKerbCopyCount unit s
  | .binBoundary unit zone => Sys2Proof.Machine.execBinBoundary unit zone s
  | .holdExpiry unit zone => Sys2Proof.Machine.execHoldExpiry unit zone s
  | .poseFrameRx src frame => Sys2Proof.Machine.execPoseFrameRx src frame s
  | .maskRectCompute => Sys2Proof.Machine.execMaskRectCompute s
  | .maskAgeExpiry => Sys2Proof.Machine.execMaskAgeExpiry s
  | .latchAge z => Sys2Proof.Machine.execLatchAge z s
  | .deadlineFire slot => Sys2Proof.Machine.execDeadlineFire slot s
  | .slotArm who slot w => Sys2Proof.Machine.execSlotArm who slot w s
  | .verdictCommit core rec => Sys2Proof.Machine.execVerdictCommit core rec s
  | .krbReset who readback => Sys2Proof.Machine.execKrbReset who readback s
  | .estopInputChange side high => Sys2Proof.Machine.execEstopInputChange side high s
  | .estopFilterExpiry side => Sys2Proof.Machine.execEstopFilterExpiry side s
  | .estopDiscTimeout => Sys2Proof.Machine.execEstopDiscTimeout s
  | .feedbackInputChange side high => Sys2Proof.Machine.execFeedbackInputChange side high s
  | .feedbackTimeout side => Sys2Proof.Machine.execFeedbackTimeout side s
  | .darkTestStart o => Sys2Proof.Machine.execDarkTestStart o s
  | .darkTestSample o stopLevel => Sys2Proof.Machine.execDarkTestSample o stopLevel s
  | .darkTestEnd o => Sys2Proof.Machine.execDarkTestEnd o s
  | .outStuckTimeout o => Sys2Proof.Machine.execOutStuckTimeout o s
  | .unitLockstep unit => Sys2Proof.Machine.execUnitLockstep unit s
  | .chanMismatch => Sys2Proof.Machine.execChanMismatch s
  | .kerbCfgUe => Sys2Proof.Machine.execKerbCfgUe s
  | .kerbClockLoss => Sys2Proof.Machine.execKerbClockLoss s
  | .krbArm who w => Sys2Proof.Machine.execKrbArm who w s
  | .krbLatelogPop who => Sys2Proof.Machine.execKrbLatelogPop who s
  | .mbEnable who mb w => Sys2Proof.Machine.execMbEnable who mb w s
  | .mbDisable who mb w => Sys2Proof.Machine.execMbDisable who mb w s
  | .mbSqDb who mb v => Sys2Proof.Machine.execMbSqDb who mb v s
  | .mbCqDb who mb v => Sys2Proof.Machine.execMbCqDb who mb v s
  | .descriptorFetch mb desc cfg => Sys2Proof.Machine.execDescriptorFetch mb desc cfg s
  | .commandTimeout mb tag => Sys2Proof.Machine.execCommandTimeout mb tag s
  | .nccWatchdogExpiry core => Sys2Proof.Machine.execNccWatchdogExpiry core s
  | .nccUe core => Sys2Proof.Machine.execNccUe core s
  | .nop mb tag => Sys2Proof.Machine.execNop mb tag s
  | .getInfo mb tag => Sys2Proof.Machine.execGetInfo mb tag s
  | .hbLoad mb tag img => Sys2Proof.Machine.execHbLoad mb tag img s
  | .hbUnload mb tag => Sys2Proof.Machine.execHbUnload mb tag s
  | .invoke mb tag spent => Sys2Proof.Machine.execInvoke mb tag spent s
  | .hbQuery mb tag => Sys2Proof.Machine.execHbQuery mb tag s
  | .kerbLoad mb tag image => Sys2Proof.Machine.execKerbLoad mb tag image s
  | .kerbReset mb tag readback => Sys2Proof.Machine.execKerbReset mb tag readback s
  | .msCfg mb tag => Sys2Proof.Machine.execMsCfg mb tag s
  | .msRearm mb tag => Sys2Proof.Machine.execMsRearm mb tag s
  | .msRead mb tag => Sys2Proof.Machine.execMsRead mb tag s
  | .msSignal mb tag => Sys2Proof.Machine.execMsSignal mb tag s
  | .bpAlloc mb tag => Sys2Proof.Machine.execBpAlloc mb tag s
  | .bpFree mb tag => Sys2Proof.Machine.execBpFree mb tag s
  | .bpGive mb tag => Sys2Proof.Machine.execBpGive mb tag s
  | .wlCfg mb tag => Sys2Proof.Machine.execWlCfg mb tag s
  | .headCfg mb tag tables => Sys2Proof.Machine.execHeadCfg mb tag tables s
  | .eqCfg mb tag => Sys2Proof.Machine.execEqCfg mb tag s
  | .fulApply mb tag => Sys2Proof.Machine.execFulApply mb tag s
  | .ftCfg mb tag => Sys2Proof.Machine.execFtCfg mb tag s
  | .ptpCfg mb tag cfg => Sys2Proof.Machine.execPtpCfg mb tag cfg s
  | .ptpStat mb tag => Sys2Proof.Machine.execPtpStat mb tag s
  | .pmReq mb tag => Sys2Proof.Machine.execPmReq mb tag s
  | .mqOp mb tag => Sys2Proof.Machine.execMqOp mb tag s
  | .unitCtrl mb tag => Sys2Proof.Machine.execUnitCtrl mb tag s
  | .spurCfg mb tag => Sys2Proof.Machine.execSpurCfg mb tag s
  | .calStore mb tag payload settings code times => Sys2Proof.Machine.execCalStore mb tag payload settings code times s
  | .cwCfg mb tag => Sys2Proof.Machine.execCwCfg mb tag s
  | .scrubComplete r => Sys2Proof.Machine.execScrubComplete r s
  | .flr fn => Sys2Proof.Machine.execFlr fn s
  | .doeDiscovery index => Sys2Proof.Machine.execDoeDiscovery index s
  | .getVersion => Sys2Proof.Machine.execGetVersion s
  | .getCapabilities => Sys2Proof.Machine.execGetCapabilities s
  | .negotiateAlgorithms => Sys2Proof.Machine.execNegotiateAlgorithms s
  | .getDigests => Sys2Proof.Machine.execGetDigests s
  | .getCertificate slot offset length => Sys2Proof.Machine.execGetCertificate slot offset length s
  | .challenge nonce => Sys2Proof.Machine.execChallenge nonce s
  | .getMeasurements index => Sys2Proof.Machine.execGetMeasurements index s
  | .keyExchange session => Sys2Proof.Machine.execKeyExchange session s
  | .finish session => Sys2Proof.Machine.execFinish session s
  | .heartbeat session => Sys2Proof.Machine.execHeartbeat session s
  | .keyUpdate session => Sys2Proof.Machine.execKeyUpdate session s
  | .endSession session => Sys2Proof.Machine.execEndSession session s
  | .spdmUnsupported code => Sys2Proof.Machine.execSpdmUnsupported code s
  | .ideKmQuery => Sys2Proof.Machine.execIdeKmQuery s
  | .keyProg fn set1 transmit sub => Sys2Proof.Machine.execKeyProg fn set1 transmit sub s
  | .kSetGo fn set1 => Sys2Proof.Machine.execKSetGo fn set1 s
  | .kSetStop fn set1 => Sys2Proof.Machine.execKSetStop fn set1 s
  | .getTdispVersion => Sys2Proof.Machine.execGetTdispVersion s
  | .getTdispCapabilities => Sys2Proof.Machine.execGetTdispCapabilities s
  | .lockInterfaceRequest tdi => Sys2Proof.Machine.execLockInterfaceRequest tdi s
  | .getDeviceInterfaceReport tdi => Sys2Proof.Machine.execGetDeviceInterfaceReport tdi s
  | .getDeviceInterfaceState tdi => Sys2Proof.Machine.execGetDeviceInterfaceState tdi s
  | .startInterfaceRequest tdi => Sys2Proof.Machine.execStartInterfaceRequest tdi s
  | .stopInterfaceRequest tdi => Sys2Proof.Machine.execStopInterfaceRequest tdi s
  | .ideIntegrityFailure fn => Sys2Proof.Machine.execIdeIntegrityFailure fn s
  | .isoLogPop who => Sys2Proof.Machine.execIsoLogPop who s
  | .cwFrameBoundary => Sys2Proof.Machine.execCwFrameBoundary s
  | .cwMarkerARx lane m => Sys2Proof.Machine.execCwMarkerARx lane m s
  | .cwMarkerBRx lane m => Sys2Proof.Machine.execCwMarkerBRx lane m s
  | .stopStateRx p => Sys2Proof.Machine.execStopStateRx p s
  | .timePacketRx p arrival residence => Sys2Proof.Machine.execTimePacketRx p arrival residence s
  | .helloRx p proof => Sys2Proof.Machine.execHelloRx p proof s
  | .helloTimer nonce => Sys2Proof.Machine.execHelloTimer nonce s
  | .discoverRx p => Sys2Proof.Machine.execDiscoverRx p s
  | .mapRx p => Sys2Proof.Machine.execMapRx p s
  | .ctrlPacketRx p => Sys2Proof.Machine.execCtrlPacketRx p s
  | .ctrlAckRx p => Sys2Proof.Machine.execCtrlAckRx p s
  | .dataPacketRx p => Sys2Proof.Machine.execDataPacketRx p s
  | .ctrlRetryTimeout spur seq => Sys2Proof.Machine.execCtrlRetryTimeout spur seq s
  | .cwLaneLoss lane => Sys2Proof.Machine.execCwLaneLoss lane s
  | .cwLaneErrorRate lane => Sys2Proof.Machine.execCwLaneErrorRate lane s
  | .cwLaneQualified lane => Sys2Proof.Machine.execCwLaneQualified lane s
  | .cwLaneCalStart lane inPath => Sys2Proof.Machine.execCwLaneCalStart lane inPath s
  | .cwLaneCalDone lane inPath locked => Sys2Proof.Machine.execCwLaneCalDone lane inPath locked s
  | .cwBatchCalDone failed crosstalkHigh => Sys2Proof.Machine.execCwBatchCalDone failed crosstalkHigh s
  | .cwNoMarkerTimeout => Sys2Proof.Machine.execCwNoMarkerTimeout s
  | .cwSplice => Sys2Proof.Machine.execCwSplice s
  | .cwSpliceSchedule => Sys2Proof.Machine.execCwSpliceSchedule s
  | .cwHopDataTimeout inHop => Sys2Proof.Machine.execCwHopDataTimeout inHop s
  | .cwDiscoverStart => Sys2Proof.Machine.execCwDiscoverStart s
  | .cwMapBroadcast => Sys2Proof.Machine.execCwMapBroadcast s
  | .cwTimeReturnTimeout => Sys2Proof.Machine.execCwTimeReturnTimeout s
  | .aggTimeout d => Sys2Proof.Machine.execAggTimeout d s
  | .cwRxFailTimeout => Sys2Proof.Machine.execCwRxFailTimeout s
  | .cwTxBiasFault => Sys2Proof.Machine.execCwTxBiasFault s
  | .waitp temp drain => Sys2Proof.Machine.execWaitp temp drain s
  | .railAck rail => Sys2Proof.Machine.execRailAck rail s
  | .railAckTimeout rail => Sys2Proof.Machine.execRailAckTimeout rail s
  | .wakeHostpin => Sys2Proof.Machine.execWakeHostpin s
  | .wakeTimer => Sys2Proof.Machine.execWakeTimer s
  | .wakeWlport p => Sys2Proof.Machine.execWakeWlport p s
  | .wakeCwlight p => Sys2Proof.Machine.execWakeCwlight p s
  | .aonTherm temp => Sys2Proof.Machine.execAonTherm temp s
  | .aonIlim => Sys2Proof.Machine.execAonIlim s
  | .wakeComplete badGroups => Sys2Proof.Machine.execWakeComplete badGroups s
  | .bowCrossing rail => Sys2Proof.Machine.execBowCrossing rail s
  | .bowEnd => Sys2Proof.Machine.execBowEnd s
  | .borCrossing rail => Sys2Proof.Machine.execBorCrossing rail s
  | .pmbAlert rail fault => Sys2Proof.Machine.execPmbAlert rail fault s
  | .por facts resetLow => Sys2Proof.Machine.execPor facts resetLow s
  | .pinReset => Sys2Proof.Machine.execPinReset s
  | .wdtExpiry facts => Sys2Proof.Machine.execWdtExpiry facts s
  | .softReset who facts => Sys2Proof.Machine.execSoftReset who facts s
  | .hotReset => Sys2Proof.Machine.execHotReset s
  | .domainReset who d cardPass => Sys2Proof.Machine.execDomainReset who d cardPass s
  | .rstWdtKick who => Sys2Proof.Machine.execRstWdtKick who s
  | .strapResample devid role => Sys2Proof.Machine.execStrapResample devid role s
  | .flashOpComplete ok good cells => Sys2Proof.Machine.execFlashOpComplete ok good cells s
  | .msixUnmask f en fnMask vecMask => Sys2Proof.Machine.execMsixUnmask f en fnMask vecMask s
  | .busMasterEnable f en => Sys2Proof.Machine.execBusMasterEnable f en s
  | .hostDmaCompletion mb data => Sys2Proof.Machine.execHostDmaCompletion mb data s
  | .hostDmaError mb what kind => Sys2Proof.Machine.execHostDmaError mb what kind s
  | .pmeTurnOff => Sys2Proof.Machine.execPmeTurnOff s
  | .dStateChange f d3hot => Sys2Proof.Machine.execDStateChange f d3hot s
  | .pciePerst low => Sys2Proof.Machine.execPciePerst low s
  | .pcieWakeTimeout => Sys2Proof.Machine.execPcieWakeTimeout s
  | .lpddrRetrain c mr4 => Sys2Proof.Machine.execLpddrRetrain c mr4 s
  | .lpddrPhyLockLoss c => Sys2Proof.Machine.execLpddrPhyLockLoss c s
  | .drdyEdge p => Sys2Proof.Machine.execDrdyEdge p s
  | .spiFrameDone p data => Sys2Proof.Machine.execSpiFrameDone p data s
  | .i3cIbi c d => Sys2Proof.Machine.execI3cIbi c d s
  | .i3cReadDone c d data => Sys2Proof.Machine.execI3cReadDone c d data s
  | .i3cHotJoin c d => Sys2Proof.Machine.execI3cHotJoin c d s
  | .chPop who k => Sys2Proof.Machine.execChPop who k s
  | .auxevPop who p => Sys2Proof.Machine.execAuxevPop who p s
  | .ethLinkLoss => Sys2Proof.Machine.execEthLinkLoss s
  | .ethTxFault asserted => Sys2Proof.Machine.execEthTxFault asserted s
  | .gpioEdge pin high => Sys2Proof.Machine.execGpioEdge pin high s
  | .gpioPop who => Sys2Proof.Machine.execGpioPop who s
  | .tapInstruction code => Sys2Proof.Machine.execTapInstruction code s
  | .cardUnitFault u parity => Sys2Proof.Machine.execCardUnitFault u parity s
  | .cardHandshakeTimeout u => Sys2Proof.Machine.execCardHandshakeTimeout u s
  | .sharedUnitFault island cause facts => Sys2Proof.Machine.execSharedUnitFault island cause facts s
  | .spurFault sp fwCheck => Sys2Proof.Machine.execSpurFault sp fwCheck s
  | .errPop who sp => Sys2Proof.Machine.execErrPop who sp s
  | .vdd3v3Loss => Sys2Proof.Machine.execVdd3v3Loss s
  | .thermtrip sensor reading => Sys2Proof.Machine.execThermtrip sensor reading s
  | .rcFieldRead who off len => Sys2Proof.Machine.execRcFieldRead who off len s
  | .resetNRelease facts => Sys2Proof.Machine.execResetNRelease facts s
  | .borEnd facts => Sys2Proof.Machine.execBorEnd facts s
  | .vdd3v3Return => Sys2Proof.Machine.execVdd3v3Return s
  | .pcieLinkUp speed width => Sys2Proof.Machine.execPcieLinkUp speed width s
  | .ethLinkUp => Sys2Proof.Machine.execEthLinkUp s
  | .vfEnableWrite en num => Sys2Proof.Machine.execVfEnableWrite en num s

end Sys2Proof.Machine
end

