-- ==== Sys2Proof/Machine/Step.lean ====
section
/-!
DEFINITION. One step: the command at the front of the queue, or, while none waits, one nanosecond of the raw counter.
-/
namespace Sys2Proof.Machine

/-- The units of PD_FUL in one nanosecond, which is their cycle: the snapshots of the Fuller's windows (R177), the Projectors
(R286) and the Tracker (R294). -/
def State.fulTick (s : State) : State := (if s.projLive then s.fullerSnap.projTick else s.fullerSnap).trkTick

/-- What passes with one nanosecond (R38, R45, R177, R439, R582): the raw counter, the slew, a commit that is due, the power
sequencer and the units of PD_FUL. DEDUCED: the units read Waytime in every cycle, so a negative one sets
TIME_NEG (R44). In OFF nothing runs (R451). -/
def State.tick (s : State) : State :=
  if s.inOff then s
  else
    (((((s.onRaw fun r => (r + 1) % 2 ^ 64).onTime TimeSt.slewTick).settleCommit).noteNeg).pmTick).fulTick

/-- A step. DESIGN CHOICE: with no command waiting the block idles for one nanosecond; an event the spec names is a command of
its own. -/
def step (s : State) : Host.Outcome State Fault Refusal :=
  match s.pending with
  | [] => .next s.tick
  | c :: rest => exec c { s with pending := rest }

/-- The state with the command that a word spells at the front of its queue; unchanged where it spells none. -/
def State.withFetchWord (s : State) (nbits w : Nat) : State :=
  match decodeTableWord nbits w with
  | some c => { s with pending := c :: s.pending }
  | none => s

end Sys2Proof.Machine
end

