-- ==== Sys2Proof/Safety.lean ====
section
/-!
DEFINITION. What a state must satisfy in every run, and what counts as a safe run, in the terms the claims use.
-/
namespace Sys2Proof.Machine

/-- Every listed register field holds a value that fits its width, and not its reset value: the registers are in their one
canonical form. -/
def RegsOk (t : Table Nat) : Prop :=
  t.Pairwise (fun a b => a.1 < b.1) ∧
    ∀ e ∈ t, ∃ r : Reg, ∃ i : Nat, e.1 = r.key i ∧ e.2 < 2 ^ r.spec.width ∧ e.2 ≠ r.spec.rst

/-- What every step keeps: the memory and the registers are in their canonical forms, the raw counter fits 64 bits, and every
waiting command is well formed. -/
structure State.Inv (s : State) : Prop where
  mem : Memory.wf s.mem
  regs : RegsOk s.regs
  raw : s.raw < 2 ^ 64
  queue : ∀ c ∈ s.pending, c.wf = true

/-- Every buffer that the spec bounds holds no more than its bound: the error rings (R538), ISO_LOG (R384), the transmit-stamp
queue (R53), the chain FIFOs and the GPIO log (`spec/18_aux_signals.md`), the late log of the Kerb (R318's chapter), the feature
FIFOs of the Fuller and the two waiter lists of the batt pools (R272). -/
structure State.Bounded (s : State) : Prop where
  errs : ∀ sp, (s.errRing sp).recs.length ≤ 64
  isoLog : s.isoLog.length ≤ 32
  txts : s.time.txts.length ≤ 64
  chains : ∀ k, (s.chain k).fifo.length ≤ 64
  gpio : s.aux.gpio.length ≤ 32
  late : s.kerb.lateLog.length ≤ 64
  feats : ∀ i, (s.sub i).fifo.length ≤ 16
  shortQ : s.ms.shortQ.length ≤ 64
  longQ : s.ms.longQ.length ≤ 64

/-- Command `c`, in flight on a mailbox with this TAG and opcode, runs now: it may start, its DEADLINE has not passed (R340),
and where it needs host transfers its function may issue requests (R501). -/
def State.runs (s : State) (mb : Fin 64) (tag : BitVec 16) (op : Nat) (host : Bool) (c : Cmd) : Prop :=
  s.startable mb.val tag.toNat op = some c ∧ s.late c = false ∧
    (host = true → s.fnExists (mb.val / 8) = true ∧ s.mayIssue (mb.val / 8) = true)

/-- A run is safe for `n` steps: every one of them answers a next state. -/
def SafeRun : Nat → State → Prop
  | 0, _ => True
  | n + 1, s => ∃ t, step s = .next t ∧ SafeRun n t

end Sys2Proof.Machine
end

