-- ==== Sys2Proof/Certificates/Slice0/Obligations.lean ====
section
/-!
DEFINITION. The statements about the model that the provers prove, in the order of OBLIGATIONS.json.
-/
open Sys2Proof Sys2Proof.Machine

/-- For every command c, every state s and every list of further waiting commands, the step of s with c at the front of
its queue is exec of c on s with the rest as its queue. The queue is the model's (DESIGN CHOICE, log entry 1): the
spec names no order of commands. -/
def Obligations.StepRunsFrontCommand : Prop :=
  ∀ (c : Instr) (s : State) (rest : List Instr),
    Sys2Proof.Machine.step { s with pending := c :: rest } = Sys2Proof.Machine.exec c { s with pending := rest }

/-- With an empty queue a step answers next. Outside the OFF condition the raw counter is one higher, modulo 2 to the
64th, and no command waits; in OFF, where nothing runs, the state is unchanged. That an idle step is one nanosecond is
the model's choice (DESIGN CHOICE, log entry 1); R38 and R451 say what passes. -/
def Obligations.IdleStepIsOneNanosecond : Prop :=
  ∀ s : State, s.pending = [] →
    (s.inOff = true → Sys2Proof.Machine.step s = .next s) ∧
    (s.inOff = false → ∃ t, Sys2Proof.Machine.step s = .next t ∧ t.raw = (s.raw + 1) % 2 ^ 64 ∧ t.pending = [])

/-- If a state has its memory and its registers in canonical form (keys strictly rising, nothing listed that equals what
an unlisted one reads as), every listed register value within the width of its field, a raw counter below 2 to the
64th and only well-formed commands waiting, and a step answers a next state, then the next state has all of this too.
Holds of every command of the table and of the idle step. -/
def Obligations.StepKeepsTheInvariant : Prop :=
  ∀ s t : State, s.Inv → Sys2Proof.Machine.step s = .next t → t.Inv

/-- State.reset has its memory and registers in canonical form with nothing listed, a raw counter of 0 and an empty queue,
and every bounded buffer of the device is within its bound. The values the spec gives no reset for are the model's
(log entry 4). -/
def Obligations.ResetHasTheInvariant : Prop :=
  State.reset.Inv ∧ State.reset.Bounded ∧ State.reset.raw = 0 ∧ State.reset.pending = [] ∧ State.reset.mem = [] ∧
    ∀ r i, State.reset.rd r i = r.spec.rst

/-- From every state in which each error ring holds at most 64 records, ISO_LOG at most 32 entries, the transmit-stamp
queue at most 64, each chain FIFO at most 64, the GPIO log at most 32, the late log at most 64, each feature FIFO at
most 16 and each waiter list of the batt pools at most 64, a step that answers a next state gives a state of which the
same holds. -/
def Obligations.BuffersStayBounded : Prop :=
  ∀ s t : State, s.Bounded → Sys2Proof.Machine.step s = .next t → t.Bounded

/-- For every state s, exec of a well-formed command answers a next state, and exec of a command that is not well formed
(a packet, descriptor, record or fuse list of a length no such event has) is the fault malformed. So no command the
device accepts stops the model, in any state. -/
def Obligations.WellFormedCommandsComplete : Prop :=
  ∀ (c : Instr) (s : State),
    (c.wf = true → ∃ t, Sys2Proof.Machine.exec c s = .next t) ∧
    (c.wf = false → Sys2Proof.Machine.exec c s = .fault .malformed)

/-- Where exec of a command answers a next state, the commands that wait are the same as before, in every state and for
every command. The queue is the model's (log entry 1). -/
def Obligations.CommandsLeaveTheQueue : Prop :=
  ∀ (c : Instr) (s t : State), Sys2Proof.Machine.exec c s = .next t → t.pending = s.pending

/-- Whatever command runs, in whatever state: where it answers a next state, the raw counter is as before, or it is 0 and
the command is POR, BOR_CROSSING, or RESET_N_RELEASE in the OFF condition, which is a POR (Table RP-1). -/
def Obligations.RawCounterOnlyResets : Prop :=
  ∀ (c : Instr) (s t : State), Sys2Proof.Machine.exec c s = .next t →
    t.raw = s.raw ∨ (t.raw = 0 ∧ ((∃ f l, c = .por f l) ∨ (∃ r, c = .borCrossing r) ∨ (s.inOff = true ∧ ∃ f, c = .resetNRelease f)))

/-- A read of TIME_RAW_LO (R50) answers the low word of the raw counter and latches the upper word in TIME_RAW_HI, and
nothing else changes; a read of TIME_RC_LO does the same with R_c (Table TB-7). A write of 1 to TIME_SNAP.GO, by the firmware
or PF0, puts the raw value and the SEC, NS and FRAC of the Waytime computed from that same raw value into the SNAP registers,
and one by a virtual function puts them into its own snapshot set (R493); TIME_NEG sets where that Waytime is negative (R44),
and every other register field and all of memory stay. -/
def Obligations.TimeReadsAndSnapshot : Prop :=
  ∀ (s : State) (who : Agent),
    (s.readOpen who = .ok s →
      exec (.timeRawLoRead who) s =
        .next ((s.wr .TIME_RAW_HI 0 (s.raw / 2 ^ 32)).emit (.readData who (s.raw % 2 ^ 32)))) ∧
    (s.admitRead who .TIME_RC_HI 0 = .ok s →
      exec (.timeRcLoRead who) s =
        .next ((s.wr .TIME_RC_HI 0 (s.time.rcShown / 2 ^ 32)).emit (.readData who (s.time.rcShown % 2 ^ 32)))) ∧
    (s.letIn who .TIME_SNAP_GO 0 = .ok s → (∀ f b, who = .host f b → f = 0) →
      ∃ t, exec (.timeSnapGo who) s = .next t ∧
        t.rd64 .SNAP_RAW_LO .SNAP_RAW_HI = s.raw % 2 ^ 64 ∧
        t.rd64 .SNAP_SEC_LO .SNAP_SEC_HI = wtSec s.waytime % 2 ^ 64 ∧
        t.rd .SNAP_NS = wtNs s.waytime ∧ t.rd .SNAP_FRAC = wtFrac s.waytime ∧
        t.flag .TIME_STAT_TIME_NEG = (s.flag .TIME_STAT_TIME_NEG || s.waytimeNeg) ∧
        (∀ r i, r ∉ [Reg.SNAP_RAW_LO, .SNAP_RAW_HI, .SNAP_SEC_LO, .SNAP_SEC_HI, .SNAP_NS, .SNAP_FRAC, .TIME_STAT_TIME_NEG] →
          t.rd r i = s.rd r i) ∧
        t.mem = s.mem ∧ t.time = s.time) ∧
    (∀ f b, who = .host f b → f ≠ 0 → s.letIn who .TIME_SNAP_GO 0 = .ok s →
      ∃ t, exec (.timeSnapGo who) s = .next t ∧
        Table.get {} t.time.vfSnap f.val = ⟨s.raw, wtSec s.waytime % 2 ^ 64, wtNs s.waytime, wtFrac s.waytime⟩ ∧
        t.flag .TIME_STAT_TIME_NEG = (s.flag .TIME_STAT_TIME_NEG || s.waytimeNeg) ∧
        (∀ r i, r ≠ .TIME_STAT_TIME_NEG → t.rd r i = s.rd r i) ∧ t.mem = s.mem)

/-- With no commit waiting for its R_c, the Waytime of a raw value r is r × 2^16 + OFF + floor(RATE × (r − RBASE) ÷ 2^32),
in units of 2^-16 ns, rounded toward minus infinity; where that is negative it reads 0, and a snapshot taken then sets
TIME_NEG. -/
def Obligations.WaytimeValue : Prop :=
  ∀ (s : State), s.time.taken = none →
    (∀ r : Nat, (s.waytimeAt r : Int) =
      max 0 ((r : Int) * 2 ^ 16 + s.time.off + (s.time.rate * ((r : Int) - s.time.rbase)).fdiv (2 ^ 32))) ∧
    (∀ c : Fin 16, s.letIn (.fw c) .TIME_SNAP_GO 0 = .ok s →
      (s.raw : Int) * 2 ^ 16 + s.time.off + (s.time.rate * ((s.raw : Int) - s.time.rbase)).fdiv (2 ^ 32) < 0 →
      ∃ t, exec (.timeSnapGo (.fw c)) s = .next t ∧ t.rd .TIME_STAT_TIME_NEG = 1 ∧
        t.rd64 .SNAP_SEC_LO .SNAP_SEC_HI = 0 ∧ t.rd .SNAP_NS = 0 ∧ t.rd .SNAP_FRAC = 0)

/-- For a TIME_CMD write that is admitted while no commit waits: a commit with SLEW_PPM 1 to 100 sets R_c to the multiple
of 16 in [raw + 32, raw + 48) and SLEW_PPM, and every stamp below R_c has the Waytime it had before. From R_c on,
after FOLD the Waytime is r × 2^16 + (OFF + floor(RATE × (R_c − RBASE) ÷ 2^32)) + floor(new RATE × (r − R_c) ÷ 2^32),
OFF wrapping at its 80 bits; after STEP, TIME_SLEW × 2^16 is added to OFF; a SLEW leaves every stamp as it was. A STEP
with the Kerb armed or a deadline slot occupied changes nothing and sets STEP_REFUSED (R47). OP NONE only
sets SLEW_PPM (R46). SLEW_PPM 0 or above 100 discards the write with a REG_RSVD record to Spur 0. The registers,
memory and time parameters not named stay as they are. -/
def Obligations.TimeCommitsAtRc : Prop :=
  ∀ (s : State) (who : Agent) (ppm : BitVec 8), s.letIn who .TIME_CMD_OP 0 = .ok s → s.time.taken = none → s.time.held = [] →
    let base : State := s.wr .TIME_CMD_SLEW_PPM 0 ppm.toNat
    let rc := (s.raw + 32 + 15) / 16 * 16
    let took := fun op => base.onTime fun t =>
      { t with rc := rc, rcShown := rc, taken := some (⟨op, s.shadowRate, s.rdSigned .TIME_SLEW, ppm.toNat⟩, rc) }
    ((1 ≤ ppm.toNat ∧ ppm.toNat ≤ 100) →
      (16 ∣ rc ∧ s.raw + 32 ≤ rc ∧ rc < s.raw + 48) ∧
      exec (.timeCmdNone who ppm) s = .next base ∧
      exec (.timeCmdFold who ppm) s = .next (took .fold) ∧
      exec (.timeCmdSlew who ppm) s = .next (took .slew) ∧
      (s.stepRefused = false → exec (.timeCmdStep who ppm) s = .next (took .step)) ∧
      (s.stepRefused = true → exec (.timeCmdStep who ppm) s = .next (s.put .TIME_STAT_STEP_REFUSED 0 true)) ∧
      (∀ op r, r < rc → (took op).waytimeAt r = s.waytimeAt r) ∧
      (∀ r, (took .slew).waytimeAt r = s.waytimeAt r) ∧
      (∀ r, rc ≤ r → ((took .step).waytimeAt r : Int) =
        max 0 ((r : Int) * 2 ^ 16 + wrapOff (s.time.off + s.rdSigned .TIME_SLEW * 2 ^ 16) + rateTerm s.time.rate r s.time.rbase)) ∧
      (∀ r, rc ≤ r → ((took .fold).waytimeAt r : Int) =
        max 0 ((r : Int) * 2 ^ 16 + wrapOff (s.time.off + rateTerm s.time.rate rc s.time.rbase) + rateTerm s.shadowRate r rc))) ∧
    ((ppm.toNat = 0 ∨ 100 < ppm.toNat) →
      exec (.timeCmdNone who ppm) s = .next (s.record 0 .regRsvd 1 [0x1005C]) ∧
      exec (.timeCmdFold who ppm) s = .next (s.record 0 .regRsvd 1 [0x1005C]) ∧
      exec (.timeCmdSlew who ppm) s = .next (s.record 0 .regRsvd 1 [0x1005C]) ∧
      exec (.timeCmdStep who ppm) s = .next (s.record 0 .regRsvd 1 [0x1005C]))

/-- In a cycle after the earlier R_c, the oldest held commit is taken with the values of its own write, or, a STEP that R47
refuses, changes nothing and sets STEP_REFUSED; until then it waits (R46). At R_c, and not before, FOLD and STEP change OFF,
RATE and RBASE as Table TB-2 says; a SLEW adds TIME_SLEW × 2^16 to the signed 64-bit remainder, sets the SLEW_PPM in force,
leaves OFF, RATE and RBASE, and slews exactly if the remainder is not zero (R582). In every raw nanosecond with a remainder, the
accumulator gains SLEW_PPM × 65,536 millionths of a unit; OFF and the remainder move by the same whole units, never past the
remainder, and when it is zero SLEWING and the accumulator clear. SLEW_END clears SLEWING and the accumulator when the remainder
is zero. Registers but SLEW_PPM and STEP_REFUSED, and memory, stay as they are. A sum of remainders beyond 64 bits wraps (DESIGN
CHOICE, log entry 16). -/
def Obligations.TimeCommitLifeAndSlew : Prop :=
  ∀ (s : State),
    (∀ c rest, s.time.held = c :: rest → s.time.taken = none → s.time.rc < s.raw →
      ((c.op = .step → s.stepRefused = false) →
        exec .timeCommitRelease s =
          .next ((s.wr .TIME_CMD_SLEW_PPM 0 c.ppm).onTime fun t =>
            { t with held := rest, rc := rcAfter s.raw, rcShown := rcAfter s.raw, taken := some (c, rcAfter s.raw) })) ∧
      (c.op = .step → s.stepRefused = true →
        exec .timeCommitRelease s =
          .next ((s.put .TIME_STAT_STEP_REFUSED 0 true).onTime fun t => { t with held := rest }))) ∧
    (s.raw ≤ s.time.rc → exec .timeCommitRelease s = .next s) ∧
    (∀ c rc, s.time.taken = some (c, rc) → s.raw < rc → exec .timeCommitApply s = .next s) ∧
    (∀ c rc, s.time.taken = some (c, rc) → rc ≤ s.raw →
      (c.op = .fold → exec .timeCommitApply s = .next (s.onTime fun t =>
        { t with
          off := wrapOff (t.off + rateTerm t.rate rc t.rbase), rate := c.rate, rbase := rc, taken := none })) ∧
      (c.op = .step → exec .timeCommitApply s = .next (s.onTime fun t =>
        { t with
          off := wrapOff (t.off + c.slew * 2 ^ 16), taken := none })) ∧
      (c.op = .slew →
        let r := Int.bmod (s.time.slewRem + c.slew * 2 ^ 16) (2 ^ 64)
        exec .timeCommitApply s = .next (s.onTime fun t =>
          { t with
            taken := none, slewRem := r, slewPpm := c.ppm, slewing := r != 0, slewAcc := if r = 0 then 0 else t.slewAcc }))) ∧
    (s.time.slewRem = 0 → exec .slewEnd s = .next (s.onTime fun t => { t with slewing := false, slewAcc := 0 })) ∧
    (∀ t, t = s.time.slewTick → s.time.slewRem ≠ 0 →
      t.slewRem.natAbs ≤ s.time.slewRem.natAbs ∧
      t.off = wrapOff (s.time.off + (s.time.slewRem - t.slewRem)) ∧
      (s.time.slewRem - t.slewRem).natAbs = min ((s.time.slewAcc + s.time.slewPpm * 65536) / 10 ^ 6) s.time.slewRem.natAbs ∧
      (t.slewRem = 0 → t.slewing = false ∧ t.slewAcc = 0) ∧
      (t.slewRem ≠ 0 → t.slewAcc = (s.time.slewAcc + s.time.slewPpm * 65536) % 10 ^ 6))

/-- A lost reference sets its LOS bit and grades ABSENT (3), and nothing else changes. With an arbiter or an earlier good
estimate as the base, the end of a window in which both references have edges grades each by its own deviation: up to
20,000 ppb OK, up to 50,000 WARN, else FAIL, and REF_DISAGREE clears (R63, Table TB-5); the three deviations are
reported. In holdover with both references ABSENT the 1 s timeout sets REF_NONE and the code becomes FREE, with vector
18 of PF0 where that is a change. -/
def Obligations.ReferencesAndTimeQuality : Prop :=
  ∀ (s : State),
    exec (.refLoss .A) s = .next ((s.put .TIME_STAT_LOS_A 0 true).wr .TIME_STAT_GRADE_A 0 3) ∧
    exec (.refLoss .B) s = .next ((s.put .TIME_STAT_LOS_B 0 true).wr .TIME_STAT_GRADE_B 0 3) ∧
    (s.time.holdover = true → s.rd .TIME_STAT_GRADE_A = 3 → s.rd .TIME_STAT_GRADE_B = 3 →
      exec .refNoneTimeout s =
        .next (if s.rd .TIME_STAT_TQ = 3 then s.put .TIME_STAT_REF_NONE 0 true
          else ((s.put .TIME_STAT_REF_NONE 0 true).wr .TIME_STAT_TQ 0 3).irq 0 18)) ∧
    (∀ m : RefMeas, (s.arbiterNow = true ∨ s.time.lastGood ≠ none) → m.edgesA = true → m.edgesB = true →
      ∃ t, exec (.refWindowEnd m) s = .next t ∧
        t.rd .TIME_STAT_GRADE_A = (if m.devA.natAbs ≤ 20000 then 0 else if m.devA.natAbs ≤ 50000 then 1 else 2) ∧
        t.rd .TIME_STAT_GRADE_B = (if m.devB.natAbs ≤ 20000 then 0 else if m.devB.natAbs ≤ 50000 then 1 else 2) ∧
        t.rd .TIME_STAT_REF_DISAGREE = 0 ∧
        t.rd .REF_DEV_A = ofSigned 32 m.devA ∧ t.rd .REF_DEV_B = ofSigned 32 m.devB ∧ t.rd .REF_DEV_AB = ofSigned 32 m.devAB ∧
        t.raw = s.raw ∧ t.time.off = s.time.off ∧ t.time.rate = s.time.rate ∧ t.mem = s.mem)

/-- With PD_AUX on: a PTP message outside Table TB-4 only counts in PTP_STAT.DISCARD, one within it goes to the servo with
the Waytime less ETH0_ASYM_IN; a Sync's offset joins the last 16, but not on a Brim, and an Announce enters its sender in the
foreign-master table while that has fewer than 8 (R51, R52); a frame with a stamp identifier that
leaves ETH0 pushes its identifier and the Waytime plus ETH0_ASYM_OUT; ARP for ETH_IP is answered with the MAC, any
other ARP or frame counts in ETH_DISCARD (R529). A frame discarded before transmission pushes an entry with DROPPED
and a zero stamp (R54). On 64 entries the new stamp is lost, OVF sets and OVF_CNT counts (R53). TXTS_POP removes the
head entry. A new PTP port state is shown in PTP_STAT and changes no Waytime. -/
def Obligations.NetworkTimeOnEth0 : Prop :=
  ∀ (s : State),
    (∀ m, s.domOn pdAux = true → s.ptpSupported m = false → exec (.ptpMessageRx m) s = .next (s.count .PTP_STAT_DISCARD)) ∧
    (∀ m, s.domOn pdAux = true → s.ptpSupported m = true →
      exec (.ptpMessageRx m) s = .next ((s.onTime fun t =>
        { t with
          servo := if m.msgType = 0 ∧ s.isBrim = false then (m.servoOffset :: t.servo).take 16 else t.servo
          foreign := if m.msgType = 11 ∧ m.source.toNat ∉ t.foreign ∧ t.foreign.length < 8 then t.foreign ++ [m.source.toNat]
            else t.foreign }).emit
        (.ptpToServo m ((s.waytime : Int) - asymUnits (s.rdSigned .ETH0_ASYM_IN))))) ∧
    (∀ id, s.domOn pdAux = true → s.time.txts.length < 64 →
      exec (.ptpFrameTx id) s = .next (s.onTime fun t =>
        { t with txts := t.txts ++ [⟨id, false, ((s.waytime : Int) + asymUnits (s.rdSigned .ETH0_ASYM_OUT)).toNat⟩] })) ∧
    (∀ id, s.domOn pdAux = true → 64 ≤ s.time.txts.length →
      exec (.ptpFrameTx id) s = .next ((s.put .TXTS_STAT_OVF 0 true).count .TXTS_STAT_OVF_CNT)) ∧
    (∀ id, s.time.txts.length < 64 →
      exec (.ptpFrameDropped id) s = .next (s.onTime fun t => { t with txts := t.txts ++ [⟨id, true, 0⟩] })) ∧
    (∀ id, 64 ≤ s.time.txts.length →
      exec (.ptpFrameDropped id) s = .next ((s.put .TXTS_STAT_OVF 0 true).count .TXTS_STAT_OVF_CNT)) ∧
    (∀ who, s.letIn who .TXTS_POP 0 = .ok s →
      exec (.txtsPop who) s = .next (s.onTime fun t => { t with txts := t.txts.tail })) ∧
    (∀ ip : Word, s.domOn pdAux = true → ip.toNat = s.rd .ETH_IP →
      exec (.arpRequestRx ip) s = .next (s.emit (.arpReply ip (s.rd .ETH_MAC_LO + 2 ^ 32 * s.rd .ETH_MAC_HI)))) ∧
    (∀ ip : Word, s.domOn pdAux = true → ip.toNat ≠ s.rd .ETH_IP → exec (.arpRequestRx ip) s = .next (s.count .ETH_DISCARD)) ∧
    (s.domOn pdAux = true → exec .ethFrameDiscard s = .next (s.count .ETH_DISCARD)) ∧
    (∀ st, ∃ t, exec (.ptpPortStateChange st) s = .next t ∧ t.rd .PTP_STAT_PORT_STATE = ptpCode st ∧
      (∀ r i, r ≠ .PTP_STAT_PORT_STATE → r ≠ .TIME_STAT_TQ → r ≠ .ERR_OVF_CNT → t.rd r i = s.rd r i) ∧
      (∀ r, t.waytimeAt r = s.waytimeAt r) ∧ t.mem = s.mem)

/-- A firmware write of TRIGn_CTRL with EN = 1 to a stopped trigger: with WIDTH 0, PERIOD below 100 or, in periodic mode,
WIDTH at or above PERIOD it arms nothing and sets CFGERR; with good settings and a start not in the past it arms
exactly those settings and sets EN; a one-shot start in the past sets LATE, and EN stays 0 (R60). EN = 0 leaves no
further edge, the pulse in progress and its end untouched. A write of COUNT sets the edges remaining; with EN = 1 a
count of 0 makes the trigger unlimited. An edge that is due records its scheduled WT64 in TRIGn_LAST, drives the
active level, ends WIDTH later, and for a periodic, unlimited trigger schedules the next edge one PERIOD on (R58); a
pulse that is due ends at the inactive level. Memory stays as it is. -/
def Obligations.TriggerEngines : Prop :=
  ∀ (s : State) (c : Fin 16) (n : Fin 8) (w : Word), s.letIn (.fw c) .TRIG_CTRL_EN n.val = .ok s →
    let per := bit w.toNat 1
    let bad := s.rd .TRIG_WIDTH n.val = 0 ∨ s.rd .TRIG_PERIOD n.val < 100 ∨
      (per = true ∧ s.rd .TRIG_PERIOD n.val ≤ s.rd .TRIG_WIDTH n.val)
    let start := s.rd64 .TRIG_START_LO .TRIG_START_HI n.val
    (s.flag .TRIG_CTRL_EN n.val = false → bad →
      ∃ t, exec (.trigEnable (.fw c) n w) s = .next t ∧ t.flag .TRIG_CTRL_CFGERR n.val = true ∧
        t.flag .TRIG_CTRL_EN n.val = false ∧ t.time = s.time ∧ t.tx = s.tx ∧ t.mem = s.mem) ∧
    (s.flag .TRIG_CTRL_EN n.val = false → ¬ bad → s.now ≤ start →
      ∃ t, exec (.trigEnable (.fw c) n w) s = .next t ∧ t.flag .TRIG_CTRL_EN n.val = true ∧
        t.trig n.val = { s.trig n.val with
          periodic := per, activeLow := bit w.toNat 2, period := s.rd .TRIG_PERIOD n.val, width := s.rd .TRIG_WIDTH n.val
          limited := s.rd .TRIG_COUNT n.val != 0, next := some start } ∧ t.tx = s.tx ∧ t.mem = s.mem) ∧
    (s.flag .TRIG_CTRL_EN n.val = false → ¬ bad → start < s.now → per = false →
      ∃ t, exec (.trigEnable (.fw c) n w) s = .next t ∧ t.flag .TRIG_CTRL_LATE n.val = true ∧
        t.flag .TRIG_CTRL_EN n.val = false ∧ t.time = s.time ∧ t.mem = s.mem) ∧
    (∃ t, exec (.trigDisable (.fw c) n w) s = .next t ∧ t.flag .TRIG_CTRL_EN n.val = false ∧
      t.trig n.val = { s.trig n.val with next := none } ∧ t.tx = s.tx ∧ t.mem = s.mem) ∧
    (∀ count : BitVec 16, s.letIn (.fw c) .TRIG_COUNT n.val = .ok s →
      exec (.trigCountWrite (.fw c) n count) s =
        .next (if s.flag .TRIG_CTRL_EN n.val then
            (s.wr .TRIG_COUNT n.val count.toNat).onTrig n.val fun x => { x with limited := count.toNat != 0 }
          else s.wr .TRIG_COUNT n.val count.toNat)) ∧
    (∀ e, (s.trig n.val).next = some e → e ≤ s.now → s.domOn pdAux = true → (s.trig n.val).periodic = true →
      (s.trig n.val).limited = false →
      ∃ t, exec (.trigEdge n) s = .next t ∧ t.rd64 .TRIG_LAST_LO .TRIG_LAST_HI n.val = e % 2 ^ 64 ∧
        Tx.trigLevel n.val (!(s.trig n.val).activeLow) ∈ t.tx ∧
        t.trig n.val = { s.trig n.val with
          pulseEnd := some (e + (s.trig n.val).width), next := some (e + (s.trig n.val).period) } ∧ t.mem = s.mem) ∧
    (∀ e, (s.trig n.val).pulseEnd = some e → e ≤ s.now →
      exec (.trigPulseEnd n) s =
        .next ((s.onTrig n.val fun x => { x with pulseEnd := none }).emit (.trigLevel n.val (s.trig n.val).activeLow)))

/-- A firmware write of WL_CTRL with EN = 1 and a legal SPLICE_PERIOD to a disabled port of a powered, ungated domain starts
TRAINING (WL_STAT.STATE 1) with an empty head table and the STAT_RD probe still to come (R587); EN = 0 to an enabled one leaves
STATE 0 and nothing held of the port. Lanes that lock turn TRAINING into LINKED, and RETRAIN into RUNNING where a Waymark has
returned (R109); lanes lost in RUNNING, no burst in progress and outside every splice window, break the ring: the port enters
RETRAIN with RING_BREAK set and one more event of counter 13; in a splice window they only unlock (R105). A bad sync header, a
bad block type and a misaligned LANE_ALIGN count in counters 0, 1 and 2 (R77). A Waymark that has not returned in time counts
WM_LOST (10), and with lanes locked the port enters RETRAIN (R95). -/
def Obligations.WaylinePortControl : Prop :=
  ∀ (s : State) (c : Fin 16) (p : Fin 8) (w : Word),
    (s.letIn (.fw c) .WL_CTRL_EN p.val = .ok s → s.domOn (wlDomain p.val) = true → s.portGated p.val = false →
      bits w.toNat 8 8 ≠ 0 → s.flag .WL_CTRL_EN p.val = false →
      ∃ t, exec (.wlPortEnable (.fw c) p w) s = .next t ∧ t.flag .WL_CTRL_EN p.val = true ∧
        t.rd .WL_STAT_STATE p.val = 1 ∧ t.port p.val = { probing := true } ∧ t.rd .WL_STAT_HEADS p.val = 0 ∧
        (∀ i, i < 32 → t.rd .HT_STATE (32 * p.val + i) = 0) ∧ t.mem = s.mem) ∧
    (s.letIn (.fw c) .WL_CTRL_EN p.val = .ok s → s.domOn (wlDomain p.val) = true → s.portGated p.val = false →
      bits w.toNat 8 8 ≠ 0 → s.flag .WL_CTRL_EN p.val = true →
      ∃ t, exec (.wlPortDisable (.fw c) p w) s = .next t ∧ t.flag .WL_CTRL_EN p.val = false ∧
        t.rd .WL_STAT_STATE p.val = 0 ∧ t.port p.val = {} ∧ t.rd .WL_STAT_HEADS p.val = 0 ∧ t.mem = s.mem) ∧
    (s.portUp p.val = true → (s.port p.val).burst = none →
      (s.rd .WL_STAT_STATE p.val = 1 →
        exec (.wlInlanesLock p) s = .next ((s.onPort p.val fun x => { x with locked := true }).wr .WL_STAT_STATE p.val 2)) ∧
      (s.rd .WL_STAT_STATE p.val = 5 → (s.port p.val).back = true →
        exec (.wlInlanesLock p) s =
          .next (((s.onPort p.val fun x => { x with locked := true }).wr .WL_STAT_STATE p.val 4).kerbUpdate)) ∧
      (s.rd .WL_STAT_STATE p.val = 4 →
        (∀ b ∈ (s.port p.val).splice, ¬ (b * 256000 ≤ s.now ∧ s.now < b * 256000 + 300000)) →
        exec (.wlLaneLoss p) s =
          .next ((((((s.onPort p.val fun x => { x with locked := false }).put .WL_STAT_RING_BREAK p.val true).count .WL_CNT
            (14 * p.val + 13)).wr .WL_STAT_STATE p.val 5).onPort p.val fun x =>
              { x with runFrom := none, back := false }).kerbUpdate)) ∧
      ((∃ b ∈ (s.port p.val).splice, b * 256000 ≤ s.now ∧ s.now < b * 256000 + 300000) →
        exec (.wlLaneLoss p) s = .next (s.onPort p.val fun x => { x with locked := false })) ∧
      exec (.blockDiscard p .syncHeader) s = .next (s.count .WL_CNT (14 * p.val)) ∧
      exec (.blockDiscard p .blockType) s = .next (s.count .WL_CNT (14 * p.val + 1)) ∧
      exec (.laneAlignRx p true) s = .next s ∧
      exec (.laneAlignRx p false) s = .next (s.count .WL_CNT (14 * p.val + 2)) ∧
      (∀ i rest, (s.port p.val).inFlight = i :: rest →
        i * 256000 + (match (s.port p.val).goodL with | some l => l + 2000 | none => 20000) < s.now →
        exec (.waymarkReturnTimeout p) s =
          .next (if (s.port p.val).locked then
              ((s.onPort p.val fun x => { x with inFlight := rest }).count .WL_CNT (14 * p.val + 10)).enterRetrain p.val
            else (s.onPort p.val fun x => { x with inFlight := rest }).count .WL_CNT (14 * p.val + 10))))

/-- On an enabled, powered port. A word of a reserved type, or outside its placement, counts WORD_RSVD (3) and takes one
of the burst's places. An OPEN out of a burst from a numbered position: before any Waymark has returned, or naming an
interval after W, it is dropped as WORD_RSVD; before W − 7, as counter 5; going back behind the head's last accepted
interval, as counter 6; else it is accepted. From a position with no numbered head it is dropped and counted in 8
(R84). In an accepted burst a pixel outside the head counts COORD (4) and never reaches carding; one inside goes to
carding with the slot and interval; a gap marker becomes a loss of source 0 with its DROPS; a TRIG_AUX word that the
unit cannot take only takes its place. HEALTH, LEAVE_REQ (state LEAVING) and WM_MISS from a numbered head, out of a
burst, have their effects and no other. -/
def Obligations.WaylineWordsAndBursts : Prop :=
  ∀ (s : State) (p : Fin 8) (w : Word), s.portUp p.val = true →
    let slot := 32 * p.val + bits w.toNat 23 5
    let i := extendIdx (s.port p.val).lastW (bits w.toNat 0 12)
    let len := bits w.toNat 12 8
    let pos := bits w.toNat 23 5
    (wordBad (s.port p.val).burst.isSome w.toNat = true →
      exec (.reservedWordRx p w) s = .next ((s.count .WL_CNT (14 * p.val + 3)).takePlace p.val false)) ∧
    (wordType w.toNat = 2 → wordSub w.toNat = 0 → (s.port p.val).burst = none →
      (s.rd .HT_STATE slot = 0 →
        exec (.openRx p w) s = .next (s.dropBurst p.val pos len 8 (if (s.port p.val).returned then some i else none))) ∧
      (s.rd .HT_STATE slot ≠ 0 →
        ((s.port p.val).returned = false → exec (.openRx p w) s = .next (s.dropBurst p.val pos len 3 none)) ∧
        ((s.port p.val).returned = true →
          (i + 7 < (s.port p.val).lastW → exec (.openRx p w) s = .next (s.dropBurst p.val pos len 5 (some i))) ∧
          ((s.port p.val).lastW < i → exec (.openRx p w) s = .next (s.dropBurst p.val pos len 3 (some i))) ∧
          (i ≤ (s.port p.val).lastW → (s.port p.val).lastW ≤ i + 7 → (s.head slot).lastOpen.any (fun k => decide (i < k)) = true →
            exec (.openRx p w) s = .next (s.dropBurst p.val pos len 6 (some i))) ∧
          (i ≤ (s.port p.val).lastW → (s.port p.val).lastW ≤ i + 7 → (s.head slot).lastOpen.any (fun k => decide (i < k)) = false →
            exec (.openRx p w) s = .next (s.takeOpen p.val pos len i))))) ∧
    (∀ b, (s.port p.val).burst = some b → b.accepted = true →
      let slot := 32 * p.val + b.pos
      (8 ≤ wordType w.toNat → s.headW slot ≤ bits w.toNat 19 11 ∨ s.headH slot ≤ bits w.toNat 8 11 →
        exec (.pixelEventRx p w) s = .next ((s.count .WL_CNT (14 * p.val + 4)).takePlace p.val false)) ∧
      (8 ≤ wordType w.toNat → bits w.toNat 19 11 < s.headW slot → bits w.toNat 8 11 < s.headH slot →
        exec (.pixelEventRx p w) s = .next ((s.cardEnter p.val (.pixel slot b.interval w)).takePlace p.val true)) ∧
      (wordType w.toNat = 3 →
        exec (.gapMarkerWordRx p w) s =
          .next ((s.cardEnter p.val (.loss slot 0 (bits w.toNat 8 20) (s.stampOf slot b.interval (bits w.toNat 0 8)))).takePlace
            p.val true)) ∧
      (wordType w.toNat = 4 → (s.cardLive p.val = false ∨ s.domOn pdAux = false) →
        exec (.trigAuxWordRx p w) s = .next (s.takePlace p.val true)) ∧
      (wordType w.toNat = 4 → s.cardLive p.val = true → s.domOn pdAux = true →
        (Table.get [] s.aux.auxev p.val).length < 64 →
        exec (.trigAuxWordRx p w) s = .next ((s.takePlace p.val true).onAux fun a =>
          { a with auxev := Table.upd [] a.auxev p.val (· ++ [⟨slot, bits w.toNat 24 3, bits w.toNat 27 1, bits w.toNat 8 16,
            time64 (s.eventTime slot b.interval (bits w.toNat 0 8))⟩]) }))) ∧
    (wordType w.toNat = 2 → (s.port p.val).burst = none → s.rd .HT_STATE slot ≠ 0 →
      (wordSub w.toNat = 1 →
        exec (.healthRx p w) s = .next (s.onHead slot fun h =>
          { h with healthState := bits w.toNat 16 4, healthFill := bits w.toNat 8 8, healthTemp := bits w.toNat 0 8 })) ∧
      (wordSub w.toNat = 2 →
        exec (.leaveReqRx p w) s = .next ((s.setHead slot 4).onHead slot fun h => { h with leaveReq := some s.now })) ∧
      (wordSub w.toNat = 3 → exec (.wmMissRx p w) s = .next s))

/-- On an enabled, powered port with no burst in progress. A response whose CRC-32 is bad counts FRAME_CRC (11), an ENUM
too; a good response that matches no request outstanding, by SEQ and type, changes nothing. A request with no response
is sent again with the same SEQ while it has been sent fewer than three times; after the third it counts FRAME_TMO (12) and
its place is free (R98). An ENUM that returns with OVER clear adds the temporary IDs from 32 up to its counter to those to be
read (R101, R102). At a boundary of 256 µs that has not been served every enabled port sends a Waymark with the interval
number and the time-quality code, and its CRC-8 (R581); off a boundary, and at one that has been served, nothing happens
(R57). A Waymark with a bad CRC counts WM_CRC (9) and is no longer in flight (R95), a good one that names an interval in
flight is recorded. With AUTO_SPLICE a SPLICE frame names a boundary 4 intervals ahead. At the end of a splice window those
that leave are gone; after a splice that succeeded ENUM is sent unless the first one is to come, and after one that failed
SPLICE_FAIL and RING_BREAK set and the port retrains (R106). Which boundary a SPLICE names is the model's choice (log
entry 20). -/
def Obligations.WaylineManagementAndMarks : Prop :=
  ∀ (s : State) (p : Fin 8), s.portUp p.val = true → (s.port p.val).burst = none →
    (∀ f, frameOk f = false →
      exec (.mgmtResponseRx p f) s = .next (s.count .WL_CNT (14 * p.val + 11)) ∧
      exec (.enumReturn p f) s = .next (s.count .WL_CNT (14 * p.val + 11))) ∧
    (∀ f, frameOk f = true →
      (∀ o ∈ (s.port p.val).out, ¬ (o.seq = byteAt f 3 ∧ byteAt f 2 = o.req.typ + 0x80)) →
      exec (.mgmtResponseRx p f) s = .next s) ∧
    (∀ f o, frameOk f = true → (s.port p.val).out = [o] → o.req.use = .ident 0 → o.seq = byteAt f 3 →
      byteAt f 2 = o.req.typ + 0x80 → 2 ≤ byteAt f 4 → byteAt ((f.drop 7).take (byteAt f 4)) 0 = 0 →
      exec (.mgmtResponseRx p f) s =
        .next ((s.mgmtDone p.val o.seq).identData p.val 0 (((f.drop 7).take (byteAt f 4)).drop 1))) ∧
    (∀ f o, frameOk f = true → (s.port p.val).out = [o] → o.req.use = .enum → byteAt f 2 = 1 → o.seq = byteAt f 3 →
      bit (byteAt f 8) 0 = false →
      let temps := (List.range (byteAt f 7 - 32)).map (32 + ·)
      exec (.enumReturn p f) s =
        .next ((((s.mgmtDone p.val o.seq).placeTemps p.val temps).onPort p.val fun x =>
          { x with temps := x.temps ++ temps }).nextIdent p.val)) ∧
    (∀ o, (s.port p.val).out = [o] → o.seq < 256 →
      (o.sends < 3 →
        exec (.mgmtRequestTimeout p (BitVec.ofNat 8 o.seq)) s =
          .next ((s.onPort p.val fun x => { x with out := [{ o with sends := o.sends + 1 }] }).emit
            (.mgmtFrame p.val (mgmtWire o.req.dest o.req.typ o.seq o.req.payload)))) ∧
      (3 ≤ o.sends → o.req.use = .cfg → (s.port p.val).waiting = [] →
        exec (.mgmtRequestTimeout p (BitVec.ofNat 8 o.seq)) s =
          .next (((s.count .WL_CNT (14 * p.val + 12)).emit (.frameTimeout p.val o.req.dest)).onPort p.val fun x =>
            { x with out := [] }))) ∧
    ((s.nowUs % 256 ≠ 0 ∨ s.time.lastMark = some s.nowUs) → exec .waymarkBoundary s = .next s) ∧
    (s.nowUs % 256 = 0 → s.time.lastMark ≠ some s.nowUs → s.isBrim = false → s.inRing = false →
      (∀ q, q < 8 → q ≠ p.val → s.portUp q = false) →
      exec .waymarkBoundary s = .next (((s.onTime fun t => { t with lastMark := some s.nowUs }).onPort p.val fun x =>
          { x with inFlight := x.inFlight ++ [s.nowUs / 256] }).emit
        (.waymark p.val (BitVec.ofNat 32 (0x10000000 + s.nowUs / 256 % 2 ^ 28))
          (BitVec.ofNat 32 (s.rd .TIME_STAT_TQ * 2 ^ 30 +
            waymarkCrc (0x10000000 + s.nowUs / 256 % 2 ^ 28) (s.rd .TIME_STAT_TQ * 2 ^ 30)))))) ∧
    (∀ (w0 w1 : Word) d i, waymarkCrc w0.toNat w1.toNat ≠ bits w1.toNat 0 8 → (s.port p.val).inFlight = [i] →
      exec (.waymarkReturn p w0 w1 d) s =
        .next ((s.count .WL_CNT (14 * p.val + 9)).onPort p.val fun x => { x with inFlight := [] })) ∧
    (∀ (w0 w1 : Word) d, (s.port p.val).inFlight = [] →
      exec (.waymarkReturn p w0 w1 d) s = .next (s.count .WL_CNT (14 * p.val + 9))) ∧
    (∀ (w0 w1 : Word) d i, waymarkCrc w0.toNat w1.toNat = bits w1.toNat 0 8 → wordType w0.toNat = 1 →
      (s.port p.val).inFlight = [i] → i % 2 ^ 28 = bits w0.toNat 0 28 →
      exec (.waymarkReturn p w0 w1 d) s = .next (s.waymarkBack p.val i d (bits w1.toNat 16 14))) ∧
    (s.flag .WL_CTRL_AUTO_SPLICE p.val = true →
      let b := ceilDiv s.now 256000 + 4
      exec (.splicePeriodExpiry p) s =
        .next ((s.onPort p.val fun x => { x with splice := x.splice ++ [b] }).mgmtCast p.val
          ⟨0x7F, 0x30, leBytes 2 (b % 4096), .splice⟩)) ∧
    (∀ b rest, (s.port p.val).splice = b :: rest → b * 256000 + 300000 ≤ s.now →
      let x := s.port p.val
      let u := (s.onPort p.val fun x => { x with splice := rest }).spliceOut p.val b
      ((x.locked && x.returned && decide (b ≤ x.lastW)) = true →
        exec (.spliceWindowEnd p) s = .next ((if x.probing then u else u.sendEnum p.val).kerbUpdate)) ∧
      ((x.locked && x.returned && decide (b ≤ x.lastW)) = false →
        exec (.spliceWindowEnd p) s =
          .next ((((u.put .WL_STAT_SPLICE_FAIL p.val true).put .WL_STAT_RING_BREAK p.val true).enterRetrain p.val).kerbUpdate)))

/-- A firmware write of HB_CFG with EN = 1 and no reserved encoding to a disabled reader turns the carrier on, forgets
every tag and measures the amplitude: within 0x200 to 0xE00 the reader polls, STATE 1; outside it ANT_FAULT sets and
the reader is in FAULT, STATE 6, with no tag present. With the reader on and no fault, a poll outside the range is
FAULT too; a poll that sees two or more UIDs sets MULTI and STATE 4, and no tool mask is live; the first poll that
sees a new UID alone, no tag present, makes nothing present and reads nothing; the second one makes it present, shows
it in HB_UID and starts the read (R124). A tag that does not answer a command of its read is asked once more, and a second
failure of the same command ends the read and counts; a store whose directory is not valid ends the read with RESULT 0x0D
(DIR_BAD); a valid tool record of the allow list, its tag alone in the field, makes its mask live and shows class and variant,
and one that is not listed sets UNLISTED (R133). Command codes and the outcome of a read that failed: log entry 23. -/
def Obligations.HatbandReader : Prop :=
  (∀ (s : State) (c : Fin 16) (w : Word) (amp : BitVec 12), s.letIn (.fw c) .HB_CFG_EN 0 = .ok s →
    5 ≤ bits w.toNat 8 8 → bits w.toNat 24 4 ≠ 0 → s.flag .HB_CFG_EN = false → s.domOn pdAux = true → s.hat.write = none →
    (0x200 ≤ amp.toNat → amp.toNat ≤ 0xE00 →
      ∃ t, exec (.hbEnable (.fw c) w amp) s = .next t ∧ t.flag .HB_CFG_EN = true ∧ t.rd .HB_STAT_STATE = 1 ∧
        t.rd .HB_ANT = amp.toNat ∧ t.hat.present = [] ∧ t.hat.reading = none ∧ t.tx = .carrier true :: s.tx ∧ t.mem = s.mem) ∧
    (amp.toNat < 0x200 ∨ 0xE00 < amp.toNat →
      ∃ t, exec (.hbEnable (.fw c) w amp) s = .next t ∧ t.rd .HB_STAT_STATE = 6 ∧ t.rd .HB_STAT_ANT_FAULT = 1 ∧
        t.rd .HB_STAT_MASK_LIVE = 0 ∧ t.hat.present = [] ∧ t.mem = s.mem)) ∧
  (∀ (s : State) (uids : List DWord) (amp : BitVec 12) (col bad : Fin 17), s.hbOn = true → s.hat.fault = false →
    (amp.toNat < 0x200 ∨ 0xE00 < amp.toNat →
      ∃ t, exec (.hbPoll uids ⟨amp, col, bad⟩) s = .next t ∧ t.rd .HB_STAT_STATE = 6 ∧ t.rd .HB_STAT_ANT_FAULT = 1 ∧
        t.rd .HB_STAT_MASK_LIVE = 0) ∧
    (0x200 ≤ amp.toNat → amp.toNat ≤ 0xE00 → 2 ≤ (uids.map BitVec.toNat).dedup.length →
      ∃ t, exec (.hbPoll uids ⟨amp, col, bad⟩) s = .next t ∧ t.rd .HB_STAT_STATE = 4 ∧ t.rd .HB_STAT_MULTI = 1 ∧
        t.rd .HB_STAT_MASK_LIVE = 0 ∧ t.hat.reading = none) ∧
    (∀ u, 0x200 ≤ amp.toNat → amp.toNat ≤ 0xE00 → uids = [u] → s.hat = {} → s.rd .HB_STAT_MASK_LIVE = 0 →
      ∃ t, exec (.hbPoll uids ⟨amp, col, bad⟩) s = .next t ∧ t.hat.present = [] ∧ t.hat.reading = none ∧ t.rd .HB_STAT_STATE = 1 ∧
        t.tx = .tagCommand 0 0x01 16 :: s.tx) ∧
    (∀ u, 0x200 ≤ amp.toNat → amp.toNat ≤ 0xE00 → uids = [u] → s.hat = { seen := [(u.toNat, 1)] } → s.rd .HB_STAT_MASK_LIVE = 0 →
      s.flag .HB_CFG_SEL = false →
      ∃ t, exec (.hbPoll uids ⟨amp, col, bad⟩) s = .next t ∧ t.hat.present = [u.toNat] ∧ t.hat.reading = some u.toNat ∧
        t.rd64 .HB_UID_LO .HB_UID_HI = u.toNat ∧ t.rd .HB_STAT_STATE = 2 ∧
        t.tx = .tagCommand u.toNat 0x2B 0 :: .tagCommand 0 0x01 16 :: s.tx)) ∧
  (∀ (s : State) (uid : DWord), s.hbOn = true → s.hat.reading = some uid.toNat →
    (∀ (code : Byte) (arg : Nat) (why : TagFail),
      (s.hat.retried ≠ some (code.toNat, arg) →
        exec (.hbTagNoResponse ⟨uid, code, arg, why⟩) s =
          .next ((s.onHat fun h => { h with retried := some (code.toNat, arg) }).tagSend uid.toNat code.toNat arg)) ∧
      (s.hat.retried = some (code.toNat, arg) →
        ∃ t, exec (.hbTagNoResponse ⟨uid, code, arg, why⟩) s = .next t ∧ t.hat.reading = none ∧ t.hat.retried = none ∧
          t.rd .ID_CNT (tagFailCounter why) = (s.count .ID_CNT (tagFailCounter why)).rd .ID_CNT (tagFailCounter why) ∧
          t.rd .ID_OP_OUTCOME = 0 ∧ t.mem = s.mem)) ∧
    (∀ (block : Nat) (store : List Byte), (block = 4 ∨ block = 8) →
      (storeOf store store.length = none →
        ∃ t, exec (.hbTagReadDone uid block store) s = .next t ∧ t.hat.reading = none ∧ t.hat.blk = block ∧
          t.rd .ID_OP_RESULT = 0x0D ∧ t.rd .HB_STAT_MASK_LIVE = s.rd .HB_STAT_MASK_LIVE ∧ t.mem = s.mem) ∧
      (∀ x b a, storeOf store store.length = some x → x.active = some (b, a) → a.rtype = 2 → s.hat.present = [uid.toNat] →
        s.hat.multi = false →
        let c := leAt (tlvVal a.ents 0x21) 0 2
        let v := leAt (tlvVal a.ents 0x21) 2 2
        (s.toolListed c v = true →
          ∃ t, exec (.hbTagReadDone uid block store) s = .next t ∧ t.hat.reading = none ∧ t.rd .HB_STAT_MASK_LIVE = 1 ∧
            t.rd .HB_TOOL_CLASS = c ∧ t.rd .HB_TOOL_VARIANT = v ∧ t.hat.boxes = toolBoxes (tlvVal a.ents 0x22) ∧ t.mem = s.mem) ∧
        (s.toolListed c v = false →
          ∃ t, exec (.hbTagReadDone uid block store) s = .next t ∧ t.hat.reading = none ∧ t.rd .HB_STAT_UNLISTED = 1 ∧
            t.rd .HB_STAT_MASK_LIVE = s.rd .HB_STAT_MASK_LIVE ∧ t.hat.boxes = s.hat.boxes ∧ t.mem = s.mem))))

/-- An ID_WRITE of a numbered head with a good store, a SEQ left and a payload that fits begins with step 1 on the inactive
slot, with the next SEQ (R126, R127); of a head whose position is empty it ends with IDW_FAIL and NO_MEDIUM (0x0B) and changes
no medium (R128). The answer to the last write of a step 1 to 3 starts the next step; a commit block that reads back as written
ends the write with DONE, and an answer that is an error ends it with the outcome its step fixes (R127, R131). A tag that is
absent after its retries, while a write is in progress, counts FIELD_LOST, and the write waits; so does one of a head that timed
out, is lost or has left (R129). The same medium back with the new record valid ends the write with DONE_AFTER_RESUME; without
it the write restarts, at most twice, and then ends with ABORTED; a medium of another identity ends it with TAG_CHANGED; no
return in HB_CFG.RESUME seconds ends it with ABORTED (R130). ID_LOCKDIR of the tag alone in the field, every block of its
directory locked, completes OK with RESULT DONE; with no tag in the field it ends with IDW_FAIL and NO_MEDIUM; ID_READ of a
numbered head writes its store to host memory and completes with its length (R116). -/
def Obligations.IdentityWrites : Prop :=
  (∀ (s : State) (mb : Fin 64) (tag : BitVec 16) (c : Cmd) (slot : Fin 256) (payload store : List Byte) (l : List Nat),
    s.hat.write = none → s.hat.reading = none →
    (s.runs mb tag 0x58 true c → opMedium (c.opw 0) = .head slot → s.rd .HT_STATE slot.val = 0 →
      exec (.idWrite mb tag (.head slot) payload store l) s = .next (s.idRefuse mb.val c 0x0B (storeOf store store.length))) ∧
    (∀ x, s.runs mb tag 0x58 true c → opMedium (c.opw 0) = .head slot → s.rd .HT_STATE slot.val = 1 →
      storeOf store store.length = some x → x.act.2 ≠ 0xFFFFFFFE → c.opw 2 ≤ x.dir.size - 24 → payload.length = c.opw 2 →
      exec (.idWrite mb tag (.head slot) payload store l) s =
        .next (((s.countStore (some x)).begin_ mb.val c).idStep
          { mb := mb.val, id := c.id, medium := .head slot, ident := s.rd64 .HT_SERIAL_LO .HT_SERIAL_HI slot.val
            slotB := x.inactive, base := if x.inactive then x.dir.slotB else x.dir.slotA, size := x.dir.size, unit := 32
            seq := x.act.2 + 1, payload := payload, rtype := 1, step := 1, todo := [], restarts := 0, collapsed := false
            retries := 0 } 1)) ∧
    (s.runs mb tag 0x59 false c → s.hat.present = [] → s.hat.multi = false →
      ∀ answers, exec (.idLockdir mb tag store answers) s = .next (s.idRefuse mb.val c 0x0B none)) ∧
    (∀ u d answers, s.runs mb tag 0x59 false c → s.hbOn = true → s.hat.fault = false → s.hat.present = [u] → s.hat.multi = false →
      storeOf store store.length = some d → ceilDiv 32 (s.writeUnit .tag d) ≤ answers.length → (∀ a ∈ answers, a = .ok) →
      exec (.idLockdir mb tag store answers) s =
        .next ((((s.countStore (some d)).each (List.range (ceilDiv 32 (s.writeUnit .tag d))) fun s i =>
          s.tagSend u 0x22 i).idOp 0x00 false 0 (some d.act)).finish mb.val c 0 0 0)) ∧
    (s.runs mb tag 0x5A true c → opMedium (c.opw 0) = .head slot → s.rd .HT_STATE slot.val = 1 →
      exec (.idRead mb tag (.head slot) store) s =
        .next (((s.countStore (storeOf store store.length)).post (mb.val / 8) (.write (c.opw 1) store)).finish mb.val c 0 0
          store.length))) ∧
  (∀ (s : State) (w : IdWriteSt) (m : Medium), s.hat.write = some w → w.medium = m →
    (s.hat.awaiting = false →
      (∀ a d store, w.todo = [(a, d)] → w.step ≤ 3 → exec (.idWriteBlockDone m .ok store) s = .next (s.idStep w (w.step + 1))) ∧
      (∀ store, w.step = 6 → w.matches store = true → w.collapsed = false →
        exec (.idWriteBlockDone m .ok store) s = .next (s.idEnd w 0x00 true)) ∧
      (∀ store, w.step ≤ 5 → exec (.idWriteBlockDone m .writeProtect store) s = .next (s.idEnd w 0x07 false)) ∧
      (m = .tag → w.dead = true → w.ident ∉ s.hat.present → exec (.idWriteCollapse m) s =
        .next ((s.idCount 4).onHat fun h =>
          { h with write := some { w with collapsed := true }, awaiting := true, since := s.raw })) ∧
      (∀ slot, m = .head slot → (w.dead = true ∨ s.rd .HT_STATE slot.val = 0 ∨ s.rd .HT_STATE slot.val = 3) →
        exec (.idWriteCollapse m) s =
        .next (s.onHat fun h => { h with write := some { w with collapsed := true }, awaiting := true, since := s.raw }))) ∧
    (s.hat.awaiting = true →
      (s.resumeOver = false → ∀ ident store, ident.toNat ≠ w.ident →
        exec (.idWriteResume m ident store) s = .next (s.idEnd w 0x03 w.newValid)) ∧
      (s.resumeOver = false → ∀ ident store, ident.toNat = w.ident →
        let u := s.countStore (storeOf store store.length)
        ((slotAt store w.base w.size).any (fun x => x.seq == w.seq) = true →
          exec (.idWriteResume m ident store) s = .next (u.idEnd w 0x01 true)) ∧
        ((slotAt store w.base w.size).any (fun x => x.seq == w.seq) = false →
          (w.restarts < 2 → exec (.idWriteResume m ident store) s =
            .next ((u.onHat fun h => { h with awaiting := false }).idStep { w with restarts := w.restarts + 1 } 1)) ∧
          (2 ≤ w.restarts → exec (.idWriteResume m ident store) s = .next (u.idEnd w 0x02 false)))) ∧
      (s.resumeOver = true → exec (.idWriteResumeTimeout m) s = .next (s.idEnd w 0x02 w.newValid))))

/-- A read of EQ_POP of an enabled queue that is admitted, of which the Fuller reads no subscription, with no skip mask,
no ECC event and no pointer mismatch (R162), delivers m = min(8, occupancy) records in positions 0 to m − 1, not-valid
records after them, and the tag 8 × m; it advances RP by m, keeps WP, holds the line for the window, and leaves every
record behind the m in its place, all other registers and memory as they are. On a queue with an enabled Fuller
subscription it delivers an empty line and sets FOREIGN_READ. EQ_SKIP.GO masks the slot and PKT of the last event
record delivered; before any has been delivered it does nothing (R161). -/
def Obligations.EventQueueReads : Prop :=
  ∀ (s : State) (who : Agent) (q : Fin 512),
    (s.admitRead who .EQ_WP q.val = .ok s →
      (s.fullerBound q.val = true → ∀ ce ue b, exec (.eqPop who q ce ue b) s =
        .next (((s.put .FUL_STAT_FOREIGN_READ 0 true).onEq q.val fun e => { e with line := List.replicate 8 0 }).emit
          (.eqLine who q.val (List.replicate 8 0) 0))) ∧
      (s.fullerBound q.val = false → s.flag .EQ_CFG_EN q.val = true → s.ptrFails q.val = false → (s.eq q.val).mask = none →
        ∃ t, exec (.eqPop who q 0 0 false) s = .next t ∧
          (let m := min 8 (s.eq q.val).recs.length
           let line := ((s.eq q.val).recs.take 8).map QRec.data ++ List.replicate (8 - m) 0
           t.tx = .eqLine who q.val line (8 * m) :: s.tx ∧ (t.eq q.val).line = line ∧
             (t.eq q.val).recs = (s.eq q.val).recs.drop 8 ∧
             t.rd .EQ_RP q.val = (s.rd .EQ_RP q.val + m) % (2 * 2 ^ s.rd .EQ_CFG_LOG2N q.val) % 2 ^ 19 ∧
             (∀ r i, (r, i) ≠ (Reg.EQ_RP, q.val) → i < 2 ^ 24 → t.rd r i = s.rd r i) ∧ t.mem = s.mem))) ∧
    (s.letIn who .EQ_SKIP_GO q.val = .ok s →
      ((s.eq q.val).lastEv = none → exec (.eqSkipGo who q) s = .next s) ∧
      (∀ e, (s.eq q.val).lastEv = some e →
        exec (.eqSkipGo who q) s = .next (s.onEq q.val fun x => { x with mask := some e })))

/-- A firmware write that takes EQ_CFG.EN from 0 to 1 (no reserved encoding in the word) sets WP and RP to 0 and leaves
the SEGMENT of R151 as the one pending record; one that takes it to 0 leaves no record, no marker, no mask, and
nothing pending for the queue. EQ_CTRL.RESET on an enabled queue sets WP and RP to 0, counts EQ_RESETS, discards every
record and makes QUEUE_RESET with reason 2 and the count discarded, then SEGMENT, pending; with EN = 0 it has no
effect. Once time has crossed a multiple of 2^28 µs an enabled queue without a pending SEGMENT gains one, and no second one
for that multiple (R151). A queue that has written no pending record in this cycle writes its first pending control record,
with the Spur's epoch, while occupancy is below N, and none at N; with none pending it writes the QFULL marker while
occupancy is below N − 1 (R154); where a pointer differs from its copy it is reset with reason 1 instead (R162). -/
def Obligations.EventQueueControl : Prop :=
  ∀ (s : State) (c : Fin 16) (q : Fin 512),
    (∀ w : Word, s.letIn (.fw c) .EQ_CFG_EN q.val = .ok s → 6 ≤ bits w.toNat 2 5 → bits w.toNat 2 5 ≤ 18 →
      (s.flag .EQ_CFG_EN q.val = false →
        ∃ t, exec (.eqEnable (.fw c) q w) s = .next t ∧ t.flag .EQ_CFG_EN q.val = true ∧ t.rd .EQ_WP q.val = 0 ∧
          t.rd .EQ_RP q.val = 0 ∧ (t.eq q.val).recs = [] ∧ (t.eq q.val).marker = none ∧ (t.eq q.val).mask = none ∧
          (t.eq q.val).wide = [pendRec 0 q.val 0 1 s.segParam false] ∧ t.mem = s.mem ∧ t.tx = s.tx) ∧
      (s.flag .EQ_CFG_EN q.val = true →
        ∃ t, exec (.eqDisable (.fw c) q w) s = .next t ∧ t.flag .EQ_CFG_EN q.val = false ∧ t.rd .EQ_WP q.val = 0 ∧
          t.rd .EQ_RP q.val = 0 ∧ t.eq q.val = { line := (s.eq q.val).line } ∧
          (∀ u, u < 8 → ∀ p ∈ (t.card u).pend, p.q ≠ q.val) ∧ t.mem = s.mem ∧ t.tx = s.tx)) ∧
    (∀ who, s.letIn who .EQ_CTRL_RESET q.val = .ok s →
      (s.flag .EQ_CFG_EN q.val = false → exec (.eqReset who q) s = .next s) ∧
      (s.flag .EQ_CFG_EN q.val = true →
        ∃ t, exec (.eqReset who q) s = .next t ∧ t.rd .EQ_WP q.val = 0 ∧ t.rd .EQ_RP q.val = 0 ∧
          t.rd .EQ_RESETS q.val = min (s.rd .EQ_RESETS q.val + 1) (2 ^ 16 - 1) ∧ (t.eq q.val).recs = [] ∧
          (t.eq q.val).marker = none ∧ (t.eq q.val).mask = none ∧
          (t.eq q.val).wide = [pendRec 0 q.val 0 2 (2 * 2 ^ 24 + min (s.eq q.val).recs.length 0xFFFFFF) false,
            pendRec 0 q.val 0 1 s.segParam false] ∧ t.mem = s.mem ∧ t.tx = s.tx)) ∧
    ((∀ i, i < 512 → i ≠ q.val → s.flag .EQ_CFG_EN i = false) → s.flag .EQ_CFG_EN q.val = true → s.domOn pdCtrl = true →
      ((s.eq q.val).seg = s.nowUs / 2 ^ 28 → exec .segmentBoundary s = .next s) ∧
      ((s.eq q.val).seg ≠ s.nowUs / 2 ^ 28 → ((s.eq q.val).wide.any fun p => p.sub == 1) = false →
        exec .segmentBoundary s =
          .next (((s.onEq q.val fun e => { e with seg := s.nowUs / 2 ^ 28 }).onEq q.val fun e =>
            { e with wide := e.wide ++ [pendRec s.recSeq q.val 0 1 s.segParam false] }).onRecSeq (· + 1)))) ∧
    (s.flag .EQ_CFG_EN q.val = true → s.domOn pdCtrl = true → (s.eq q.val).seg = s.nowUs / 2 ^ 28 →
      let wrote := fun (u : State) => u.onEq q.val fun e => { e with wrote := some u.raw }
      ((s.eq q.val).wrote = some s.raw → exec (.eqPendingWrite q false) s = .next s) ∧
      (∀ p rest, (s.eq q.val).wrote ≠ some s.raw → s.eqPending q.val = p :: rest →
        (2 ^ s.rd .EQ_CFG_LOG2N q.val ≤ (s.eq q.val).recs.length → exec (.eqPendingWrite q false) s = .next s) ∧
        ((s.eq q.val).recs.length < 2 ^ s.rd .EQ_CFG_LOG2N q.val →
          (s.ptrFails q.val = true → exec (.eqPendingWrite q false) s = .next (s.eqReset q.val 1)) ∧
          (s.ptrFails q.val = false →
            exec (.eqPendingWrite q false) s =
              .next (wrote ((s.dropPend p).eqPut q.val (p.data.toNat + s.rd .ERR_EPOCH (s.eqOwner q.val) * 2 ^ 32) 0
                (p.seq == 0)))))) ∧
      (∀ m, (s.eq q.val).wrote ≠ some s.raw → s.eqPending q.val = [] → (s.eq q.val).marker = some m →
        (2 ^ s.rd .EQ_CFG_LOG2N q.val ≤ (s.eq q.val).recs.length + 1 → exec (.eqPendingWrite q false) s = .next s) ∧
        ((s.eq q.val).recs.length + 1 < 2 ^ s.rd .EQ_CFG_LOG2N q.val → s.ptrFails q.val = false →
          exec (.eqPendingWrite q false) s =
            .next (wrote ((s.onEq q.val fun e => { e with marker := none }).eqPut q.val (qfullRecord m) 0 false)))))

/-- For a powered bank and a queue with no SEGMENT due: an event record offered to an enabled queue with nothing pending, no
marker, no pending record written in this cycle and occupancy below N − 1 is appended at WP, which moves on by one, or resets
the queue where a pointer differs from its copy (R162); one that finds the queue at N − 1 or above, or anything pending, or
written from pending in this cycle, is dropped, counts EQ_DROPS and opens the marker with FIRST its stamp and COUNT 1, or raises
the marker's COUNT and its SPAN by the largest difference from the first drop; one for a queue with EN = 0 only counts EQ_DROPS
(R585). WP moves modulo twice the capacity (R152). -/
def Obligations.EventRecordAcceptance : Prop :=
  ∀ (s : State) (q r : Nat) (t : Int) (pkt : Nat), s.domOn pdCtrl = true → (s.eq q).seg = s.nowUs / 2 ^ 28 →
    (s.flag .EQ_CFG_EN q = false → s.offerEvent q r t pkt = (false, s.count .EQ_DROPS q)) ∧
    (s.flag .EQ_CFG_EN q = true → s.eqPending q = [] → (s.eq q).marker = none → (s.eq q).wrote ≠ some s.raw →
      (s.eq q).recs.length + 1 < 2 ^ s.rd .EQ_CFG_LOG2N q → s.ptrFails q = true →
      s.offerEvent q r t pkt = (false, s.eqReset q 1)) ∧
    (s.flag .EQ_CFG_EN q = true → s.eqPending q = [] → (s.eq q).marker = none → (s.eq q).wrote ≠ some s.raw →
      (s.eq q).recs.length + 1 < 2 ^ s.rd .EQ_CFG_LOG2N q → s.ptrFails q = false → q < 2 ^ 24 →
      ∃ u, s.offerEvent q r t pkt = (true, u) ∧ (u.eq q).recs = (s.eq q).recs ++ [⟨BitVec.ofNat 64 r, pkt⟩] ∧
        u.rd .EQ_WP q = (s.rd .EQ_WP q + 1) % (2 * 2 ^ s.rd .EQ_CFG_LOG2N q) % 2 ^ 19 ∧ u.rd .EQ_RP q = s.rd .EQ_RP q ∧
        u.rd .EQ_DROPS q = s.rd .EQ_DROPS q ∧ u.mem = s.mem) ∧
    (s.flag .EQ_CFG_EN q = true →
      (s.eqPending q ≠ [] ∨ (s.eq q).marker ≠ none ∨ (s.eq q).wrote = some s.raw ∨
        2 ^ s.rd .EQ_CFG_LOG2N q ≤ (s.eq q).recs.length + 1) →
      s.offerEvent q r t pkt =
        (false, (s.onEq q fun e => { e with marker := some (QFull.drop e.marker t) }).count .EQ_DROPS q)) ∧
    (QFull.drop none t = ⟨(t % 2 ^ 31).toNat, some t, 1, 0⟩) ∧
    (∀ m : QFull, ∀ b, m.firstT = some b →
      (QFull.drop (some m) t).first = m.first ∧ (QFull.drop (some m) t).count = min (m.count + 1) 0xFFFF ∧
      (QFull.drop (some m) t).span = max m.span (min (t - b).toNat 0x3FFF))

/-- For the next pixel event of a live unit, the slot in a run that has no FILTER to form and is not stopped: one whose
raw pixel is a loaded hot pixel counts HOTPIX and goes no further; with the filter and rectification off and the Kerb
copy taken after stage 4, it writes its block's activity word, its full time goes in the Kerb copy to all Kerb units,
and it goes on to the region of interest, decimation and the queue (R137, R141, R144). When Waytime has reached the
end of warm-up plus 2.5 ms, UNF clears and FILTER with the stamp of that end is formed (R143). The scrub clears VALID
in each activity word older than 65,536 µs and leaves every other word (R142); a word up to 1,024 µs ahead of time is not old
(DEDUCED, log entry 59). -/
def Obligations.CardingStages : Prop :=
  ∀ (s : State) (u : Fin 8),
    (∀ (slot i : Nat) (w : Word) (r : RunSt) (b : Bool), s.cardLive u.val = true → (s.card u.val).inbox = [.pixel slot i w] →
      unitOfSlot slot = u.val → (s.slot slot).stopped = none → (s.slot slot).run = some r → r.warmEnd = none →
      let s0 := s.onCard u.val fun c => { c with inbox := [] }
      let x := bits w.toNat 19 11
      let y := bits w.toNat 8 11
      let t := s.eventTime slot i (bits w.toNat 0 8)
      ((s.card u.val).hot.contains (slot, x, y) = true →
        exec (.cardEvent u .clean b) s = .next (s0.count .CARD_CNT (6 * u.val))) ∧
      ((s.card u.val).hot.contains (slot, x, y) = false → s.flag .SLOT_BAF_EN slot = false →
        s.flag .SLOT_RECT_EN slot = false → s.flag .CARD_CTRL_KCOPY_RAW u.val = false →
        exec (.cardEvent u .clean b) s =
          .next (((((s0.touch slot x y t).kerbCopy slot x y (bit w.toNat 30) t).cardOffer slot i x y (bit w.toNat 30) t
            b)).cardDrain u.val))) ∧
    (∀ (slot : Fin 256) (r : RunSt) (e : Nat), (s.slot slot.val).run = some r → r.warmEnd = some e →
      s.cardLive (unitOfSlot slot.val) = true → e + 2500 ≤ s.nowUs →
      exec (.warmupEndTimeout slot) s =
        .next (((s.onSlot slot.val fun x => { x with run := some { r with warmEnd := none } }).put .SLOT_STAT_UNF slot.val
          false).slotControl slot.val 4 (e % 2 ^ 31) false)) ∧
    (Table.wf 0 (s.card u.val).act →
      ∃ t, exec (.bafScrub u) s = .next t ∧ t.regs = s.regs ∧ t.mem = s.mem ∧
        ∀ k, Table.get 0 (t.card u.val).act k =
          (let v := Table.get 0 (s.card u.val).act k
           if bit v 15 = true ∧ 16384 < (s.nowUs / 4 + 2 ^ 15 - v % 2 ^ 15) % 2 ^ 15 ∧
               (s.nowUs / 4 + 2 ^ 15 - v % 2 ^ 15) % 2 ^ 15 < 2 ^ 15 - 256 then v % 2 ^ 15 else v))

/-- With the Fuller live and enabled, a queue read of the queue its rotation stands at takes up to eight records from it,
moves EQ_RP past them and turns to the next queue (R165). A stamp not below the code held and within 0xFFFE of the
tile's base is written as its code, and no other Nap word changes; a FRESH tile reads as the value 0 in all its 256
pixels (R171, R172). A window that is due and whose snapshot has been passed closes: the oldest open window number
goes to WIN_NUM, the next one is open, and the closed map is the window's marks with those of the last TAIL windows
(R177, R180); one that is not due changes nothing. A DMA tile read takes the next tile of its channel with all its
pixels as they stand, and changes no memory (R176). FEAT_POP gives the head batt of the FIFO to the core that reads,
of the owning Spur; another core, or an empty FIFO, gets the null handle (R267). Nap layout and snapshot timing of the
model: log entry 26. -/
def Obligations.FullerAtWork : Prop :=
  (∀ (s : State) (q : Fin 512) (c f : BitVec 8), s.fulLive = true → s.flag .FUL_CTRL_EN = true → s.ful.turn = q.val →
    s.fullerBound q.val = true → s.flag .EQ_CFG_EN q.val = true → s.ptrFails q.val = false → (s.eq q.val).recs ≠ [] →
    ∃ t, exec (.fullerQueueRead 0 0 false [] c f) s = .next t ∧ (t.eq q.val).recs = (s.eq q.val).recs.drop 8 ∧
      t.rd .EQ_RP q.val = s.ptrAdd q.val (s.rd .EQ_RP q.val) (min 8 (s.eq q.val).recs.length) % 2 ^ 19 ∧
      t.ful.turn = (q.val + 1) % 512) ∧
  (∀ (s : State) (i t px time : Nat) (pol : Bool), px < 256 → (s.tile i t).fresh = false → (s.tile i t).base ≤ time →
    let a := s.napAddr i t px (s.planeOf i pol)
    let code := (time - (s.tile i t).base) / s.subQ i
    code ≤ 0xFFFE → (s.ldNap a = never ∨ s.ldNap a ≤ code) →
    (s.writeStamp i t px pol time).ldNap a = code ∧ ∀ b, b ≠ a → (s.writeStamp i t px pol time).ldNap b = s.ldNap b) ∧
  (∀ (s : State) (i t k ref fmt : Nat), (s.tile i t).fresh = true →
    s.readPlane i t k ref fmt = (List.replicate 256 (elementOf fmt 0), 0)) ∧
  (∀ (s : State) (i : Fin 64) (q : Nat), s.fulLive = true → s.flag .FUL_CTRL_EN = true → s.subQueue i.val = some q →
    (s.closeDue i.val = false → exec (.windowClose i) s = .next s) ∧
    (s.closeDue i.val = true → 0 < s.winLen i.val → (s.sub i.val).snaps = [] → (s.sub i.val).snapTo ≤ (s.sub i.val).cur →
      s.eqOcc q ≠ 0 →
      exec (.windowClose i) s =
        .next (s.onSub i.val fun x => { x with snaps := x.snaps ++ [(s.lastDue i.val, s.eqOcc q)], snapTo := s.lastDue i.val + 1 })) ∧
    (s.closeDue i.val = true → 0 < s.winLen i.val →
      ((∃ e rest, (s.sub i.val).snaps = e :: rest ∧ (s.sub i.val).cur ≤ e.1 ∧ e.2 = 0) ∨
        ((s.sub i.val).snaps = [] ∧ (s.sub i.val).snapTo ≤ (s.sub i.val).cur ∧ s.eqOcc q = 0)) →
      ∃ t, exec (.windowClose i) s = .next t ∧ (t.sub i.val).cur = (s.sub i.val).cur + 1 ∧
        t.rd .SUB_WIN_NUM i.val = (s.sub i.val).cur % 2 ^ 32 ∧ (∀ e ∈ (t.sub i.val).snaps, (s.sub i.val).cur < e.1) ∧
        (t.sub i.val).closed = ((s.sub i.val).hist.take (s.rd .SUB_TAIL i.val)).foldl (· ||| ·)
          (Table.get 0 (s.sub i.val).marks (s.sub i.val).cur) ∧
        (t.sub i.val).corner = none ∧ (t.sub i.val).flow = none)) ∧
  (∀ (s : State) (m : Fin 128) (ch : Fin 4) (x : Xfer) (u : Nat) (rest : List Nat), s.fulLive = true → s.millLive m.val = true →
    s.xfers m.val ch.val = [x] → x.todo = u :: rest →
    let r := s.readTile (ddSub x.desc) u (extendRef s.nowUs (bits (ddSrc x.desc) 24 40)) (ddLen x.desc) (ddFmt x.desc)
    ∃ t, exec (.tileRead m (.dma ch) []) s = .next t ∧ t.mem = s.mem ∧
      t.xfers m.val ch.val = [{ x with todo := rest, got := x.got ++ [(u, r.1)], tag := x.tag ||| r.2.1 }]) ∧
  (∀ (s : State) (core : Fin 16) (sub : Fin 64), s.fulLive = true →
    (core.val / 2 ≠ (s.sub sub.val).spur ∨ (s.sub sub.val).fifo = [] →
      exec (.featPop core sub) s = .next (s.emit (.featHandle core.val sub.val 0))) ∧
    (∀ h rest, core.val / 2 = (s.sub sub.val).spur → (s.sub sub.val).fifo = h :: rest →
      ∃ t, exec (.featPop core sub) s = .next t ∧ t.tx = .featHandle core.val sub.val h :: s.tx ∧
        (t.sub sub.val).fifo = rest ∧ (t.batt false (hIndex h)).owner = some (core.val, (s.sub sub.val).spur) ∧
        t.regs = s.regs ∧ t.mem = s.mem))

/-- A firmware write of TAIL sets TAIL and the queue's state follows, where it adds no more tasks than are left of the invocation
that the Mill runs; a write that would add tasks of the next one is not made before its turn (R355). TQ_CLR empties a halted
queue and makes it IDLE. A
Mill whose one queue with tasks has a good, dense head that its counters allow gives it to the lowest idle live TE in
the dispatch cycle: HEAD moves on, the queue is RUN, the rotating pointer stands after it, and a single used wait's
count is subtracted from its counter (R228, R229); a head that fails its check halts the queue with DESC_ERR and a
record (R233). A task that completes without an error leaves its TE: its output is written to SRAM and its counts are taken,
then its posts are applied (R231). A post within 65,535 adds to its counter; one beyond leaves 65,535 and TKC_OVF (R232); a fenced Mill
drops and counts it. The watchdog removes a TE past its bound and else changes nothing (R234). -/
def Obligations.TaskQueues : Prop :=
  (∀ (s : State) (c : Fin 16) (m : Fin 128) (q : Fin 8) (v : BitVec 9),
    let k := 8 * m.val + q.val
    (s.letIn (.fw c) .TQ_TAIL k = .ok s →
      ((s.mill m.val).jobs = [] →
        exec (.tqTailWrite (.fw c) m q v) s = .next ((s.wr .TQ_TAIL k v.toNat).tqRefresh m.val q.val)) ∧
      (∀ j rest, (s.mill m.val).jobs = j :: rest →
        (j.todo < s.tasksAdded k v.toNat → exec (.tqTailWrite (.fw c) m q v) s = .next s) ∧
        (s.tasksAdded k v.toNat ≤ j.todo →
          exec (.tqTailWrite (.fw c) m q v) s = .next (((s.onMill m.val fun x =>
            { x with jobs := { j with todo := j.todo - s.tasksAdded k v.toNat } :: rest }).wr .TQ_TAIL k v.toNat).tqRefresh
              m.val q.val)))) ∧
    (s.letIn (.fw c) .TQ_CLR k = .ok s → s.tqHalted k = false → exec (.tqClr (.fw c) m q) s = .next s) ∧
    (s.letIn (.fw c) .TQ_CLR k = .ok s → s.tqHalted k = true → (s.mill m.val).offReq = 0 →
      ∃ t, exec (.tqClr (.fw c) m q) s = .next t ∧ t.rd .TQ_STATE k = 0 ∧ t.rd .TQ_HEAD k = s.rd .TQ_TAIL k % 2 ^ 9 ∧
        t.reruns m.val q.val = [] ∧ t.mem = s.mem ∧ t.tx = s.tx)) ∧
  (∀ (s : State) (m : Fin 128) (q : Fin 8) (t : Nat),
    let k := 8 * m.val + q.val
    let d := s.tqHeadDesc m.val q.val
    s.millLive m.val = true → s.draining m.val = false → s.headExposed m.val q.val = true →
    (∀ j, j < 8 → j ≠ q.val → s.tqEmpty (8 * m.val + j) = true ∧ s.reruns m.val j = [] ∧ s.expanding m.val j = none) →
    (s.taskBad m.val d = false → taskAlias d = false → tdSparse d = false → s.waitsMet m.val (tdWaits d) = true →
      s.idleTe m.val = some t →
      ∃ u, exec (.taskDispatch m ⟨0, none⟩) s = .next u ∧
        u.task m.val t = some { tq := q.val, desc := d, start := s.raw } ∧ u.rd .TQ_STATE k = 1 ∧
        u.rd .TQ_HEAD k = (s.rd .TQ_HEAD k + 1) % max 1 (2 * s.rd .TQ_SIZE k) % 2 ^ 9 ∧
        (u.mill m.val).ptr = (q.val + 1) % 8 ∧ u.mem = s.mem ∧
        (∀ w, tdWaits d = [w] → w.1 < 64 → u.rd .TKC (64 * m.val + w.1) = (s.rd .TKC (64 * m.val + w.1) - w.2) % 2 ^ 16)) ∧
    (s.taskBad m.val d = true →
      exec (.taskDispatch m ⟨0, none⟩) s =
        .next ((s.tqHalt m.val q.val haltDesc).record (s.millOwner m.val) .descErr m.val [q.val]))) ∧
  (∀ (s : State) (m : Fin 128) (t : Fin 16) (r : RunTask) (fn : TaskFn), s.domOn (pdMq (quadOf m.val)) = true →
    s.task m.val t.val = some r → r.reading = false → r.tmpl = none → r.tq ≠ 8 → tdKind r.desc ≠ 15 →
    bit (s.mill m.val).offReq t.val = false → bit (s.mill m.val).testReq t.val = false →
    let o := s.taskTile m.val r fn
    let w := (((s.clearTask m.val t.val).writeBack m.val r o.codes).takeCounts m.val t.val r o).millCount m.val 5
    ∃ u, exec (.taskComplete m t fn ⟨0, none⟩) s = .next u ∧ u.task m.val t.val = none ∧
      u.mem = (s.writeBack m.val r o.codes).mem ∧
      u = ((((w.onInv m.val fun v => { v with tasks := v.tasks + 1 }).each (tdPosts r.desc) fun s p =>
        s.doPost m.val p).tqRefresh m.val r.tq).millNext m.val)) ∧
  (∀ (s : State) (p : Post), s.ms.posts = [p] → s.domOn (pdMq (quadOf p.mill)) = true → p.tkc < 64 → p.mill < 128 →
    (s.rd .MILL_STAT_STATE p.mill = 0 → s.rd .TKC (64 * p.mill + p.tkc) + p.count ≤ 65535 →
      exec (.tkcPostArrival 1) s =
        .next ((s.onMs fun x => { x with posts := [] }).wr .TKC (64 * p.mill + p.tkc) (s.rd .TKC (64 * p.mill + p.tkc) + p.count))) ∧
    (s.rd .MILL_STAT_STATE p.mill = 0 → 65535 < s.rd .TKC (64 * p.mill + p.tkc) + p.count →
      ∃ u, exec (.tkcPostArrival 1) s = .next u ∧ u.rd .TKC (64 * p.mill + p.tkc) = 65535 ∧
        u.rd .TKC_OVF (64 * p.mill + p.tkc) = 1 ∧ u.ms.posts = [] ∧ u.mem = s.mem ∧
        (∀ q, q < 8 → s.tqHalted (8 * p.mill + q) = false → s.tqEmpty (8 * p.mill + q) = false →
          (tdWaits (s.tqHeadDesc p.mill q)).any (fun w => w.1 == p.tkc) = true → u.rd .TQ_STATE (8 * p.mill + q) = haltOvf) ∧
        ((s.errRing (s.millOwner p.mill)).recs.length < 64 → ∃ e ∈ (u.errRing (s.millOwner p.mill)).recs, e.typ = .tkcOvf)) ∧
    (s.rd .MILL_STAT_STATE p.mill ≠ 0 →
      exec (.tkcPostArrival 1) s = .next ((s.onMs fun x => { x with posts := [] }).millCount p.mill 4))) ∧
  (∀ (s : State) (m : Fin 128) (t : Fin 16) (r : RunTask), s.task m.val t.val = some r → r.tq ≠ 8 → tdKind r.desc ≠ 15 →
    let late := decide (2 * denseCycles r.desc + 1024 <
      r.cyc + millCycles (s.rd .MQ_OP_CUR (quadOf m.val)) (s.raw - r.start))
    exec (.taskWatchdog m t) s = .next (if late then s.removeTe m.val t.val causeWatchdog else s))

/-- A detector of a live TE removes it with its cause, a residue mismatch counted (R244); a removed TE is not live, its
cause is shown and TES_LIVE is one lower. A Mill fault, or a credit timeout with transfers pending, removes the Mill:
fenced, or retired at its third removal, with no live TE and MILLS_LIVE one lower (R247). TE_OFF of a busy TE waits
for its boundary, an idle one goes at once (R246). TE_READMIT makes live the TE that has passed its retest, unless retired;
MILL_CMD.RETEST tests a fenced Mill, BIST_COMPLETE notes what passed, and READMIT makes a Mill that passed live with the TEs
that passed and are not retired, at once where its Spur has no invocation in flight and else at the next boundary (R249; which
boundary is the model's choice, log entry 60). The self-test of a quadrant that came on, without failures, leaves every TE
live and counts them in GLOBAL_AVAIL (R36, R241). The period timer starts a TEST task on every idle live TE of a quadrant that
does not drain (R239, R243). A write of 1 to TE_FLAGS.NANTILE clears it and NANPOS.VALID (R215). UNIT_CTRL that
removes a live TE asks for its removal and completes with its cause, and so does one of a TE which is not live; a retest of a
Mill that is under test completes with UNIT_ERR; a readmission of a Mill that passed is asked for and completes. -/
def Obligations.MillUnits : Prop :=
  ∀ (s : State) (c : Fin 16) (m : Fin 128) (t : Fin 16),
    let mask : BitVec 16 := BitVec.ofNat 16 (2 ^ t.val)
    (s.millLive m.val = true → s.teLive m.val t.val = true →
      exec (.teFault m t .residue) s = .next ((s.millCount m.val 2).removeTe m.val t.val causeResidue) ∧
      exec (.teFault m t .accParity) s = .next (s.removeTe m.val t.val causeAccPar)) ∧
    (∀ cause, cause < 7 → s.teLive m.val t.val = true → Table.get 0 (s.mill m.val).removals t.val < 2 →
      setBit (s.rd .MILL_STAT_TE_LIVE m.val) t.val false ≠ 0 → s.rd .MILL_STAT_TE_LIVE m.val < 2 ^ 16 →
      let u := s.removeTe m.val t.val cause
      u.teLive m.val t.val = false ∧ u.teCause m.val t.val = cause ∧ u.task m.val t.val = none ∧
        u.rd .GLOBAL_AVAIL_TES_LIVE = (s.rd .GLOBAL_AVAIL_TES_LIVE - 1) % 2 ^ 12 ∧ u.mem = s.mem) ∧
    (s.millLive m.val = true → ∀ clock,
      ∃ u, exec (.millFault m clock) s = .next u ∧ u.rd .MILL_STAT_TE_LIVE m.val = 0 ∧
        u.rd .MILL_STAT_STATE m.val = (if 2 ≤ s.rd .MILL_STAT_REMOVALS m.val then 3 else 1) ∧
        u.rd .GLOBAL_AVAIL_MILLS_LIVE = (s.rd .GLOBAL_AVAIL_MILLS_LIVE - 1) % 2 ^ 8 ∧ (u.mill m.val).run = [] ∧ u.mem = s.mem) ∧
    (s.millLive m.val = true → (s.mill m.val).chans.all (fun e => e.2.isEmpty) = false →
      exec (.millCreditTimeout m) s = .next (s.removeMill m.val millCredit)) ∧
    ((s.mill m.val).chans.all (fun e => e.2.isEmpty) = true → exec (.millCreditTimeout m) s = .next s) ∧
    (s.letIn (.fw c) .MILL_CTRL_TE_OFF m.val = .ok s → s.millLive m.val = true → s.teLive m.val t.val = true →
      (s.task m.val t.val).isSome = true →
      exec (.teOff (.fw c) m mask) s = .next ((s.setBitOf .MILL_CTRL_TE_OFF m.val t.val).onMill m.val fun x =>
        { x with offReq := setBit x.offReq t.val true })) ∧
    (s.letIn (.fw c) .MILL_CTRL_TE_OFF m.val = .ok s → s.millLive m.val = true → s.teLive m.val t.val = true →
      s.task m.val t.val = none →
      exec (.teOff (.fw c) m mask) s = .next (((s.setBitOf .MILL_CTRL_TE_OFF m.val t.val).onMill m.val fun x =>
        { x with offReq := setBit x.offReq t.val true }).removeTe m.val t.val causeFwOff)) ∧
    (s.letIn (.fw c) .MILL_CTRL_TE_READMIT m.val = .ok s → s.millLive m.val = true → bit (s.mill m.val).passed t.val = true →
      s.teLive m.val t.val = false → s.teCause m.val t.val ≠ causeRetired →
      ∃ u, exec (.teReadmit (.fw c) m mask) s = .next u ∧ u.teLive m.val t.val = true ∧ u.teCause m.val t.val = 0 ∧
        u.rd .GLOBAL_AVAIL_TES_LIVE = (s.rd .GLOBAL_AVAIL_TES_LIVE + 1) % 2 ^ 12 ∧ u.mem = s.mem) ∧
    (s.letIn (.fw c) .MILL_CTRL_TE_READMIT m.val = .ok s → bit (s.mill m.val).passed t.val = false →
      ∃ u, exec (.teReadmit (.fw c) m mask) s = .next u ∧ u.rd .MILL_STAT_TE_LIVE m.val = s.rd .MILL_STAT_TE_LIVE m.val) ∧
    (s.letIn (.fw c) .MILL_CMD_RETEST m.val = .ok s → s.rd .MILL_STAT_STATE m.val = 1 →
      exec (.millRetest (.fw c) m) s = .next (s.wr .MILL_STAT_STATE m.val 2)) ∧
    (s.rd .MILL_STAT_STATE m.val = 2 → bit s.pm.bist (quadOf m.val) = false →
      ∃ u, exec (.bistComplete (.mill m) [] []) s = .next u ∧ u.rd .MILL_STAT_STATE m.val = 1 ∧
        (u.mill m.val).millPass = true ∧ (u.mill m.val).passed = 0xFFFF) ∧
    (∀ q : Fin 4, bit s.pm.bist q.val = true →
      ∃ u, exec (.bistComplete (.quadrant q) [] []) s = .next u ∧
        (∀ n, n / 32 = q.val → u.rd .MILL_STAT_STATE n = 0 ∧ u.rd .MILL_STAT_TE_LIVE n = 0xFFFF) ∧
        u.rd .GLOBAL_AVAIL_MILLS_LIVE =
          (s.rd .GLOBAL_AVAIL_MILLS_LIVE + 32 - (Table.get (0, 0) s.pm.counted q.val).1) % 2 ^ 8 ∧
        u.rd .GLOBAL_AVAIL_TES_LIVE =
          (s.rd .GLOBAL_AVAIL_TES_LIVE + 512 - (Table.get (0, 0) s.pm.counted q.val).2) % 2 ^ 12 ∧
        bit u.pm.bist q.val = false) ∧
    (s.letIn (.fw c) .MILL_CMD_READMIT m.val = .ok s → s.rd .MILL_STAT_STATE m.val = 1 →
      ((s.mill m.val).millPass = true → s.noInvs (s.millOwner m.val) = true →
        ∃ u, exec (.millReadmit (.fw c) m) s = .next u ∧ u.rd .MILL_STAT_STATE m.val = 0 ∧
          (∀ e, e < 16 → u.teLive m.val e = (bit (s.mill m.val).passed e && s.teCause m.val e != causeRetired)) ∧
          u.rd .GLOBAL_AVAIL_MILLS_LIVE = (s.rd .GLOBAL_AVAIL_MILLS_LIVE + 1) % 2 ^ 8) ∧
      ((s.mill m.val).millPass = true → s.noInvs (s.millOwner m.val) = false →
        exec (.millReadmit (.fw c) m) s = .next (s.onMill m.val fun x => { x with readmit := true })) ∧
      ((s.mill m.val).millPass = false → exec (.millReadmit (.fw c) m) s = .next s)) ∧
    (∀ q : Fin 4, s.rd .MQ_TEST_PERIOD q.val ≠ 0 → s.domOn (pdMq q.val) = true → s.flag .MQ_OP_BUSY q.val = false →
      (∀ n, n / 32 = q.val → (s.mill n).offReq = 0) →
      ∃ u, exec (.testPeriodTimer q) s = .next u ∧
        ∀ n e, n / 32 = q.val → e < 16 → s.millLive n = true → s.teLive n e = true → s.task n e = none →
          u.task n e = some { tq := 8, desc := [], start := s.raw }) ∧
    (∀ w : Word, s.letIn (.fw c) .TE_FLAGS_NANTILE (16 * m.val + t.val) = .ok s →
      ∃ u, exec (.teNantileClear (.fw c) m t w) s = .next u ∧ u.rd .TE_FLAGS_NANTILE (16 * m.val + t.val) = 0 ∧
        u.rd .TE_NANPOS_VALID (16 * m.val + t.val) = 0 ∧ u.mem = s.mem ∧ u.mills = s.mills) ∧
    (∀ (mb : Fin 64) (tag : BitVec 16) (cmd : Cmd), s.runs mb tag 0x68 false cmd →
      let m := bits (cmd.opw 0) 0 7
      let t := bits (cmd.opw 0) 7 4
      (bits (cmd.opw 0) 11 2 = 0 → (s.millLive m && s.teLive m t) = false →
        exec (.unitCtrl mb tag) s = .next (s.finish mb.val cmd 0 0 (s.teCause m t))) ∧
      (bits (cmd.opw 0) 11 2 = 0 → (s.millLive m && s.teLive m t) = true →
        exec (.unitCtrl mb tag) s =
          .next ((s.teOff m (2 ^ t)).finish mb.val cmd 0 0 ((s.teOff m (2 ^ t)).teCause m t))) ∧
      (2 ≤ bits (cmd.opw 0) 11 2 → s.rd .MILL_STAT_STATE m ≠ 0 → (s.mill m).millPass = true →
        exec (.unitCtrl mb tag) s =
          .next ((s.askReadmit m).finish mb.val cmd 0 0 ((s.askReadmit m).teCause m t))) ∧
      (bits (cmd.opw 0) 11 2 = 1 → s.rd .MILL_STAT_STATE m = 2 →
        ∃ r, r < 2 ^ 32 ∧ exec (.unitCtrl mb tag) s = .next ((s.fresh 32).2.finish mb.val cmd 0x29 r 0)))

/-- A firmware write of DCn_TAIL sets it. A channel with a descriptor of good shape and target, its wait met and room for
a transfer, subtracts the wait, puts the transfer in flight after the others and moves HEAD on; one that fails its
check sets ERR, halts (HEAD stays) and sends an error record (R226). A halted channel, or one with no descriptor,
fetches nothing. The oldest transfer of a channel, one of plain bytes and with no error met, writes the bytes read to
its destination and then makes its post; with tiles still to read it does not complete. -/
def Obligations.DmaChannels : Prop :=
  ∀ (s : State) (c : Fin 16) (m : Fin 128) (ch : Fin 4),
    let k := 4 * m.val + ch.val
    let d := s.dmaDesc m.val ch.val
    (∀ v : BitVec 6, s.letIn (.fw c) .DC_TAIL k = .ok s →
      exec (.dmaTailWrite (.fw c) m ch v) s = .next (s.wr .DC_TAIL k v.toNat)) ∧
    (s.rd .DC_HEAD k = s.rd .DC_TAIL k ∨ s.flag .DC_ERR k = true → ∀ e, exec (.dmaDescriptorFetch m ch e) s = .next s) ∧
    (s.millLive m.val = true → s.draining m.val = false → s.flag .DC_ERR k = false → s.rd .DC_HEAD k ≠ s.rd .DC_TAIL k →
      s.waitsMet m.val (ddWaits d) = true → s.dmaRoom m.val d = true →
      (s.dmaShapeBad m.val d = false → s.dmaTargetBad m.val d = false →
        ∃ u, exec (.dmaDescriptorFetch m ch ⟨0, none⟩) s = .next u ∧
          u.xfers m.val ch.val = s.xfers m.val ch.val ++ [{ desc := d, todo := if ddKind d = 4 then s.haloRead d else [] }] ∧
          u.rd .DC_HEAD k = (s.rd .DC_HEAD k + 1) % 2 ^ 6 ∧ u.mem = s.mem ∧
          (∀ w, ddWaits d = [w] → u.rd .TKC (64 * m.val + w.1) = (s.rd .TKC (64 * m.val + w.1) - w.2) % 2 ^ 16)) ∧
      ((s.dmaShapeBad m.val d || s.dmaTargetBad m.val d) = true → s.dmaForeign m.val d = none →
        exec (.dmaDescriptorFetch m ch ⟨0, none⟩) s =
          .next ((s.put .DC_ERR k true).record (s.millOwner m.val) .dmaErr m.val [ch.val]))) ∧
    (∀ (x : Xfer) (rest : List Xfer), s.millLive m.val = true → s.xfers m.val ch.val = x :: rest →
      (x.todo ≠ [] → exec (.dmaTransferComplete m ch ⟨0, none⟩ .none []) s = .next s) ∧
      (x.todo = [] → ddKind x.desc = 1 ∨ ddKind x.desc = 2 →
        exec (.dmaTransferComplete m ch ⟨0, none⟩ .none []) s =
          .next ((((s.onXfers m.val ch.val fun _ => rest).each ((ddOffsets x.desc true).zip
            ((s.onXfers m.val ch.val fun _ => rest).dmaData m.val x.desc)) fun s p => s.dmaStore m.val x.desc p.1 p.2).doPost m.val
              (ddPost x.desc)))))

/-- An MSIG puts the signal on its way for the core's Spur. A signal that arrives from its owner Spur at an enabled Milestone
adds its count; a sum above 0xFFFFFFFF leaves 0xFFFFFFFF, sets SAT and reports to the owner (R252); from another Spur it changes
no VALUE, counts, and is an isolation violation whatever EN holds, and with EN = 0 the owner's is dropped (R261). A core's MSIG
is told which of these it was when it arrives (Table MS-1). A waiter whose threshold the signals reach is woken and leaves the
table. A wait that may be registered joins the table with its threshold, H = 0 taking the TARGET in force (R251), and returns 0;
with the quota used up it returns MS_NOWAIT, with an action outside the Spur MS_BADWAIT, disabled MS_ERR_OFF. A re-arm by the
owner cancels every waiter on the Milestone and sets VALUE and TARGET; a waiter past its time times out; a read gives VALUE and
TARGET to the owner, disabled or not, and MS_ERR_SPUR to others. MS_CFG, MS_REARM, MS_READ and MS_SIGNAL do the same for the
mailbox's Spur and complete. -/
def Obligations.MilestoneOperations : Prop :=
  (∀ (s : State) (core : Fin 16) (ms : Fin 1024) (n : BitVec 16),
    exec (.msig core ms n) s = .next (s.onMs fun m =>
      { m with signals := m.signals ++ [⟨ms.val, core.val / 2, n.toNat, .core core.val⟩] })) ∧
  (∀ (s : State) (g : Signal), s.ms.signals = [g] → s.ms.waiters = [] → g.ms < 1024 →
    let told := match g.src with | .core c => [Tx.msOutcome c g.ms 0 0 0] | _ => []
    let e := s.onMs fun m => { m with signals := [] }
    (s.rd .MS_CFG_OWNER g.ms = g.spur → s.flag .MS_CFG_EN g.ms = true → s.rd .MS_VALUE g.ms + g.count < 2 ^ 32 →
      ∃ t, exec (.msSignalArrival 1) s = .next t ∧ t.rd .MS_VALUE g.ms = s.rd .MS_VALUE g.ms + g.count ∧
        t.ms.signals = [] ∧ t.mem = s.mem ∧ t.tx = told ++ s.tx) ∧
    (s.rd .MS_CFG_OWNER g.ms = g.spur → s.flag .MS_CFG_EN g.ms = true → 2 ^ 32 ≤ s.rd .MS_VALUE g.ms + g.count →
      ∃ t, exec (.msSignalArrival 1) s = .next t ∧ t.rd .MS_VALUE g.ms = 0xFFFFFFFF ∧ t.rd .MS_CFG_SAT g.ms = 1 ∧
        ((s.errRing g.spur).recs.length < 64 → ∃ r ∈ (t.errRing g.spur).recs, r.typ = .msSat ∧ r.unit = g.ms)) ∧
    (s.rd .MS_CFG_OWNER g.ms = g.spur → s.flag .MS_CFG_EN g.ms = false →
      exec (.msSignalArrival 1) s = .next (e.signalOutcome g msErrOff)) ∧
    (s.rd .MS_CFG_OWNER g.ms ≠ g.spur →
      exec (.msSignalArrival 1) s =
        .next (((e.count .MS_CNT 3).isoViolation g.spur isoMilestone g.ms).signalOutcome g msErrSpur))) ∧
  (∀ (s : State) (g : Signal) (w : Waiter) (c : Nat), s.ms.signals = [g] → s.ms.waiters = [w] → w.act = .ncc c → w.ms = g.ms →
    g.ms < 1024 → s.rd .MS_CFG_OWNER g.ms = g.spur → s.flag .MS_CFG_EN g.ms = true → s.rd .MS_VALUE g.ms + g.count < 2 ^ 32 →
    let told := match g.src with | .core c => [Tx.msOutcome c g.ms 0 0 0] | _ => []
    (w.h ≤ s.rd .MS_VALUE g.ms + g.count →
      ∃ t, exec (.msSignalArrival 1) s = .next t ∧ t.ms.waiters = [] ∧
        t.tx = .nccWoken c w.ms .success :: (told ++ s.tx)) ∧
    (s.rd .MS_VALUE g.ms + g.count < w.h → (∀ e, w.timeout = some e → s.now ≤ e) →
      ∃ t, exec (.msSignalArrival 1) s = .next t ∧ t.ms.waiters = [w] ∧ t.tx = told ++ s.tx)) ∧
  (∀ (s : State) (core c : Fin 16) (ms : Fin 1024) (h : Word) (lim : Option DWord), s.rd .MS_CFG_OWNER ms.val = core.val / 2 →
    let out := fun n => Tx.msOutcome core.val ms.val n 0 0
    (s.flag .MS_CFG_EN ms.val = false → exec (.mwait core ms h lim (.ncc c)) s = .next (s.emit (out msErrOff))) ∧
    (s.flag .MS_CFG_EN ms.val = true → c.val / 2 ≠ core.val / 2 →
      exec (.mwait core ms h lim (.ncc c)) s = .next (s.emit (out msBadwait))) ∧
    (s.flag .MS_CFG_EN ms.val = true → c.val / 2 = core.val / 2 → s.rd .MS_WQUOTA (core.val / 2) ≤ s.rd .MS_WUSED (core.val / 2) →
      exec (.mwait core ms h lim (.ncc c)) s = .next ((s.count .MS_CNT 4).emit (out msNowait))) ∧
    (s.flag .MS_CFG_EN ms.val = true → c.val / 2 = core.val / 2 → s.rd .MS_WUSED (core.val / 2) < s.rd .MS_WQUOTA (core.val / 2) →
      ∃ t, exec (.mwait core ms h lim (.ncc c)) s = .next t ∧ t.tx = out 0 :: s.tx ∧ t.ms.waiters = s.ms.waiters ++
        [⟨ms.val, if h.toNat = 0 then s.rd .MS_TARGET ms.val else h.toNat, lim.map BitVec.toNat, .ncc c.val, core.val / 2⟩])) ∧
  (∀ (s : State) (core : Fin 16) (ms : Fin 1024) (v g : Word), s.rd .MS_CFG_OWNER ms.val = core.val / 2 →
    s.flag .MS_CFG_EN ms.val = true →
    ∃ t, exec (.mrearm core ms v g) s = .next t ∧ t.rd .MS_VALUE ms.val = v.toNat ∧ t.rd .MS_TARGET ms.val = g.toNat ∧
      (∀ w ∈ t.ms.waiters, w.ms ≠ ms.val) ∧ Tx.msOutcome core.val ms.val 0 0 0 ∈ t.tx) ∧
  (∀ (s : State) (core : Fin 16) (ms : Fin 1024),
    (s.rd .MS_CFG_OWNER ms.val = core.val / 2 →
      exec (.msCoreRead core ms) s =
        .next (s.emit (.msOutcome core.val ms.val 0 (s.rd .MS_VALUE ms.val) (s.rd .MS_TARGET ms.val)))) ∧
    (s.rd .MS_CFG_OWNER ms.val ≠ core.val / 2 →
      exec (.msCoreRead core ms) s =
        .next (((s.count .MS_CNT 3).isoViolation (core.val / 2) isoMilestone ms.val).emit
          (.msOutcome core.val ms.val msErrSpur 0 0)))) ∧
  (∀ (s : State) (w : Waiter) (c t : Nat), s.ms.waiters = [w] → w.act = .ncc c → w.timeout = some t →
    s.rd .MS_VALUE w.ms < w.h →
    (t < s.now → ∃ u, exec .waiterTimeout s = .next u ∧ u.ms.waiters = [] ∧ u.tx = .nccWoken c w.ms .timeout :: s.tx) ∧
    (s.now ≤ t → exec .waiterTimeout s = .next s)) ∧
  (∀ (s : State) (mb : Fin 64) (tag : BitVec 16) (c : Cmd),
    let ms := bits (c.opw 0) 0 10
    (s.runs mb tag 0x30 false c → s.msCfgReason c = 0 →
      exec (.msCfg mb tag) s = .next ((s.msCfgApply c).finish mb.val c 0 0 0)) ∧
    (s.runs mb tag 0x31 false c → s.rd .MS_CFG_OWNER ms = mb.val / 8 → s.flag .MS_CFG_EN ms = true →
      exec (.msRearm mb tag) s = .next ((s.msEnds.msRearm ms (c.opw 1) (c.opw 2)).finish mb.val c 0 0 0)) ∧
    (s.runs mb tag 0x32 false c → s.rd .MS_CFG_OWNER ms = mb.val / 8 →
      exec (.msRead mb tag) s = .next (s.finish mb.val c 0 0 (s.rd .MS_VALUE ms + s.rd .MS_TARGET ms * 2 ^ 32))) ∧
    (s.runs mb tag 0x33 false c → s.rd .MS_CFG_OWNER ms = mb.val / 8 → s.flag .MS_CFG_EN ms = true →
      exec (.msSignal mb tag) s =
        .next ((s.msCycle [⟨ms, mb.val / 8, c.opw 1, .mailbox mb.val⟩]).finish mb.val c 0 0 0)) ∧
    (s.runs mb tag 0x33 false c → s.rd .MS_CFG_OWNER ms = mb.val / 8 → s.flag .MS_CFG_EN ms = false →
      exec (.msSignal mb tag) s = .next (s.finish mb.val c 0x14 msErrOff 0)))

/-- An eligible short ALLOC of a cycle with no waiter and fewer than 4 grants gives the agent a batt that was free, with
its current GEN in the handle, counts it as used and moves the pointer past the port; an ineligible one gets NOBUF
without WAIT, and with WAIT joins the tail of the waiter list, WAITING, or BP_WAITQ_FULL. A FREE by the owner with a
current handle frees the batt and raises its GEN; of a batt already free or of an older generation it is BP_ERR_DFREE,
by another Spur BP_ERR_OWNER and an isolation violation, by another agent of the Spur BP_ERR_OWNER, in this order,
with a BP_ERR record (R273). A GIVE makes the target the owner. A waiter that has become eligible is granted; one past
its time gets BP_WAIT_TO. BP_ALLOC, BP_FREE and BP_GIVE do this for the serving core and complete. Which free batt is
granted is a free value (log entry 12). -/
def Obligations.BattPools : Prop :=
  (∀ (s : State) (id : BitVec 12) (sp : Fin 8) (wait : Bool) (lim : Option DWord), s.ms.shortQ = [] → s.ms.longQ = [] →
    let a := fun n h => Tx.battAnswer id.toNat sp.val n h
    (s.grantsNow false < 4 → s.eligible false sp.val = true →
      ∃ t i, exec (.battAlloc [⟨⟨id, sp⟩, false, wait, lim⟩]) s = .next t ∧ i < 16384 ∧ (s.batt false i).owner = none ∧
        t.batt false i = { s.batt false i with owner := some (id.toNat, sp.val) } ∧ (∀ j, j ≠ i → t.batt false j = s.batt false j) ∧
        t.tx = a 0 (mkHandle false (s.batt false i).gen i) :: s.tx ∧ t.rd .BP_FREE = (s.rd .BP_FREE - 1) % 2 ^ 15 ∧
        t.rd .BP_PTR = (battPort id.toNat + 1) % 20 ∧ t.mem = s.mem) ∧
    (s.eligible false sp.val = false → wait = false →
      exec (.battAlloc [⟨⟨id, sp⟩, false, wait, lim⟩]) s = .next ((s.count .BP_CNT 0).emit (a bpNobuf 0))) ∧
    (s.eligible false sp.val = false → wait = true → (∀ e, lim = some e → s.now ≤ e.toNat) →
      ∃ t, exec (.battAlloc [⟨⟨id, sp⟩, false, wait, lim⟩]) s = .next t ∧ t.tx = a 3 0 :: s.tx ∧
        t.ms.shortQ = [⟨id.toNat, sp.val, lim.map BitVec.toNat, .agent id.toNat sp.val⟩])) ∧
  (∀ (s : State) (ag : BattAgent) (h : Word),
    let n := h.toNat
    let b := s.batt (hLong n) (hIndex n)
    let a := fun code => Tx.battAnswer ag.id.toNat ag.spur.val code n
    let good := hRsv n = 0 ∧ hGen n ≠ 0 ∧ hIndex n < (if hLong n then 2 ^ 20 else 16384)
    (¬ good → exec (.battFree ag h) s =
      .next ((s.battReject 1 ag.id.toNat ag.spur.val n (bpErrHandle, false)).emit (a bpErrHandle))) ∧
    (good → (b.owner = none ∨ b.gen ≠ hGen n) → exec (.battFree ag h) s =
      .next ((s.battReject 1 ag.id.toNat ag.spur.val n (bpErrDfree, false)).emit (a bpErrDfree))) ∧
    (∀ o sp, good → b.owner = some (o, sp) → b.gen = hGen n →
      (sp ≠ ag.spur.val → exec (.battFree ag h) s =
        .next ((s.battReject 1 ag.id.toNat ag.spur.val n (bpErrOwner, true)).emit (a bpErrOwner))) ∧
      (sp = ag.spur.val → o ≠ ag.id.toNat → exec (.battFree ag h) s =
        .next ((s.battReject 1 ag.id.toNat ag.spur.val n (bpErrOwner, false)).emit (a bpErrOwner))) ∧
      (sp = ag.spur.val → o = ag.id.toNat →
        (∃ t, exec (.battFree ag h) s = .next t ∧ t.batt (hLong n) (hIndex n) = ⟨nextGen b.gen, none⟩ ∧ t.tx = a 0 :: s.tx ∧
          t.mem = s.mem) ∧
        (∀ tg : BattAgent, tg.spur = ag.spur → tg.id.toNat < 0x600 →
          ∃ t, exec (.battGive ag h tg) s = .next t ∧ t.batt (hLong n) (hIndex n) = ⟨b.gen, some (tg.id.toNat, tg.spur.val)⟩ ∧
            t.tx = a 0 :: s.tx ∧ t.regs = s.regs) ∧
        (∀ tg : BattAgent, tg.spur ≠ ag.spur → exec (.battGive ag h tg) s =
          .next ((s.battReject 2 ag.id.toNat ag.spur.val n (bpErrGive, true)).emit (a bpErrGive)))))) ∧
  (∀ (s : State) (w : BWaiter) (id sp : Nat), s.ms.shortQ = [w] → w.answer = .agent id sp →
    (s.grantsNow false < 4 → s.eligible false w.spur = true →
      ∃ t i, exec (.battWaiterGrant false) s = .next t ∧ t.ms.shortQ = [] ∧ i < 16384 ∧ (s.batt false i).owner = none ∧
        (t.batt false i).owner = some (w.agent, w.spur) ∧
        t.tx = .battAnswer id sp 0 (mkHandle false (s.batt false i).gen i) :: s.tx) ∧
    (∀ e, s.eligible false w.spur = false → w.timeout = some e → e < s.now →
      ∃ t, exec (.battWaitTimeout false) s = .next t ∧ t.ms.shortQ = [] ∧ t.tx = .battAnswer id sp bpWaitTo 0 :: s.tx) ∧
    (s.eligible false w.spur = false → w.timeout = none → exec (.battWaitTimeout false) s = .next s)) ∧
  (∀ (s : State) (mb : Fin 64) (tag : BitVec 16) (c : Cmd),
    (s.runs mb tag 0x39 false c → s.battCheck (s.mbCore mb.val) (mb.val / 8) (c.opw 0) none = none →
      exec (.bpFree mb tag) s = .next ((s.freeBatt (hLong (c.opw 0)) (hIndex (c.opw 0))).finish mb.val c 0 0 0)) ∧
    (s.runs mb tag 0x3A false c → (s.batt (hLong (c.opw 0)) (hIndex (c.opw 0))).owner = none → hRsv (c.opw 0) = 0 → hGen (c.opw 0) ≠ 0 →
      hIndex (c.opw 0) < 16384 →
      exec (.bpGive mb tag) s =
        .next ((s.battReject 2 (s.mbCore mb.val) (mb.val / 8) (c.opw 0) (bpErrDfree, false)).finish mb.val c 0x14 bpErrDfree 0)) ∧
    (s.runs mb tag 0x3A false c →
      s.battCheck (s.mbCore mb.val) (mb.val / 8) (c.opw 0) (some (c.opw 1, s.agentSpur (c.opw 1) (mb.val / 8))) = none →
      exec (.bpGive mb tag) s = .next
        ((s.onBatt (hLong (c.opw 0)) (hIndex (c.opw 0)) fun b =>
          { b with owner := some (c.opw 1, s.agentSpur (c.opw 1) (mb.val / 8)) }).finish mb.val c 0 0 0)) ∧
    (s.runs mb tag 0x38 false c → s.ms.shortQ = [] → s.ms.longQ = [] → bits (c.opw 0) 0 2 = 0 → s.eligible false (mb.val / 8) = true →
      s.grantsNow false < 4 → (s.cmdById mb.val c.id) = some c →
      ∃ t i, exec (.bpAlloc mb tag) s = .next t ∧ i < 16384 ∧ (s.batt false i).owner = none ∧
        t.batt false i = { s.batt false i with owner := some (s.mbCore mb.val, mb.val / 8) } ∧
        t.rd .BP_PTR = (battPort (s.mbCore mb.val) + 1) % 20) ∧
    (s.runs mb tag 0x38 false c → s.ms.shortQ = [] → s.ms.longQ = [] → bits (c.opw 0) 0 2 = 0 → s.eligible false (mb.val / 8) = false →
      (s.cmdById mb.val c.id) = some c →
      exec (.bpAlloc mb tag) s =
        .next ((((s.begin_ mb.val c).count .BP_CNT 0)).finish mb.val { c with stage := .begun } 0x14 bpNobuf 0)))

/-- With a job for a Spur that has an idle Projector, the lowest idle one takes the next descriptor of the ring. A
descriptor that fails its check starts a job with status PRJ_DESC, one for a window already closed PRJ_LATE, one too
far ahead PRJ_AHEAD, one of a suspended head PRJ_SUSP, and none of these has a record to handle: no memory byte changes
but the descriptor in its ring place (R282). A PT job of an open window whose batt is live, of the Spur and large enough
starts with status OK and its NREC records to handle. With no idle Projector nothing happens. A job that ends frees its
Projector, stores its STATUS and tells the core named in GRID_CFG2.NCC (R278). A CLOSE of an open window, no earlier job
being left, ends it: GW_WIN and GW_DIRTY show it, it is no longer open, and its dirty tiles are those the buffer must
clear when it is next opened (R287, R288). Ring addresses: log entry 27. -/
def Obligations.ProjectorsAndGrid : Prop :=
  (∀ (s : State) (sp : Fin 8) (d : List Byte), d.length = 32 →
    (s.idleProjector sp.val = none → exec (.projectorJob sp d none) s = .next s) ∧
    (∀ p, s.idleProjector sp.val = some p → s.projLive = true →
      let k := (s.grid sp.val).next
      let u := (s.ringTake sp.val d).2
      let img := pjKind d = 1 ∧ s.suspended (pjSrc d) = true
      let cls := (s.grid sp.val).classify (pjWin d)
      let starts := fun (st n : Nat) => ∃ t j, exec (.projectorJob sp d none) s = .next t ∧ (p, j) ∈ t.ft.jobs ∧
        j.spur = sp.val ∧ j.place = k ∧ j.status = st ∧ j.recs = n ∧ j.cur = 0 ∧ j.desc = d ∧
        (t.grid sp.val).next = (k + 1) % 64 ∧ t.mem = (s.stBytes .control (ringAddr sp.val k) d).mem ∧
        (t.grid sp.val).closed = (s.grid sp.val).closed
      (pjKind d ≠ 3 → s.jobBad sp.val d = true → starts 5 0) ∧
      (s.jobBad sp.val d = false → cls = .late → ¬ img → starts 2 0) ∧
      (s.jobBad sp.val d = false → cls = .ahead → ¬ img → starts 3 0) ∧
      (s.jobBad sp.val d = false → cls ≠ .ok → img → starts 1 0) ∧
      (s.jobBad sp.val d = false → pjKind d = 2 → ((s.grid sp.val).opened.any fun x => x.win == pjWin d) = true →
        s.handleLive (pjHandle d) = true → s.handleOwner (pjHandle d) = some sp.val →
        8 + u.jobNrec sp.val d * s.recSize sp.val d ≤ battSize (pjHandle d) → starts 0 (u.jobNrec sp.val d)) ∧
      (∀ w, pjKind d = 3 → pjMode d = 0 → leAt d 16 16 = 0 → (s.grid sp.val).opened = [w] →
        w.win = pjWin d → (s.ft.jobs.any fun e => e.2.spur == sp.val) = false →
        ∃ t, exec (.projectorClose sp d) s = .next t ∧ t.rd .GW_WIN sp.val = w.win % 2 ^ 32 ∧
          t.rd .GW_DIRTY sp.val = (s.tilesOf sp.val (some w.dirty)).length % 2 ^ 16 ∧ (t.grid sp.val).opened = [] ∧
          ((∀ c, (s.grid sp.val).closed = some c → 0 ≤ winDiff w.win c) → (t.grid sp.val).closed = some w.win) ∧
          (if w.win % 2 = 0 then (t.grid sp.val).dirty0 else (t.grid sp.val).dirty1) = some w.dirty ∧
          Tx.coreSignal (s.rd .GRID_CFG2_NCC sp.val) 2 ∈ t.tx))) ∧
  (∀ (s : State) (p : Fin 16) (j : PrjJob), s.ft.jobs.find? (fun e => e.1 == p.val) = some (p.val, j) →
    exec (.projectorJobComplete p) s =
      .next (((s.projFinish p.val).onFt fun x => { x with jobs := Table.erase x.jobs p.val }).jobEnd j.spur j.place j.status) ∧
    (j.recs ≤ j.cur → ∃ t, exec (.projectorJobComplete p) s = .next t ∧ t.ft.jobs = Table.erase s.ft.jobs p.val ∧
      t.mem = (s.stLe .control (ringAddr j.spur j.place + 6) 2 j.status).mem ∧
      Tx.coreSignal (s.rd .GRID_CFG2_NCC j.spur) 2 ∈ t.tx))

/-- A window that waits for its cross-check is left alone until every chain has an output after its end, or 16 windows
have passed, after which it is given up (R527). One that is compared and disagrees raises the run of disagreements; at
XCHK_N in CONV the head is suspended in XFAIL, code 4 (R293). EGO_CTRL.CLR zeroes the correction. A pass or a flush that
is submitted stands in control memory and waits its turn, behind those submitted before it and, within a cycle, behind
those of lower Spurs (R294). When the Tracker is free it takes the oldest: one whose descriptor breaks its layout ends
with TRK_DESC, one out of order with TRK_ORDER, one whose batt handle is not live with TRK_HANDLE, and then no track, no
register and no memory byte but the STATUS in its descriptor changes (R301). A pass in order with no detections and no
tracks ends with OK and becomes the Spur's last pass. A flush deletes every track of the Spur and no other track. When a
pass completes, its STATUS stands in its descriptor, the Tracker is free and the core named in TRK_CFG.NCC is told. -/
def Obligations.EgoAndTracker : Prop :=
  (∀ (s : State) (slot : Fin 256) (w : EgoWin) (rest : List EgoWin), (s.ego slot.val).waits = w :: rest →
    let chains := (List.range 6).map (s.rd .EGO_CTRL_XCHK_SRC slot.val + ·)
    let ready := chains.all fun k => (s.ego slot.val).refs.any fun r => r.chain == k && decide (w.to_ ≤ r.stamp)
    let old := w.to_ + 16 * (w.to_ - w.from_) ≤ s.now
    let means := chains.map fun k => s.refMean slot.val k w.from_ w.to_
    (ready = false → ¬ old → exec (.egoXchkCompare slot) s = .next s) ∧
    (ready = false → old → ∃ t, exec (.egoXchkCompare slot) s = .next t ∧ (t.ego slot.val).waits = rest ∧ t.regs = s.regs) ∧
    (ready = true → means.all Option.isSome = true →
      farApart ((w.twist.map f32).take 3) ((means.filterMap id).take 3) ((s.rd .XCHK_W slot.val : Rat) / 1000) = true →
      (∃ t, exec (.egoXchkCompare slot) s = .next t ∧ (t.ego slot.val).waits = rest) ∧
      (s.rd .EGO_STAT_STATE slot.val = 1 → s.rd .XCHK_N slot.val ≤ (s.ego slot.val).disagree + 1 →
        ∃ t, exec (.egoXchkCompare slot) s = .next t ∧ t.rd .EGO_STAT_STATE slot.val = 4) ∧
      (s.rd .EGO_STAT_STATE slot.val ≠ 1 →
        ∃ t, exec (.egoXchkCompare slot) s = .next t ∧ (t.ego slot.val).disagree = (s.ego slot.val).disagree + 1 ∧
          t.rd .EGO_STAT_STATE slot.val = s.rd .EGO_STAT_STATE slot.val))) ∧
  (∀ (s : State) (slot : Fin 256) (c : Fin 16), s.letIn (.fw c) .EGO_CTRL_CLR slot.val = .ok s →
    ∃ t, exec (.egoClr (.fw c) slot) s = .next t ∧ (t.ego slot.val).r = [0, 0, 0] ∧ (t.ego slot.val).t = [0, 0, 0] ∧
      t.mem = s.mem ∧ (s.suspended slot.val = true → t.rd .EGO_STAT_STATE slot.val = 0)) ∧
  (∀ (s : State) (sp : Fin 8) (d : List Byte) (err : ReadErr), d.length = 64 → s.trkLive = true →
    let r : PassReq := ⟨sp.val, s.raw, (s.trk sp.val).next, d, if paKind d = 2 then .none else err⟩
    let i : Instr := if paKind d = 2 then .trackerFlush sp d else .trackerPass sp d err
    ∃ t, exec i s = .next t ∧ t.mem = (s.stBytes .control (passAddr sp.val r.place) d).mem ∧ t.ft.tracks = s.ft.tracks ∧
      t.ft.pass = s.ft.pass ∧ t.regs = s.regs ∧ t.tx = s.tx ∧
      (∀ a, s.ft.passQ = [a] → t.ft.passQ = if a.at_ = s.raw ∧ sp.val < a.spur then [r, a] else [a, r]) ∧
      (s.ft.passQ = [] → t.ft.passQ = [r])) ∧
  (∀ (s : State) (r : PassReq), s.trkLive = true → s.ft.pass = none → s.ft.passQ = [r] →
    let d := r.desc
    let layout := paNdb d ≤ 8 ∧ leAt d 48 16 = 0
    let tell := Tx.coreSignal (s.rd .TRK_CFG_NCC r.spur) 2
    let refused := fun st => ∃ t, exec .trackerPassComplete s = .next t ∧
      t.mem = (s.stLe .control (passAddr r.spur r.place + 2) 2 st).mem ∧ t.ft.tracks = s.ft.tracks ∧ t.ft.trk = s.ft.trk ∧
      t.ft.pass = none ∧ t.ft.passQ = [] ∧ t.regs = s.regs ∧ t.tx = tell :: s.tx
    (¬ layout → refused 0x12) ∧
    (paKind d ≠ 1 → paKind d ≠ 2 → refused 0x12) ∧
    (paKind d = 1 ∨ paKind d = 2 → layout → s.passOld r.spur d = true → refused 0x10) ∧
    (paKind d = 1 → layout → s.passOld r.spur d = false → (∃ h ∈ paHandles d, s.handleLive h = false) → refused 0x11) ∧
    (paKind d = 1 → paNdb d = 0 → leAt d 48 16 = 0 → s.passOld r.spur d = false → s.tracksOf r.spur = [] →
      ∃ t, exec .trackerPassComplete s = .next t ∧ (t.trk r.spur).win = some (paWin d) ∧ (t.trk r.spur).time = paTime d ∧
        t.ft.tracks = s.ft.tracks ∧ t.ft.pass = none ∧ t.tx = tell :: s.tx) ∧
    (paKind d = 2 → layout → s.passOld r.spur d = false →
      ∃ t, exec .trackerPassComplete s = .next t ∧ t.tracksOf r.spur = [] ∧ (t.trk r.spur).win = some (paWin d) ∧
        ∀ e ∈ s.ft.tracks, s.trkIn r.spur e.1 = false → e ∈ t.ft.tracks)) ∧
  (∀ (s : State) (r : PassRun), s.ft.pass = some r →
    exec .trackerPassComplete s =
      .next (((s.stLe .control (passAddr r.spur r.place + 2) 2 r.status).onFt fun f => { f with pass := none }).emit
        (.coreSignal (s.rd .TRK_CFG_NCC r.spur) 2)))

/-- For every command and every state in which the Kerb is armed: if the command answers a next state, the Kerb is armed
in it, or the command is POR, BOR_CROSSING, or RESET_N_RELEASE in the OFF condition, which is a POR. No register
write, mailbox command, reset of a domain or of a Spur, wake, fault or power step disarms it (R329: the Kerb is
disarmed only by POR or BOR). -/
def Obligations.KerbStaysArmed : Prop :=
  ∀ (c : Instr) (s t : State), s.armed = true → exec c s = .next t →
    t.armed = true ∨ (∃ f l, c = .por f l) ∨ (∃ r, c = .borCrossing r) ∨ (s.inOff = true ∧ ∃ f, c = .resetNRelease f)

/-- In every state: if the Kerb is not armed, or a fault is latched, or the ESTOP latch is set, or the BOW source holds,
then after the hub evaluates, all eight groups show STOP, none of the outputs ZG0 to ZG7 is energised, and SSTOP_A and
SSTOP_B are not energised unless no group covers them. With VDD_3V3 lost or THERMTRIP no output at all is energised
(R561, R564). -/
def Obligations.GlobalStopsStopEveryGroup : Prop :=
  ∀ s : State,
    ((s.armed = false ∨ s.kerb.faults ≠ [] ∨ s.kerb.estop = true ∨ s.kerb.bow = true) →
      s.kerbUpdate.rd .KRB_STAT_ZG_STOP = 0xFF ∧ s.kerbUpdate.kerb.out / 8 = 0 ∧
        (s.rd .KRB_OUT_SSTOP_COVER ≠ 0 → s.rd .KRB_OUT_SSTOP_COVER < 2 ^ 8 →
          s.kerbUpdate.kerb.out = 0 ∧ s.kerbUpdate.rd .KRB_STAT_RUN = 0)) ∧
    (s.kerb.forcedOff = true → s.kerbUpdate.kerb.out = 0)

/-- The oldest copy of a unit adds one to the current bin of every enabled zone with a rectangle that holds it, once each,
unless a mask covers it there, and to no other zone of the unit; the count register shows the sum of the bins (R305,
R306). A bin boundary drops the bins that have become old and tests again. HOLD_EXPIRY and MASK_AGE_EXPIRY change
nothing but what the hub's evaluation gives. A pose frame of the stream that MASK_SRC names with a good magic word and
CRC and a later validity time becomes the sample; one not later is dropped; one with a bad CRC marks the newest sample
bad; a frame of another stream changes nothing (R520). The mask rectangles of a good sample are computed from it and
the copy taken at arming (R310). -/
def Obligations.KerbCountsAndMasks : Prop :=
  (∀ (s : State) (u : Fin 8) (c : KCopy) (rest : List KCopy), s.domOn pdKerb = true →
    Table.get [] s.kcopies u.val = c :: rest → (∀ z ∈ s.zonesHit u.val c, z < 512) →
    ∃ t, exec (.kerbCopyCount u) s = .next t ∧ Table.get [] t.kcopies u.val = rest ∧ t.mem = s.mem ∧
      (∀ z ∈ s.zonesHit u.val c, (t.zone z).bins = ((s.zone z).roll (s.binNow z)).hit.bins ∧
        t.rd .ZONE_COUNT z = ((s.zone z).roll (s.binNow z)).hit.count) ∧
      (∀ z, z < 512 → z ∉ s.zonesHit u.val c → (t.zone z).bins = (s.zone z).bins ∧ t.rd .ZONE_COUNT z = s.rd .ZONE_COUNT z)) ∧
  (∀ (s : State) (u : Fin 8) (z : Fin 64), s.domOn pdKerb = true →
    let n := zoneIdx u.val z.val
    ∃ t, exec (.binBoundary u z) s = .next t ∧ (t.zone n).bins = ((s.zone n).roll (s.binNow n)).bins ∧
      t.rd .ZONE_COUNT n = ((s.zone n).roll (s.binNow n)).count ∧ t.mem = s.mem) ∧
  (∀ (s : State) (u : Fin 8) (z : Fin 64),
    exec (.holdExpiry u z) s = .next s.kerbUpdate ∧ exec .maskAgeExpiry s = .next s.kerbUpdate) ∧
  (∀ (s : State) (src : Fin 12) (f : List Byte), f.length = 64 →
    (s.rd .KRB_MASK_SRC ≠ src.val → exec (.poseFrameRx src f) s = .next s) ∧
    (s.rd .KRB_MASK_SRC = src.val → s.domOn pdKerb = true → leAt f 60 4 ≠ crc32 (f.take 60) →
      ∃ t p, exec (.poseFrameRx src f) s = .next t ∧ t.kerb.pose = some p ∧ p.good = false ∧ t.kerb.goodVt = s.kerb.goodVt ∧
        t.kerb.rects = s.kerb.rects ∧ t.kerb.boxes = s.kerb.boxes) ∧
    (s.rd .KRB_MASK_SRC = src.val → s.domOn pdKerb = true → leAt f 0 2 = 0xA5E1 → leAt f 60 4 = crc32 (f.take 60) →
      (∀ g, s.kerb.goodVt = some g → leAt f 4 8 ≤ g → ∃ t, exec (.poseFrameRx src f) s = .next t ∧ t.kerb = s.kerb) ∧
      ((∀ g, s.kerb.goodVt = some g → g < leAt f 4 8) →
        ∃ t, exec (.poseFrameRx src f) s = .next t ∧
          t.kerb.pose = some ⟨true, leAt f 4 8, frameWords f 12 9, frameWords f 48 3⟩ ∧ t.kerb.goodVt = some (leAt f 4 8)))) ∧
  (∀ (s : State) (p : Pose), s.kerb.pose = some p →
    (p.good = true → exec .maskRectCompute s = .next (s.onKerb fun k => { k with rects := s.maskRects p }).kerbUpdate) ∧
    (p.good = false → exec .maskRectCompute s = .next s))

/-- An ARM by a core of Spur 0 of a slot that is not ARMED arms it with the values it holds and those the write carries, one GEN
higher; while ARMED it changes nothing and counts DL_BUSY, and without ARM only the fields are set (R315). A slot that is due
fires: FIRED, a late-log entry, and under STOP actions every latch concerned becomes STOP, reason LATE, with the larger window
(R316); one that is not due does not fire. With nothing due and nothing aged, a verdict record that fails a check is counted and
changes no latch, check 3 is an isolation violation, a record for a fired slot is logged as late, and one that passes sets each
latch of its set whose window is older, or equal with reason VERDICT, to its code, reason VERDICT, window and stamp, and leaves
the rest (R317, R318). An aged STOP is reason AGED (R313). A read of KRB_LATELOG takes the oldest entry. -/
def Obligations.VerdictsAndDeadlines : Prop :=
  (∀ (s : State) (c : Fin 16) (d : Fin 1024) (w : Word), s.letIn (.fw c) .SLOT_CTRL_ARM d.val = .ok s → c.val / 2 = 0 →
    bits w.toNat 1 2 ≠ 3 →
    (s.rd .SLOT_CTRL_STATE d.val = 1 → exec (.slotArm (.fw c) d w) s = .next (s.count .KRB_CNT 6)) ∧
    (s.rd .SLOT_CTRL_STATE d.val ≠ 1 → bit w.toNat 0 = false →
      ∃ t, exec (.slotArm (.fw c) d w) s = .next t ∧ t.rd .SLOT_CTRL_STATE d.val = s.rd .SLOT_CTRL_STATE d.val ∧
        t.rd .SLOT_CTRL_ACT d.val = bits w.toNat 1 2 ∧ t.rd .SLOT_CTRL_VSET d.val = bits w.toNat 3 6 ∧
        t.rd .SLOT_CTRL_SPUR d.val = bits w.toNat 9 3 ∧ t.kerb = s.kerb) ∧
    (s.rd .SLOT_CTRL_STATE d.val ≠ 1 → bit w.toNat 0 = true →
      ∃ t, exec (.slotArm (.fw c) d w) s = .next t ∧ t.rd .SLOT_CTRL_STATE d.val = 1 ∧
        t.rd .SLOT_CTRL_GEN d.val = (s.rd .SLOT_CTRL_GEN d.val + 1) % 256 ∧ t.armedSlot d.val =
          ⟨s.rd64 .DL_LO .DL_HI d.val, s.rd .SLOT_WIN d.val, bits w.toNat 3 6, bits w.toNat 1 2, bits w.toNat 9 3⟩ ∧
        t.mem = s.mem ∧ t.tx = s.tx)) ∧
  (∀ (s : State) (d : Fin 1024),
    let a := s.armedSlot d.val
    (s.due d.val = false → s.activeLatches = [] → exec (.deadlineFire d) s = .next s.kerbUpdate) ∧
    (s.due d.val = true →
      ∃ t, exec (.deadlineFire d) s = .next t ∧ t.rd .SLOT_CTRL_STATE d.val = 3 ∧
        (s.kerb.lateLog.length < 64 → t.kerb.lateLog = s.kerb.lateLog ++
          [⟨d.val, s.rd .SLOT_CTRL_GEN d.val, a.win, s.now % 2 ^ 32⟩]) ∧
        (∀ z ∈ s.activeLatches, max a.act (s.rd .VS_MINACT a.vset) = 2 ∨
            (max a.act (s.rd .VS_MINACT a.vset) = 1 ∧ s.inSet a.vset z = true) →
          t.rd .LATCH_VERDICT z = 2 ∧ t.rd .LATCH_REASON z = 2 ∧ (t.latch z).win = max (s.latch z).win a.win))) ∧
  (∀ (s : State) (core : Fin 16) (r : List Byte), r.length = 144 → (∀ z ∈ s.activeLatches, s.aged z = false) →
    (∀ d ∈ s.armedSlots, s.due d = false) →
    let d := bits (leAt r 0 2) 0 10
    let a := s.armedSlot d
    let e := s.emit (.vpStatus core.val (s.verdictCheck core.val r))
    (s.verdictCheck core.val r ∈ [1, 2, 4, 5] → exec (.verdictCommit core r) s = .next (e.count .KRB_CNT 0).kerbUpdate) ∧
    (s.verdictCheck core.val r = 3 →
      exec (.verdictCommit core r) s = .next ((e.count .KRB_CNT 0).isoViolation (core.val / 2) isoVerdict d).kerbUpdate) ∧
    (s.verdictCheck core.val r = 6 →
      ∃ t, exec (.verdictCommit core r) s = .next t ∧ t.kerb.latches = s.kerb.latches ∧
        (∀ z ∈ s.setZones a.vset, t.rd .LATCH_LATE_SEEN z = 1 ∧ t.rd .LATCH_VERDICT z = s.rd .LATCH_VERDICT z) ∧
        (s.kerb.lateLog.length < 64 → t.kerb.lateLog = s.kerb.lateLog ++ [⟨d, byteAt r 2, a.win, s.now % 2 ^ 32⟩])) ∧
    (s.verdictCheck core.val r = 0 →
      ∃ t, exec (.verdictCommit core r) s = .next t ∧ t.rd .SLOT_CTRL_STATE d = 2 ∧ Tx.vpStatus core.val 0 ∈ t.tx ∧
        ∀ z ∈ s.setZones a.vset,
          ((s.latch z).win < a.win ∨ (a.win = (s.latch z).win ∧ s.rd .LATCH_REASON z = 1) →
            t.rd .LATCH_VERDICT z = verdictCode r z ∧ t.rd .LATCH_REASON z = 1 ∧ t.latch z = ⟨a.win, s.now⟩) ∧
          (¬ ((s.latch z).win < a.win ∨ (a.win = (s.latch z).win ∧ s.rd .LATCH_REASON z = 1)) →
            t.rd .LATCH_VERDICT z = s.rd .LATCH_VERDICT z ∧ t.latch z = s.latch z))) ∧
  (∀ (s : State) (z : Fin 512), z.val ∈ s.activeLatches →
    (s.aged z.val = false → exec (.latchAge z) s = .next s.kerbUpdate) ∧
    (s.aged z.val = true → ∃ t, exec (.latchAge z) s = .next t ∧ t.rd .LATCH_VERDICT z.val = 2 ∧ t.rd .LATCH_REASON z.val = 3)) ∧
  (∀ (s : State) (c : Fin 16) (e : LateEnt) (rest : List LateEnt), s.admitRead (.fw c) .KRB_LATELOG 0 = .ok s →
    s.kerb.lateLog = e :: rest →
    ∃ t, exec (.krbLatelogPop (.fw c)) s = .next t ∧ t.kerb = { s.kerb with lateLog := rest } ∧
      t.tx = .readData (.fw c) e.slot :: s.tx ∧ t.rd .KRB_LATELOG 0 = e.slot % 2 ^ 32 ∧ t.rd .KRB_LATELOG 1 = e.gen % 2 ^ 32 ∧
      t.rd .KRB_LATELOG 2 = e.win % 2 ^ 32 ∧ t.rd .KRB_LATELOG 3 = e.stamp % 2 ^ 32)

/-- A fault of Table KB-4 (lockstep, channel mismatch, configuration error, clock loss, stuck output, dark test without the stop
level, feedback or emergency-stop inputs past their time) is latched while the Kerb has power: all groups STOP, KRB_STAT.FAULT,
and KRB_FAULT holds the first. An emergency-stop input low for ESTOP_FILT µs sets the latch; before that nothing happens. Input
changes set the level. A dark test starts only on an energised output, never on SSTOP_A and SSTOP_B at once, and leaves the
commanded outputs as they are. KRB_RESET clears the emergency stop when both inputs are high, and the faults whose condition
Table KB-4 names; it never disarms. An arm that no case of R328 refuses sets ARM, ARMED and the configuration's CRC; a refused
one sets ARM_ERR alone; ARM = 0 does nothing; once armed a write is a lock violation. KERB_LOAD of an armed Kerb is refused, of
an image with a reserved encoding writes nothing, and else arms or tells the refusal; KERB_RESET completes with KRB_STAT. -/
def Obligations.KerbInputsFaultsAndArming : Prop :=
  (∀ (s : State) (u : Fin 8) (o : SafeOut),
    exec (.unitLockstep u) s = .next (s.kerbFault 1 u.val) ∧ exec .chanMismatch s = .next (s.kerbFault 2 0) ∧
    exec .kerbCfgUe s = .next (s.kerbFault 3 0) ∧ exec .kerbClockLoss s = .next (s.kerbFault 4 0) ∧
    (s.inDark o.val = false → exec (.outStuckTimeout o) s = .next (s.kerbFault 5 0)) ∧
    (s.inDark o.val = true → exec (.outStuckTimeout o) s = .next s ∧ exec (.darkTestSample o true) s = .next s ∧
      exec (.darkTestSample o false) s = .next (s.kerbFault 6 0)) ∧
    (∀ t, s.kerb.estopDiff = some t →
      exec .estopDiscTimeout s = .next (if t + s.rd .KRB_ESTOP_DISC * 10 ^ 7 < s.raw then s.kerbFault 8 0 else s)) ∧
    (∀ t, s.kerb.fbAAway = some t →
      exec (.feedbackTimeout .a) s = .next (if t + s.rd .KRB_FB_T * 10 ^ 6 < s.raw then s.kerbFault 7 0 else s)) ∧
    (s.domOn pdKerb = false → exec .chanMismatch s = .next s) ∧
    (∀ code n, s.domOn pdKerb = true → (s.kerbFault code n).rd .KRB_STAT_ZG_STOP = 0xFF ∧ (s.kerbFault code n).rd .KRB_STAT_FAULT = 1 ∧
      (code, n) ∈ (s.kerbFault code n).kerb.faults ∧ (s.kerbFault code n).armed = s.armed ∧
      (s.kerb.faults = [] → (s.kerbFault code n).rd .KRB_FAULT_CODE = code % 2 ^ 8) ∧
      (s.kerb.faults ≠ [] → (s.kerbFault code n).rd .KRB_FAULT_CODE = s.rd .KRB_FAULT_CODE))) ∧
  (∀ (s : State) (high : Bool),
    (∃ t, exec (.estopInputChange .a high) s = .next t ∧ t.kerb.estopA = high ∧ t.kerb.estopB = s.kerb.estopB ∧ t.regs = s.regs) ∧
    (∃ t, exec (.estopInputChange .b high) s = .next t ∧ t.kerb.estopB = high ∧ t.kerb.estopA = s.kerb.estopA ∧ t.regs = s.regs) ∧
    (s.kerb.estopA = false ∧ s.domOn pdKerb = true ∧ s.kerb.estopASince + s.rd .KRB_ESTOP_FILT * 1000 ≤ s.raw →
      ∃ t, exec (.estopFilterExpiry .a) s = .next t ∧ t.kerb.estop = true ∧ t.rd .KRB_STAT_ZG_STOP = 0xFF) ∧
    (¬ (s.kerb.estopA = false ∧ s.domOn pdKerb = true ∧ s.kerb.estopASince + s.rd .KRB_ESTOP_FILT * 1000 ≤ s.raw) →
      exec (.estopFilterExpiry .a) s = .next s) ∧
    (∃ t, exec (.feedbackInputChange .b high) s = .next t ∧ t.kerb.fbB = high ∧ t.kerb.fbA = s.kerb.fbA)) ∧
  (∀ (s : State) (o : SafeOut),
    (o.val < 2 → s.inDark (1 - o.val) = true → exec (.darkTestStart o) s = .next s) ∧
    (bit s.kerb.out o.val = true → s.inDark o.val = false → s.domOn pdKerb = true → (o.val < 2 → s.inDark (1 - o.val) = false) →
      ∃ t, exec (.darkTestStart o) s = .next t ∧ t.inDark o.val = true ∧ t.kerb.out = s.kerb.out ∧ t.regs = s.regs) ∧
    (bit s.kerb.out o.val = false → exec (.darkTestStart o) s = .next s) ∧
    (s.inDark o.val = true →
      ∃ t, exec (.darkTestEnd o) s = .next t ∧ t.inDark o.val = false ∧ t.kerb.out = s.kerb.out ∧ t.regs = s.regs)) ∧
  (∀ (s : State) (c : Fin 16) (rb : Bool), s.letIn (.fw c) .KRB_RESET 0 = .ok s →
    ∃ t, exec (.krbReset (.fw c) rb) s = .next t ∧ t.armed = s.armed ∧
      t.kerb.estop = (s.kerb.estop && !(s.kerb.estopA && s.kerb.estopB)) ∧
      t.kerb.faults = s.kerb.faults.filter fun f => !s.faultClears rb f.1) ∧
  (∀ (s : State) (c : Fin 16) (w : Word), s.letIn (.fw c) .KRB_ARM_ARM 0 = .ok s →
    (s.armed = true → exec (.krbArm (.fw c) w) s = .next (s.lockViolation (.fw c) 0x60000)) ∧
    (s.armed = false → bit w.toNat 0 = false → exec (.krbArm (.fw c) w) s = .next s) ∧
    (s.armed = false → bit w.toNat 0 = true → s.armRefusal ≠ 0 →
      exec (.krbArm (.fw c) w) s = .next (s.wr .KRB_ARM_ERR 0 s.armRefusal)) ∧
    (s.armed = false → bit w.toNat 0 = true → s.armRefusal = 0 →
      ∃ t, exec (.krbArm (.fw c) w) s = .next t ∧ t.armed = true ∧ t.rd .KRB_ARM_ARM = 1 ∧
        t.rd .KRB_CFGCRC = crc32 s.kerbImage % 2 ^ 32 ∧
        ∀ z ∈ s.activeLatches, t.rd .LATCH_VERDICT z = 2 ∧ t.rd .LATCH_REASON z = 0)) ∧
  (∀ (s : State) (mb : Fin 64) (tag : BitVec 16) (c : Cmd) (image : List Word) (rb : Bool),
    let core : Agent := .fw ⟨s.mbCore mb.val % 16, Nat.mod_lt _ (by decide)⟩
    let l := kerbCfgOffsets.zip (image.map BitVec.toNat)
    let loaded := s.each l fun s p => (s.applyWord core p.1 p.2).2
    let w := loaded.each (loaded.kerb.zones.map Prod.fst) State.zoneSettings
    (s.runs mb tag 0x20 true c → s.armed = true →
      exec (.kerbLoad mb tag image) s = .next ((s.lockViolation core 0x60020).finish mb.val c 5 0x60020 0)) ∧
    (∀ i, s.runs mb tag 0x20 true c → s.armed = false → reservedIn l = some i →
      exec (.kerbLoad mb tag image) s = .next (s.finish mb.val c 0x11 (4 * i) 0)) ∧
    (s.runs mb tag 0x20 true c → s.armed = false → reservedIn l = none → w.armRefusal = 0 →
      exec (.kerbLoad mb tag image) s = .next (w.armKerb.2.finish mb.val c 0 0 (w.armKerb.2.rd .KRB_CFGCRC))) ∧
    (s.runs mb tag 0x20 true c → s.armed = false → reservedIn l = none → w.armRefusal ≠ 0 →
      exec (.kerbLoad mb tag image) s =
        .next ((w.wr .KRB_ARM_ERR 0 w.armRefusal).finish mb.val c 0x28 w.armRefusal 0)) ∧
    (s.runs mb tag 0x21 false c →
      exec (.kerbReset mb tag rb) s = .next ((s.kerbReset rb).finish mb.val c 0 0 (s.kerbReset rb).krbStat)))

/-- A firmware write of EN = 1 with legal encodings to a disabled mailbox takes its fields, sets the ring indices to 0 and
makes it RUN, or WAIT_FW while it is not served; EN = 0 makes it DISABLED, or DRAINING while commands are in flight
(R332, R361). A doorbell within the ring and not behind the other index is taken; any other sets DB_ERR, is counted
and changes no index (R333). A mailbox that may not fetch changes nothing; one that may advances SQ_HEAD and counts,
and a descriptor that passes the checks and has no wait is in flight as it was read; an unknown opcode leaves nothing
in flight (R334, R336). A command past its DEADLINE is claimed with TIMEOUT. A core that fails is fenced, and its
mailboxes are served by its sibling; with both failed the enabled mailboxes are DEAD (R346, R348). A completion is
written once: the command is no longer in flight, its 32 bytes with TAG, status and PHASE go to the ring's next entry,
and CQ_TAIL rises by one (R335, R338). -/
def Obligations.MailboxRingsAndFetch : Prop :=
  (∀ (s : State) (c : Fin 16) (mb : Fin 64) (w : Word), s.letIn (.fw c) .MB_CFG_EN mb.val = .ok s →
    2 ≤ bits w.toNat 16 11 → bits w.toNat 16 11 ≤ 15 →
    (s.flag .MB_CFG_EN mb.val = false → s.rd .MB_STAT_STATE mb.val ≠ 4 → s.rd .MB_STAT_STATE mb.val ≠ 6 →
      3 ≤ bits w.toNat 2 4 → bits w.toNat 2 4 ≤ 12 → 5 ≤ bits w.toNat 6 4 → bits w.toNat 6 4 ≤ 12 →
      ∃ t, exec (.mbEnable (.fw c) mb w) s = .next t ∧ t.flag .MB_CFG_EN mb.val = true ∧
        t.rd .MB_CFG_LOC mb.val = bits w.toNat 1 1 ∧ t.rd .MB_CFG_SQ_LOG2 mb.val = bits w.toNat 2 4 ∧
        t.rd .MB_CFG_CQ_LOG2 mb.val = bits w.toNat 6 4 ∧ t.rd .MB_CFG_VEC mb.val = bits w.toNat 16 11 ∧
        t.rd .MB_SQ_HEAD mb.val = 0 ∧ t.rd .MB_SQ_TAIL mb.val = 0 ∧ t.rd .MB_CQ_HEAD mb.val = 0 ∧ t.rd .MB_CQ_TAIL mb.val = 0 ∧
        t.rd .MB_STAT_STATE mb.val = (if s.mbServed mb.val then 2 else 1) ∧ t.mem = s.mem) ∧
    (s.flag .MB_CFG_EN mb.val = true → s.rd .MB_STAT_STATE mb.val ≠ 6 →
      ∃ t, exec (.mbDisable (.fw c) mb w) s = .next t ∧ t.flag .MB_CFG_EN mb.val = false ∧
        t.rd .MB_STAT_STATE mb.val = (if s.cmds mb.val = [] then 0 else 4) ∧ t.cmds mb.val = s.cmds mb.val ∧ t.mem = s.mem)) ∧
  (∀ (s : State) (f : Fin 8) (tb : Bool) (mb : Fin 64) (v : BitVec 16),
    let n := 2 ^ s.rd .MB_CFG_SQ_LOG2 mb.val
    let sqOk := s.flag .MB_CFG_EN mb.val && decide (idxDiff v.toNat (s.rd .MB_SQ_HEAD mb.val) ≤ n) &&
      decide (idxDiff v.toNat (s.rd .MB_SQ_TAIL mb.val) ≤ n)
    let t := s.rd .MB_CQ_TAIL mb.val
    let cqOk := s.flag .MB_CFG_EN mb.val && decide (idxDiff t v.toNat ≤ idxDiff t (s.rd .MB_CQ_HEAD mb.val))
    (s.letIn (.host f tb) .MB_SQ_DB mb.val = .ok s →
      exec (.mbSqDb (.host f tb) mb v) s =
        .next (if sqOk then (s.wr .MB_SQ_TAIL mb.val v.toNat).raiseWake 6 else s.dbErr mb.val)) ∧
    (s.letIn (.host f tb) .MB_CQ_DB mb.val = .ok s →
      exec (.mbCqDb (.host f tb) mb v) s = .next (if cqOk then s.wr .MB_CQ_HEAD mb.val v.toNat else s.dbErr mb.val))) ∧
  (∀ (s : State) (mb : Fin 64) (d : List Byte) (cfg : CfgOps), d.length = 64 →
    let c : Cmd := { id := s.mail.nextId, tag := leAt d 2 2, desc := d, stage := .ready, cfg := cfg }
    (s.mayFetch mb.val = false → exec (.descriptorFetch mb d cfg) s = .next s) ∧
    (s.mayFetch mb.val = true → s.flag .MB_CFG_LOC mb.val = false → (∀ x ∈ s.cmds mb.val, x.id < s.mail.nextId) →
      (c.op ∉ opcodes → ∃ t, exec (.descriptorFetch mb d cfg) s = .next t ∧ t.cmds mb.val = s.cmds mb.val ∧
        t.rd .MB_SQ_HEAD mb.val = (s.rd .MB_SQ_HEAD mb.val + 1) % 2 ^ 16) ∧
      (c.op ∈ opcodes → descBad c = none → c.settingsBad = false → (∀ x ∈ s.cmds mb.val, x.tag ≠ c.tag) →
        s.notPermitted mb.val c = none → c.flagBit 0 = false → s.late c = false →
        ∃ t, exec (.descriptorFetch mb d cfg) s = .next t ∧ t.cmds mb.val = s.cmds mb.val ++ [c] ∧
          t.rd .MB_SQ_HEAD mb.val = (s.rd .MB_SQ_HEAD mb.val + 1) % 2 ^ 16 ∧ t.mem = s.mem ∧ t.tx = s.tx))) ∧
  (∀ (s : State) (mb : Fin 64) (tag : BitVec 16),
    (∀ c, (s.cmds mb.val).find? (fun x => x.tag == tag.toNat && s.late x) = some c → c.stage ≠ .held →
      exec (.commandTimeout mb tag) s = .next (s.complete mb.val c 1 0 0 s.now)) ∧
    ((s.cmds mb.val).find? (fun x => x.tag == tag.toNat && s.late x) = none → exec (.commandTimeout mb tag) s = .next s)) ∧
  (∀ (s : State) (core : Fin 16), s.domOn pdCtrl = true →
    (bit s.mail.fenced core.val = true → exec (.nccWatchdogExpiry core) s = .next s ∧ exec (.nccUe core) s = .next s) ∧
    (bit s.mail.fenced core.val = false → bit s.mail.fenced (sibling core.val) = false →
      (∃ t, exec (.nccWatchdogExpiry core) s = .next t ∧ bit t.mail.fenced core.val = true ∧
        ∀ mb, mb < 64 → mbHome mb = core.val → t.mbCore mb = sibling core.val) ∧
      (∃ t, exec (.nccUe core) s = .next t ∧ bit t.mail.fenced core.val = true ∧
        ∀ mb, mb < 64 → mbHome mb = core.val → t.mbCore mb = sibling core.val)) ∧
    (bit s.mail.fenced core.val = false → bit s.mail.fenced (sibling core.val) = true →
      ∃ t, exec (.nccUe core) s = .next t ∧
        ∀ i, i < 8 → s.flag .MB_CFG_EN (8 * (core.val / 2) + i) = true → t.rd .MB_STAT_STATE (8 * (core.val / 2) + i) = 6)) ∧
  (∀ (s : State) (mb : Nat) (c : Cmd) (st detail result stamp : Nat), mb < 64 → s.rd .SPUR_TDI (mb / 8) ≠ 3 →
    s.flag .MB_CFG_LOC mb = false → s.fnExists (mb / 8) = true → s.mayIssue (mb / 8) = true →
    let t := s.complete mb c st detail result stamp
    let b := s.completionBytes mb c st detail result stamp
    (∀ x ∈ t.cmds mb, x.id ≠ c.id) ∧ t.rd .MB_CQ_TAIL mb = (s.rd .MB_CQ_TAIL mb + 1) % 2 ^ 16 ∧
      (∃ tb, Tx.host (mb / 8) (.completion mb (s.cqAddr mb) b) tb ∈ t.tx) ∧ b.length = 32 ∧ (c.tag < 2 ^ 16 → leAt b 0 2 = c.tag) ∧
      (st < 256 → byteAt b 2 = st) ∧ byteAt b 3 = (if s.rd .MB_CQ_TAIL mb / 2 ^ s.rd .MB_CFG_CQ_LOG2 mb % 2 = 0 then 1 else 0))

/-- A HB_LOAD whose image lies in host memory waits while no transfer of its function may be issued. In QUARANTINE it ends with
status 0x20; else the image is copied, and one whose format is bad ends with HB_AUTH, reason 1; an image that is authentic, of a
version the firmware reaches, with good tasks and resources that fit takes the lowest free place, and RESULT is its HBID (R351).
HB_UNLOAD and HB_QUERY of an HBID that names nothing loaded end with 0x1B; an unload with no invocation in progress empties the
place and raises its generation. An INVOKE of such an HBID ends with 0x1B, one that fails a step of admission with that step's
status, one without a slot with 0x18; an admitted one arms the lowest slot not ARMED with its DEADLINE, window, verdict set,
action and Spur. The Hatbox is then mapped onto the Mill set, and the invocation is in progress if its predicted completion (its
cost on those Mills and the cost of what is queued on them, less what the firmware reckons spent) is in time and every Mill is
there, else it ends with DL_PREDICTED, 0x08 (R353, R354, R248). NOP completes with OK; GET_INFO, HB_QUERY and PTP_STAT write a
block of 256, 128 and 64 bytes to the host; PTP_CFG takes settings that Table TB-4 allows. The contents of those blocks are free
values (log entry 15), and so is the status of PTP_CFG's refusal (the model's choice). -/
def Obligations.HatboxesAndInvoke : Prop :=
  (∀ (s : State) (mb : Fin 64) (tag : BitVec 16) (c : Cmd) (img : HbImage), s.runs mb tag 0x10 false c →
    let sp := mb.val / 8
    let reach := bit (c.opw 1) 32 = true ∨ (s.fnExists sp = true ∧ s.mayIssue sp = true)
    let w := s.hbCopy sp c img
    (¬ reach → exec (.hbLoad mb tag img) s = .next s) ∧
    (reach → s.quarantined = true → exec (.hbLoad mb tag img) s = .next (s.finish mb.val c 0x20 0 0)) ∧
    (reach → s.quarantined = false → hbFormatBad img (bits (c.opw 1) 0 32) = true →
      exec (.hbLoad mb tag img) s = .next (w.finish mb.val c 0x1C 1 0)) ∧
    (∀ i, reach → s.quarantined = false → w.hbAuth sp img (bits (c.opw 1) 0 32) = 0 → w.hbVersion img.header = none →
      w.hbTasks img.body = (none, w) → w.hbFit sp img.body = 0 → w.hbFree sp = some i →
      ∃ t : State, exec (.hbLoad mb tag img) s = .next (t.finish mb.val c 0 0 (i + 16 * (w.hb sp i).gen)) ∧
        (t.hb sp i).loaded = true ∧ (t.hb sp i).gen = (w.hb sp i).gen ∧
        (t.hb sp i).mills = img.body.mills.map Fin.val ∧ t.regs = w.regs)) ∧
  (∀ (s : State) (mb : Fin 64) (tag : BitVec 16) (c : Cmd), s.runs mb tag 0x11 false c →
    (s.hbOf (mb.val / 8) (c.opw 0) = none → exec (.hbUnload mb tag) s = .next (s.finish mb.val c 0x1B 0 0)) ∧
    (∀ i, s.hbOf (mb.val / 8) (c.opw 0) = some i → (s.mail.invs.any fun v => v.spur == mb.val / 8 && v.hb == i) = false →
      exec (.hbUnload mb tag) s =
        .next ((s.onHb (mb.val / 8) i fun h => { gen := (h.gen + 1) % 256 }).finish mb.val c 0 0 0))) ∧
  (∀ (s : State) (mb : Fin 64) (tag : BitVec 16) (c : Cmd) (spent : Nat), s.runs mb tag 0x12 false c →
    let sp := mb.val / 8
    (s.hbOf sp (c.opw 0 % 2 ^ 16) = none → exec (.invoke mb tag spent) s = .next (s.finish mb.val c 0x1B 0 0)) ∧
    (∀ i, s.hbOf sp (c.opw 0 % 2 ^ 16) = some i →
      (∀ st d, s.invokeBad sp i c = some (st, d) → exec (.invoke mb tag spent) s = .next (s.finish mb.val c st d 0)) ∧
      (s.invokeBad sp i c = none → (∀ d, d < 1024 → s.rd .SLOT_CTRL_STATE d = 1) →
        exec (.invoke mb tag spent) s = .next (s.finish mb.val c 0x18 0 0)) ∧
      (∀ d, s.invokeBad sp i c = none → d < 1024 → s.rd .SLOT_CTRL_STATE d ≠ 1 → (∀ e, e < d → s.rd .SLOT_CTRL_STATE e = 1) →
        let a := s.armSlot d c.deadline (bits (c.opw 0) 32 32) (bits (c.opw 0) 22 2) (bits (c.opw 0) 16 6) sp
        let r := (a.invBoundary sp).hbRemap sp i
        let mills := (r.hb sp i).placed
        let done := s.now + r.hbCostOn sp i mills + (r.queuedCost mills - spent)
        ((∀ m ∈ mills, r.inMillSet sp m = true) → done ≤ c.deadline →
          ∃ t, exec (.invoke mb tag spent) s = .next t ∧ t.rd .SLOT_CTRL_STATE d = 1 ∧
            t.rd .SLOT_CTRL_GEN d = (s.rd .SLOT_CTRL_GEN d + 1) % 256 ∧
            t.armedSlot d = ⟨c.deadline, bits (c.opw 0) 32 32, bits (c.opw 0) 16 6, bits (c.opw 0) 22 2, sp⟩ ∧
            t.mail.invs.length = s.mail.invs.length + 1 ∧ t.tx = s.tx) ∧
        ((∀ m ∈ mills, r.inMillSet sp m = true) → c.deadline < done →
          exec (.invoke mb tag spent) s = .next (r.finish mb.val c 0x08 (ceilDiv (done - c.deadline) 1000) 0)) ∧
        ((∃ m ∈ mills, r.inMillSet sp m = false) →
          exec (.invoke mb tag spent) s = .next (r.finish mb.val c 0x08 (2 ^ 32 - 1) 0))))) ∧
  (∀ (s : State) (mb : Fin 64) (tag : BitVec 16) (c : Cmd) (cfg : PtpSettings),
    let block := fun (a n : Nat) => (((s.freshBytes n).2.post (mb.val / 8) (.write a (s.freshBytes n).1)).finish mb.val c 0 0 n)
    (s.runs mb tag 0x00 false c → exec (.nop mb tag) s = .next (s.finish mb.val c 0 0 0)) ∧
    (s.runs mb tag 0x01 true c → exec (.getInfo mb tag) s = .next (block (c.opw 0) 256)) ∧
    (s.runs mb tag 0x13 true c → s.hbOf (mb.val / 8) (c.opw 0) = none →
      exec (.hbQuery mb tag) s = .next (s.finish mb.val c 0x1B 0 0)) ∧
    (∀ i, s.runs mb tag 0x13 true c → s.hbOf (mb.val / 8) (c.opw 0) = some i →
      ∃ b : List Byte, b.length = 128 ∧
        exec (.hbQuery mb tag) s = .next ((s.post (mb.val / 8) (.write (c.opw 1) b)).finish mb.val c 0 0 128)) ∧
    (s.runs mb tag 0x51 true c → exec (.ptpStat mb tag) s = .next (block (c.opw 0) 64)) ∧
    (s.runs mb tag 0x50 false c → ptpCfgOk cfg = false →
      ∃ v, exec (.ptpCfg mb tag cfg) s = .next ((s.fresh 32).2.finish mb.val c 0x2A v 0)) ∧
    (s.runs mb tag 0x50 false c → ptpCfgOk cfg = true →
      exec (.ptpCfg mb tag cfg) s = .next (((((s.onTime fun t => { t with ptp := ⟨cfg.profile.val, cfg.domain.toNat, cfg.logSync,
        cfg.logDelayReq⟩ }).wr .ETH0_ASYM_IN 0 cfg.asymIn.toNat).wr .ETH0_ASYM_OUT 0 cfg.asymOut.toNat).finish mb.val c 0 0 0))))

/-- WL_CFG, HEAD_CFG, EQ_CFG, FUL_APPLY and FT_CFG of a served mailbox complete with status 5 and the offset when a lock
stops a setting (a lock violation, R6), and with DOMAIN_OFF when a setting's domain is off; nothing is then written.
WL_CFG whose quotas exceed 230,400 words on a port is refused (R88; the reason is a free value, the model's choice).
HEAD_CFG of a head that takes its unit past the table space is refused with CARD_TBL_FULL (R145), one whose route R153
forbids with EQ_CFG_ERR. EQ_CFG of an enabled queue that would move, of a misplaced, overlong or overlapping ring is refused
with EQ_CFG_ERR and the queue. FT_CFG is refused with FT_CFG_ERR where R302 forbids it and where a base pose is bad
(R275). A command that nothing refuses applies its settings in order and completes with status 0; FUL_APPLY answers
DEC_USED, or NAP_FULL with the first subscription that fits at no decimation (R169). -/
def Obligations.ConfigurationCommands : Prop :=
  ∀ (s : State) (mb : Fin 64) (tag : BitVec 16) (rect : List Nat) (ecc : EccResult) (c : Cmd),
    (∀ p ∈ [(0x40, exec (.wlCfg mb tag) s), (0x41, exec (.headCfg mb tag ⟨rect, ecc⟩) s), (0x42, exec (.eqCfg mb tag) s),
        (0x43, exec (.fulApply mb tag) s), (0x44, exec (.ftCfg mb tag) s)], s.runs mb tag p.1 false c →
      (∀ off, s.cfgLocked mb.val c = some off →
        p.2 = .next ((s.lockViolation (s.coreAgent mb.val) off).finish mb.val c 5 off 0)) ∧
      (∀ d, s.cfgLocked mb.val c = none → s.cfgDomain c = some d → p.2 = .next (s.finish mb.val c 0x19 d 0))) ∧
    (s.cfgLocked mb.val c = none → s.cfgDomain c = none →
      let core := s.coreAgent mb.val
      (s.runs mb tag 0x40 false c →
        (∀ p, p ∈ (c.idxOf .HT_QUOTA).map (· / 32) → 230400 < s.quotaAfter c p →
          ∃ t : State, ∃ v, t = (s.fresh 32).2 ∧ exec (.wlCfg mb tag) s = .next (t.finish mb.val c 0x2A v 0)) ∧
        ((∀ p ∈ (c.idxOf .HT_QUOTA).map (· / 32), s.quotaAfter c p ≤ 230400) →
          exec (.wlCfg mb tag) s = .next ((s.each c.pairs fun s p =>
            if p.1 % 0x8000 = 0 then s.wlCtrl core ((p.1 - 0x80000) / 0x8000) (BitVec.ofNat 32 p.2) (bit p.2 0)
            else s.busWord core p.1 p.2).finish mb.val c 0 0 0))) ∧
      (s.runs mb tag 0x41 false c → s.quotaBad c = false →
        let t := (s.applySettings mb.val c.pairs).giveTables c
        let slot := c.cfg.target % 256
        ((∃ u, u < 8 ∧ c.touches u = true ∧ tblSpace < t.tblSum u) →
          exec (.headCfg mb tag ⟨rect, ecc⟩) s = .next (s.finish mb.val c 0x21 c.cfg.target 0)) ∧
        ((∀ u, u < 8 → c.touches u = true → t.tblSum u ≤ tblSpace) →
          (∀ q, t.badRoute (c.idxOf .SLOT_ROUTE_EN) = some q →
            exec (.headCfg mb tag ⟨rect, ecc⟩) s = .next (s.finish mb.val c 0x22 q 0)) ∧
          (t.badRoute (c.idxOf .SLOT_ROUTE_EN) = none →
            let loaded := (((s.giveTables c).cfgWrite mb.val c.pairs).loadRect slot rect).reloadSlot slot
            let ends := (loaded.tableEcc slot ecc).each (c.idxOf .SLOT_RECT_EN) fun s i => s.calFollow i false
            exec (.headCfg mb tag ⟨rect, ecc⟩) s =
              .next ((ends.each ((List.range 8).filter c.touches) State.tblRefresh).finish mb.val c 0 0 0)))) ∧
      (s.runs mb tag 0x42 false c →
        (∀ q l, c.idxOf .EQ_CFG_EN = q :: l → s.rd .EQ_CFG_EN q = 1 → s.settingOf c.pairs .EQ_CFG_LOG2N q ≠ s.rd .EQ_CFG_LOG2N q →
          exec (.eqCfg mb tag) s = .next (s.finish mb.val c 0x22 q 0)) ∧
        (∀ q l, c.idxOf .EQ_CFG_EN = q :: l →
          (s.settingOf c.pairs .EQ_CFG_BASE q * 64) % 2 ^ s.settingOf c.pairs .EQ_CFG_LOG2N q ≠ 0 →
          exec (.eqCfg mb tag) s = .next (s.finish mb.val c 0x22 q 0)) ∧
        ((∀ q ∈ c.idxOf .EQ_CFG_EN, s.eqCfgBad c q = false) →
          exec (.eqCfg mb tag) s = .next ((s.each c.pairs fun s p =>
            if p.1 < 0x108000 ∧ p.1 % 0x40 = 0 then s.eqCfgWrite core ((p.1 - 0x100000) / 0x40) p.2 (bit p.2 0)
            else s.busWord core p.1 p.2).finish mb.val c 0 0 0))) ∧
      (s.runs mb tag 0x43 false c →
        (∀ st d u, s.fulRefuse mb.val c = some (st, d, u) → exec (.fulApply mb tag) s = .next (u.finish mb.val c st d 0)) ∧
        (s.fulRefuse mb.val c = none →
          let t := s.applySettings mb.val c.pairs
          ((∀ i ∈ c.subs, t.rd .SUB_EN i = 0) → ∃ u : State, exec (.fulApply mb tag) s = .next
            (u.finish mb.val c 0 0 ((List.range 32).map fun i => u.rd .SUB_DEC_USED i * 4 ^ i).sum)) ∧
          (∀ i, c.subs = [i] → t.rd .SUB_EN i = 1 →
            (∀ d ∈ t.decTries i, t.napFits (mb.val / 8) i d (((List.range 64).filter fun j => s.flag .SUB_EN j && !(c.subs.contains j)).map
              fun j => s.footprint (s.sub j).spur j (s.sub j).dec) = false) →
            ∃ u : State, exec (.fulApply mb tag) s = .next (u.finish mb.val c 0x24 i 0) ∧ u.rd .SUB_EN i = 0) ∧
          (∀ i d l, c.subs = [i] → t.rd .SUB_EN i = 1 → t.decTries i = d :: l →
            t.napFits (mb.val / 8) i d (((List.range 64).filter fun j => s.flag .SUB_EN j && !(c.subs.contains j)).map
              fun j => s.footprint (s.sub j).spur j (s.sub j).dec) = true →
            ∃ u : State, u.rd .SUB_EN i = 1 ∧ u.rd .SUB_DEC_USED i = d % 2 ^ Reg.SUB_DEC_USED.spec.width ∧
              exec (.fulApply mb tag) s = .next
                (u.finish mb.val c 0 0 ((List.range 32).map fun i => u.rd .SUB_DEC_USED i * 4 ^ i).sum)))) ∧
      (s.runs mb tag 0x44 false c →
        (∀ p l, c.pairs = p :: l → s.ftHeld p.1 = true →
          exec (.ftCfg mb tag) s = .next (s.finish mb.val c 0x25 p.1 0)) ∧
        (∀ off, (∀ p ∈ c.pairs, s.ftHeld p.1 = false) → s.poseBad c = some off →
          exec (.ftCfg mb tag) s = .next (s.finish mb.val c 0x25 off 0)) ∧
        (s.ftRefuse c = none →
          exec (.ftCfg mb tag) s = .next ((s.cfgWrite mb.val c.pairs).finish mb.val c 0 0 0))))

/-- SPUR_CFG for a Spur that does not exist ends with CFG_ERR reason 8, a release of Spur 0 with 6, one for a Spur with a locked
or running TDI with 4, and nothing changes but the mailbox. One that no reason refuses gives the Spur what it asks for and
leaves every other Spur's resources alone. A scrub that nobody started changes nothing; one that ends clears the SRAM of the
four Mills of its quad, or, where no SPUR_CFG waits for it, the memory of its channel and no other byte. An FLR of a function
that does not exist, or while no configuration request is taken (R506), changes nothing; one of VFn keeps every Spur's
resources, raises the Spur's epoch, counts, and takes the function's bus mastering (R368, R369). A Spur fault puts a Spur that
is not yet FAULTED into FAULTED with its code, 5 for an inconsistent object, and counts (R546). -/
def Obligations.SpurAssignmentAndScrubs : Prop :=
  (∀ (s : State) (mb : Fin 64) (tag : BitVec 16) (c : Cmd), s.runs mb tag 0x70 false c →
    let sp := c.cfg.target
    (8 ≤ sp → exec (.spurCfg mb tag) s = .next (s.finish mb.val c 0x2A 8 0)) ∧
    (c.foreignRow sp = false → c.cfg.release = true → sp = 0 → exec (.spurCfg mb tag) s = .next (s.finish mb.val c 0x2A 6 0)) ∧
    (sp < 8 → sp ≠ 0 → c.foreignRow sp = false → s.rd .SPUR_TDI sp = 1 ∨ s.rd .SPUR_TDI sp = 2 →
      exec (.spurCfg mb tag) s = .next (s.finish mb.val c 0x2A 4 0)) ∧
    (s.spurCfgReason sp c = 0 → sp = 0 ∨ s.rd .SPUR_STATE sp ≠ 3 → s.spurPoolBad sp c = false →
      ∃ t, exec (.spurCfg mb tag) s = .next t ∧
        t.rd .SPUR_QUADS sp = (s.asked sp c).quads % 2 ^ 32 ∧ t.rd .SPUR_RES_CH sp = (s.asked sp c).chans % 2 ^ 8 ∧
        t.rd .SPUR_RES_WL sp = (s.asked sp c).ports % 2 ^ 8 ∧ t.rd .SPUR_EQ sp = (s.asked sp c).blocks % 2 ^ 32 ∧
        ∀ o, o < 8 → o ≠ sp → t.assigned o = s.assigned o)) ∧
  (∀ (s : State) (r : ScrubRes),
    ((∀ y ∈ s.sec.scrubs, (y.kind, y.num) ≠ scrubKey r) → exec (.scrubComplete r) s = .next s) ∧
    (∀ (q : Fin 32) (y : Scrub), r = .quad q → y ∈ s.sec.scrubs → (y.kind, y.num) = scrubKey r →
      ∃ t, exec (.scrubComplete r) s = .next t ∧
        ∀ j a, j < 4 → a < 2 ^ 20 → t.ldByte (.mill (4 * q.val + j)) a = 0) ∧
    (∀ (ch : Fin 8) (y : Scrub), r = .channel ch → y ∈ s.sec.scrubs → (y.kind, y.num) = scrubKey r →
      (∀ x ∈ s.sec.scrubs, (x.kind, x.num) = scrubKey r → x.cmd = none) →
      ∃ t, exec (.scrubComplete r) s = .next t ∧ (∀ a, a < s.chanCap → t.ldByte (.lpddr ch.val) a = 0) ∧
        ∀ p a, p ≠ .lpddr ch.val → a < 2 ^ 36 → t.ldByte p a = s.ldByte p a)) ∧
  (∀ (s : State) (fn : Fin 8),
    (s.fnExists fn.val = false ∨ s.cfgOpen = false → exec (.flr fn) s = .next s) ∧
    (s.fnExists fn.val = true → s.cfgOpen = true → ∃ t, exec (.flr fn) s = .next t ∧ (∀ sp, sp < 8 → t.assigned sp = s.assigned sp) ∧
      t.rd .ERR_EPOCH fn.val = (s.rd .ERR_EPOCH fn.val + 1) % 2 ^ Reg.ERR_EPOCH.spec.width ∧
      t.rd .RST_COUNT 6 = satAdd Reg.RST_COUNT.spec.width (s.rd .RST_COUNT 6) 1 ∧ (t.fn fn.val).bme = false)) ∧
  (∀ (s : State) (sp : Fin 8) (fwCheck : Bool), s.domOn pdCtrl = true → s.rd .SPUR_STATE sp.val < 3 →
    (s.rd .ERR_FAULT_CODE sp.val ≠ 0 ∨ fwCheck = true →
      ∃ t, exec (.spurFault sp fwCheck) s = .next t ∧ t.rd .SPUR_STATE sp.val = 3 ∧
        t.rd .ERR_FAULT_CODE sp.val = (if s.rd .ERR_FAULT_CODE sp.val = 0 then 5 else s.rd .ERR_FAULT_CODE sp.val % 2 ^ Reg.ERR_FAULT_CODE.spec.width) ∧
        t.rd .ERR_FAULT_FAULTS sp.val = satAdd Reg.ERR_FAULT_FAULTS.spec.width (s.rd .ERR_FAULT_FAULTS sp.val) 1) ∧
    (s.rd .ERR_FAULT_CODE sp.val = 0 → fwCheck = false → exec (.spurFault sp fwCheck) s = .next s))

/-- With the DOE mailbox up (configuration requests are taken, PD_CTRL on): DOE_DISCOVERY, GET_VERSION, GET_CAPABILITIES and
NEGOTIATE_ALGORITHMS are answered always. Every other request is answered with Unspecified (0x05) and has no effect while
QUARANTINE or DBG_OPEN is set. Otherwise GET_DIGESTS and GET_CERTIFICATE show slot 0, empty while CERT_BAD is set; another slot,
a measurement index above 5 but 0xFF, a fifth session and an unsupported request are answered with 0x07; index 0 asks for 5
measurements; KEY_EXCHANGE opens a session, FINISH secures it, END_SESSION ends it, HEARTBEAT and KEY_UPDATE are acknowledged in
a secured one; KEY_PROG programs one key, K_SET_GO of a set with six keys makes the function's stream Secure, K_SET_STOP of the
active set makes it Insecure and drops the set's keys. The values of measurements and of the session error are free. An answer
changes nothing else. -/
def Obligations.SpdmRequests : Prop :=
  ∀ (s : State) (b : Byte) (w o l : BitVec 16) (slot : BitVec 4) (n : BitVec 256) (fn : Fin 8) (set1 tr : Bool) (sub : IdeSub),
    s.doeUp = true →
    exec (.doeDiscovery b) s = .next (s.emit (.doe (.discovery b.toNat (b.toNat < 3)))) ∧
    exec .getVersion s = .next (s.emit (.doe .version)) ∧ exec .getCapabilities s = .next (s.emit (.doe .capabilities)) ∧
    exec .negotiateAlgorithms s = .next (s.emit (.doe .algorithms)) ∧
    (s.rd .SEC_STAT_QUARANTINE ≠ 0 ∨ s.rd .SEC_STAT_DBG_OPEN ≠ 0 →
      ∀ e ∈ [exec .getDigests s, exec (.getCertificate slot o l) s, exec (.challenge n) s, exec (.getMeasurements b) s,
        exec (.keyExchange w) s, exec (.finish w) s, exec (.heartbeat w) s, exec (.keyUpdate w) s, exec (.endSession w) s,
        exec (.spdmUnsupported b) s, exec .ideKmQuery s, exec (.keyProg fn set1 tr sub) s, exec (.kSetGo fn set1) s,
        exec (.kSetStop fn set1) s, exec .getTdispVersion s, exec .getTdispCapabilities s, exec (.lockInterfaceRequest fn) s,
        exec (.getDeviceInterfaceReport fn) s, exec (.getDeviceInterfaceState fn) s, exec (.startInterfaceRequest fn) s,
        exec (.stopInterfaceRequest fn) s], e = .next (s.emit (.doe (.error 0x05)))) ∧
    (s.rd .SEC_STAT_QUARANTINE = 0 → s.rd .SEC_STAT_DBG_OPEN = 0 →
      exec .getDigests s = .next (s.emit (.doe (.digests (s.rd .SEC_STAT_CERT_BAD == 0)))) ∧
      (slot ≠ 0 → exec (.getCertificate slot o l) s = .next (s.emit (.doe (.error 0x07)))) ∧
      (slot = 0 → exec (.getCertificate slot o l) s =
        .next (s.emit (.doe (.certificate o.toNat (if s.rd .SEC_STAT_CERT_BAD = 0 then l.toNat else 0))))) ∧
      exec (.challenge n) s = .next (s.emit (.doe (.challengeAuth n.toNat))) ∧
      (b = 0 → exec (.getMeasurements b) s = .next (s.emit (.doe (.measurements [5])))) ∧
      (b.toNat ∈ [1, 2, 3, 4, 5, 255] → ∃ t v, exec (.getMeasurements b) s = .next t ∧ t.tx = .doe (.measurements v) :: s.tx ∧
        v.length = (if b.toNat = 255 then 5 else 1) ∧ (∀ x ∈ v, x < 2 ^ 384) ∧ t.regs = s.regs ∧ t.mem = s.mem ∧ t.sec = s.sec) ∧
      (5 < b.toNat → b.toNat ≠ 255 → exec (.getMeasurements b) s = .next (s.emit (.doe (.error 0x07)))) ∧
      (4 ≤ s.sec.sessions.length → s.session w.toNat = 0 →
        exec (.keyExchange w) s = .next (s.emit (.doe (.error 0x07)))) ∧
      (s.sec.sessions.length < 4 ∨ s.session w.toNat ≠ 0 →
        ∃ t, exec (.keyExchange w) s = .next t ∧ t.session w.toNat = 1 ∧ t.tx = .doe (.keyExchangeRsp w.toNat) :: s.tx ∧
          (∀ x, x ≠ w.toNat → t.session x = s.session x) ∧ t.regs = s.regs ∧ t.mem = s.mem) ∧
      (s.session w.toNat ≠ 0 →
        ∃ t, exec (.finish w) s = .next t ∧ t.session w.toNat = 2 ∧ t.tx = .doe (.finishRsp w.toNat) :: s.tx ∧
          (∀ x, x ≠ w.toNat → t.session x = s.session x) ∧ t.regs = s.regs ∧ t.mem = s.mem) ∧
      (s.session w.toNat = 2 →
        exec (.heartbeat w) s = .next (s.emit (.doe (.heartbeatAck w.toNat))) ∧
        exec (.keyUpdate w) s = .next (s.emit (.doe (.keyUpdateAck w.toNat))) ∧
        ∃ t, exec (.endSession w) s = .next t ∧ t.session w.toNat = 0 ∧
          t.tx = .doe (.endSessionAck w.toNat) :: s.tx ∧ (∀ x, x ≠ w.toNat → t.session x = s.session x) ∧ t.regs = s.regs) ∧
      (s.session w.toNat = 0 → ∃ t v, exec (.finish w) s = .next t ∧ t.tx = .doe (.error v) :: s.tx ∧ t.sec = s.sec ∧ t.regs = s.regs) ∧
      (s.session w.toNat ≠ 2 → ∀ e ∈ [exec (.heartbeat w) s, exec (.keyUpdate w) s, exec (.endSession w) s],
        ∃ t v, e = .next t ∧ t.tx = .doe (.error v) :: s.tx ∧ t.sec = s.sec ∧ t.regs = s.regs) ∧
      exec (.spdmUnsupported b) s = .next (s.emit (.doe (.error 0x07))) ∧
      exec .ideKmQuery s = .next (s.emit (.doe .ideKmQueryResp)) ∧
      (∃ t, exec (.keyProg fn set1 tr sub) s = .next t ∧ t.tx = .doe (.keyProgAck fn.val) :: s.tx ∧ t.regs = s.regs ∧
        bit (Table.get 0 t.sec.ideKeys fn.val) (ideBit set1 tr sub) = true ∧
        ∀ k, k ≠ ideBit set1 tr sub → bit (Table.get 0 t.sec.ideKeys fn.val) k = bit (Table.get 0 s.sec.ideKeys fn.val) k) ∧
      (∃ t, exec (.kSetGo fn set1) s = .next t ∧ t.tx = .doe (.kGoStopAck fn.val) :: s.tx ∧ t.sec.ideKeys = s.sec.ideKeys ∧
        (let six := bits (Table.get 0 s.sec.ideKeys fn.val) (if set1 then 6 else 0) 6 = 0x3F
         (six → t.rd .SPUR_STREAM fn.val = 1 ∧ Table.get 0 t.sec.ideSet fn.val = if set1 then 2 else 1) ∧
         (¬ six → t.regs = s.regs ∧ t.sec = s.sec))) ∧
      (∃ t, exec (.kSetStop fn set1) s = .next t ∧ t.tx = .doe (.kGoStopAck fn.val) :: s.tx ∧
        bits (Table.get 0 t.sec.ideKeys fn.val) (if set1 then 6 else 0) 6 = 0 ∧
        (Table.get 0 s.sec.ideSet fn.val = (if set1 then 2 else 1) → t.rd .SPUR_STREAM fn.val = 0) ∧
        (Table.get 0 s.sec.ideSet fn.val ≠ (if set1 then 2 else 1) → t.regs = s.regs)))

/-- With the DOE mailbox up and the security engine neither in QUARANTINE nor debug open: LOCK_INTERFACE_REQUEST takes a
TDI from CONFIG_UNLOCKED to CONFIG_LOCKED when its stream is Secure, its Spur is CONFIGURED or ACTIVE and no scrub of
it runs, and is otherwise an error that changes nothing; START_INTERFACE_REQUEST takes it from CONFIG_LOCKED to RUN
only; STOP_INTERFACE_REQUEST returns it to CONFIG_UNLOCKED; the state and the report of a TDI are told as the
registers hold them. An integrity failure of a Secure stream makes it Insecure and the TDI ERROR. Whatever the
security state, such a request answers a next state. A read of ISO_LOG takes the oldest entry and leaves its stamp in
the second word; that an empty log reads as 0 is the model's reading. -/
def Obligations.TdispAndIsolation : Prop :=
  (∀ (s : State) (f : Fin 8), s.doeUp = true → s.spdmClosed = false →
    exec .getTdispVersion s = .next (s.emit (.doe .tdispVersion)) ∧
    exec .getTdispCapabilities s = .next (s.emit (.doe .tdispCapabilities)) ∧
    (s.rd .SPUR_TDI f.val = 0 → s.rd .SPUR_STREAM f.val = 1 → s.rd .SPUR_STATE f.val = 1 ∨ s.rd .SPUR_STATE f.val = 2 →
      (∀ x ∈ s.sec.scrubs, x.spur ≠ f.val) →
      exec (.lockInterfaceRequest f) s = .next ((s.wr .SPUR_TDI f.val 1).emit (.doe (.lockResponse f.val)))) ∧
    (s.rd .SPUR_TDI f.val ≠ 0 ∨ s.rd .SPUR_STREAM f.val = 0 ∨ s.rd .SPUR_STATE f.val ∉ [1, 2] ∨
        (∃ x ∈ s.sec.scrubs, x.spur = f.val) →
      exec (.lockInterfaceRequest f) s = .next (s.emit (.doe (.tdispError f.val)))) ∧
    (s.rd .SPUR_TDI f.val = 1 →
      exec (.startInterfaceRequest f) s = .next ((s.wr .SPUR_TDI f.val 2).emit (.doe (.startResponse f.val)))) ∧
    (s.rd .SPUR_TDI f.val ≠ 1 → exec (.startInterfaceRequest f) s = .next (s.emit (.doe (.tdispError f.val)))) ∧
    (s.rd .SPUR_TDI f.val = 0 → exec (.stopInterfaceRequest f) s = .next (s.emit (.doe (.stopResponse f.val)))) ∧
    (∃ t, exec (.stopInterfaceRequest f) s = .next t ∧ t.rd .SPUR_TDI f.val = 0 ∧
      (∀ sp, sp < 8 → t.assigned sp = s.assigned sp) ∧ ∃ l, t.tx = .doe (.stopResponse f.val) :: l) ∧
    exec (.getDeviceInterfaceState f) s = .next (s.emit (.doe (.interfaceState f.val (s.rd .SPUR_TDI f.val)))) ∧
    exec (.getDeviceInterfaceReport f) s = .next (s.emit (.doe (.interfaceReport f.val
      (if f.val = 0 then [2 ^ 23, 2 ^ 16] else [2 ^ 18, 2 ^ 14]) (s.rd .SPUR_QUADS f.val) (s.rd .SPUR_RES_CH f.val)
      (s.rd .SPUR_RES_WL f.val) (s.rd .SPUR_EQ f.val) ((List.range 8).map fun w => s.rd .SPUR_GRANT (8 * f.val + w))
      (s.rd .NGX_VER) (s.rd .NGX_IF))))) ∧
  (∀ (s : State) (f : Fin 8),
    (s.rd .SPUR_STREAM f.val ≠ 0 → s.domOn pdHost = true →
      ∃ t, exec (.ideIntegrityFailure f) s = .next t ∧ t.rd .SPUR_STREAM f.val = 0 ∧ t.rd .SPUR_TDI f.val = 3 ∧ t.mem = s.mem) ∧
    (s.rd .SPUR_STREAM f.val = 0 → exec (.ideIntegrityFailure f) s = .next s)) ∧
  (∀ (s : State) (who : Agent), s.admitRead who .ISO_LOG_LO 0 = .ok s →
    (∀ e l, s.isoLog = e :: l →
      ∃ t, exec (.isoLogPop who) s = .next t ∧ t.isoLog = l ∧ t.rd .ISO_LOG_HI = e.stamp % 2 ^ Reg.ISO_LOG_HI.spec.width ∧
        t.tx = .readData who (e.spur + e.cls * 2 ^ 4 + e.obj * 2 ^ 16) :: s.tx ∧ t.mem = s.mem) ∧
    (s.isoLog = [] → ∃ t, exec (.isoLogPop who) s = .next t ∧ t.isoLog = [] ∧ t.tx = .readData who 0 :: s.tx ∧ t.rd .ISO_LOG_HI = 0))

/-- Outside PD_CW, or in a state that does not receive, a marker changes nothing; elsewhere the codewords of its frame that the
FEC corrected and could not correct are counted, and one whose CRC-16 fails counts MARK_CRC as well. A good marker A in RING
makes the in-hop show the upstream's DEVID, MASK, its width, LMV, ENC and HEPOCH, and SPLICE_WT, where the device does not set
it and it has not passed. A good marker B relays every HOPTAB entry but that of the own upstream, once a marker A has named it,
which says the lanes that the receiver accepts, and the transmitter takes GOOD from its own entry only when that carries its
current epoch (R400). At a frame boundary in RING MASK becomes what the GOOD lanes give, with LMV one higher where it changes,
and eight lanes' markers leave. A lane that is lost or errs is BAD and drops out of GOOD, one that has trained is GOOD, and the
counters rise; calibration takes one lane only when both hops have 7 GOOD lanes and returns it to TRAINING, or to BAD with
CAL_FAIL. A hop that a splice changed and that carries no data for 300 µs begins a new epoch. Outside RING these events change
nothing. No memory changes. -/
def Obligations.CausewayMarkersAndHops : Prop :=
  (∀ (s : State) (lane : CwLane) (m : BitVec 256),
    let st := s.rd .CW_STAT_STATE
    let n := (s.count .CW_CNT 0 lane.corrected.val).count .CW_CNT 1 lane.lost.val
    (s.domOn pdCw = false ∨ (st ≠ 2 ∧ st ≠ 3) → exec (.cwMarkerARx lane m) s = .next s ∧ exec (.cwMarkerBRx lane m) s = .next s) ∧
    (s.domOn pdCw = true → st = 2 ∨ st = 3 → bits m.toNat 240 16 ≠ crc16 (leBytes 30 m.toNat) →
      exec (.cwMarkerARx lane m) s = .next (n.count .CW_CNT 2) ∧ exec (.cwMarkerBRx lane m) s = .next (n.count .CW_CNT 2)) ∧
    (s.domOn pdCw = true → st = 3 → bits m.toNat 240 16 = crc16 (leBytes 30 m.toNat) →
      (∃ t, exec (.cwMarkerARx lane m) s = .next t ∧ t.rd .CW_HOP_PEER 0 = bits m.toNat 20 4 ∧
        t.rd .CW_HOP_MASK 0 = bits m.toNat 8 8 ∧ t.rd .CW_HOP_WIDTH 0 = popcount 8 (bits m.toNat 8 8) ∧
        t.rd .CW_HOP_LMV 0 = bits m.toNat 4 4 ∧ t.rd .CW_HOP_ENC 0 = bits m.toNat 17 1 ∧ t.cw.inEpoch = bits m.toNat 24 4 ∧
        t.rd .CW_CNT 0 = n.rd .CW_CNT 0 ∧ t.rd .CW_CNT 1 = n.rd .CW_CNT 1 ∧
        (s.spliceMaster = false → s.now < bits m.toNat 96 64 → t.cw.spliceWt = bits m.toNat 96 64) ∧
        t.cw.markerAt = some s.raw ∧ t.mem = s.mem) ∧
      (∃ t, exec (.cwMarkerBRx lane m) s = .next t ∧ t.cw.markerAt = some s.raw ∧ t.mem = s.mem ∧
        (∀ u, u < 16 → s.cw.inKnown = false ∨ u ≠ s.rd .CW_HOP_PEER 0 → Table.get 0 t.cw.hoptab u = hopEntry m.toNat u) ∧
        (s.cw.inKnown = true → Table.get 0 t.cw.hoptab (s.rd .CW_HOP_PEER 0) = s.inLanes 0 + s.cw.inEpoch * 2 ^ 8) ∧
        t.rd .CW_HOP_GOOD 1 =
          let e := hopEntry m.toNat s.devid
          if bits e 8 4 = s.cw.outEpoch then bits e 0 8 else s.rd .CW_HOP_GOOD 1))) ∧
  (∀ s : State,
    (s.domOn pdCw = false ∨ s.rd .CW_STAT_STATE ≠ 3 → ∀ (l : Fin 8) (f : Bool),
      ∀ c ∈ [Instr.cwFrameBoundary, .cwLaneLoss l, .cwLaneErrorRate l, .cwLaneQualified l, .cwLaneCalStart l f, .cwHopDataTimeout f],
        exec c s = .next s) ∧
    (s.domOn pdCw = true → s.rd .CW_STAT_STATE = 3 →
      (∃ t v k, exec .cwFrameBoundary s = .next t ∧ t.cw.frame = s.cw.frame + 1 ∧ t.mem = s.mem ∧
        Tx.cwMarkers k v ∈ t.tx ∧ v.length = 8 ∧ (k = 0 ↔ (s.cw.frame + 1) % 2 = 0) ∧
        (s.frameMask ≠ s.rd .CW_HOP_MASK 1 →
          t.rd .CW_HOP_MASK 1 = s.frameMask % 2 ^ 8 ∧ t.rd .CW_HOP_LMV 1 = (s.rd .CW_HOP_LMV 1 + 1) % 16) ∧
        (s.frameMask = s.rd .CW_HOP_MASK 1 →
          t.rd .CW_HOP_MASK 1 = s.rd .CW_HOP_MASK 1 ∧ t.rd .CW_HOP_LMV 1 = s.rd .CW_HOP_LMV 1)) ∧
      (∀ l : Fin 8, s.rd .CW_LANE_IN l.val ≠ 1 → ∀ c ∈ [Instr.cwLaneLoss l, .cwLaneErrorRate l],
        ∃ t, exec c s = .next t ∧ t.rd .CW_LANE_IN l.val = 1 ∧ bit (t.rd .CW_HOP_GOOD 0) l.val = false ∧ t.mem = s.mem ∧
          t.rd .CW_CNT 5 = (if s.rd .CW_LANE_IN l.val = 0 then satAdd 32 (s.rd .CW_CNT 5) 1 else s.rd .CW_CNT 5)) ∧
      (∀ l : Fin 8, s.rd .CW_LANE_IN l.val = 2 → ∃ t, exec (.cwLaneQualified l) s = .next t ∧ t.rd .CW_LANE_IN l.val = 0 ∧
        bit (t.rd .CW_HOP_GOOD 0) l.val = true ∧ t.rd .CW_CNT 6 = satAdd 32 (s.rd .CW_CNT 6) 1 ∧ t.mem = s.mem) ∧
      (∀ l : Fin 8, s.laneModeOk = true →
        (∃ t, exec (.cwLaneCalStart l true) s = .next t ∧ t.rd .CW_LANE_IN l.val = 3 ∧ bit (t.rd .CW_HOP_GOOD 0) l.val = false) ∧
        (∃ t, exec (.cwLaneCalStart l false) s = .next t ∧ t.rd .CW_LANE_OUT l.val = 3 ∧ bit t.cw.outCal l.val = true ∧
          t.rd .CW_HOP_GOOD 1 = s.rd .CW_HOP_GOOD 1)) ∧
      (∀ inHop : Bool, s.rd .CW_HOP_WIDTH (if inHop then 0 else 1) = 0 →
        (if inHop then s.cw.inEpochAt else s.cw.outEpochAt) + 300000 ≤ s.raw →
        ∃ t, exec (.cwHopDataTimeout inHop) s = .next t ∧ t.rd .CW_CNT 7 = satAdd 32 (s.rd .CW_CNT 7) 1 ∧ t.mem = s.mem ∧
          (inHop = false → t.cw.outEpoch = (s.cw.outEpoch + 1) % 16) ∧
          ∀ l, l < 8 → t.rd (if inHop then .CW_LANE_IN else .CW_LANE_OUT) l = 2)) ∧
    (∀ (l : Fin 8) (locked : Bool),
      (s.rd .CW_LANE_IN l.val = 3 → ∃ t, exec (.cwLaneCalDone l true locked) s = .next t ∧
        t.rd .CW_LANE_IN l.val = (if locked then 2 else 1) ∧
        t.rd .CW_STAT_CAL_FAIL = (if locked then s.rd .CW_STAT_CAL_FAIL else 1)) ∧
      (bit s.cw.outCal l.val = true → ∃ t, exec (.cwLaneCalDone l false locked) s = .next t ∧
        t.rd .CW_LANE_OUT l.val = (if locked then 2 else 1) ∧ bit t.cw.outCal l.val = false ∧
        t.rd .CW_STAT_CAL_FAIL = (if locked then s.rd .CW_STAT_CAL_FAIL else 1))))

/-- In RING with PD_CW on, a packet that is not intact or has a reserved class is dropped and counted; the device's own unicast
packet is removed with NO_DEST; one for another device is forwarded unchanged; the packet counters of the hops move with each
packet but MGMT while ENC is set (R397); outside RING a packet changes nothing. A Crown takes a STOP_STATE whose SEQ is higher
and whose Brim stands in the map once, and no other (R415). A Brim takes a TIME packet: THETA is A − (BWT + CORR + PATHDLY) in
2⁻⁸ ns, limited to its field (R411); the Crown's own TIME packet gives L, CORR and the cable delay in whole ns (R410). A HELLO
sets whether the upstream is proved, and under policy 0 refuses the hop when it is not (R398); the HELLO timer sends a MGMT
packet of SUB 0 with the next SEQ. DISCOVER from another is sent on with this device's entry appended; a MAP becomes the map,
with N_DEV. The Crown starts DISCOVER when both hops carry data and broadcasts the map; one that misses its TIME packet has
RING_BREAK and loses the Brims of AGG_EN (R408); a Brim past AGG_TO is lost (R416). The layouts of the DISCOVER entry and of the
packet fields the spec does not lay out are the model's choices. -/
def Obligations.CausewayPackets : Prop :=
  ∀ (s : State) (p : CwPacket) (a : Int) (res : BitVec 48) (proof : Bool) (nonce : BitVec 128), p.wf = true →
    (s.domOn pdCw = false ∨ s.rd .CW_STAT_STATE ≠ 3 →
      ∀ c ∈ [Instr.stopStateRx p, .timePacketRx p a res, .helloRx p proof, .discoverRx p, .mapRx p, .ctrlPacketRx p, .ctrlAckRx p,
        .dataPacketRx p, .helloTimer nonce, .cwDiscoverStart, .cwMapBroadcast], exec c s = .next s) ∧
    (s.domOn pdCw = true → s.rd .CW_STAT_STATE = 3 →
      (p.intact = false ∨ pCls p = 0 ∨ 5 < pCls p → pCls p ≠ 4 →
        ∀ c ∈ [Instr.stopStateRx p, .timePacketRx p a res, .helloRx p proof, .dataPacketRx p, .ctrlPacketRx p, .ctrlAckRx p],
          exec c s = .next ((s.cwIn p).count .CW_CNT 3)) ∧
      (p.intact = true → s.rd .CW_STAT_NOT_KIT_UP = 0 → s.rd .CW_STAT_DEVID_DUP = 0 →
        (∀ x ∈ [(1, Instr.stopStateRx p), (5, .dataPacketRx p)], pCls p = x.1 → pBcast p = false →
          (pSrc p = s.devid → exec x.2 s = .next ((s.cwIn p).count .CW_CNT 4)) ∧
          (pSrc p ≠ s.devid → pDst p ≠ s.devid →
            exec x.2 s = .next ((s.cwIn p).cwPut x.1 (.cwForward p.header p.payload)))) ∧
        (pCls p = 1 → pBcast p = false → pSrc p ≠ s.devid → pDst p = s.devid → s.rd .GLOBAL_ID_ROLE = 1 → s.mapHas (pSrc p) = true →
          (∀ q, (s.aggSt (pSrc p)).seq = some q → pSeq p ≤ q → exec (.stopStateRx p) s = .next (s.cwIn p)) ∧
          ((∀ q, (s.aggSt (pSrc p)).seq = some q → q < pSeq p) → ∃ t, exec (.stopStateRx p) s = .next t ∧
            t.aggSt (pSrc p) = ⟨some (pSeq p), byteAt p.header 16, byteAt p.header 17, s.raw⟩ ∧
            (s.rd .CW_STAT_ROLE_CONFLICT = 0 → bit (t.rd .AGG_LOST) (pSrc p) = false) ∧ t.mem = s.mem)) ∧
        (pCls p = 2 → pSrc p ≠ s.devid → pBcast p = true → s.rd .GLOBAL_ID_ROLE = 2 →
          let arr := a - asym8 (s.rdSigned .CW_ASYM_IN (2 * s.rd .CW_CFG_PAIR))
          let th := arr - ((leAt p.header 8 8 * 256 + leAt p.header 16 6 / 2 ^ 8 + leAt p.payload (4 * s.devid) 4 : Nat) : Int)
          ∃ t l, exec (.timePacketRx p a res) s = .next t ∧ t.rdSigned .CW_THETA = clampInt (-(2 ^ 31)) (2 ^ 31 - 1) th ∧
            t.tx = .cwForward (corrAdded p res.toNat).header p.payload :: l ∧ t.mem = s.mem) ∧
        (pCls p = 2 → pSrc p = s.devid → pBcast p = true → s.rd .GLOBAL_ID_ROLE = 1 →
          let arr := a - asym8 (s.rdSigned .CW_ASYM_IN (2 * s.rd .CW_CFG_PAIR))
          let l := (arr - (leAt p.header 8 8 : Int) * 256).toNat
          let corr := leAt p.header 16 6 / 2 ^ 8
          ∃ t, exec (.timePacketRx p a res) s = .next t ∧ t.rd .CW_LOOP_L = l / 256 % 2 ^ 24 ∧
            t.rd .CW_LOOP_CORR_RET = corr / 256 % 2 ^ 24 ∧ t.rd .CW_CABLE = (l - corr) / 256 % 2 ^ 24 ∧ t.mem = s.mem) ∧
        (pCls p = 3 → pSub p = 0 → ∃ t, exec (.helloRx p proof) s = .next t ∧ t.cw.upProven = (proof && s.inKit) ∧
          t.rd .CW_STAT_NOT_KIT_UP = (if (proof && s.inKit) || s.flag .SEC_STAT_CW_POLICY then 0 else 1) ∧ t.tx = s.tx ∧ t.mem = s.mem) ∧
        (pCls p = 3 → pSub p = 1 → pSrc p ≠ s.devid → pBcast p = true →
          ∃ h, exec (.discoverRx p) s = .next (s.emit (.cwForward h (padded (p.payload.take (16 * (mapEntries p.payload).length) ++ s.ownEntry))))) ∧
        (pCls p = 3 → pSub p = 1 → pSrc p = s.devid → s.rd .GLOBAL_ID_ROLE = 1 → pBcast p = true →
          ∃ t, exec (.discoverRx p) s = .next t ∧ t.cw.map = mapEntries p.payload) ∧
        (pCls p = 3 → pSub p = 2 → pSrc p ≠ s.devid → pBcast p = true →
          ∃ t l, exec (.mapRx p) s = .next t ∧ t.cw.map = mapEntries p.payload ∧
            t.rd .CW_STAT_N_DEV = (mapEntries p.payload).length % 32 ∧ t.tx = .cwForward p.header p.payload :: l ∧ t.mem = s.mem)) ∧
      (∃ t x, exec (.helloTimer nonce) s = .next t ∧ t.tx = .cwSend x :: s.tx ∧ x.cls = 3 ∧ x.sub = 0 ∧ x.src = s.devid ∧
        x.seq = (Table.get 0 s.cw.txSeq 24 + 1) % 2 ^ 32 ∧ x.payload.take 16 = leBytes 16 nonce.toNat ∧ t.mem = s.mem) ∧
      (s.rd .GLOBAL_ID_ROLE = 1 →
        (s.rd .CW_HOP_WIDTH 0 ≠ 0 → s.rd .CW_HOP_WIDTH 1 ≠ 0 →
          ∃ t x, exec .cwDiscoverStart s = .next t ∧ t.tx = .cwSend x :: s.tx ∧ x.cls = 3 ∧ x.sub = 1 ∧ x.bcast = true ∧
            x.payload = padded s.ownEntry ∧ t.cw.discovering = true) ∧
        (s.cw.map ≠ [] → ∃ t x, exec .cwMapBroadcast s = .next t ∧ t.tx = .cwSend x :: s.tx ∧ x.cls = 3 ∧ x.sub = 2 ∧ x.bcast = true ∧
          t.cw.map = s.cw.map) ∧
        (∀ d rest l, s.cw.timeOut = d :: rest → s.cw.goodL = some l →
          (s.now ≤ d + l + 2000 → exec .cwTimeReturnTimeout s = .next s) ∧
          (d + l + 2000 < s.now → ∃ t, exec .cwTimeReturnTimeout s = .next t ∧ t.rd .CW_STAT_RING_BREAK = 1 ∧ t.cw.timeOut = rest ∧
            ∀ b, b < 16 → bit (s.rd .AGG_EN) b = true → bit (t.rd .AGG_LOST) b = true)))) ∧
    (∀ d : Fin 16, s.rd .GLOBAL_ID_ROLE = 1 → bit (s.rd .AGG_EN) d.val = true → (s.aggSt d.val).seq ≠ none →
      ((s.aggSt d.val).at_ + s.rd .AGG_TO * 1000 ≤ s.raw →
        ∃ t, exec (.aggTimeout d) s = .next t ∧ bit (t.rd .AGG_LOST) d.val = true ∧ t.mem = s.mem) ∧
      (s.raw < (s.aggSt d.val).at_ + s.rd .AGG_TO * 1000 → exec (.aggTimeout d) s = .next s))

/-- A CTRL packet whose SEQ is the next of its source and Spur is applied, its payload written where the window allows it, and
acknowledged with its SEQ; one already applied is acknowledged and changes no memory. A DATA packet outside the exported window
and rings is an isolation violation of the Spur and writes nothing; one inside is written there. An acknowledgement removes the
waiting packet; a CTRL packet without one is sent again with the same SEQ, and after three sends reported as CW_PEER_LOST. In
LISTEN a device that may join and has seen no marker for 2 ms moves to RING, and so does one whose SPLICE_WT has come; in RING a
splice takes a leaving device to LISTEN. A batch calibration takes the device to BATCH_CAL at once (the model's choice, log
entry 44), and its end returns it to LISTEN, joining, with CAL_FAIL and TRIM_WARN as found. The Crown schedules the next splice
at the first boundary + 128 µs at least 2 ms ahead. A failed receiver or transmitter sets PORT_FAIL, moves to FAULT and records
it with Spur 0. CW_CFG is refused with the reason of Table CW-10 or applies its settings, and asks to join, leave or calibrate.
-/
def Obligations.CausewayWorkSplicesAndFailures : Prop :=
  (∀ (s : State) (p : CwPacket), p.wf = true → s.domOn pdCw = true → s.rd .CW_STAT_STATE = 3 → p.intact = true →
    s.rd .CW_STAT_NOT_KIT_UP = 0 → s.rd .CW_STAT_DEVID_DUP = 0 → pSrc p ≠ s.devid → pBcast p = false → pDst p = s.devid →
    let ack := Tx.cwSend ⟨4, pSrc p, s.devid, false, pSpur p, 1, pSeq p, leBytes 24 0, []⟩
    let last := Table.get 0 s.cw.rxSeq (rxKey p)
    (pCls p = 4 → pSub p = 0 → pSeq p = (last + 1) % 2 ^ 32 →
      ∃ t l, exec (.ctrlPacketRx p) s = .next t ∧ Table.get 0 t.cw.rxSeq (rxKey p) = pSeq p ∧ t.tx = ack :: l ∧
        (pAddr p ≠ 2 ^ 64 - 1 → t.mem =
          if s.cwAllowed (pSpur p) (pAddr p) p.payload.length then (s.stSpur (pSpur p) (pAddr p) p.payload).mem else s.mem)) ∧
    (pCls p = 4 → pSub p = 0 → pSeq p ≠ (last + 1) % 2 ^ 32 → pSeq p ≤ last →
      exec (.ctrlPacketRx p) s = .next ((s.cwIn p).cwPut 4 ack)) ∧
    (pCls p = 4 → pSub p = 0 → pSeq p ≠ (last + 1) % 2 ^ 32 → last < pSeq p →
      exec (.ctrlPacketRx p) s = .next (s.cwIn p)) ∧
    (pCls p = 4 → pSub p = 1 → ∃ t, exec (.ctrlAckRx p) s = .next t ∧ t.regs = s.regs ∧ t.mem = s.mem ∧
      ∀ e ∈ s.cw.ctrlOut, (e ∈ t.cw.ctrlOut ↔ ¬ (e.1.seq = pSeq p ∧ e.1.spur = pSpur p ∧ e.1.dst = pSrc p))) ∧
    (pCls p = 5 → s.cwAllowed (pSpur p) (pAddr p) p.payload.length = false →
      exec (.dataPacketRx p) s = .next ((s.cwIn p).isoViolation (pSpur p) isoDma (8 * pSpur p + 7))) ∧
    (pCls p = 5 → s.cwAllowed (pSpur p) (pAddr p) p.payload.length = true → bit (byteAt p.header 18) 0 = false →
      exec (.dataPacketRx p) s = .next ((s.cwIn p).stSpur (pSpur p) (pAddr p) p.payload))) ∧
  (∀ (s : State) (spur : Fin 8) (seq : Word) (e : CwSend × Nat) (l : List (CwSend × Nat)), s.cw.ctrlOut = e :: l →
    e.1.seq = seq.toNat → e.1.spur = spur.val →
    (e.2 < 3 → ∃ t l', exec (.ctrlRetryTimeout spur seq) s = .next t ∧ t.tx = .cwSend e.1 :: l' ∧
      t.rd .CW_CNT 9 = satAdd 32 (s.rd .CW_CNT 9) 1 ∧ t.mem = s.mem) ∧
    (3 ≤ e.2 → ∃ t, exec (.ctrlRetryTimeout spur seq) s = .next t ∧ t.cw.ctrlOut = l ∧ Tx.peerLost spur.val seq.toNat ∈ t.tx)) ∧
  (∀ s : State, s.domOn pdCw = true →
    (s.rd .CW_STAT_STATE = 2 → s.mayJoin = true → s.cw.markerAt.getD s.cw.inEpochAt + 2000000 ≤ s.raw →
      ∃ t, exec .cwNoMarkerTimeout s = .next t ∧ t.rd .CW_STAT_STATE = 3 ∧ t.cw.joining = false ∧ t.mem = s.mem) ∧
    (s.rd .CW_STAT_STATE = 2 → s.raw < s.cw.markerAt.getD s.cw.inEpochAt + 2000000 → exec .cwNoMarkerTimeout s = .next s) ∧
    (s.cw.spliceWt ≠ 0 → s.now < s.cw.spliceWt → exec .cwSplice s = .next s) ∧
    (s.cw.spliceWt ≠ 0 → s.cw.spliceWt ≤ s.now →
      (s.rd .CW_STAT_STATE = 2 → s.mayJoin = true → ∃ t, exec .cwSplice s = .next t ∧ t.rd .CW_STAT_STATE = 3 ∧
        t.rd .CW_CNT 8 = satAdd 32 (s.rd .CW_CNT 8) 1) ∧
      (s.rd .CW_STAT_STATE = 3 → s.cw.leaving = false → exec .cwSplice s = .next (s.onCw fun c => { c with spliceWt := 0 })) ∧
      (s.rd .CW_STAT_STATE = 3 → s.cw.leaving = true →
        ∃ t, exec .cwSplice s = .next t ∧ t.rd .CW_STAT_STATE = 2 ∧ t.cw.map = [] ∧ t.cw.leaving = false)) ∧
    (s.rd .CW_STAT_STATE = 3 → s.rd .GLOBAL_ID_ROLE = 1 →
      ∃ t, exec .cwSpliceSchedule s = .next t ∧ t.regs = s.regs ∧ t.cw.spliceWt % 256000 = 128000 ∧
        s.now + 2000000 ≤ t.cw.spliceWt ∧ t.cw.spliceWt < s.now + 2256000) ∧
    (s.rd .CW_STAT_STATE = 3 →
      (∃ t, exec .cwTxBiasFault s = .next t ∧ t.rd .CW_STAT_STATE = 6 ∧ t.rd .CW_STAT_PORT_FAIL = 1 ∧ t.mem = s.mem) ∧
      (s.inLanes 1 = 0xFF → ∃ t, exec .cwRxFailTimeout s = .next t ∧ t.rd .CW_STAT_STATE = 6 ∧ t.rd .CW_STAT_PORT_FAIL = 1) ∧
      (s.inLanes 1 ≠ 0xFF → exec .cwRxFailTimeout s = .next s))) ∧
  (∀ (s : State) (failed : BitVec 8) (x : Bool),
    (s.rd .CW_STAT_STATE ≠ 4 → exec (.cwBatchCalDone failed x) s = .next s) ∧
    (s.rd .CW_STAT_STATE = 4 → ∃ t, exec (.cwBatchCalDone failed x) s = .next t ∧ t.rd .CW_STAT_STATE = 2 ∧ t.cw.joining = true ∧
      (failed ≠ 0 → t.rd .CW_STAT_CAL_FAIL = 1) ∧ (x = true → t.rd .CW_STAT_TRIM_WARN = 1) ∧
      ∀ l, l < 8 → bit failed.toNat l = true → t.rd .CW_LANE_IN l = 1 ∧ t.rd .CW_LANE_OUT l = 1)) ∧
  (∀ (s : State) (mb : Fin 64) (tag : BitVec 16) (c : Cmd), s.runs mb tag 0x7C false c →
    (s.cwCfgReason c ≠ 0 → exec (.cwCfg mb tag) s = .next (s.finish mb.val c 0x2A (s.cwCfgReason c) 0)) ∧
    (cwReserved c = false → s.settingOf c.pairs .CW_CFG_PAIR 0 = s.rd .CW_CFG_PAIR → s.rd .CW_STAT_STATE ≠ 3 →
      (c.cfg.act = .leave → exec (.cwCfg mb tag) s = .next (s.finish mb.val c 0x2A 3 0)) ∧
      (c.cfg.act = .batch → exec (.cwCfg mb tag) s = .next (s.finish mb.val c 0x2A 4 0))) ∧
    (s.cwCfgReason c = 0 →
      let u := (s.applySettings mb.val c.pairs).cwRefresh
      (c.cfg.act = .none → exec (.cwCfg mb tag) s = .next (u.finish mb.val c 0 0 0)) ∧
      (c.cfg.act = .join → exec (.cwCfg mb tag) s = .next ((u.onCw fun x => { x with joining := true }).finish mb.val c 0 0 0)) ∧
      (c.cfg.act = .leave → exec (.cwCfg mb tag) s = .next ((u.onCw fun x => { x with leaving := true }).finish mb.val c 0 0 0)) ∧
      (c.cfg.act = .batch → ∃ t, exec (.cwCfg mb tag) s = .next t ∧ t.rd .CW_STAT_STATE = 4 ∧ t.cw.map = [] ∧
        t.cw.batchCmd = some (mb.val, c.id))))

/-- PM_REQ ends with PM_REFUSED and the first reason of Table PW-3 that holds; one equal to the current state with nothing
held completes at once with PM_STATUS; another is held, with HL_L2.RDY set when it waits for L2 and no admitted invocation
uses a domain that it turns off. WAITP with nothing held, or before the request may be handed over, changes nothing; else
an entry begins: TGT, BUSY, the targets, and the time that the entry takes. MQ_OP of a bad rail is refused with 7; one at
the current point completes; a change sets TARGET and BUSY; a slower point at which a deadline budget fails is delayed. A
lower voltage comes after the clock and a higher one before it, and none rises under BOW (R445). RAIL_ACK of a voltage
gives the quadrant its point, and BUSY falls if TARGET names it; one that is 2 ms late is commanded once more, then the
rail has FAIL, LAST is 3 and the old value is commanded (R444). CAL_STORE is refused with reasons 1 to 5 of its table in
this order, or begins at step 1 with BUSY; that the checks come in the order of their codes is the model's choice. -/
def Obligations.PowerRequestsRailsAndStores : Prop :=
  (∀ (s : State) (mb : Fin 64) (tag : BitVec 16) (c : Cmd), s.runs mb tag 0x60 false c →
    let tg := c.opw 0
    (tgState tg = 3 → s.armed = true → exec (.pmReq mb tag) s = .next (s.finish mb.val c 0x26 1 0)) ∧
    (2 ≤ tgState tg → s.armed = false → s.othersInFlight = true → exec (.pmReq mb tag) s = .next (s.finish mb.val c 0x26 2 0)) ∧
    (s.armed = false → tgState tg < 2 → bit s.mail.fenced 0 = true → exec (.pmReq mb tag) s = .next (s.finish mb.val c 0x26 3 0)) ∧
    (s.armed = false → tgState tg < 2 → bit s.mail.fenced 0 = false → s.badUnused tg = true →
      exec (.pmReq mb tag) s = .next (s.finish mb.val c 0x26 4 0)) ∧
    (s.pmReason tg ≠ 0 → exec (.pmReq mb tag) s = .next (s.finish mb.val c 0x26 (s.pmReason tg) 0)) ∧
    (s.pmReason tg = 0 → s.pm.held = [] →
      (s.pmEqual tg = true →
        (s.rd .HL_LINK_L2 = 0 → exec (.pmReq mb tag) s = .next ((s.put .HL_L2_RDY 0 false).finish mb.val c 0 0 s.pmStatus)) ∧
        (s.rd .HL_LINK_L2 ≠ 0 → exec (.pmReq mb tag) s = .next (s.finish mb.val c 0 0 s.pmStatus))) ∧
      (s.pmEqual tg = false → ∃ t, exec (.pmReq mb tag) s = .next t ∧
        t.pm.held = [⟨mb.val, c.id, tg, c.opw 1, c.opw 2⟩] ∧ t.mem = s.mem ∧
        (s.rd .HL_LINK_L2 = 0 → s.rd .PM_STATUS_BUSY = 0 → s.domOn pdHost = true →
          t.rd .HL_L2_RDY = if bit (domainsOf tg) pdHost = false ∧ s.invsClear tg = true then 1 else 0)))) ∧
  (∀ (s : State) (temp : Int) (drain : Nat), (∀ r ∈ s.pm.held, (s.cmdById r.mb r.id).isSome = true) →
    (s.pm.held = [] → exec (.waitp temp drain) s = .next s) ∧
    (∀ r l, s.pm.held = r :: l →
      (s.waitpReady r = false → exec (.waitp temp drain) s = .next s) ∧
      (s.waitpReady r = true → tgState r.target ≠ 3 → s.rd .PM_STATUS_BUSY = 0 → s.kerb.bow = false →
        s.rd .PM_STATUS_DOM_ON &&& (0x1FFF - domainsOf r.target) ≠ 0 →
        ∃ t, exec (.waitp temp drain) s = .next t ∧ t.pm.held = l ∧ t.pm.req = some r ∧ t.rd .PM_STATUS_BUSY = 1 ∧
          t.rd .PM_STATUS_TGT = tgState r.target ∧ t.rd .PM_TARGET_STATE = tgState r.target ∧
          t.rd .PM_TARGET_QOFF = tgQoff r.target ∧ t.rd .PM_WAKE_STATE = tgState r.wake ∧
          t.pm.phase = .entering (s.raw + min drain 5000 +
            25 * retWords (s.rd .PM_STATUS_DOM_ON &&& (0x1FFF - domainsOf r.target))) ∧
          t.rd .PM_STATUS_DOM_ON = s.rd .PM_STATUS_DOM_ON ∧ t.mem = s.mem))) ∧
  (∀ (s : State) (mb : Fin 64) (tag : BitVec 16) (c : Cmd), s.runs mb tag 0x61 false c →
    let q := bits (c.opw 0) 0 2
    let op := bits (c.opw 0) 2 2
    (bit s.pm.railsBad (q + 1) = true → exec (.mqOp mb tag) s = .next (s.finish mb.val c 0x26 7 0)) ∧
    (bit s.pm.railsBad (q + 1) = false → s.domOn (pdMq q) = true → s.rd .MQ_OP_CUR q = op → s.rd .MQ_OP_BUSY q = 0 →
      s.cmdById mb.val c.id = some c → exec (.mqOp mb tag) s =
        .next (((s.begin_ mb.val c).wr .MQ_OP_TARGET q op).finish mb.val { c with stage := .begun } 0 0 0)) ∧
    (bit s.pm.railsBad (q + 1) = false → s.domOn (pdMq q) = true → s.rd .MQ_OP_CUR q ≠ op →
      (s.rd .MQ_OP_CUR q < op → s.opAllowed q op = true) → ∃ t, exec (.mqOp mb tag) s = .next t ∧
        t.rd .MQ_OP_TARGET q = op ∧ t.rd .MQ_OP_BUSY q = 1 ∧ t.rd .MQ_OP_CUR q = s.rd .MQ_OP_CUR q ∧ t.mem = s.mem ∧
        t.pm.opCmds = s.pm.opCmds ++ [(q, op, mb.val, c.id)]) ∧
    (bit s.pm.railsBad (q + 1) = false → s.rd .MQ_OP_CUR q < op → s.opAllowed q op = false →
      ∃ t, exec (.mqOp mb tag) s = .next t ∧ t.regs = s.regs ∧ t.mem = s.mem ∧ t.tx = s.tx ∧
        t.pm.opHeld = s.pm.opHeld ++ [(q, op, mb.val, c.id)])) ∧
  (∀ (s : State) (q : Fin 4),
    let op := s.rd .MQ_OP_TARGET q.val
    let cur := s.rd .MQ_OP_CUR q.val
    (s.rd .MQ_OP_BUSY q.val = 0 → exec (.oppointSwitch q) s = .next s) ∧
    (op < cur → s.kerb.bow = true → exec (.oppointSwitch q) s = .next s) ∧
    (s.rd .MQ_OP_BUSY q.val ≠ 0 → s.domOn (pdMq q.val) = true → s.quadIdle q.val = true → s.railWait (q.val + 1) = none →
      op = cur → s.pm.opHeld = [] → ∃ t, exec (.oppointSwitch q) s = .next t ∧ t.rd .MQ_OP_BUSY q.val = 0) ∧
    (s.rd .MQ_OP_BUSY q.val ≠ 0 → s.domOn (pdMq q.val) = true → s.quadIdle q.val = true → s.railWait (q.val + 1) = none →
      s.rd .PM_RAIL_EN (q.val + 1) ≠ 0 →
      (cur < op → ∃ t, exec (.oppointSwitch q) s = .next t ∧ t.rd .MQ_OP_CUR q.val = op % 4 ∧
        t.tx = .railCommand (q.val + 1) (.volt op) :: s.tx ∧ t.mem = s.mem) ∧
      (op < cur → s.kerb.bow = false → ∃ t, exec (.oppointSwitch q) s = .next t ∧ t.regs = s.regs ∧
        t.tx = .railCommand (q.val + 1) (.volt op) :: s.tx ∧ t.mem = s.mem))) ∧
  (∀ (s : State) (rail : Fin 5),
    (s.railWait rail.val = none → exec (.railAck rail) s = .next s ∧ exec (.railAckTimeout rail) s = .next s) ∧
    (∀ w op, s.railWait rail.val = some w → w.cmd = .volt op → w.restoring = false → s.pm.opHeld = [] →
      ∃ t, exec (.railAck rail) s = .next t ∧ t.rd .MQ_OP_CUR (w.rail - 1) = op % 4 ∧
        (s.rd .MQ_OP_TARGET (w.rail - 1) = op → t.rd .MQ_OP_BUSY (w.rail - 1) = 0)) ∧
    (∀ w, s.railWait rail.val = some w → s.raw < w.since + 2000000 → exec (.railAckTimeout rail) s = .next s) ∧
    (∀ w, s.railWait rail.val = some w → w.restoring = false → w.since + 2000000 ≤ s.raw →
      (w.tries < 2 → ∃ t, exec (.railAckTimeout rail) s = .next t ∧ t.tx = .railCommand rail.val w.cmd :: s.tx ∧ t.regs = s.regs ∧
        t.mem = s.mem) ∧
      (2 ≤ w.tries → ∃ t l, exec (.railAckTimeout rail) s = .next t ∧ bit (t.rd .PM_REGSTAT_FAIL) rail.val = true ∧
        t.rd .PM_STATUS_LAST = 3 ∧ t.tx = .railCommand rail.val w.old :: l))) ∧
  (∀ (s : State) (mb : Fin 64) (tag : BitVec 16) (c : Cmd) (pay : List Byte) (set : List RegSet) (code : BitVec 12) (ft : FlashTimes),
    s.runs mb tag 0x78 true c →
    let no := fun r => exec (.calStore mb tag pay set code ft) s = .next (s.finish mb.val c 0x2A r 0)
    let seqEnd := s.rd .CAL_STAT_ACTIVE ≠ 2 ∧ s.rd .CAL_SEQ = 0xFFFFFFFE
    (s.rst.store ≠ none → no 1) ∧ (s.rst.store = none → seqEnd → no 2) ∧
    (s.rst.store = none → ¬ seqEnd → s.dirBad = false → s.bankSize < pay.length + 264 → no 3) ∧
    (s.rst.store = none → ¬ seqEnd → (s.dirBad = true ∨ pay.length + 264 ≤ s.bankSize) → calRecs pay = none → no 4) ∧
    (∀ l, s.rst.store = none → ¬ seqEnd → s.dirBad = true → calRecs pay = some l → no 5) ∧
    (∀ l, s.rst.store = none → ¬ seqEnd → s.dirBad = false → pay.length + 264 ≤ s.bankSize → calRecs pay = some l → s.kerb.bow = false →
      s.holdUpReq (storeUs ft s.bankSize pay.length (trimCodes l).isSome) ≤ s.holdUp code.toNat →
      ∃ t x, exec (.calStore mb tag pay set code ft) s = .next t ∧ t.rst.store = some x ∧ x.step = 1 ∧ x.payload = pay ∧
        x.bankB = (s.rd .CAL_STAT_ACTIVE != 1) ∧ t.rd .CAL_STAT_BUSY = 1 ∧ t.rd .CAL_STAT_STEP = 1 ∧ t.mem = s.mem))

/-- An enabled source whose condition holds, in a state in which it counts, is latched, as FIRST when nothing was latched or
when the first came in the same cycle and has a higher number, and no other latch bit changes; else nothing changes. Before the
point of no return, under REPLAY, it aborts the entry: BUSY falls, LAST is 2 and ABORTS counts; in SENTRY or PARK at rest it
starts the wake to PM_WAKE. A wake whose domains are all on ends in its goal: CUR, BUSY 0, LAST 4, or 1 when it was a raise, or
5 with a retention group whose check failed, and the entry counts. A BOW crossing of a rail that is not masked sets its bits and
the hold, makes BOW a stop source, puts every quadrant at point 3 and signals NCC0; the end of BOW withdraws it all and sends
the quadrants back to their targets. A fault of a quadrant's rail outside a transition is shown and gates the quadrant. -/
def Obligations.WakesAndSupplyWarnings : Prop :=
  (∀ (s : State) (p : Fin 8) (c : Fin 4) (temp : Int),
    let watched := if tgState (if s.pmIdle then s.pm.home else s.pm.goal) = 3 then s.rd .PM_AON_CFG_WL_WAKE
      else tgSports (if s.pmIdle then s.pm.home else s.pm.goal)
    ∀ x ∈ [((0 : Nat), Instr.wakeHostpin, True), (1, .wakeTimer, s.wakeTime ≠ 0 ∧ s.wakeTime ≤ s.now),
        (3, .wakeWlport p, bit watched p.val = true), (4, .wakeCwlight c, bit (s.rd .PM_AON_CFG_CW_WAKE) c.val = true),
        (7, .aonTherm temp, (s.rd .PM_AON_CFG_TMAX : Int) < temp), (7, .aonIlim, True)],
      (¬ x.2.2 ∨ bit (s.rd .PM_WAKE_CFG_EN) x.1 = false ∨ s.wakeListens x.1 = false → exec x.2.1 s = .next s) ∧
      (x.2.2 → bit (s.rd .PM_WAKE_CFG_EN) x.1 = true → s.wakeListens x.1 = true →
        ∃ t, exec x.2.1 s = .next t ∧ bit (t.rd .PM_WAKE_SRC_LATCHED) x.1 = true ∧
          (∀ b, b < 8 → b ≠ x.1 → bit (t.rd .PM_WAKE_SRC_LATCHED) b = bit (s.rd .PM_WAKE_SRC_LATCHED) b) ∧
          (s.rd .PM_WAKE_SRC_LATCHED = 0 ∨ (s.pm.firstAt = s.raw ∧ x.1 < s.rd .PM_WAKE_SRC_FIRST) →
            t.rd .PM_WAKE_SRC_FIRST = x.1) ∧
          (∀ e, s.pm.phase = .entering e → s.raw < e → bit (s.rd .PM_WAKE_CFG_REPLAY) x.1 = true →
            t.rd .PM_STATUS_BUSY = 0 ∧ t.rd .PM_STATUS_LAST = 2 ∧ t.pm.phase = .idle ∧
            t.rd .PM_ABORTS = satAdd 32 (s.rd .PM_ABORTS) 1) ∧
          (∀ e, s.pm.phase = .entering e → e ≤ s.raw → t.pm = { s.pm with wakeDue := true, firstAt := t.pm.firstAt }) ∧
          (s.pm.phase = .idle → s.rd .PM_STATUS_CUR = 2 ∨ s.rd .PM_STATUS_CUR = 3 →
            t.rd .PM_STATUS_BUSY = 1 ∧ t.pm.goal = s.wakeTarget ∧ t.rd .PM_STATUS_TGT = tgState s.wakeTarget))) ∧
  (∀ (s : State) (bad : BitVec 13),
    (s.wakeOver = false → exec (.wakeComplete bad) s = .next s) ∧
    (s.wakeOver = true → tgState s.pm.goal < 5 → ∃ t, exec (.wakeComplete bad) s = .next t ∧ t.rd .PM_STATUS_BUSY = 0 ∧
      t.rd .PM_STATUS_CUR = tgState s.pm.goal ∧ t.pm.phase = .idle ∧
      t.rd .PM_STATUS_LAST = (if bad.toNat &&& s.pm.rose &&& 0x1FFF ≠ 0 then 5 else if 2 ≤ s.rd .PM_STATUS_CUR then 4 else 1) ∧
      t.rd .PM_ENTRIES (tgState s.pm.goal) = satAdd 32 (s.rd .PM_ENTRIES (tgState s.pm.goal)) 1)) ∧
  (∀ (s : State) (rail : Fin 3),
    (s.monMasked rail.val = true → exec (.bowCrossing rail) s = .next s) ∧
    (s.monMasked rail.val = false → ∃ t, exec (.bowCrossing rail) s = .next t ∧ bit (t.rd .PM_MON_BOW) rail.val = true ∧
      bit (t.rd .PM_MON_BOW_SEEN) rail.val = true ∧ t.rd .PM_MON_BOW_HOLD = 1 ∧ t.kerb.bow = true ∧ t.mem = s.mem ∧
      (∀ q, q < 4 → s.domOn (pdMq q) = true → t.rd .MQ_OP_CUR q = 3) ∧
      Tx.coreSignal 0 1 ∈ t.tx)) ∧
  (∀ s : State,
    (s.rd .PM_MON_BOW_HOLD = 0 → exec .bowEnd s = .next s) ∧
    (s.rd .PM_MON_BOW_HOLD ≠ 0 → ∃ t, exec .bowEnd s = .next t ∧ t.rd .PM_MON_BOW = 0 ∧ t.rd .PM_MON_BOW_HOLD = 0 ∧
      t.kerb.bow = false ∧ t.mem = s.mem ∧ t.rd .PM_MON_BOW_SEEN = s.rd .PM_MON_BOW_SEEN ∧
      ∀ q, q < 4 → s.domOn (pdMq q) = true → s.rd .MQ_OP_CUR q ≠ s.rd .MQ_OP_TARGET q → t.rd .MQ_OP_BUSY q = 1)) ∧
  (∀ (s : State) (rail : Fin 5) (fault : Bool),
    (s.rd .PM_STATUS_BUSY ≠ 0 ∨ fault = false ∨ rail = 0 ∨ s.domOn (pdMq (rail.val - 1)) = false → exec (.pmbAlert rail fault) s = .next s) ∧
    (s.rd .PM_STATUS_BUSY = 0 → fault = true → rail ≠ 0 → s.domOn (pdMq (rail.val - 1)) = true →
      ∃ t, exec (.pmbAlert rail fault) s = .next t ∧ bit (t.rd .PM_REGSTAT_FAULT) rail.val = true ∧
        t.domOn (pdMq (rail.val - 1)) = false ∧ t.rd .MQ_OP_BUSY (rail.val - 1) = 0))

/-- A POR zeroes the raw counter, records POR, releases THERMTRIP_N and keeps the flash; with RESET_N low every domain is off,
the Kerb is disarmed and the boot waits. A boot with bad SFDP tables is FAILED with only PD_CTRL and PD_KERB on; one with a good
directory and image A ends READY, with every domain on, or in QUARANTINE where a security fuse word is marginal. A BOR crossing
does the same as BOR and waits; one during a POR or BOR is absorbed and counted; in OFF it changes nothing. A PIN reset waits
for RESET_N, records PIN, keeps the raw counter, whether the Kerb is armed, and, with no calibration of a head held back, every
class S and class T setting (R453, R460); one that arrives while a reset waits is counted only. WDT and SOFT resets record
themselves and keep the counter and the arming; an unexpired watchdog changes nothing. The release of RESET_N ends the wait, and
a BOR_END boots only with RESET_N high. -/
def Obligations.DeviceResets : Prop :=
  (∀ (s : State) (f : BootFacts), f.wf = true →
    (∃ t, exec (.por f true) s = .next t ∧ t.raw = 0 ∧ t.rd .RST_CAUSE_LAST = 1 ∧ t.rd .RST_CAUSE_SEEN = 1 ∧ t.rd .RST_COUNT 0 = 1 ∧
      t.rd .PM_STATUS_DOM_ON = 0 ∧ t.armed = false ∧ t.rst.waiting = some 0 ∧ t.rst.resetLow = true ∧ t.supply.trip = false ∧
      (s.rst.store = none → ∀ a, t.ldByte .flash a = s.ldByte .flash a)) ∧
    (f.sfdpOk = false → ∃ t, exec (.por f false) s = .next t ∧ t.raw = 0 ∧ t.rd .NGX_STATE = 3 ∧ t.rd .XSPI_SFDP_BAD = 1 ∧
      t.rd .RST_CAUSE_FAILS = 1 ∧ t.rd .PM_STATUS_DOM_ON = 2 ^ pdCtrl + 2 ^ pdKerb ∧ t.armed = false) ∧
    (f.sfdpOk = true → f.imgA = true → f.flash = [] → s.rst.store = none → s.dirBad = false →
      ∃ t, exec (.por f false) s = .next t ∧ t.raw = 0 ∧ t.rd .RST_CAUSE_LAST = 1 ∧ t.rd .RST_CAUSE_FAILS = 0 ∧
        t.rd .PM_STATUS_DOM_ON = 0x1FFF ∧ t.rd .GLOBAL_ID_DEVID = f.devid.toNat ∧ t.rd .GLOBAL_ID_ROLE = f.role.toNat ∧
        t.rd .NGX_STATE = if (flaggedWords (senseFuses f.fuses)).any (· < 64) then 2 else 1)) ∧
  (∀ (s : State) (rail : Fin 3),
    (s.monMasked rail.val = true ∨ s.inOff = true → exec (.borCrossing rail) s = .next s) ∧
    (s.monMasked rail.val = false → s.inOff = false →
      (s.rst.waiting = some 0 ∨ s.rst.waiting = some 1 → ∃ t, exec (.borCrossing rail) s = .next t ∧
        t.rd .RST_COUNT 1 = satAdd 16 (s.rd .RST_COUNT 1) 1 ∧ t.raw = s.raw ∧ t.mem = s.mem ∧ t.rd .RST_CAUSE_LAST = s.rd .RST_CAUSE_LAST) ∧
      (s.rst.waiting ≠ some 0 → s.rst.waiting ≠ some 1 → ∃ t, exec (.borCrossing rail) s = .next t ∧ t.raw = 0 ∧
        t.rd .RST_CAUSE_LAST = 2 ∧ t.rd .PM_STATUS_DOM_ON = 0 ∧ t.armed = false ∧ t.rst.waiting = some 1 ∧ t.kerb.out = 0))) ∧
  (∀ (s : State) (f : BootFacts), f.wf = true →
    (s.rst.waiting = none → ∃ t, exec (.borEnd f) s = .next t ∧ t.regs = s.regs ∧ t.mem = s.mem ∧ t.pm = { s.pm with bor := 0 }) ∧
    (s.rst.waiting = some 1 → s.rst.resetLow = true → ∃ t, exec (.borEnd f) s = .next t ∧ t.regs = s.regs ∧ t.rst = s.rst) ∧
    (s.rst.waiting = some 1 → s.rst.resetLow = false → f.sfdpOk = false → ∃ t, exec (.borEnd f) s = .next t ∧
      t.rst.waiting = none ∧ t.rd .NGX_STATE = 3) ∧
    (s.inOff = false → s.rst.waiting = none → ∃ t, exec (.resetNRelease f) s = .next t ∧ t.regs = s.regs ∧
      t.rst = { s.rst with resetLow := false }) ∧
    (s.inOff = false → s.rst.waiting = some 2 → f.sfdpOk = false → ∃ t, exec (.resetNRelease f) s = .next t ∧ t.rst.waiting = none ∧
      t.rd .NGX_STATE = 3 ∧ t.raw = s.raw ∧ t.armed = s.armed) ∧
    (s.inOff = false → s.rst.waiting = some 0 → s.pm.bor ≠ 0 → ∃ t, exec (.resetNRelease f) s = .next t ∧ t.regs = s.regs ∧
      t.rst.waiting = some 0)) ∧
  (∀ s : State,
    (s.rst.resetLow = true → exec .pinReset s = .next s) ∧
    (s.rst.resetLow = false → s.inOff = false →
      (s.rst.waiting ≠ none → ∃ t, exec .pinReset s = .next t ∧ t.rd .RST_COUNT 2 = satAdd 16 (s.rd .RST_COUNT 2) 1 ∧
        t.rst = { s.rst with resetLow := true } ∧ t.mem = s.mem) ∧
      (s.rst.waiting = none → ∃ t, exec .pinReset s = .next t ∧ t.rst.waiting = some 2 ∧ t.rd .RST_CAUSE_LAST = 3 ∧
        t.rd .RST_COUNT 2 = satAdd 16 (s.rd .RST_COUNT 2) 1 ∧ t.raw = s.raw ∧ t.armed = s.armed ∧
        (s.ft.calDue = [] → ∀ r i, r.spec.cls = .S ∨ r.spec.cls = .T → i < 2 ^ 24 → r ≠ .TRIG_CTRL_EN → t.rd r i = s.rd r i)))) ∧
  (∀ (s : State) (f : BootFacts) (who : Agent), f.wf = true →
    (s.wdtDue = false → exec (.wdtExpiry f) s = .next s) ∧
    (s.wdtDue = true → s.inOff = false → s.rst.waiting = none → ∃ t, exec (.wdtExpiry f) s = .next t ∧ t.rd .RST_CAUSE_LAST = 4 ∧
      t.raw = s.raw ∧ t.armed = s.armed ∧ t.rd .NGX_STATE ∈ [1, 2, 3] ∧ (f.sfdpOk = false → t.rd .NGX_STATE = 3)) ∧
    (s.letIn who .RST_CTRL_SOFT 0 = .ok s → s.inOff = false → s.rst.waiting = none →
      ∃ t, exec (.softReset who f) s = .next t ∧ t.rd .RST_CAUSE_LAST = 5 ∧ t.raw = s.raw ∧ t.armed = s.armed ∧
        t.rd .NGX_STATE ∈ [1, 2, 3]))

/-- A HOT reset in L2 changes nothing; while a device reset waits it is counted only; with PD_HOST and PD_CTRL on it
records HOT, ends the virtual functions and raises the epoch of every Spur. A DOMAIN reset of PD_CTRL, or of PD_KERB
while armed, sets ERR and nothing else; of a gated domain or a number that names none nothing happens; of another it
counts, and every domain that was on is on. A kick by an unfenced core of Spur 0 restarts the watchdog's period, a
kick by another core changes nothing. A strap sample that agrees shows in LIVE only; one that differs sets CHG. A
flash operation that fails ends the store with OUT = 3; one that succeeds leaves its bytes in the flash, and goes on
to the next operation of the step unless BOW holds, which ends it with OUT = 1. -/
def Obligations.PartialResetsAndStores : Prop :=
  (∀ s : State,
    (s.rd .HL_LINK_L2 ≠ 0 → exec .hotReset s = .next s) ∧
    (s.rd .HL_LINK_L2 = 0 → s.rst.waiting ≠ none → exec .hotReset s = .next (s.count .RST_COUNT 5)) ∧
    (s.rd .HL_LINK_L2 = 0 → s.rst.waiting = none → s.domOn pdHost = true → s.domOn pdCtrl = true →
      ∃ t, exec .hotReset s = .next t ∧ t.rd .RST_CAUSE_LAST = 6 ∧ t.vfEnable = false ∧ t.raw = s.raw ∧
        t.armed = s.armed ∧ t.rd .RST_COUNT 5 = satAdd 16 (s.rd .RST_COUNT 5) 1 ∧
        ∀ sp, sp < 8 → t.rd .ERR_EPOCH sp = (s.rd .ERR_EPOCH sp + 1) % 2 ^ 16)) ∧
  (∀ (s : State) (who : Agent) (d : BitVec 4) (pass : BitVec 8), s.letIn who .RST_DOM_GO 0 = .ok s →
    (d.toNat = pdCtrl → exec (.domainReset who d pass) s = .next (s.put .RST_DOM_ERR 0 true)) ∧
    (d.toNat = pdKerb → s.armed = true → exec (.domainReset who d pass) s = .next (s.put .RST_DOM_ERR 0 true)) ∧
    (d.toNat ≠ pdCtrl → ¬ (d.toNat = pdKerb ∧ s.armed = true) → (13 ≤ d.toNat ∨ s.domOn d.toNat = false) →
      exec (.domainReset who d pass) s = .next s) ∧
    (d.toNat ≠ pdCtrl → ¬ (d.toNat = pdKerb ∧ s.armed = true) → d.toNat < 13 → s.domOn d.toNat = true →
      ∃ t, exec (.domainReset who d pass) s = .next t ∧ t.rd .RST_COUNT 7 = satAdd 16 (s.rd .RST_COUNT 7) 1 ∧ t.raw = s.raw ∧
        ∀ k, k < 13 → s.domOn k = true → t.domOn k = true)) ∧
  (∀ (s : State) (c : Fin 16),
    (s.letIn (.fw c) .RST_WDT_KICK 0 = .ok s →
      (c.val < 2 → bit s.mail.fenced c.val = false →
        exec (.rstWdtKick (.fw c)) s = .next (s.onRst fun r => { r with kick := s.raw })) ∧
      (2 ≤ c.val ∨ bit s.mail.fenced c.val = true → exec (.rstWdtKick (.fw c)) s = .next s))) ∧
  (∀ (s : State) (devid : BitVec 4) (role : BitVec 2), s.inOff = false → s.rst.waiting = none →
    let live := devid.toNat + 16 * role.toNat
    (live = s.rd .GLOBAL_ID_DEVID + 16 * s.rd .GLOBAL_ID_ROLE →
      exec (.strapResample devid role) s = .next (s.wr .STRAP_LIVE 0 live)) ∧
    (live ≠ s.rd .GLOBAL_ID_DEVID + 16 * s.rd .GLOBAL_ID_ROLE →
      ∃ t, exec (.strapResample devid role) s = .next t ∧ t.rd .STRAP_LIVE = live ∧ t.rd .STRAP_CHG = 1 ∧
        t.rd .GLOBAL_ID_DEVID = s.rd .GLOBAL_ID_DEVID ∧ t.rd .GLOBAL_ID_ROLE = s.rd .GLOBAL_ID_ROLE ∧ t.mem = s.mem)) ∧
  (∀ (s : State) (ok good cells : Bool),
    (s.rst.store = none → exec (.flashOpComplete ok good cells) s = .next s) ∧
    (∀ x, s.rst.store = some x → ∃ t, exec (.flashOpComplete false good cells) s = .next t ∧ t.rst.store = none ∧
      t.rd .CAL_STAT_OUT = 3 ∧ t.rd .CAL_STAT_BUSY = 0 ∧ t.rd .CAL_SEQ = s.rd .CAL_SEQ ∧ t.rd .CAL_STAT_ACTIVE = s.rd .CAL_STAT_ACTIVE) ∧
    (∀ x a b rest, s.rst.store = some x → x.todo = a :: b :: rest →
      (s.kerb.bow = false → ∃ t, exec (.flashOpComplete true true cells) s = .next t ∧
        t.rst.store = some { x with todo := b :: rest } ∧ t.regs = s.regs ∧ t = (s.stBytes .flash x.target.1 x.target.2).onRst fun r =>
          { r with store := some { x with todo := b :: rest } }) ∧
      (s.kerb.bow = true → ∃ t, exec (.flashOpComplete true true cells) s = .next t ∧ t.rst.store = none ∧ t.rd .CAL_STAT_OUT = 1)))

/-- A host write that breaks R491 is dropped and counted for its function, a poisoned one is dropped and counted, one to
an offset where nothing is defined changes nothing, one to an island that is gone counts HL_GATED, one to a read-only
word of a VF's window counts HL_VFRO. A host write to a word of FW fields changes no field of it, and counts and logs
the first offset and function (R5, R495). Of KRB_OUT, a firmware write with DT_W in a reserved encoding changes no
field and records REG_RSVD with Spur 0; any other takes effect in every field, reserved bits ignored; once the Kerb is
armed no field changes and a lock violation is recorded. A read of RST_COUNT answers the count and leaves 0; a read
that breaks R491 has no effect. -/
def Obligations.RegisterAccess : Prop :=
  (∀ (s : State) (f : Fin 8) (b : Bool) (off : BitVec 23) (size : Nat) (all : Bool) (data : DWord), s.readOpen (.host f b) = .ok s →
    let wr := fun all p => exec (.registerWrite (.host f b) off size all p data) s
    (∀ a, wr a true = .next (s.count .HL_POISON)) ∧
    (writeShapeOk off.toNat size all = false → wr all false = .next (s.count .HL_BADWR f.val)) ∧
    (f = 0 → off.toNat % 4 = 0 → size = 4 →
      (hitsAt off.toNat = [] → wr true false = .next s) ∧
      (∀ h l, hitsAt off.toNat = h :: l → s.lockedTenant h.reg h.idx = false →
        (s.islandGone h.reg h.idx = true → wr true false = .next (s.count .HL_GATED)) ∧
        (s.islandGone h.reg h.idx = false → (∀ k ∈ hitsAt off.toNat, k.reg.spec.own = .fw) →
          ∃ t, wr true false = .next t ∧ (∀ k ∈ hitsAt off.toNat, k.reg ≠ .ERR_OVF_CNT → k.reg ≠ .ERR_STAT_OVF → t.rd k.reg k.idx = s.rd k.reg k.idx) ∧ t.mem = s.mem ∧
            t.rd .HL_FWWR_CNT 0 = satAdd 32 (s.rd .HL_FWWR_CNT 0) 1 ∧ t.rd .HL_FWWR_VALID = 1 ∧
            (s.rd .HL_FWWR_VALID = 0 → t.rd .HL_FWWR_ADDR = off.toNat ∧ t.rd .HL_FWWR_FN = 0)))) ∧
    (f ≠ 0 → off.toNat % 4 = 0 → size = 4 → s.vfRoute f.val off.toNat = .readOnly →
      wr true false = .next (s.count .HL_VFRO f.val))) ∧
  (∀ (s : State) (c : Fin 16) (p : Bool) (w : Word), s.busDead = false → s.domOn pdKerb = true →
    let go := exec (.registerWrite (.fw c) 0x060020 4 true p (w.setWidth 64)) s
    let n := w.toNat
    let kept := fun (t : State) => ∀ r ∈ [Reg.KRB_OUT_SSTOP_COVER, .KRB_OUT_SLOW_COVER, .KRB_OUT_MANUAL, .KRB_OUT_DT_W], t.rd r = s.rd r
    (s.armed = true → ∃ t, go = .next t ∧ kept t ∧ t.mem = s.mem ∧
      ((s.errRing 0).recs.length < 64 → ∃ e ∈ (t.errRing 0).recs, e.typ = .lockViol)) ∧
    (s.armed = false → (bits n 24 6 < 5 ∨ 40 < bits n 24 6) → ∃ t, go = .next t ∧ kept t ∧ t.mem = s.mem ∧
      ((s.errRing 0).recs.length < 64 → ∃ e ∈ (t.errRing 0).recs, e.typ = .regRsvd)) ∧
    (s.armed = false → 5 ≤ bits n 24 6 → bits n 24 6 ≤ 40 → ∃ t, go = .next t ∧ t.mem = s.mem ∧
      t.rd .KRB_OUT_SSTOP_COVER = bits n 0 8 ∧ t.rd .KRB_OUT_SLOW_COVER = bits n 8 8 ∧ t.rd .KRB_OUT_MANUAL = bits n 16 8 ∧
      t.rd .KRB_OUT_DT_W = bits n 24 6)) ∧
  (∀ (s : State) (who : Agent) (off : BitVec 23) (size : Nat) (ce ue : BitVec 8) (pb : Bool), s.readOpen who = .ok s →
    (readShapeOk off.toNat size = false → exec (.rcFieldRead who off ⟨size, ⟨ce, ue, pb⟩⟩) s = .next s)) ∧
  (∀ (s : State) (c : Fin 16) (k : Fin 8) (ce ue : BitVec 8) (pb : Bool), s.busDead = false → s.rd .RST_COUNT k.val < 2 ^ 16 →
    exec (.rcFieldRead (.fw c) (BitVec.ofNat 23 (0x030020 + 4 * k.val)) ⟨4, ⟨ce, ue, pb⟩⟩) s =
      .next ((s.wr .RST_COUNT k.val 0).emit (.readData (.fw c) (s.rd .RST_COUNT k.val))))

/-- While the device accepts no configuration request (R506), or for a function that does not exist, a write of its MSI-X
masks, Bus Master Enable or D-state changes nothing; else the state is as written, an unmasked vector has no PBA bit left,
and what was held is sent in order, with the T bit of a TDI in RUN, once requests are allowed and stays held while they are
not (R501). Data of a host read reach their mailbox. A
host DMA error is counted by its kind; a failed descriptor fetch sets FETCH_ERR and halts the mailbox, a failed
completion write counts a suppressed completion and halts it (R502). PME_Turn_Off is answered, enters L2, makes every
stream Insecure and every TDI in CONFIG_LOCKED or RUN ERROR. PCIE_PERST_N low in L2 takes the link down and is no
reset; high, configuration waits 100 ms; PCIE_WAKE_N is released at L0 or after 1 s. VF Enable and NumVFs say which
functions exist. A channel in operation that retrains counts it and shows its MR4 code; one that loses PHY lock is
FAILED. -/
def Obligations.HostLinkAndMemory : Prop :=
  (∀ (s : State) (f : Fin 8) (a b : Bool) (m : Word),
    let sent := ((s.fn f.val).held.map fun p => Tx.host f.val p (s.rd .SPUR_TDI f.val == 2)).reverse ++ s.tx
    (s.cfgOpen = false ∨ s.fnExists f.val = false → exec (.msixUnmask f a b m) s = .next s ∧
      exec (.busMasterEnable f a) s = .next s ∧ exec (.dStateChange f a) s = .next s) ∧
    (s.cfgOpen = true → s.fnExists f.val = true →
      (∃ t, exec (.msixUnmask f a b m) s = .next t ∧ (t.fn f.val).msixEn = a ∧ (t.fn f.val).fnMask = b ∧
        (t.fn f.val).vecMask = m.toNat ∧ t.regs = s.regs ∧ t.mem = s.mem ∧
        ((a = false ∨ b = true) → (t.fn f.val).pba = (s.fn f.val).pba ∧ t.tx = s.tx) ∧
        (a = true → b = false → ∀ v, v < 32 → bit (t.fn f.val).pba v = (bit (s.fn f.val).pba v && bit m.toNat v))) ∧
      (∃ t, exec (.busMasterEnable f a) s = .next t ∧ (t.fn f.val).bme = a ∧ t.regs = s.regs ∧
        (a = true → (s.fn f.val).d3hot = false → s.rd .SPUR_TDI f.val ≠ 3 → (t.fn f.val).held = [] ∧ t.tx = sent) ∧
        ((a = false ∨ (s.fn f.val).d3hot = true ∨ s.rd .SPUR_TDI f.val = 3) →
          (t.fn f.val).held = (s.fn f.val).held ∧ t.tx = s.tx)) ∧
      (∃ t, exec (.dStateChange f a) s = .next t ∧ (t.fn f.val).d3hot = a ∧ t.regs = s.regs ∧
        (a = false → (s.fn f.val).bme = true → s.rd .SPUR_TDI f.val ≠ 3 → (t.fn f.val).held = [] ∧ t.tx = sent) ∧
        ((a = true ∨ (s.fn f.val).bme = false ∨ s.rd .SPUR_TDI f.val = 3) →
          (t.fn f.val).held = (s.fn f.val).held ∧ t.tx = s.tx)))) ∧
  (∀ (s : State) (mb : Fin 64) (data : List Byte) (k : Fin 5), s.domOn pdHost = true → s.fnExists (mb.val / 8) = true →
    (∃ t, exec (.hostDmaCompletion mb data) s = .next t ∧ Table.get [] t.hostIn mb.val = data ∧ t.regs = s.regs ∧ t.mem = s.mem ∧
      ∀ o, o ≠ mb.val → Table.get [] t.hostIn o = Table.get [] s.hostIn o) ∧
    (s.rd .MB_STAT_STATE mb.val ≠ 0 → s.rd .MB_STAT_STATE mb.val ≠ 6 →
      (∃ t, exec (.hostDmaError mb .fetch k) s = .next t ∧ t.rd .HL_DMA_ERR k.val = satAdd 16 (s.rd .HL_DMA_ERR k.val) 1 ∧
        t.rd .MB_STAT_FETCH_ERR mb.val = 1 ∧ t.rd .MB_STAT_STATE mb.val = 5 ∧ t.mem = s.mem) ∧
      (∃ t, exec (.hostDmaError mb .completion k) s = .next t ∧ t.rd .HL_DMA_ERR k.val = satAdd 16 (s.rd .HL_DMA_ERR k.val) 1 ∧
        t.rd .MB_STAT_STATE mb.val = 5 ∧
        t.rd .MB_CNT (6 * mb.val + 1) = satAdd Reg.MB_CNT.spec.width (s.rd .MB_CNT (6 * mb.val + 1)) 1 ∧ t.mem = s.mem) ∧
      (∃ t, exec (.hostDmaError mb .operand k) s = .next t ∧ t.rd .HL_DMA_ERR k.val = satAdd 16 (s.rd .HL_DMA_ERR k.val) 1 ∧
        t.rd .MB_STAT_FETCH_ERR mb.val = 1))) ∧
  (∀ s : State,
    (s.domOn pdHost = false ∨ s.rd .HL_LINK_L2 ≠ 0 → exec .pmeTurnOff s = .next s) ∧
    (s.domOn pdHost = true → s.rd .HL_LINK_L2 = 0 → ∃ t, exec .pmeTurnOff s = .next t ∧ t.rd .HL_LINK_L2 = 1 ∧ Tx.pmeToAck ∈ t.tx ∧
      t.mem = s.mem ∧ ∀ f, f < 8 → t.rd .SPUR_STREAM f = 0 ∧
        t.rd .SPUR_TDI f = (if s.rd .SPUR_TDI f = 1 ∨ s.rd .SPUR_TDI f = 2 then 3 else s.rd .SPUR_TDI f)) ∧
    (s.rd .HL_LINK_L2 ≠ 0 → ∃ t, exec (.pciePerst true) s = .next t ∧ t.rd .HL_LINK_SPEED = 0 ∧ t.rd .HL_LINK_WIDTH = 0 ∧
      t.rd .RST_CAUSE_LAST = s.rd .RST_CAUSE_LAST ∧ t.link = { s.link with perstLow := true } ∧ t.mem = s.mem ∧ t.tx = s.tx) ∧
    exec (.pciePerst false) s = .next (s.onLink fun l => { l with perstLow := false, cfgFrom := max l.cfgFrom (s.raw + 100000000) }) ∧
    (s.link.wakeLow = none → exec .pcieWakeTimeout s = .next s) ∧
    (∀ w, s.link.wakeLow = some w →
      (s.raw < w + 1000000000 → exec .pcieWakeTimeout s = .next s) ∧
      (w + 1000000000 ≤ s.raw → exec .pcieWakeTimeout s = .next ((s.onLink fun l => { l with wakeLow := none }).emit (.pcieWake false)))) ∧
    (∀ (sp : BitVec 3) (wd : BitVec 4), s.domOn pdHost = true → s.link.perstLow = false →
      ∃ t, exec (.pcieLinkUp sp wd) s = .next t ∧ t.rd .HL_LINK_SPEED = sp.toNat ∧ t.rd .HL_LINK_WIDTH = wd.toNat ∧
        t.rd .HL_LINK_L2 = 0 ∧ t.link.wakeLow = none) ∧
    (∀ (en : Bool) (num : Fin 8), s.cfgOpen = false → exec (.vfEnableWrite en num) s = .next s) ∧
    (∀ (en : Bool) (num : Fin 8), s.cfgOpen = true → ∃ t, exec (.vfEnableWrite en num) s = .next t ∧ t.regs = s.regs ∧
      t.fnExists 0 = true ∧ (∀ f, 0 < f → (t.fnExists f = true ↔ en = true ∧ f ≤ num.val)) ∧ t.fn 0 = s.fn 0)) ∧
  (∀ (s : State) (c : Fin 8) (mr4 : Byte), s.domOn pdMem = true →
    (s.rd .MEM_STAT_STATE c.val = chReady → ∃ t, exec (.lpddrRetrain c mr4) s = .next t ∧
      t.rd .MEM_CNT (3 * c.val + 2) = satAdd 32 (s.rd .MEM_CNT (3 * c.val + 2)) 1 ∧ t.rd .MEM_STAT_MR4 c.val = mr4.toNat ∧
      t.rd .MEM_STAT_STATE c.val = chReady ∧ t.mem = s.mem) ∧
    (s.rd .MEM_STAT_STATE c.val ≠ chReady → exec (.lpddrRetrain c mr4) s = .next s) ∧
    (s.rd .MEM_STAT_STATE c.val = chFailed → exec (.lpddrPhyLockLoss c) s = .next s) ∧
    (s.rd .MEM_STAT_STATE c.val ≠ chFailed → ∃ t, exec (.lpddrPhyLockLoss c) s = .next t ∧ t.rd .MEM_STAT_STATE c.val = chFailed))

/-- An edge on DRDY of an enabled port with STAMP = 1 starts a frame stamped with its WT64, or while one is in progress
counts OVERRUN and is kept as a missed sample; otherwise it changes nothing. An in-band interrupt of an entry with ACQ
= 1 starts its private read, or is kept while one is in progress. A frame that ends without chains ends only the
frame; one that feeds a chain with LOG2M = 0 and no step filter appends field × 2^8, saturated, with the frame's
stamp; a full FIFO drops it and counts. A Hot-Join of an enabled controller gives the entry an address, free as the
spec leaves it, and sends it. CH_POP drops the oldest output and nothing else. -/
def Obligations.AuxiliaryAcquisition : Prop :=
  (∀ (s : State) (p : Fin 8),
    (s.domOn pdAux = false ∨ s.rd .SPI_CFG_STAMP p.val ≠ 1 ∨ s.rd .SPI_CFG_EN p.val = 0 → exec (.drdyEdge p) s = .next s) ∧
    (s.domOn pdAux = true → s.rd .SPI_CFG_STAMP p.val = 1 → s.rd .SPI_CFG_EN p.val ≠ 0 →
      (s.spiBusy p.val = [] → ∃ t, exec (.drdyEdge p) s = .next t ∧ t.spiBusy p.val = [s.now] ∧ t.tx = .spiFrame p.val :: s.tx ∧
        t.regs = s.regs ∧ t.mem = s.mem) ∧
      (s.spiBusy p.val ≠ [] → ∃ t, exec (.drdyEdge p) s = .next t ∧ t.spiBusy p.val = s.spiBusy p.val ++ [s.now] ∧ t.tx = s.tx ∧
        t.rd .SPI_CNT (4 * p.val) = satAdd Reg.SPI_CNT.spec.width (s.rd .SPI_CNT (4 * p.val)) 1 ∧ t.mem = s.mem))) ∧
  (∀ (s : State) (c : Fin 4) (d : Fin 8),
    let i := i3cIdx c.val d.val
    (s.domOn pdAux = false ∨ s.rd .I3C_DEV_ACQ i = 0 → exec (.i3cIbi c d) s = .next s) ∧
    (s.domOn pdAux = true → s.rd .I3C_DEV_ACQ i ≠ 0 → s.rd .I3C_CFG_EN c.val ≠ 0 → s.i3cUsed i = true →
      (s.i3cBusy c.val d.val = [] → ∃ t, exec (.i3cIbi c d) s = .next t ∧ t.i3cBusy c.val d.val = [s.now] ∧
        t.tx = .i3cRead c.val d.val :: s.tx ∧ t.regs = s.regs) ∧
      (s.i3cBusy c.val d.val ≠ [] → ∃ t, exec (.i3cIbi c d) s = .next t ∧
        t.i3cBusy c.val d.val = s.i3cBusy c.val d.val ++ [s.now] ∧ t.tx = s.tx ∧ t.regs = s.regs)) ∧
    (s.domOn pdAux = true → s.rd .I3C_CFG_EN c.val ≠ 0 → ∃ t a, exec (.i3cHotJoin c d) s = .next t ∧ a < 128 ∧ t.rd .I3C_DEV_DA i = a ∧
      t.tx = .i3cAddress c.val d.val a :: s.tx ∧ t.mem = s.mem ∧ ∀ j, j < 32 → j ≠ i → t.rd .I3C_DEV_DA j = s.rd .I3C_DEV_DA j) ∧
    (s.domOn pdAux = false ∨ s.rd .I3C_CFG_EN c.val = 0 → exec (.i3cHotJoin c d) s = .next s)) ∧
  (∀ (s : State) (p : Fin 8) (c : Fin 4) (d : Fin 8) (data : List Byte),
    (s.spiBusy p.val = [] → exec (.spiFrameDone p data) s = .next s) ∧
    (s.i3cBusy c.val d.val = [] → exec (.i3cReadDone c d data) s = .next s) ∧
    (∀ st l, s.i3cBusy c.val d.val = st :: l → s.chainsOf (8 + i3cIdx c.val d.val) = [] → s.rd .I3C_DEV_KIND (i3cIdx c.val d.val) ≠ 1 →
      ∃ t, exec (.i3cReadDone c d data) s = .next t ∧ t.i3cBusy c.val d.val = [] ∧ t.regs = s.regs ∧ t.aux.chains = s.aux.chains) ∧
    (∀ st k, s.spiBusy p.val = [st] → s.rd .SPI_CFG_KIND p.val ≠ 1 → s.chainsOf p.val = [k] → s.rd .CH_CFG_LOG2M k = 0 →
      s.rd .CH_CFG_STEP k = 0 → s.xchkSlots k = [] → (s.chain k).missed = false →
      let v := s.chainField k (data.take (s.rd .SPI_CFG_LEN p.val + 1)) * 2 ^ 8
      let o := clampInt (-(2 ^ 31)) (2 ^ 31 - 1) v
      ∃ t, exec (.spiFrameDone p data) s = .next t ∧ t.spiBusy p.val = [] ∧ t.mem = s.mem ∧ t.tx = s.tx ∧
        ((s.chain k).fifo.length < 64 → (t.chain k).fifo = (s.chain k).fifo ++
          [⟨o, st % 2 ^ 64, (s.chain k).dropped, o != v, true⟩]) ∧
        (64 ≤ (s.chain k).fifo.length → (t.chain k).fifo = (s.chain k).fifo ∧ (t.chain k).dropped = true ∧
          t.rd .CH_STAT_OVF_CNT k = satAdd Reg.CH_STAT_OVF_CNT.spec.width (s.rd .CH_STAT_OVF_CNT k) 1))) ∧
  (∀ (s : State) (who : Agent) (k : Fin 16), s.letIn who .CH_POP k.val = .ok s →
    ∃ t, exec (.chPop who k) s = .next t ∧ (t.chain k.val).fifo = (s.chain k.val).fifo.tail ∧ t.regs = s.regs ∧ t.mem = s.mem ∧
      t.tx = s.tx ∧ ∀ j, j ≠ k.val → t.chain j = s.chain j)

/-- A pop of an AUXEV port or of the GPIO FIFO drops the oldest entry and nothing else. Loss of the ETH0 link clears LINK
and puts the PTP port into FAULTY; a link that comes up sets LINK and leaves FAULTY for LISTENING (the state is the
model's reading); TX_DIS follows TX_FAULT. A GPIO edge that GPIO_EDGE chooses on an input enters the FIFO with pin,
level and WT64, or with a full FIFO counts OVF; every accepted level shows in GPIO_IN; an edge of pins 0 to 3 that
GPIO_WAKE chooses is wake source 5; one of an output, or not chosen, only shows. While the Kerb is armed a TAP
instruction beyond BYPASS, IDCODE and SAMPLE/PRELOAD becomes BYPASS and counts; else it is in force, a code that R533 does
not list as BYPASS (the model's reading), and IDCODE puts the code of R533 out. -/
def Obligations.AuxiliaryEventsAndPins : Prop :=
  (∀ (s : State) (who : Agent) (p : Fin 8), s.letIn who .AUXEV_POP p.val = .ok s →
    ∃ t, exec (.auxevPop who p) s = .next t ∧ Table.get [] t.aux.auxev p.val = (Table.get [] s.aux.auxev p.val).tail ∧ t.regs = s.regs ∧
      t.mem = s.mem ∧ t.tx = s.tx ∧ ∀ j, j ≠ p.val → Table.get [] t.aux.auxev j = Table.get [] s.aux.auxev j) ∧
  (∀ (s : State) (who : Agent), s.letIn who .GPIO_POP 0 = .ok s →
    exec (.gpioPop who) s = .next (s.onAux fun a => { a with gpio := a.gpio.tail })) ∧
  (∀ s : State,
    (s.domOn pdAux = false → exec .ethLinkLoss s = .next s ∧ exec .ethLinkUp s = .next s ∧ ∀ a, exec (.ethTxFault a) s = .next s) ∧
    (s.domOn pdAux = true →
      (∃ t, exec .ethLinkLoss s = .next t ∧ t.rd .ETH_STAT_LINK = 0 ∧ t.rd .PTP_STAT_PORT_STATE = 1 ∧ t.mem = s.mem) ∧
      (∃ t, exec .ethLinkUp s = .next t ∧ t.rd .ETH_STAT_LINK = 1 ∧ t.mem = s.mem ∧
        t.rd .PTP_STAT_PORT_STATE = if s.rd .PTP_STAT_PORT_STATE = 1 then 3 else s.rd .PTP_STAT_PORT_STATE) ∧
      ∀ a, exec (.ethTxFault a) s = .next ((s.put .ETH_STAT_TX_FAULT 0 a).emit (.ethTxDis a)))) ∧
  (∀ (s : State) (pin : Fin 16) (high : Bool), s.rd .PM_STATUS_CUR ≠ 4 → s.domOn pdAux = true →
    let chosen := edgeChosen (bits (s.rd .GPIO_EDGE) (2 * pin.val) 2) high
    let wakes := pin.val < 4 ∧ edgeChosen (bits (s.rd .GPIO_WAKE) (2 * pin.val) 2) high = true
    (bit (s.rd .GPIO_DIR) pin.val = true ∨ (chosen = false ∧ ¬ wakes) →
      exec (.gpioEdge pin high) s = .next (s.setBitOf .GPIO_IN 0 pin.val high)) ∧
    (bit (s.rd .GPIO_DIR) pin.val = false → chosen = true → ∃ t, exec (.gpioEdge pin high) s = .next t ∧
      bit (t.rd .GPIO_IN) pin.val = high ∧ (¬ wakes → t.pm = s.pm) ∧
      (s.aux.gpio.length < 32 → t.aux.gpio = s.aux.gpio ++ [(pin.val, high, s.now)]) ∧
      (32 ≤ s.aux.gpio.length → t.aux.gpio = s.aux.gpio ∧ t.rd .GPIO_OVF = satAdd Reg.GPIO_OVF.spec.width (s.rd .GPIO_OVF) 1)) ∧
    (bit (s.rd .GPIO_DIR) pin.val = false → wakes → bit (s.rd .PM_WAKE_CFG_EN) 5 = true → s.wakeListens 5 = true →
      ∃ t, exec (.gpioEdge pin high) s = .next t ∧ bit (t.rd .PM_WAKE_SRC_LATCHED) 5 = true)) ∧
  (∀ (s : State) (i : TapInstr),
    (s.armed = true → i ≠ .bypass → i ≠ .idcode → i ≠ .sample →
      ∃ t, exec (.tapInstruction i) s = .next t ∧ t.aux.tap = .bypass ∧
        t.rd .TAP_REFUSED = satAdd Reg.TAP_REFUSED.spec.width (s.rd .TAP_REFUSED) 1 ∧ t.mem = s.mem ∧ t.kerb = s.kerb) ∧
    (s.armed = false ∨ i = .bypass ∨ i = .idcode ∨ i = .sample → i ≠ .other → i ≠ .idcode →
      exec (.tapInstruction i) s = .next (s.onAux fun a => { a with tap := i })) ∧
    (s.armed = false → i = .other → exec (.tapInstruction i) s = .next (s.onAux fun a => { a with tap := .bypass })) ∧
    exec (.tapInstruction .idcode) s = .next ((s.onAux fun a => { a with tap := .idcode }).emit (.tapIdcode s.idcode)))

/-- A carding unit that fails is fenced, no other unit's fence changes, every run of its slots ends and no other slot's does,
and the owner's ring, when it has room, gets one CARD_FAIL record with the cause; the bank holds a HEAD_LEAVE, PARAM bit 31 with
the stamp, for each slot that had a run, an enabled queue and no HEAD_JOIN still pending (that a slot without a run has none is
the model's reading, log entry 35). A unit gated or fenced changes nothing. A failed island of PD_FUL is fenced, and every Spur
that uses it and has no fault yet has ERR_FAULT.CODE 4; one already fenced or gated, nothing. A failed island of PD_CTRL is
recorded in ERR_DEVFAULT, and with a live core of Spur 0 a SOFT reset follows. ERR_POP moves the oldest record to ERR_REC and
answers VALID and how many are left; an empty ring answers 0 and leaves ERR_REC zero. -/
def Obligations.FailedUnitsAndErrorRings : Prop :=
  (∀ (s : State) (u : Fin 8) (parity : Bool),
    let o := s.portOwner u.val
    ∀ x ∈ [(Instr.cardUnitFault u parity, if parity then (2 : Nat) else 1), (.cardHandshakeTimeout u, 3)],
      (s.cardLive u.val = false → exec x.1 s = .next s) ∧
      (s.cardLive u.val = true → ∃ t, exec x.1 s = .next t ∧
        (∀ v, Table.get false t.cardFenced v = if v = u.val then true else Table.get false s.cardFenced v) ∧
        (∀ i, (t.slot i).run = if i / 32 = u.val then none else (s.slot i).run) ∧
        ((s.errRing o).recs.length < 64 → ∃ r, (t.errRing o).recs = (s.errRing o).recs ++ [r] ∧ r.typ = .cardFail ∧ r.spur = o ∧
          r.unit = u.val ∧ r.stamp = s.now ∧ r.detail = [x.2, 0, 0, 0]) ∧
        (∀ i r q, i / 32 = u.val → (s.slot i).run = some r → s.route i = some q → s.domOn pdCtrl = true → s.flag .EQ_CFG_EN q = true →
          ((s.card u.val).pend.any fun p => p.slot == i && p.sub == subJoin) = false → ∃ n, pendRec n q i subLeave (r.lastStamp + 2 ^ 31) false ∈ (t.eq q).leaves) ∧
        t.mem = s.mem)) ∧
  (∀ (s : State) (f : BootFacts), f.wf = true →
    (∀ x ∈ [(SharedIsland.fuller, (0 : Nat)), (.projectors, 1), (.ego, 2), (.tracker, 3)], ∀ c : IslandCause,
      (s.domOn pdFul = true → bit s.fulFenced x.2 = false → ∃ t, exec (.sharedUnitFault x.1 c f) s = .next t ∧
        bit t.fulFenced x.2 = true ∧ t.mem = s.mem ∧
        ∀ sp, sp < 8 → s.usesIsland x.2 sp = true → s.rd .SPUR_STATE sp ≠ 3 → s.rd .ERR_FAULT_CODE sp = 0 →
          t.rd .ERR_FAULT_CODE sp = 4)) ∧
    (∀ x ∈ [(SharedIsland.milestone, (1 : Nat)), (.batts, 2), (.bank0, 3), (.bank1, 4), (.mailboxes, 5), (.security, 6), (.router, 7)],
      ∀ y ∈ [(IslandCause.clock, (1 : Nat)), (.parity, 2), (.handshake, 3)], s.domOn pdCtrl = true →
        (s.softCore = false → exec (.sharedUnitFault x.1 y.1 f) s =
          .next ((s.wr .ERR_DEVFAULT_ISLAND 0 x.2).wr .ERR_DEVFAULT_CAUSE 0 y.2)) ∧
        (s.softCore = true → s.inOff = false → s.rst.waiting = none → ∃ t, exec (.sharedUnitFault x.1 y.1 f) s = .next t ∧
          t.rd .RST_CAUSE_LAST = 5 ∧ t.raw = s.raw ∧ t.armed = s.armed))) ∧
  (∀ (s : State) (who : Agent) (sp : Fin 8), s.admitRead who .ERR_POP_VALID sp.val = .ok s →
    ((s.errRing sp.val).recs = [] → ∃ t, exec (.errPop who sp) s = .next t ∧ t.tx = .readData who 0 :: s.tx ∧ t.mem = s.mem ∧
      ∀ i, i < 8 → t.rd .ERR_REC (8 * sp.val + i) = 0) ∧
    (∀ r l, (s.errRing sp.val).recs = r :: l → ∃ t, exec (.errPop who sp) s = .next t ∧
      t.tx = .readData who (1 + 2 * l.length) :: s.tx ∧ (t.errRing sp.val).recs = l ∧ t.mem = s.mem ∧
      (∀ v, v ≠ sp.val → t.errRing v = s.errRing v) ∧
      ∀ i, i < 8 → t.rd .ERR_REC (8 * sp.val + i) = leAt r.bytes (4 * i) 4))

/-- The loss of VDD_3V3 forces the drivers off and every output is low, whatever the Kerb commands; its return releases
them unless the device has tripped. A reading of a live sensor is shown; below 125 °C it trips nothing, at 125 °C or
more THERMTRIP_N is asserted, once, and the outputs are off. A sensor whose domain is gated, and a device in OFF,
change nothing. -/
def Obligations.SupplyLossAndThermtrip : Prop :=
  (∀ s : State, ∃ t, exec .vdd3v3Loss s = .next t ∧ t.kerb.forcedOff = true ∧ t.kerb.out = 0 ∧
    t.supply = { s.supply with v33Lost := true } ∧ t.mem = s.mem ∧ t.errs = s.errs) ∧
  (∀ s : State, ∃ t, exec .vdd3v3Return s = .next t ∧ t.kerb.forcedOff = s.supply.trip ∧
    t.supply = { s.supply with v33Lost := false } ∧ t.mem = s.mem ∧ (s.supply.trip = true → t.kerb.out = 0)) ∧
  (∀ (s : State) (k : Fin 8) (v : Byte),
    (s.inOff = true ∨ s.sensorLive k.val = false → exec (.thermtrip k v) s = .next s) ∧
    (s.inOff = false → s.sensorLive k.val = true →
      (v.toNat < 189 → ∃ t, exec (.thermtrip k v) s = .next t ∧ t.rd .THERM_TEMP k.val = v.toNat ∧ t.supply = s.supply ∧
        t.kerb = s.kerb ∧ t.tx = s.tx ∧ t.mem = s.mem) ∧
      (189 ≤ v.toNat → ∃ t, exec (.thermtrip k v) s = .next t ∧ t.rd .THERM_TEMP k.val = v.toNat ∧ t.supply.trip = true ∧
        t.kerb.forcedOff = true ∧ t.kerb.out = 0 ∧ (s.supply.trip = false → Tx.thermtripN ∈ t.tx))))
end

