-- ==== Sys2Proof/Laws/State.lean ====
section
/-!
SUPPORT. What each part update leaves alone: one lemma per part per update, true by unfolding.
-/
namespace Sys2Proof.Machine

@[simp] theorem State.onRegs_regs (s : State) (f : (Table Nat) → (Table Nat)) : (s.onRegs f).regs = f s.regs := rfl
@[simp] theorem State.onRegs_mem (s : State) (f : (Table Nat) → (Table Nat)) : (s.onRegs f).mem = s.mem := rfl
@[simp] theorem State.onRegs_free (s : State) (f : (Table Nat) → (Table Nat)) : (s.onRegs f).free = s.free := rfl
@[simp] theorem State.onRegs_tx (s : State) (f : (Table Nat) → (Table Nat)) : (s.onRegs f).tx = s.tx := rfl
@[simp] theorem State.onRegs_raw (s : State) (f : (Table Nat) → (Table Nat)) : (s.onRegs f).raw = s.raw := rfl
@[simp] theorem State.onRegs_time (s : State) (f : (Table Nat) → (Table Nat)) : (s.onRegs f).time = s.time := rfl
@[simp] theorem State.onRegs_ports (s : State) (f : (Table Nat) → (Table Nat)) : (s.onRegs f).ports = s.ports := rfl
@[simp] theorem State.onRegs_hat (s : State) (f : (Table Nat) → (Table Nat)) : (s.onRegs f).hat = s.hat := rfl
@[simp] theorem State.onRegs_cards (s : State) (f : (Table Nat) → (Table Nat)) : (s.onRegs f).cards = s.cards := rfl
@[simp] theorem State.onRegs_slots (s : State) (f : (Table Nat) → (Table Nat)) : (s.onRegs f).slots = s.slots := rfl
@[simp] theorem State.onRegs_eqs (s : State) (f : (Table Nat) → (Table Nat)) : (s.onRegs f).eqs = s.eqs := rfl
@[simp] theorem State.onRegs_recSeq (s : State) (f : (Table Nat) → (Table Nat)) : (s.onRegs f).recSeq = s.recSeq := rfl
@[simp] theorem State.onRegs_kcopies (s : State) (f : (Table Nat) → (Table Nat)) : (s.onRegs f).kcopies = s.kcopies := rfl
@[simp] theorem State.onRegs_ful (s : State) (f : (Table Nat) → (Table Nat)) : (s.onRegs f).ful = s.ful := rfl
@[simp] theorem State.onRegs_mills (s : State) (f : (Table Nat) → (Table Nat)) : (s.onRegs f).mills = s.mills := rfl
@[simp] theorem State.onRegs_ms (s : State) (f : (Table Nat) → (Table Nat)) : (s.onRegs f).ms = s.ms := rfl
@[simp] theorem State.onRegs_ft (s : State) (f : (Table Nat) → (Table Nat)) : (s.onRegs f).ft = s.ft := rfl
@[simp] theorem State.onRegs_kerb (s : State) (f : (Table Nat) → (Table Nat)) : (s.onRegs f).kerb = s.kerb := rfl
@[simp] theorem State.onRegs_mail (s : State) (f : (Table Nat) → (Table Nat)) : (s.onRegs f).mail = s.mail := rfl
@[simp] theorem State.onRegs_sec (s : State) (f : (Table Nat) → (Table Nat)) : (s.onRegs f).sec = s.sec := rfl
@[simp] theorem State.onRegs_cw (s : State) (f : (Table Nat) → (Table Nat)) : (s.onRegs f).cw = s.cw := rfl
@[simp] theorem State.onRegs_pm (s : State) (f : (Table Nat) → (Table Nat)) : (s.onRegs f).pm = s.pm := rfl
@[simp] theorem State.onRegs_rst (s : State) (f : (Table Nat) → (Table Nat)) : (s.onRegs f).rst = s.rst := rfl
@[simp] theorem State.onRegs_fns (s : State) (f : (Table Nat) → (Table Nat)) : (s.onRegs f).fns = s.fns := rfl
@[simp] theorem State.onRegs_vfEnable (s : State) (f : (Table Nat) → (Table Nat)) : (s.onRegs f).vfEnable = s.vfEnable := rfl
@[simp] theorem State.onRegs_numVfs (s : State) (f : (Table Nat) → (Table Nat)) : (s.onRegs f).numVfs = s.numVfs := rfl
@[simp] theorem State.onRegs_memCap (s : State) (f : (Table Nat) → (Table Nat)) : (s.onRegs f).memCap = s.memCap := rfl
@[simp] theorem State.onRegs_link (s : State) (f : (Table Nat) → (Table Nat)) : (s.onRegs f).link = s.link := rfl
@[simp] theorem State.onRegs_hostIn (s : State) (f : (Table Nat) → (Table Nat)) : (s.onRegs f).hostIn = s.hostIn := rfl
@[simp] theorem State.onRegs_linkUes (s : State) (f : (Table Nat) → (Table Nat)) : (s.onRegs f).linkUes = s.linkUes := rfl
@[simp] theorem State.onRegs_aux (s : State) (f : (Table Nat) → (Table Nat)) : (s.onRegs f).aux = s.aux := rfl
@[simp] theorem State.onRegs_errs (s : State) (f : (Table Nat) → (Table Nat)) : (s.onRegs f).errs = s.errs := rfl
@[simp] theorem State.onRegs_isoLog (s : State) (f : (Table Nat) → (Table Nat)) : (s.onRegs f).isoLog = s.isoLog := rfl
@[simp] theorem State.onRegs_wl1 (s : State) (f : (Table Nat) → (Table Nat)) : (s.onRegs f).wl1 = s.wl1 := rfl
@[simp] theorem State.onRegs_cardFenced (s : State) (f : (Table Nat) → (Table Nat)) : (s.onRegs f).cardFenced = s.cardFenced := rfl
@[simp] theorem State.onRegs_fulFenced (s : State) (f : (Table Nat) → (Table Nat)) : (s.onRegs f).fulFenced = s.fulFenced := rfl
@[simp] theorem State.onRegs_supply (s : State) (f : (Table Nat) → (Table Nat)) : (s.onRegs f).supply = s.supply := rfl
@[simp] theorem State.onRegs_pending (s : State) (f : (Table Nat) → (Table Nat)) : (s.onRegs f).pending = s.pending := rfl

@[simp] theorem State.onMem_mem (s : State) (f : (List Host.Cell) → (List Host.Cell)) : (s.onMem f).mem = f s.mem := rfl
@[simp] theorem State.onMem_regs (s : State) (f : (List Host.Cell) → (List Host.Cell)) : (s.onMem f).regs = s.regs := rfl
@[simp] theorem State.onMem_free (s : State) (f : (List Host.Cell) → (List Host.Cell)) : (s.onMem f).free = s.free := rfl
@[simp] theorem State.onMem_tx (s : State) (f : (List Host.Cell) → (List Host.Cell)) : (s.onMem f).tx = s.tx := rfl
@[simp] theorem State.onMem_raw (s : State) (f : (List Host.Cell) → (List Host.Cell)) : (s.onMem f).raw = s.raw := rfl
@[simp] theorem State.onMem_time (s : State) (f : (List Host.Cell) → (List Host.Cell)) : (s.onMem f).time = s.time := rfl
@[simp] theorem State.onMem_ports (s : State) (f : (List Host.Cell) → (List Host.Cell)) : (s.onMem f).ports = s.ports := rfl
@[simp] theorem State.onMem_hat (s : State) (f : (List Host.Cell) → (List Host.Cell)) : (s.onMem f).hat = s.hat := rfl
@[simp] theorem State.onMem_cards (s : State) (f : (List Host.Cell) → (List Host.Cell)) : (s.onMem f).cards = s.cards := rfl
@[simp] theorem State.onMem_slots (s : State) (f : (List Host.Cell) → (List Host.Cell)) : (s.onMem f).slots = s.slots := rfl
@[simp] theorem State.onMem_eqs (s : State) (f : (List Host.Cell) → (List Host.Cell)) : (s.onMem f).eqs = s.eqs := rfl
@[simp] theorem State.onMem_recSeq (s : State) (f : (List Host.Cell) → (List Host.Cell)) : (s.onMem f).recSeq = s.recSeq := rfl
@[simp] theorem State.onMem_kcopies (s : State) (f : (List Host.Cell) → (List Host.Cell)) : (s.onMem f).kcopies = s.kcopies := rfl
@[simp] theorem State.onMem_ful (s : State) (f : (List Host.Cell) → (List Host.Cell)) : (s.onMem f).ful = s.ful := rfl
@[simp] theorem State.onMem_mills (s : State) (f : (List Host.Cell) → (List Host.Cell)) : (s.onMem f).mills = s.mills := rfl
@[simp] theorem State.onMem_ms (s : State) (f : (List Host.Cell) → (List Host.Cell)) : (s.onMem f).ms = s.ms := rfl
@[simp] theorem State.onMem_ft (s : State) (f : (List Host.Cell) → (List Host.Cell)) : (s.onMem f).ft = s.ft := rfl
@[simp] theorem State.onMem_kerb (s : State) (f : (List Host.Cell) → (List Host.Cell)) : (s.onMem f).kerb = s.kerb := rfl
@[simp] theorem State.onMem_mail (s : State) (f : (List Host.Cell) → (List Host.Cell)) : (s.onMem f).mail = s.mail := rfl
@[simp] theorem State.onMem_sec (s : State) (f : (List Host.Cell) → (List Host.Cell)) : (s.onMem f).sec = s.sec := rfl
@[simp] theorem State.onMem_cw (s : State) (f : (List Host.Cell) → (List Host.Cell)) : (s.onMem f).cw = s.cw := rfl
@[simp] theorem State.onMem_pm (s : State) (f : (List Host.Cell) → (List Host.Cell)) : (s.onMem f).pm = s.pm := rfl
@[simp] theorem State.onMem_rst (s : State) (f : (List Host.Cell) → (List Host.Cell)) : (s.onMem f).rst = s.rst := rfl
@[simp] theorem State.onMem_fns (s : State) (f : (List Host.Cell) → (List Host.Cell)) : (s.onMem f).fns = s.fns := rfl
@[simp] theorem State.onMem_vfEnable (s : State) (f : (List Host.Cell) → (List Host.Cell)) : (s.onMem f).vfEnable = s.vfEnable := rfl
@[simp] theorem State.onMem_numVfs (s : State) (f : (List Host.Cell) → (List Host.Cell)) : (s.onMem f).numVfs = s.numVfs := rfl
@[simp] theorem State.onMem_memCap (s : State) (f : (List Host.Cell) → (List Host.Cell)) : (s.onMem f).memCap = s.memCap := rfl
@[simp] theorem State.onMem_link (s : State) (f : (List Host.Cell) → (List Host.Cell)) : (s.onMem f).link = s.link := rfl
@[simp] theorem State.onMem_hostIn (s : State) (f : (List Host.Cell) → (List Host.Cell)) : (s.onMem f).hostIn = s.hostIn := rfl
@[simp] theorem State.onMem_linkUes (s : State) (f : (List Host.Cell) → (List Host.Cell)) : (s.onMem f).linkUes = s.linkUes := rfl
@[simp] theorem State.onMem_aux (s : State) (f : (List Host.Cell) → (List Host.Cell)) : (s.onMem f).aux = s.aux := rfl
@[simp] theorem State.onMem_errs (s : State) (f : (List Host.Cell) → (List Host.Cell)) : (s.onMem f).errs = s.errs := rfl
@[simp] theorem State.onMem_isoLog (s : State) (f : (List Host.Cell) → (List Host.Cell)) : (s.onMem f).isoLog = s.isoLog := rfl
@[simp] theorem State.onMem_wl1 (s : State) (f : (List Host.Cell) → (List Host.Cell)) : (s.onMem f).wl1 = s.wl1 := rfl
@[simp] theorem State.onMem_cardFenced (s : State) (f : (List Host.Cell) → (List Host.Cell)) : (s.onMem f).cardFenced = s.cardFenced := rfl
@[simp] theorem State.onMem_fulFenced (s : State) (f : (List Host.Cell) → (List Host.Cell)) : (s.onMem f).fulFenced = s.fulFenced := rfl
@[simp] theorem State.onMem_supply (s : State) (f : (List Host.Cell) → (List Host.Cell)) : (s.onMem f).supply = s.supply := rfl
@[simp] theorem State.onMem_pending (s : State) (f : (List Host.Cell) → (List Host.Cell)) : (s.onMem f).pending = s.pending := rfl

@[simp] theorem State.onFree_free (s : State) (f : Nat → Nat) : (s.onFree f).free = f s.free := rfl
@[simp] theorem State.onFree_regs (s : State) (f : Nat → Nat) : (s.onFree f).regs = s.regs := rfl
@[simp] theorem State.onFree_mem (s : State) (f : Nat → Nat) : (s.onFree f).mem = s.mem := rfl
@[simp] theorem State.onFree_tx (s : State) (f : Nat → Nat) : (s.onFree f).tx = s.tx := rfl
@[simp] theorem State.onFree_raw (s : State) (f : Nat → Nat) : (s.onFree f).raw = s.raw := rfl
@[simp] theorem State.onFree_time (s : State) (f : Nat → Nat) : (s.onFree f).time = s.time := rfl
@[simp] theorem State.onFree_ports (s : State) (f : Nat → Nat) : (s.onFree f).ports = s.ports := rfl
@[simp] theorem State.onFree_hat (s : State) (f : Nat → Nat) : (s.onFree f).hat = s.hat := rfl
@[simp] theorem State.onFree_cards (s : State) (f : Nat → Nat) : (s.onFree f).cards = s.cards := rfl
@[simp] theorem State.onFree_slots (s : State) (f : Nat → Nat) : (s.onFree f).slots = s.slots := rfl
@[simp] theorem State.onFree_eqs (s : State) (f : Nat → Nat) : (s.onFree f).eqs = s.eqs := rfl
@[simp] theorem State.onFree_recSeq (s : State) (f : Nat → Nat) : (s.onFree f).recSeq = s.recSeq := rfl
@[simp] theorem State.onFree_kcopies (s : State) (f : Nat → Nat) : (s.onFree f).kcopies = s.kcopies := rfl
@[simp] theorem State.onFree_ful (s : State) (f : Nat → Nat) : (s.onFree f).ful = s.ful := rfl
@[simp] theorem State.onFree_mills (s : State) (f : Nat → Nat) : (s.onFree f).mills = s.mills := rfl
@[simp] theorem State.onFree_ms (s : State) (f : Nat → Nat) : (s.onFree f).ms = s.ms := rfl
@[simp] theorem State.onFree_ft (s : State) (f : Nat → Nat) : (s.onFree f).ft = s.ft := rfl
@[simp] theorem State.onFree_kerb (s : State) (f : Nat → Nat) : (s.onFree f).kerb = s.kerb := rfl
@[simp] theorem State.onFree_mail (s : State) (f : Nat → Nat) : (s.onFree f).mail = s.mail := rfl
@[simp] theorem State.onFree_sec (s : State) (f : Nat → Nat) : (s.onFree f).sec = s.sec := rfl
@[simp] theorem State.onFree_cw (s : State) (f : Nat → Nat) : (s.onFree f).cw = s.cw := rfl
@[simp] theorem State.onFree_pm (s : State) (f : Nat → Nat) : (s.onFree f).pm = s.pm := rfl
@[simp] theorem State.onFree_rst (s : State) (f : Nat → Nat) : (s.onFree f).rst = s.rst := rfl
@[simp] theorem State.onFree_fns (s : State) (f : Nat → Nat) : (s.onFree f).fns = s.fns := rfl
@[simp] theorem State.onFree_vfEnable (s : State) (f : Nat → Nat) : (s.onFree f).vfEnable = s.vfEnable := rfl
@[simp] theorem State.onFree_numVfs (s : State) (f : Nat → Nat) : (s.onFree f).numVfs = s.numVfs := rfl
@[simp] theorem State.onFree_memCap (s : State) (f : Nat → Nat) : (s.onFree f).memCap = s.memCap := rfl
@[simp] theorem State.onFree_link (s : State) (f : Nat → Nat) : (s.onFree f).link = s.link := rfl
@[simp] theorem State.onFree_hostIn (s : State) (f : Nat → Nat) : (s.onFree f).hostIn = s.hostIn := rfl
@[simp] theorem State.onFree_linkUes (s : State) (f : Nat → Nat) : (s.onFree f).linkUes = s.linkUes := rfl
@[simp] theorem State.onFree_aux (s : State) (f : Nat → Nat) : (s.onFree f).aux = s.aux := rfl
@[simp] theorem State.onFree_errs (s : State) (f : Nat → Nat) : (s.onFree f).errs = s.errs := rfl
@[simp] theorem State.onFree_isoLog (s : State) (f : Nat → Nat) : (s.onFree f).isoLog = s.isoLog := rfl
@[simp] theorem State.onFree_wl1 (s : State) (f : Nat → Nat) : (s.onFree f).wl1 = s.wl1 := rfl
@[simp] theorem State.onFree_cardFenced (s : State) (f : Nat → Nat) : (s.onFree f).cardFenced = s.cardFenced := rfl
@[simp] theorem State.onFree_fulFenced (s : State) (f : Nat → Nat) : (s.onFree f).fulFenced = s.fulFenced := rfl
@[simp] theorem State.onFree_supply (s : State) (f : Nat → Nat) : (s.onFree f).supply = s.supply := rfl
@[simp] theorem State.onFree_pending (s : State) (f : Nat → Nat) : (s.onFree f).pending = s.pending := rfl

@[simp] theorem State.onTx_tx (s : State) (f : (List Tx) → (List Tx)) : (s.onTx f).tx = f s.tx := rfl
@[simp] theorem State.onTx_regs (s : State) (f : (List Tx) → (List Tx)) : (s.onTx f).regs = s.regs := rfl
@[simp] theorem State.onTx_mem (s : State) (f : (List Tx) → (List Tx)) : (s.onTx f).mem = s.mem := rfl
@[simp] theorem State.onTx_free (s : State) (f : (List Tx) → (List Tx)) : (s.onTx f).free = s.free := rfl
@[simp] theorem State.onTx_raw (s : State) (f : (List Tx) → (List Tx)) : (s.onTx f).raw = s.raw := rfl
@[simp] theorem State.onTx_time (s : State) (f : (List Tx) → (List Tx)) : (s.onTx f).time = s.time := rfl
@[simp] theorem State.onTx_ports (s : State) (f : (List Tx) → (List Tx)) : (s.onTx f).ports = s.ports := rfl
@[simp] theorem State.onTx_hat (s : State) (f : (List Tx) → (List Tx)) : (s.onTx f).hat = s.hat := rfl
@[simp] theorem State.onTx_cards (s : State) (f : (List Tx) → (List Tx)) : (s.onTx f).cards = s.cards := rfl
@[simp] theorem State.onTx_slots (s : State) (f : (List Tx) → (List Tx)) : (s.onTx f).slots = s.slots := rfl
@[simp] theorem State.onTx_eqs (s : State) (f : (List Tx) → (List Tx)) : (s.onTx f).eqs = s.eqs := rfl
@[simp] theorem State.onTx_recSeq (s : State) (f : (List Tx) → (List Tx)) : (s.onTx f).recSeq = s.recSeq := rfl
@[simp] theorem State.onTx_kcopies (s : State) (f : (List Tx) → (List Tx)) : (s.onTx f).kcopies = s.kcopies := rfl
@[simp] theorem State.onTx_ful (s : State) (f : (List Tx) → (List Tx)) : (s.onTx f).ful = s.ful := rfl
@[simp] theorem State.onTx_mills (s : State) (f : (List Tx) → (List Tx)) : (s.onTx f).mills = s.mills := rfl
@[simp] theorem State.onTx_ms (s : State) (f : (List Tx) → (List Tx)) : (s.onTx f).ms = s.ms := rfl
@[simp] theorem State.onTx_ft (s : State) (f : (List Tx) → (List Tx)) : (s.onTx f).ft = s.ft := rfl
@[simp] theorem State.onTx_kerb (s : State) (f : (List Tx) → (List Tx)) : (s.onTx f).kerb = s.kerb := rfl
@[simp] theorem State.onTx_mail (s : State) (f : (List Tx) → (List Tx)) : (s.onTx f).mail = s.mail := rfl
@[simp] theorem State.onTx_sec (s : State) (f : (List Tx) → (List Tx)) : (s.onTx f).sec = s.sec := rfl
@[simp] theorem State.onTx_cw (s : State) (f : (List Tx) → (List Tx)) : (s.onTx f).cw = s.cw := rfl
@[simp] theorem State.onTx_pm (s : State) (f : (List Tx) → (List Tx)) : (s.onTx f).pm = s.pm := rfl
@[simp] theorem State.onTx_rst (s : State) (f : (List Tx) → (List Tx)) : (s.onTx f).rst = s.rst := rfl
@[simp] theorem State.onTx_fns (s : State) (f : (List Tx) → (List Tx)) : (s.onTx f).fns = s.fns := rfl
@[simp] theorem State.onTx_vfEnable (s : State) (f : (List Tx) → (List Tx)) : (s.onTx f).vfEnable = s.vfEnable := rfl
@[simp] theorem State.onTx_numVfs (s : State) (f : (List Tx) → (List Tx)) : (s.onTx f).numVfs = s.numVfs := rfl
@[simp] theorem State.onTx_memCap (s : State) (f : (List Tx) → (List Tx)) : (s.onTx f).memCap = s.memCap := rfl
@[simp] theorem State.onTx_link (s : State) (f : (List Tx) → (List Tx)) : (s.onTx f).link = s.link := rfl
@[simp] theorem State.onTx_hostIn (s : State) (f : (List Tx) → (List Tx)) : (s.onTx f).hostIn = s.hostIn := rfl
@[simp] theorem State.onTx_linkUes (s : State) (f : (List Tx) → (List Tx)) : (s.onTx f).linkUes = s.linkUes := rfl
@[simp] theorem State.onTx_aux (s : State) (f : (List Tx) → (List Tx)) : (s.onTx f).aux = s.aux := rfl
@[simp] theorem State.onTx_errs (s : State) (f : (List Tx) → (List Tx)) : (s.onTx f).errs = s.errs := rfl
@[simp] theorem State.onTx_isoLog (s : State) (f : (List Tx) → (List Tx)) : (s.onTx f).isoLog = s.isoLog := rfl
@[simp] theorem State.onTx_wl1 (s : State) (f : (List Tx) → (List Tx)) : (s.onTx f).wl1 = s.wl1 := rfl
@[simp] theorem State.onTx_cardFenced (s : State) (f : (List Tx) → (List Tx)) : (s.onTx f).cardFenced = s.cardFenced := rfl
@[simp] theorem State.onTx_fulFenced (s : State) (f : (List Tx) → (List Tx)) : (s.onTx f).fulFenced = s.fulFenced := rfl
@[simp] theorem State.onTx_supply (s : State) (f : (List Tx) → (List Tx)) : (s.onTx f).supply = s.supply := rfl
@[simp] theorem State.onTx_pending (s : State) (f : (List Tx) → (List Tx)) : (s.onTx f).pending = s.pending := rfl

@[simp] theorem State.onRaw_raw (s : State) (f : Nat → Nat) : (s.onRaw f).raw = f s.raw := rfl
@[simp] theorem State.onRaw_regs (s : State) (f : Nat → Nat) : (s.onRaw f).regs = s.regs := rfl
@[simp] theorem State.onRaw_mem (s : State) (f : Nat → Nat) : (s.onRaw f).mem = s.mem := rfl
@[simp] theorem State.onRaw_free (s : State) (f : Nat → Nat) : (s.onRaw f).free = s.free := rfl
@[simp] theorem State.onRaw_tx (s : State) (f : Nat → Nat) : (s.onRaw f).tx = s.tx := rfl
@[simp] theorem State.onRaw_time (s : State) (f : Nat → Nat) : (s.onRaw f).time = s.time := rfl
@[simp] theorem State.onRaw_ports (s : State) (f : Nat → Nat) : (s.onRaw f).ports = s.ports := rfl
@[simp] theorem State.onRaw_hat (s : State) (f : Nat → Nat) : (s.onRaw f).hat = s.hat := rfl
@[simp] theorem State.onRaw_cards (s : State) (f : Nat → Nat) : (s.onRaw f).cards = s.cards := rfl
@[simp] theorem State.onRaw_slots (s : State) (f : Nat → Nat) : (s.onRaw f).slots = s.slots := rfl
@[simp] theorem State.onRaw_eqs (s : State) (f : Nat → Nat) : (s.onRaw f).eqs = s.eqs := rfl
@[simp] theorem State.onRaw_recSeq (s : State) (f : Nat → Nat) : (s.onRaw f).recSeq = s.recSeq := rfl
@[simp] theorem State.onRaw_kcopies (s : State) (f : Nat → Nat) : (s.onRaw f).kcopies = s.kcopies := rfl
@[simp] theorem State.onRaw_ful (s : State) (f : Nat → Nat) : (s.onRaw f).ful = s.ful := rfl
@[simp] theorem State.onRaw_mills (s : State) (f : Nat → Nat) : (s.onRaw f).mills = s.mills := rfl
@[simp] theorem State.onRaw_ms (s : State) (f : Nat → Nat) : (s.onRaw f).ms = s.ms := rfl
@[simp] theorem State.onRaw_ft (s : State) (f : Nat → Nat) : (s.onRaw f).ft = s.ft := rfl
@[simp] theorem State.onRaw_kerb (s : State) (f : Nat → Nat) : (s.onRaw f).kerb = s.kerb := rfl
@[simp] theorem State.onRaw_mail (s : State) (f : Nat → Nat) : (s.onRaw f).mail = s.mail := rfl
@[simp] theorem State.onRaw_sec (s : State) (f : Nat → Nat) : (s.onRaw f).sec = s.sec := rfl
@[simp] theorem State.onRaw_cw (s : State) (f : Nat → Nat) : (s.onRaw f).cw = s.cw := rfl
@[simp] theorem State.onRaw_pm (s : State) (f : Nat → Nat) : (s.onRaw f).pm = s.pm := rfl
@[simp] theorem State.onRaw_rst (s : State) (f : Nat → Nat) : (s.onRaw f).rst = s.rst := rfl
@[simp] theorem State.onRaw_fns (s : State) (f : Nat → Nat) : (s.onRaw f).fns = s.fns := rfl
@[simp] theorem State.onRaw_vfEnable (s : State) (f : Nat → Nat) : (s.onRaw f).vfEnable = s.vfEnable := rfl
@[simp] theorem State.onRaw_numVfs (s : State) (f : Nat → Nat) : (s.onRaw f).numVfs = s.numVfs := rfl
@[simp] theorem State.onRaw_memCap (s : State) (f : Nat → Nat) : (s.onRaw f).memCap = s.memCap := rfl
@[simp] theorem State.onRaw_link (s : State) (f : Nat → Nat) : (s.onRaw f).link = s.link := rfl
@[simp] theorem State.onRaw_hostIn (s : State) (f : Nat → Nat) : (s.onRaw f).hostIn = s.hostIn := rfl
@[simp] theorem State.onRaw_linkUes (s : State) (f : Nat → Nat) : (s.onRaw f).linkUes = s.linkUes := rfl
@[simp] theorem State.onRaw_aux (s : State) (f : Nat → Nat) : (s.onRaw f).aux = s.aux := rfl
@[simp] theorem State.onRaw_errs (s : State) (f : Nat → Nat) : (s.onRaw f).errs = s.errs := rfl
@[simp] theorem State.onRaw_isoLog (s : State) (f : Nat → Nat) : (s.onRaw f).isoLog = s.isoLog := rfl
@[simp] theorem State.onRaw_wl1 (s : State) (f : Nat → Nat) : (s.onRaw f).wl1 = s.wl1 := rfl
@[simp] theorem State.onRaw_cardFenced (s : State) (f : Nat → Nat) : (s.onRaw f).cardFenced = s.cardFenced := rfl
@[simp] theorem State.onRaw_fulFenced (s : State) (f : Nat → Nat) : (s.onRaw f).fulFenced = s.fulFenced := rfl
@[simp] theorem State.onRaw_supply (s : State) (f : Nat → Nat) : (s.onRaw f).supply = s.supply := rfl
@[simp] theorem State.onRaw_pending (s : State) (f : Nat → Nat) : (s.onRaw f).pending = s.pending := rfl

@[simp] theorem State.onTime_time (s : State) (f : TimeSt → TimeSt) : (s.onTime f).time = f s.time := rfl
@[simp] theorem State.onTime_regs (s : State) (f : TimeSt → TimeSt) : (s.onTime f).regs = s.regs := rfl
@[simp] theorem State.onTime_mem (s : State) (f : TimeSt → TimeSt) : (s.onTime f).mem = s.mem := rfl
@[simp] theorem State.onTime_free (s : State) (f : TimeSt → TimeSt) : (s.onTime f).free = s.free := rfl
@[simp] theorem State.onTime_tx (s : State) (f : TimeSt → TimeSt) : (s.onTime f).tx = s.tx := rfl
@[simp] theorem State.onTime_raw (s : State) (f : TimeSt → TimeSt) : (s.onTime f).raw = s.raw := rfl
@[simp] theorem State.onTime_ports (s : State) (f : TimeSt → TimeSt) : (s.onTime f).ports = s.ports := rfl
@[simp] theorem State.onTime_hat (s : State) (f : TimeSt → TimeSt) : (s.onTime f).hat = s.hat := rfl
@[simp] theorem State.onTime_cards (s : State) (f : TimeSt → TimeSt) : (s.onTime f).cards = s.cards := rfl
@[simp] theorem State.onTime_slots (s : State) (f : TimeSt → TimeSt) : (s.onTime f).slots = s.slots := rfl
@[simp] theorem State.onTime_eqs (s : State) (f : TimeSt → TimeSt) : (s.onTime f).eqs = s.eqs := rfl
@[simp] theorem State.onTime_recSeq (s : State) (f : TimeSt → TimeSt) : (s.onTime f).recSeq = s.recSeq := rfl
@[simp] theorem State.onTime_kcopies (s : State) (f : TimeSt → TimeSt) : (s.onTime f).kcopies = s.kcopies := rfl
@[simp] theorem State.onTime_ful (s : State) (f : TimeSt → TimeSt) : (s.onTime f).ful = s.ful := rfl
@[simp] theorem State.onTime_mills (s : State) (f : TimeSt → TimeSt) : (s.onTime f).mills = s.mills := rfl
@[simp] theorem State.onTime_ms (s : State) (f : TimeSt → TimeSt) : (s.onTime f).ms = s.ms := rfl
@[simp] theorem State.onTime_ft (s : State) (f : TimeSt → TimeSt) : (s.onTime f).ft = s.ft := rfl
@[simp] theorem State.onTime_kerb (s : State) (f : TimeSt → TimeSt) : (s.onTime f).kerb = s.kerb := rfl
@[simp] theorem State.onTime_mail (s : State) (f : TimeSt → TimeSt) : (s.onTime f).mail = s.mail := rfl
@[simp] theorem State.onTime_sec (s : State) (f : TimeSt → TimeSt) : (s.onTime f).sec = s.sec := rfl
@[simp] theorem State.onTime_cw (s : State) (f : TimeSt → TimeSt) : (s.onTime f).cw = s.cw := rfl
@[simp] theorem State.onTime_pm (s : State) (f : TimeSt → TimeSt) : (s.onTime f).pm = s.pm := rfl
@[simp] theorem State.onTime_rst (s : State) (f : TimeSt → TimeSt) : (s.onTime f).rst = s.rst := rfl
@[simp] theorem State.onTime_fns (s : State) (f : TimeSt → TimeSt) : (s.onTime f).fns = s.fns := rfl
@[simp] theorem State.onTime_vfEnable (s : State) (f : TimeSt → TimeSt) : (s.onTime f).vfEnable = s.vfEnable := rfl
@[simp] theorem State.onTime_numVfs (s : State) (f : TimeSt → TimeSt) : (s.onTime f).numVfs = s.numVfs := rfl
@[simp] theorem State.onTime_memCap (s : State) (f : TimeSt → TimeSt) : (s.onTime f).memCap = s.memCap := rfl
@[simp] theorem State.onTime_link (s : State) (f : TimeSt → TimeSt) : (s.onTime f).link = s.link := rfl
@[simp] theorem State.onTime_hostIn (s : State) (f : TimeSt → TimeSt) : (s.onTime f).hostIn = s.hostIn := rfl
@[simp] theorem State.onTime_linkUes (s : State) (f : TimeSt → TimeSt) : (s.onTime f).linkUes = s.linkUes := rfl
@[simp] theorem State.onTime_aux (s : State) (f : TimeSt → TimeSt) : (s.onTime f).aux = s.aux := rfl
@[simp] theorem State.onTime_errs (s : State) (f : TimeSt → TimeSt) : (s.onTime f).errs = s.errs := rfl
@[simp] theorem State.onTime_isoLog (s : State) (f : TimeSt → TimeSt) : (s.onTime f).isoLog = s.isoLog := rfl
@[simp] theorem State.onTime_wl1 (s : State) (f : TimeSt → TimeSt) : (s.onTime f).wl1 = s.wl1 := rfl
@[simp] theorem State.onTime_cardFenced (s : State) (f : TimeSt → TimeSt) : (s.onTime f).cardFenced = s.cardFenced := rfl
@[simp] theorem State.onTime_fulFenced (s : State) (f : TimeSt → TimeSt) : (s.onTime f).fulFenced = s.fulFenced := rfl
@[simp] theorem State.onTime_supply (s : State) (f : TimeSt → TimeSt) : (s.onTime f).supply = s.supply := rfl
@[simp] theorem State.onTime_pending (s : State) (f : TimeSt → TimeSt) : (s.onTime f).pending = s.pending := rfl

@[simp] theorem State.onPorts_ports (s : State) (f : (Table PortSt) → (Table PortSt)) : (s.onPorts f).ports = f s.ports := rfl
@[simp] theorem State.onPorts_regs (s : State) (f : (Table PortSt) → (Table PortSt)) : (s.onPorts f).regs = s.regs := rfl
@[simp] theorem State.onPorts_mem (s : State) (f : (Table PortSt) → (Table PortSt)) : (s.onPorts f).mem = s.mem := rfl
@[simp] theorem State.onPorts_free (s : State) (f : (Table PortSt) → (Table PortSt)) : (s.onPorts f).free = s.free := rfl
@[simp] theorem State.onPorts_tx (s : State) (f : (Table PortSt) → (Table PortSt)) : (s.onPorts f).tx = s.tx := rfl
@[simp] theorem State.onPorts_raw (s : State) (f : (Table PortSt) → (Table PortSt)) : (s.onPorts f).raw = s.raw := rfl
@[simp] theorem State.onPorts_time (s : State) (f : (Table PortSt) → (Table PortSt)) : (s.onPorts f).time = s.time := rfl
@[simp] theorem State.onPorts_hat (s : State) (f : (Table PortSt) → (Table PortSt)) : (s.onPorts f).hat = s.hat := rfl
@[simp] theorem State.onPorts_cards (s : State) (f : (Table PortSt) → (Table PortSt)) : (s.onPorts f).cards = s.cards := rfl
@[simp] theorem State.onPorts_slots (s : State) (f : (Table PortSt) → (Table PortSt)) : (s.onPorts f).slots = s.slots := rfl
@[simp] theorem State.onPorts_eqs (s : State) (f : (Table PortSt) → (Table PortSt)) : (s.onPorts f).eqs = s.eqs := rfl
@[simp] theorem State.onPorts_recSeq (s : State) (f : (Table PortSt) → (Table PortSt)) : (s.onPorts f).recSeq = s.recSeq := rfl
@[simp] theorem State.onPorts_kcopies (s : State) (f : (Table PortSt) → (Table PortSt)) : (s.onPorts f).kcopies = s.kcopies := rfl
@[simp] theorem State.onPorts_ful (s : State) (f : (Table PortSt) → (Table PortSt)) : (s.onPorts f).ful = s.ful := rfl
@[simp] theorem State.onPorts_mills (s : State) (f : (Table PortSt) → (Table PortSt)) : (s.onPorts f).mills = s.mills := rfl
@[simp] theorem State.onPorts_ms (s : State) (f : (Table PortSt) → (Table PortSt)) : (s.onPorts f).ms = s.ms := rfl
@[simp] theorem State.onPorts_ft (s : State) (f : (Table PortSt) → (Table PortSt)) : (s.onPorts f).ft = s.ft := rfl
@[simp] theorem State.onPorts_kerb (s : State) (f : (Table PortSt) → (Table PortSt)) : (s.onPorts f).kerb = s.kerb := rfl
@[simp] theorem State.onPorts_mail (s : State) (f : (Table PortSt) → (Table PortSt)) : (s.onPorts f).mail = s.mail := rfl
@[simp] theorem State.onPorts_sec (s : State) (f : (Table PortSt) → (Table PortSt)) : (s.onPorts f).sec = s.sec := rfl
@[simp] theorem State.onPorts_cw (s : State) (f : (Table PortSt) → (Table PortSt)) : (s.onPorts f).cw = s.cw := rfl
@[simp] theorem State.onPorts_pm (s : State) (f : (Table PortSt) → (Table PortSt)) : (s.onPorts f).pm = s.pm := rfl
@[simp] theorem State.onPorts_rst (s : State) (f : (Table PortSt) → (Table PortSt)) : (s.onPorts f).rst = s.rst := rfl
@[simp] theorem State.onPorts_fns (s : State) (f : (Table PortSt) → (Table PortSt)) : (s.onPorts f).fns = s.fns := rfl
@[simp] theorem State.onPorts_vfEnable (s : State) (f : (Table PortSt) → (Table PortSt)) : (s.onPorts f).vfEnable = s.vfEnable := rfl
@[simp] theorem State.onPorts_numVfs (s : State) (f : (Table PortSt) → (Table PortSt)) : (s.onPorts f).numVfs = s.numVfs := rfl
@[simp] theorem State.onPorts_memCap (s : State) (f : (Table PortSt) → (Table PortSt)) : (s.onPorts f).memCap = s.memCap := rfl
@[simp] theorem State.onPorts_link (s : State) (f : (Table PortSt) → (Table PortSt)) : (s.onPorts f).link = s.link := rfl
@[simp] theorem State.onPorts_hostIn (s : State) (f : (Table PortSt) → (Table PortSt)) : (s.onPorts f).hostIn = s.hostIn := rfl
@[simp] theorem State.onPorts_linkUes (s : State) (f : (Table PortSt) → (Table PortSt)) : (s.onPorts f).linkUes = s.linkUes := rfl
@[simp] theorem State.onPorts_aux (s : State) (f : (Table PortSt) → (Table PortSt)) : (s.onPorts f).aux = s.aux := rfl
@[simp] theorem State.onPorts_errs (s : State) (f : (Table PortSt) → (Table PortSt)) : (s.onPorts f).errs = s.errs := rfl
@[simp] theorem State.onPorts_isoLog (s : State) (f : (Table PortSt) → (Table PortSt)) : (s.onPorts f).isoLog = s.isoLog := rfl
@[simp] theorem State.onPorts_wl1 (s : State) (f : (Table PortSt) → (Table PortSt)) : (s.onPorts f).wl1 = s.wl1 := rfl
@[simp] theorem State.onPorts_cardFenced (s : State) (f : (Table PortSt) → (Table PortSt)) : (s.onPorts f).cardFenced = s.cardFenced := rfl
@[simp] theorem State.onPorts_fulFenced (s : State) (f : (Table PortSt) → (Table PortSt)) : (s.onPorts f).fulFenced = s.fulFenced := rfl
@[simp] theorem State.onPorts_supply (s : State) (f : (Table PortSt) → (Table PortSt)) : (s.onPorts f).supply = s.supply := rfl
@[simp] theorem State.onPorts_pending (s : State) (f : (Table PortSt) → (Table PortSt)) : (s.onPorts f).pending = s.pending := rfl

@[simp] theorem State.onHat_hat (s : State) (f : HatSt → HatSt) : (s.onHat f).hat = f s.hat := rfl
@[simp] theorem State.onHat_regs (s : State) (f : HatSt → HatSt) : (s.onHat f).regs = s.regs := rfl
@[simp] theorem State.onHat_mem (s : State) (f : HatSt → HatSt) : (s.onHat f).mem = s.mem := rfl
@[simp] theorem State.onHat_free (s : State) (f : HatSt → HatSt) : (s.onHat f).free = s.free := rfl
@[simp] theorem State.onHat_tx (s : State) (f : HatSt → HatSt) : (s.onHat f).tx = s.tx := rfl
@[simp] theorem State.onHat_raw (s : State) (f : HatSt → HatSt) : (s.onHat f).raw = s.raw := rfl
@[simp] theorem State.onHat_time (s : State) (f : HatSt → HatSt) : (s.onHat f).time = s.time := rfl
@[simp] theorem State.onHat_ports (s : State) (f : HatSt → HatSt) : (s.onHat f).ports = s.ports := rfl
@[simp] theorem State.onHat_cards (s : State) (f : HatSt → HatSt) : (s.onHat f).cards = s.cards := rfl
@[simp] theorem State.onHat_slots (s : State) (f : HatSt → HatSt) : (s.onHat f).slots = s.slots := rfl
@[simp] theorem State.onHat_eqs (s : State) (f : HatSt → HatSt) : (s.onHat f).eqs = s.eqs := rfl
@[simp] theorem State.onHat_recSeq (s : State) (f : HatSt → HatSt) : (s.onHat f).recSeq = s.recSeq := rfl
@[simp] theorem State.onHat_kcopies (s : State) (f : HatSt → HatSt) : (s.onHat f).kcopies = s.kcopies := rfl
@[simp] theorem State.onHat_ful (s : State) (f : HatSt → HatSt) : (s.onHat f).ful = s.ful := rfl
@[simp] theorem State.onHat_mills (s : State) (f : HatSt → HatSt) : (s.onHat f).mills = s.mills := rfl
@[simp] theorem State.onHat_ms (s : State) (f : HatSt → HatSt) : (s.onHat f).ms = s.ms := rfl
@[simp] theorem State.onHat_ft (s : State) (f : HatSt → HatSt) : (s.onHat f).ft = s.ft := rfl
@[simp] theorem State.onHat_kerb (s : State) (f : HatSt → HatSt) : (s.onHat f).kerb = s.kerb := rfl
@[simp] theorem State.onHat_mail (s : State) (f : HatSt → HatSt) : (s.onHat f).mail = s.mail := rfl
@[simp] theorem State.onHat_sec (s : State) (f : HatSt → HatSt) : (s.onHat f).sec = s.sec := rfl
@[simp] theorem State.onHat_cw (s : State) (f : HatSt → HatSt) : (s.onHat f).cw = s.cw := rfl
@[simp] theorem State.onHat_pm (s : State) (f : HatSt → HatSt) : (s.onHat f).pm = s.pm := rfl
@[simp] theorem State.onHat_rst (s : State) (f : HatSt → HatSt) : (s.onHat f).rst = s.rst := rfl
@[simp] theorem State.onHat_fns (s : State) (f : HatSt → HatSt) : (s.onHat f).fns = s.fns := rfl
@[simp] theorem State.onHat_vfEnable (s : State) (f : HatSt → HatSt) : (s.onHat f).vfEnable = s.vfEnable := rfl
@[simp] theorem State.onHat_numVfs (s : State) (f : HatSt → HatSt) : (s.onHat f).numVfs = s.numVfs := rfl
@[simp] theorem State.onHat_memCap (s : State) (f : HatSt → HatSt) : (s.onHat f).memCap = s.memCap := rfl
@[simp] theorem State.onHat_link (s : State) (f : HatSt → HatSt) : (s.onHat f).link = s.link := rfl
@[simp] theorem State.onHat_hostIn (s : State) (f : HatSt → HatSt) : (s.onHat f).hostIn = s.hostIn := rfl
@[simp] theorem State.onHat_linkUes (s : State) (f : HatSt → HatSt) : (s.onHat f).linkUes = s.linkUes := rfl
@[simp] theorem State.onHat_aux (s : State) (f : HatSt → HatSt) : (s.onHat f).aux = s.aux := rfl
@[simp] theorem State.onHat_errs (s : State) (f : HatSt → HatSt) : (s.onHat f).errs = s.errs := rfl
@[simp] theorem State.onHat_isoLog (s : State) (f : HatSt → HatSt) : (s.onHat f).isoLog = s.isoLog := rfl
@[simp] theorem State.onHat_wl1 (s : State) (f : HatSt → HatSt) : (s.onHat f).wl1 = s.wl1 := rfl
@[simp] theorem State.onHat_cardFenced (s : State) (f : HatSt → HatSt) : (s.onHat f).cardFenced = s.cardFenced := rfl
@[simp] theorem State.onHat_fulFenced (s : State) (f : HatSt → HatSt) : (s.onHat f).fulFenced = s.fulFenced := rfl
@[simp] theorem State.onHat_supply (s : State) (f : HatSt → HatSt) : (s.onHat f).supply = s.supply := rfl
@[simp] theorem State.onHat_pending (s : State) (f : HatSt → HatSt) : (s.onHat f).pending = s.pending := rfl

@[simp] theorem State.onCards_cards (s : State) (f : (Table CardSt) → (Table CardSt)) : (s.onCards f).cards = f s.cards := rfl
@[simp] theorem State.onCards_regs (s : State) (f : (Table CardSt) → (Table CardSt)) : (s.onCards f).regs = s.regs := rfl
@[simp] theorem State.onCards_mem (s : State) (f : (Table CardSt) → (Table CardSt)) : (s.onCards f).mem = s.mem := rfl
@[simp] theorem State.onCards_free (s : State) (f : (Table CardSt) → (Table CardSt)) : (s.onCards f).free = s.free := rfl
@[simp] theorem State.onCards_tx (s : State) (f : (Table CardSt) → (Table CardSt)) : (s.onCards f).tx = s.tx := rfl
@[simp] theorem State.onCards_raw (s : State) (f : (Table CardSt) → (Table CardSt)) : (s.onCards f).raw = s.raw := rfl
@[simp] theorem State.onCards_time (s : State) (f : (Table CardSt) → (Table CardSt)) : (s.onCards f).time = s.time := rfl
@[simp] theorem State.onCards_ports (s : State) (f : (Table CardSt) → (Table CardSt)) : (s.onCards f).ports = s.ports := rfl
@[simp] theorem State.onCards_hat (s : State) (f : (Table CardSt) → (Table CardSt)) : (s.onCards f).hat = s.hat := rfl
@[simp] theorem State.onCards_slots (s : State) (f : (Table CardSt) → (Table CardSt)) : (s.onCards f).slots = s.slots := rfl
@[simp] theorem State.onCards_eqs (s : State) (f : (Table CardSt) → (Table CardSt)) : (s.onCards f).eqs = s.eqs := rfl
@[simp] theorem State.onCards_recSeq (s : State) (f : (Table CardSt) → (Table CardSt)) : (s.onCards f).recSeq = s.recSeq := rfl
@[simp] theorem State.onCards_kcopies (s : State) (f : (Table CardSt) → (Table CardSt)) : (s.onCards f).kcopies = s.kcopies := rfl
@[simp] theorem State.onCards_ful (s : State) (f : (Table CardSt) → (Table CardSt)) : (s.onCards f).ful = s.ful := rfl
@[simp] theorem State.onCards_mills (s : State) (f : (Table CardSt) → (Table CardSt)) : (s.onCards f).mills = s.mills := rfl
@[simp] theorem State.onCards_ms (s : State) (f : (Table CardSt) → (Table CardSt)) : (s.onCards f).ms = s.ms := rfl
@[simp] theorem State.onCards_ft (s : State) (f : (Table CardSt) → (Table CardSt)) : (s.onCards f).ft = s.ft := rfl
@[simp] theorem State.onCards_kerb (s : State) (f : (Table CardSt) → (Table CardSt)) : (s.onCards f).kerb = s.kerb := rfl
@[simp] theorem State.onCards_mail (s : State) (f : (Table CardSt) → (Table CardSt)) : (s.onCards f).mail = s.mail := rfl
@[simp] theorem State.onCards_sec (s : State) (f : (Table CardSt) → (Table CardSt)) : (s.onCards f).sec = s.sec := rfl
@[simp] theorem State.onCards_cw (s : State) (f : (Table CardSt) → (Table CardSt)) : (s.onCards f).cw = s.cw := rfl
@[simp] theorem State.onCards_pm (s : State) (f : (Table CardSt) → (Table CardSt)) : (s.onCards f).pm = s.pm := rfl
@[simp] theorem State.onCards_rst (s : State) (f : (Table CardSt) → (Table CardSt)) : (s.onCards f).rst = s.rst := rfl
@[simp] theorem State.onCards_fns (s : State) (f : (Table CardSt) → (Table CardSt)) : (s.onCards f).fns = s.fns := rfl
@[simp] theorem State.onCards_vfEnable (s : State) (f : (Table CardSt) → (Table CardSt)) : (s.onCards f).vfEnable = s.vfEnable := rfl
@[simp] theorem State.onCards_numVfs (s : State) (f : (Table CardSt) → (Table CardSt)) : (s.onCards f).numVfs = s.numVfs := rfl
@[simp] theorem State.onCards_memCap (s : State) (f : (Table CardSt) → (Table CardSt)) : (s.onCards f).memCap = s.memCap := rfl
@[simp] theorem State.onCards_link (s : State) (f : (Table CardSt) → (Table CardSt)) : (s.onCards f).link = s.link := rfl
@[simp] theorem State.onCards_hostIn (s : State) (f : (Table CardSt) → (Table CardSt)) : (s.onCards f).hostIn = s.hostIn := rfl
@[simp] theorem State.onCards_linkUes (s : State) (f : (Table CardSt) → (Table CardSt)) : (s.onCards f).linkUes = s.linkUes := rfl
@[simp] theorem State.onCards_aux (s : State) (f : (Table CardSt) → (Table CardSt)) : (s.onCards f).aux = s.aux := rfl
@[simp] theorem State.onCards_errs (s : State) (f : (Table CardSt) → (Table CardSt)) : (s.onCards f).errs = s.errs := rfl
@[simp] theorem State.onCards_isoLog (s : State) (f : (Table CardSt) → (Table CardSt)) : (s.onCards f).isoLog = s.isoLog := rfl
@[simp] theorem State.onCards_wl1 (s : State) (f : (Table CardSt) → (Table CardSt)) : (s.onCards f).wl1 = s.wl1 := rfl
@[simp] theorem State.onCards_cardFenced (s : State) (f : (Table CardSt) → (Table CardSt)) : (s.onCards f).cardFenced = s.cardFenced := rfl
@[simp] theorem State.onCards_fulFenced (s : State) (f : (Table CardSt) → (Table CardSt)) : (s.onCards f).fulFenced = s.fulFenced := rfl
@[simp] theorem State.onCards_supply (s : State) (f : (Table CardSt) → (Table CardSt)) : (s.onCards f).supply = s.supply := rfl
@[simp] theorem State.onCards_pending (s : State) (f : (Table CardSt) → (Table CardSt)) : (s.onCards f).pending = s.pending := rfl

@[simp] theorem State.onSlots_slots (s : State) (f : (Table SlotSt) → (Table SlotSt)) : (s.onSlots f).slots = f s.slots := rfl
@[simp] theorem State.onSlots_regs (s : State) (f : (Table SlotSt) → (Table SlotSt)) : (s.onSlots f).regs = s.regs := rfl
@[simp] theorem State.onSlots_mem (s : State) (f : (Table SlotSt) → (Table SlotSt)) : (s.onSlots f).mem = s.mem := rfl
@[simp] theorem State.onSlots_free (s : State) (f : (Table SlotSt) → (Table SlotSt)) : (s.onSlots f).free = s.free := rfl
@[simp] theorem State.onSlots_tx (s : State) (f : (Table SlotSt) → (Table SlotSt)) : (s.onSlots f).tx = s.tx := rfl
@[simp] theorem State.onSlots_raw (s : State) (f : (Table SlotSt) → (Table SlotSt)) : (s.onSlots f).raw = s.raw := rfl
@[simp] theorem State.onSlots_time (s : State) (f : (Table SlotSt) → (Table SlotSt)) : (s.onSlots f).time = s.time := rfl
@[simp] theorem State.onSlots_ports (s : State) (f : (Table SlotSt) → (Table SlotSt)) : (s.onSlots f).ports = s.ports := rfl
@[simp] theorem State.onSlots_hat (s : State) (f : (Table SlotSt) → (Table SlotSt)) : (s.onSlots f).hat = s.hat := rfl
@[simp] theorem State.onSlots_cards (s : State) (f : (Table SlotSt) → (Table SlotSt)) : (s.onSlots f).cards = s.cards := rfl
@[simp] theorem State.onSlots_eqs (s : State) (f : (Table SlotSt) → (Table SlotSt)) : (s.onSlots f).eqs = s.eqs := rfl
@[simp] theorem State.onSlots_recSeq (s : State) (f : (Table SlotSt) → (Table SlotSt)) : (s.onSlots f).recSeq = s.recSeq := rfl
@[simp] theorem State.onSlots_kcopies (s : State) (f : (Table SlotSt) → (Table SlotSt)) : (s.onSlots f).kcopies = s.kcopies := rfl
@[simp] theorem State.onSlots_ful (s : State) (f : (Table SlotSt) → (Table SlotSt)) : (s.onSlots f).ful = s.ful := rfl
@[simp] theorem State.onSlots_mills (s : State) (f : (Table SlotSt) → (Table SlotSt)) : (s.onSlots f).mills = s.mills := rfl
@[simp] theorem State.onSlots_ms (s : State) (f : (Table SlotSt) → (Table SlotSt)) : (s.onSlots f).ms = s.ms := rfl
@[simp] theorem State.onSlots_ft (s : State) (f : (Table SlotSt) → (Table SlotSt)) : (s.onSlots f).ft = s.ft := rfl
@[simp] theorem State.onSlots_kerb (s : State) (f : (Table SlotSt) → (Table SlotSt)) : (s.onSlots f).kerb = s.kerb := rfl
@[simp] theorem State.onSlots_mail (s : State) (f : (Table SlotSt) → (Table SlotSt)) : (s.onSlots f).mail = s.mail := rfl
@[simp] theorem State.onSlots_sec (s : State) (f : (Table SlotSt) → (Table SlotSt)) : (s.onSlots f).sec = s.sec := rfl
@[simp] theorem State.onSlots_cw (s : State) (f : (Table SlotSt) → (Table SlotSt)) : (s.onSlots f).cw = s.cw := rfl
@[simp] theorem State.onSlots_pm (s : State) (f : (Table SlotSt) → (Table SlotSt)) : (s.onSlots f).pm = s.pm := rfl
@[simp] theorem State.onSlots_rst (s : State) (f : (Table SlotSt) → (Table SlotSt)) : (s.onSlots f).rst = s.rst := rfl
@[simp] theorem State.onSlots_fns (s : State) (f : (Table SlotSt) → (Table SlotSt)) : (s.onSlots f).fns = s.fns := rfl
@[simp] theorem State.onSlots_vfEnable (s : State) (f : (Table SlotSt) → (Table SlotSt)) : (s.onSlots f).vfEnable = s.vfEnable := rfl
@[simp] theorem State.onSlots_numVfs (s : State) (f : (Table SlotSt) → (Table SlotSt)) : (s.onSlots f).numVfs = s.numVfs := rfl
@[simp] theorem State.onSlots_memCap (s : State) (f : (Table SlotSt) → (Table SlotSt)) : (s.onSlots f).memCap = s.memCap := rfl
@[simp] theorem State.onSlots_link (s : State) (f : (Table SlotSt) → (Table SlotSt)) : (s.onSlots f).link = s.link := rfl
@[simp] theorem State.onSlots_hostIn (s : State) (f : (Table SlotSt) → (Table SlotSt)) : (s.onSlots f).hostIn = s.hostIn := rfl
@[simp] theorem State.onSlots_linkUes (s : State) (f : (Table SlotSt) → (Table SlotSt)) : (s.onSlots f).linkUes = s.linkUes := rfl
@[simp] theorem State.onSlots_aux (s : State) (f : (Table SlotSt) → (Table SlotSt)) : (s.onSlots f).aux = s.aux := rfl
@[simp] theorem State.onSlots_errs (s : State) (f : (Table SlotSt) → (Table SlotSt)) : (s.onSlots f).errs = s.errs := rfl
@[simp] theorem State.onSlots_isoLog (s : State) (f : (Table SlotSt) → (Table SlotSt)) : (s.onSlots f).isoLog = s.isoLog := rfl
@[simp] theorem State.onSlots_wl1 (s : State) (f : (Table SlotSt) → (Table SlotSt)) : (s.onSlots f).wl1 = s.wl1 := rfl
@[simp] theorem State.onSlots_cardFenced (s : State) (f : (Table SlotSt) → (Table SlotSt)) : (s.onSlots f).cardFenced = s.cardFenced := rfl
@[simp] theorem State.onSlots_fulFenced (s : State) (f : (Table SlotSt) → (Table SlotSt)) : (s.onSlots f).fulFenced = s.fulFenced := rfl
@[simp] theorem State.onSlots_supply (s : State) (f : (Table SlotSt) → (Table SlotSt)) : (s.onSlots f).supply = s.supply := rfl
@[simp] theorem State.onSlots_pending (s : State) (f : (Table SlotSt) → (Table SlotSt)) : (s.onSlots f).pending = s.pending := rfl

@[simp] theorem State.onEqs_eqs (s : State) (f : (Table EqSt) → (Table EqSt)) : (s.onEqs f).eqs = f s.eqs := rfl
@[simp] theorem State.onEqs_regs (s : State) (f : (Table EqSt) → (Table EqSt)) : (s.onEqs f).regs = s.regs := rfl
@[simp] theorem State.onEqs_mem (s : State) (f : (Table EqSt) → (Table EqSt)) : (s.onEqs f).mem = s.mem := rfl
@[simp] theorem State.onEqs_free (s : State) (f : (Table EqSt) → (Table EqSt)) : (s.onEqs f).free = s.free := rfl
@[simp] theorem State.onEqs_tx (s : State) (f : (Table EqSt) → (Table EqSt)) : (s.onEqs f).tx = s.tx := rfl
@[simp] theorem State.onEqs_raw (s : State) (f : (Table EqSt) → (Table EqSt)) : (s.onEqs f).raw = s.raw := rfl
@[simp] theorem State.onEqs_time (s : State) (f : (Table EqSt) → (Table EqSt)) : (s.onEqs f).time = s.time := rfl
@[simp] theorem State.onEqs_ports (s : State) (f : (Table EqSt) → (Table EqSt)) : (s.onEqs f).ports = s.ports := rfl
@[simp] theorem State.onEqs_hat (s : State) (f : (Table EqSt) → (Table EqSt)) : (s.onEqs f).hat = s.hat := rfl
@[simp] theorem State.onEqs_cards (s : State) (f : (Table EqSt) → (Table EqSt)) : (s.onEqs f).cards = s.cards := rfl
@[simp] theorem State.onEqs_slots (s : State) (f : (Table EqSt) → (Table EqSt)) : (s.onEqs f).slots = s.slots := rfl
@[simp] theorem State.onEqs_recSeq (s : State) (f : (Table EqSt) → (Table EqSt)) : (s.onEqs f).recSeq = s.recSeq := rfl
@[simp] theorem State.onEqs_kcopies (s : State) (f : (Table EqSt) → (Table EqSt)) : (s.onEqs f).kcopies = s.kcopies := rfl
@[simp] theorem State.onEqs_ful (s : State) (f : (Table EqSt) → (Table EqSt)) : (s.onEqs f).ful = s.ful := rfl
@[simp] theorem State.onEqs_mills (s : State) (f : (Table EqSt) → (Table EqSt)) : (s.onEqs f).mills = s.mills := rfl
@[simp] theorem State.onEqs_ms (s : State) (f : (Table EqSt) → (Table EqSt)) : (s.onEqs f).ms = s.ms := rfl
@[simp] theorem State.onEqs_ft (s : State) (f : (Table EqSt) → (Table EqSt)) : (s.onEqs f).ft = s.ft := rfl
@[simp] theorem State.onEqs_kerb (s : State) (f : (Table EqSt) → (Table EqSt)) : (s.onEqs f).kerb = s.kerb := rfl
@[simp] theorem State.onEqs_mail (s : State) (f : (Table EqSt) → (Table EqSt)) : (s.onEqs f).mail = s.mail := rfl
@[simp] theorem State.onEqs_sec (s : State) (f : (Table EqSt) → (Table EqSt)) : (s.onEqs f).sec = s.sec := rfl
@[simp] theorem State.onEqs_cw (s : State) (f : (Table EqSt) → (Table EqSt)) : (s.onEqs f).cw = s.cw := rfl
@[simp] theorem State.onEqs_pm (s : State) (f : (Table EqSt) → (Table EqSt)) : (s.onEqs f).pm = s.pm := rfl
@[simp] theorem State.onEqs_rst (s : State) (f : (Table EqSt) → (Table EqSt)) : (s.onEqs f).rst = s.rst := rfl
@[simp] theorem State.onEqs_fns (s : State) (f : (Table EqSt) → (Table EqSt)) : (s.onEqs f).fns = s.fns := rfl
@[simp] theorem State.onEqs_vfEnable (s : State) (f : (Table EqSt) → (Table EqSt)) : (s.onEqs f).vfEnable = s.vfEnable := rfl
@[simp] theorem State.onEqs_numVfs (s : State) (f : (Table EqSt) → (Table EqSt)) : (s.onEqs f).numVfs = s.numVfs := rfl
@[simp] theorem State.onEqs_memCap (s : State) (f : (Table EqSt) → (Table EqSt)) : (s.onEqs f).memCap = s.memCap := rfl
@[simp] theorem State.onEqs_link (s : State) (f : (Table EqSt) → (Table EqSt)) : (s.onEqs f).link = s.link := rfl
@[simp] theorem State.onEqs_hostIn (s : State) (f : (Table EqSt) → (Table EqSt)) : (s.onEqs f).hostIn = s.hostIn := rfl
@[simp] theorem State.onEqs_linkUes (s : State) (f : (Table EqSt) → (Table EqSt)) : (s.onEqs f).linkUes = s.linkUes := rfl
@[simp] theorem State.onEqs_aux (s : State) (f : (Table EqSt) → (Table EqSt)) : (s.onEqs f).aux = s.aux := rfl
@[simp] theorem State.onEqs_errs (s : State) (f : (Table EqSt) → (Table EqSt)) : (s.onEqs f).errs = s.errs := rfl
@[simp] theorem State.onEqs_isoLog (s : State) (f : (Table EqSt) → (Table EqSt)) : (s.onEqs f).isoLog = s.isoLog := rfl
@[simp] theorem State.onEqs_wl1 (s : State) (f : (Table EqSt) → (Table EqSt)) : (s.onEqs f).wl1 = s.wl1 := rfl
@[simp] theorem State.onEqs_cardFenced (s : State) (f : (Table EqSt) → (Table EqSt)) : (s.onEqs f).cardFenced = s.cardFenced := rfl
@[simp] theorem State.onEqs_fulFenced (s : State) (f : (Table EqSt) → (Table EqSt)) : (s.onEqs f).fulFenced = s.fulFenced := rfl
@[simp] theorem State.onEqs_supply (s : State) (f : (Table EqSt) → (Table EqSt)) : (s.onEqs f).supply = s.supply := rfl
@[simp] theorem State.onEqs_pending (s : State) (f : (Table EqSt) → (Table EqSt)) : (s.onEqs f).pending = s.pending := rfl

@[simp] theorem State.onRecSeq_recSeq (s : State) (f : Nat → Nat) : (s.onRecSeq f).recSeq = f s.recSeq := rfl
@[simp] theorem State.onRecSeq_regs (s : State) (f : Nat → Nat) : (s.onRecSeq f).regs = s.regs := rfl
@[simp] theorem State.onRecSeq_mem (s : State) (f : Nat → Nat) : (s.onRecSeq f).mem = s.mem := rfl
@[simp] theorem State.onRecSeq_free (s : State) (f : Nat → Nat) : (s.onRecSeq f).free = s.free := rfl
@[simp] theorem State.onRecSeq_tx (s : State) (f : Nat → Nat) : (s.onRecSeq f).tx = s.tx := rfl
@[simp] theorem State.onRecSeq_raw (s : State) (f : Nat → Nat) : (s.onRecSeq f).raw = s.raw := rfl
@[simp] theorem State.onRecSeq_time (s : State) (f : Nat → Nat) : (s.onRecSeq f).time = s.time := rfl
@[simp] theorem State.onRecSeq_ports (s : State) (f : Nat → Nat) : (s.onRecSeq f).ports = s.ports := rfl
@[simp] theorem State.onRecSeq_hat (s : State) (f : Nat → Nat) : (s.onRecSeq f).hat = s.hat := rfl
@[simp] theorem State.onRecSeq_cards (s : State) (f : Nat → Nat) : (s.onRecSeq f).cards = s.cards := rfl
@[simp] theorem State.onRecSeq_slots (s : State) (f : Nat → Nat) : (s.onRecSeq f).slots = s.slots := rfl
@[simp] theorem State.onRecSeq_eqs (s : State) (f : Nat → Nat) : (s.onRecSeq f).eqs = s.eqs := rfl
@[simp] theorem State.onRecSeq_kcopies (s : State) (f : Nat → Nat) : (s.onRecSeq f).kcopies = s.kcopies := rfl
@[simp] theorem State.onRecSeq_ful (s : State) (f : Nat → Nat) : (s.onRecSeq f).ful = s.ful := rfl
@[simp] theorem State.onRecSeq_mills (s : State) (f : Nat → Nat) : (s.onRecSeq f).mills = s.mills := rfl
@[simp] theorem State.onRecSeq_ms (s : State) (f : Nat → Nat) : (s.onRecSeq f).ms = s.ms := rfl
@[simp] theorem State.onRecSeq_ft (s : State) (f : Nat → Nat) : (s.onRecSeq f).ft = s.ft := rfl
@[simp] theorem State.onRecSeq_kerb (s : State) (f : Nat → Nat) : (s.onRecSeq f).kerb = s.kerb := rfl
@[simp] theorem State.onRecSeq_mail (s : State) (f : Nat → Nat) : (s.onRecSeq f).mail = s.mail := rfl
@[simp] theorem State.onRecSeq_sec (s : State) (f : Nat → Nat) : (s.onRecSeq f).sec = s.sec := rfl
@[simp] theorem State.onRecSeq_cw (s : State) (f : Nat → Nat) : (s.onRecSeq f).cw = s.cw := rfl
@[simp] theorem State.onRecSeq_pm (s : State) (f : Nat → Nat) : (s.onRecSeq f).pm = s.pm := rfl
@[simp] theorem State.onRecSeq_rst (s : State) (f : Nat → Nat) : (s.onRecSeq f).rst = s.rst := rfl
@[simp] theorem State.onRecSeq_fns (s : State) (f : Nat → Nat) : (s.onRecSeq f).fns = s.fns := rfl
@[simp] theorem State.onRecSeq_vfEnable (s : State) (f : Nat → Nat) : (s.onRecSeq f).vfEnable = s.vfEnable := rfl
@[simp] theorem State.onRecSeq_numVfs (s : State) (f : Nat → Nat) : (s.onRecSeq f).numVfs = s.numVfs := rfl
@[simp] theorem State.onRecSeq_memCap (s : State) (f : Nat → Nat) : (s.onRecSeq f).memCap = s.memCap := rfl
@[simp] theorem State.onRecSeq_link (s : State) (f : Nat → Nat) : (s.onRecSeq f).link = s.link := rfl
@[simp] theorem State.onRecSeq_hostIn (s : State) (f : Nat → Nat) : (s.onRecSeq f).hostIn = s.hostIn := rfl
@[simp] theorem State.onRecSeq_linkUes (s : State) (f : Nat → Nat) : (s.onRecSeq f).linkUes = s.linkUes := rfl
@[simp] theorem State.onRecSeq_aux (s : State) (f : Nat → Nat) : (s.onRecSeq f).aux = s.aux := rfl
@[simp] theorem State.onRecSeq_errs (s : State) (f : Nat → Nat) : (s.onRecSeq f).errs = s.errs := rfl
@[simp] theorem State.onRecSeq_isoLog (s : State) (f : Nat → Nat) : (s.onRecSeq f).isoLog = s.isoLog := rfl
@[simp] theorem State.onRecSeq_wl1 (s : State) (f : Nat → Nat) : (s.onRecSeq f).wl1 = s.wl1 := rfl
@[simp] theorem State.onRecSeq_cardFenced (s : State) (f : Nat → Nat) : (s.onRecSeq f).cardFenced = s.cardFenced := rfl
@[simp] theorem State.onRecSeq_fulFenced (s : State) (f : Nat → Nat) : (s.onRecSeq f).fulFenced = s.fulFenced := rfl
@[simp] theorem State.onRecSeq_supply (s : State) (f : Nat → Nat) : (s.onRecSeq f).supply = s.supply := rfl
@[simp] theorem State.onRecSeq_pending (s : State) (f : Nat → Nat) : (s.onRecSeq f).pending = s.pending := rfl

@[simp] theorem State.onKcopies_kcopies (s : State) (f : (Table (List KCopy)) → (Table (List KCopy))) : (s.onKcopies f).kcopies = f s.kcopies := rfl
@[simp] theorem State.onKcopies_regs (s : State) (f : (Table (List KCopy)) → (Table (List KCopy))) : (s.onKcopies f).regs = s.regs := rfl
@[simp] theorem State.onKcopies_mem (s : State) (f : (Table (List KCopy)) → (Table (List KCopy))) : (s.onKcopies f).mem = s.mem := rfl
@[simp] theorem State.onKcopies_free (s : State) (f : (Table (List KCopy)) → (Table (List KCopy))) : (s.onKcopies f).free = s.free := rfl
@[simp] theorem State.onKcopies_tx (s : State) (f : (Table (List KCopy)) → (Table (List KCopy))) : (s.onKcopies f).tx = s.tx := rfl
@[simp] theorem State.onKcopies_raw (s : State) (f : (Table (List KCopy)) → (Table (List KCopy))) : (s.onKcopies f).raw = s.raw := rfl
@[simp] theorem State.onKcopies_time (s : State) (f : (Table (List KCopy)) → (Table (List KCopy))) : (s.onKcopies f).time = s.time := rfl
@[simp] theorem State.onKcopies_ports (s : State) (f : (Table (List KCopy)) → (Table (List KCopy))) : (s.onKcopies f).ports = s.ports := rfl
@[simp] theorem State.onKcopies_hat (s : State) (f : (Table (List KCopy)) → (Table (List KCopy))) : (s.onKcopies f).hat = s.hat := rfl
@[simp] theorem State.onKcopies_cards (s : State) (f : (Table (List KCopy)) → (Table (List KCopy))) : (s.onKcopies f).cards = s.cards := rfl
@[simp] theorem State.onKcopies_slots (s : State) (f : (Table (List KCopy)) → (Table (List KCopy))) : (s.onKcopies f).slots = s.slots := rfl
@[simp] theorem State.onKcopies_eqs (s : State) (f : (Table (List KCopy)) → (Table (List KCopy))) : (s.onKcopies f).eqs = s.eqs := rfl
@[simp] theorem State.onKcopies_recSeq (s : State) (f : (Table (List KCopy)) → (Table (List KCopy))) : (s.onKcopies f).recSeq = s.recSeq := rfl
@[simp] theorem State.onKcopies_ful (s : State) (f : (Table (List KCopy)) → (Table (List KCopy))) : (s.onKcopies f).ful = s.ful := rfl
@[simp] theorem State.onKcopies_mills (s : State) (f : (Table (List KCopy)) → (Table (List KCopy))) : (s.onKcopies f).mills = s.mills := rfl
@[simp] theorem State.onKcopies_ms (s : State) (f : (Table (List KCopy)) → (Table (List KCopy))) : (s.onKcopies f).ms = s.ms := rfl
@[simp] theorem State.onKcopies_ft (s : State) (f : (Table (List KCopy)) → (Table (List KCopy))) : (s.onKcopies f).ft = s.ft := rfl
@[simp] theorem State.onKcopies_kerb (s : State) (f : (Table (List KCopy)) → (Table (List KCopy))) : (s.onKcopies f).kerb = s.kerb := rfl
@[simp] theorem State.onKcopies_mail (s : State) (f : (Table (List KCopy)) → (Table (List KCopy))) : (s.onKcopies f).mail = s.mail := rfl
@[simp] theorem State.onKcopies_sec (s : State) (f : (Table (List KCopy)) → (Table (List KCopy))) : (s.onKcopies f).sec = s.sec := rfl
@[simp] theorem State.onKcopies_cw (s : State) (f : (Table (List KCopy)) → (Table (List KCopy))) : (s.onKcopies f).cw = s.cw := rfl
@[simp] theorem State.onKcopies_pm (s : State) (f : (Table (List KCopy)) → (Table (List KCopy))) : (s.onKcopies f).pm = s.pm := rfl
@[simp] theorem State.onKcopies_rst (s : State) (f : (Table (List KCopy)) → (Table (List KCopy))) : (s.onKcopies f).rst = s.rst := rfl
@[simp] theorem State.onKcopies_fns (s : State) (f : (Table (List KCopy)) → (Table (List KCopy))) : (s.onKcopies f).fns = s.fns := rfl
@[simp] theorem State.onKcopies_vfEnable (s : State) (f : (Table (List KCopy)) → (Table (List KCopy))) : (s.onKcopies f).vfEnable = s.vfEnable := rfl
@[simp] theorem State.onKcopies_numVfs (s : State) (f : (Table (List KCopy)) → (Table (List KCopy))) : (s.onKcopies f).numVfs = s.numVfs := rfl
@[simp] theorem State.onKcopies_memCap (s : State) (f : (Table (List KCopy)) → (Table (List KCopy))) : (s.onKcopies f).memCap = s.memCap := rfl
@[simp] theorem State.onKcopies_link (s : State) (f : (Table (List KCopy)) → (Table (List KCopy))) : (s.onKcopies f).link = s.link := rfl
@[simp] theorem State.onKcopies_hostIn (s : State) (f : (Table (List KCopy)) → (Table (List KCopy))) : (s.onKcopies f).hostIn = s.hostIn := rfl
@[simp] theorem State.onKcopies_linkUes (s : State) (f : (Table (List KCopy)) → (Table (List KCopy))) : (s.onKcopies f).linkUes = s.linkUes := rfl
@[simp] theorem State.onKcopies_aux (s : State) (f : (Table (List KCopy)) → (Table (List KCopy))) : (s.onKcopies f).aux = s.aux := rfl
@[simp] theorem State.onKcopies_errs (s : State) (f : (Table (List KCopy)) → (Table (List KCopy))) : (s.onKcopies f).errs = s.errs := rfl
@[simp] theorem State.onKcopies_isoLog (s : State) (f : (Table (List KCopy)) → (Table (List KCopy))) : (s.onKcopies f).isoLog = s.isoLog := rfl
@[simp] theorem State.onKcopies_wl1 (s : State) (f : (Table (List KCopy)) → (Table (List KCopy))) : (s.onKcopies f).wl1 = s.wl1 := rfl
@[simp] theorem State.onKcopies_cardFenced (s : State) (f : (Table (List KCopy)) → (Table (List KCopy))) : (s.onKcopies f).cardFenced = s.cardFenced := rfl
@[simp] theorem State.onKcopies_fulFenced (s : State) (f : (Table (List KCopy)) → (Table (List KCopy))) : (s.onKcopies f).fulFenced = s.fulFenced := rfl
@[simp] theorem State.onKcopies_supply (s : State) (f : (Table (List KCopy)) → (Table (List KCopy))) : (s.onKcopies f).supply = s.supply := rfl
@[simp] theorem State.onKcopies_pending (s : State) (f : (Table (List KCopy)) → (Table (List KCopy))) : (s.onKcopies f).pending = s.pending := rfl

@[simp] theorem State.onFul_ful (s : State) (f : FulSt → FulSt) : (s.onFul f).ful = f s.ful := rfl
@[simp] theorem State.onFul_regs (s : State) (f : FulSt → FulSt) : (s.onFul f).regs = s.regs := rfl
@[simp] theorem State.onFul_mem (s : State) (f : FulSt → FulSt) : (s.onFul f).mem = s.mem := rfl
@[simp] theorem State.onFul_free (s : State) (f : FulSt → FulSt) : (s.onFul f).free = s.free := rfl
@[simp] theorem State.onFul_tx (s : State) (f : FulSt → FulSt) : (s.onFul f).tx = s.tx := rfl
@[simp] theorem State.onFul_raw (s : State) (f : FulSt → FulSt) : (s.onFul f).raw = s.raw := rfl
@[simp] theorem State.onFul_time (s : State) (f : FulSt → FulSt) : (s.onFul f).time = s.time := rfl
@[simp] theorem State.onFul_ports (s : State) (f : FulSt → FulSt) : (s.onFul f).ports = s.ports := rfl
@[simp] theorem State.onFul_hat (s : State) (f : FulSt → FulSt) : (s.onFul f).hat = s.hat := rfl
@[simp] theorem State.onFul_cards (s : State) (f : FulSt → FulSt) : (s.onFul f).cards = s.cards := rfl
@[simp] theorem State.onFul_slots (s : State) (f : FulSt → FulSt) : (s.onFul f).slots = s.slots := rfl
@[simp] theorem State.onFul_eqs (s : State) (f : FulSt → FulSt) : (s.onFul f).eqs = s.eqs := rfl
@[simp] theorem State.onFul_recSeq (s : State) (f : FulSt → FulSt) : (s.onFul f).recSeq = s.recSeq := rfl
@[simp] theorem State.onFul_kcopies (s : State) (f : FulSt → FulSt) : (s.onFul f).kcopies = s.kcopies := rfl
@[simp] theorem State.onFul_mills (s : State) (f : FulSt → FulSt) : (s.onFul f).mills = s.mills := rfl
@[simp] theorem State.onFul_ms (s : State) (f : FulSt → FulSt) : (s.onFul f).ms = s.ms := rfl
@[simp] theorem State.onFul_ft (s : State) (f : FulSt → FulSt) : (s.onFul f).ft = s.ft := rfl
@[simp] theorem State.onFul_kerb (s : State) (f : FulSt → FulSt) : (s.onFul f).kerb = s.kerb := rfl
@[simp] theorem State.onFul_mail (s : State) (f : FulSt → FulSt) : (s.onFul f).mail = s.mail := rfl
@[simp] theorem State.onFul_sec (s : State) (f : FulSt → FulSt) : (s.onFul f).sec = s.sec := rfl
@[simp] theorem State.onFul_cw (s : State) (f : FulSt → FulSt) : (s.onFul f).cw = s.cw := rfl
@[simp] theorem State.onFul_pm (s : State) (f : FulSt → FulSt) : (s.onFul f).pm = s.pm := rfl
@[simp] theorem State.onFul_rst (s : State) (f : FulSt → FulSt) : (s.onFul f).rst = s.rst := rfl
@[simp] theorem State.onFul_fns (s : State) (f : FulSt → FulSt) : (s.onFul f).fns = s.fns := rfl
@[simp] theorem State.onFul_vfEnable (s : State) (f : FulSt → FulSt) : (s.onFul f).vfEnable = s.vfEnable := rfl
@[simp] theorem State.onFul_numVfs (s : State) (f : FulSt → FulSt) : (s.onFul f).numVfs = s.numVfs := rfl
@[simp] theorem State.onFul_memCap (s : State) (f : FulSt → FulSt) : (s.onFul f).memCap = s.memCap := rfl
@[simp] theorem State.onFul_link (s : State) (f : FulSt → FulSt) : (s.onFul f).link = s.link := rfl
@[simp] theorem State.onFul_hostIn (s : State) (f : FulSt → FulSt) : (s.onFul f).hostIn = s.hostIn := rfl
@[simp] theorem State.onFul_linkUes (s : State) (f : FulSt → FulSt) : (s.onFul f).linkUes = s.linkUes := rfl
@[simp] theorem State.onFul_aux (s : State) (f : FulSt → FulSt) : (s.onFul f).aux = s.aux := rfl
@[simp] theorem State.onFul_errs (s : State) (f : FulSt → FulSt) : (s.onFul f).errs = s.errs := rfl
@[simp] theorem State.onFul_isoLog (s : State) (f : FulSt → FulSt) : (s.onFul f).isoLog = s.isoLog := rfl
@[simp] theorem State.onFul_wl1 (s : State) (f : FulSt → FulSt) : (s.onFul f).wl1 = s.wl1 := rfl
@[simp] theorem State.onFul_cardFenced (s : State) (f : FulSt → FulSt) : (s.onFul f).cardFenced = s.cardFenced := rfl
@[simp] theorem State.onFul_fulFenced (s : State) (f : FulSt → FulSt) : (s.onFul f).fulFenced = s.fulFenced := rfl
@[simp] theorem State.onFul_supply (s : State) (f : FulSt → FulSt) : (s.onFul f).supply = s.supply := rfl
@[simp] theorem State.onFul_pending (s : State) (f : FulSt → FulSt) : (s.onFul f).pending = s.pending := rfl

@[simp] theorem State.onMills_mills (s : State) (f : (Table MillSt) → (Table MillSt)) : (s.onMills f).mills = f s.mills := rfl
@[simp] theorem State.onMills_regs (s : State) (f : (Table MillSt) → (Table MillSt)) : (s.onMills f).regs = s.regs := rfl
@[simp] theorem State.onMills_mem (s : State) (f : (Table MillSt) → (Table MillSt)) : (s.onMills f).mem = s.mem := rfl
@[simp] theorem State.onMills_free (s : State) (f : (Table MillSt) → (Table MillSt)) : (s.onMills f).free = s.free := rfl
@[simp] theorem State.onMills_tx (s : State) (f : (Table MillSt) → (Table MillSt)) : (s.onMills f).tx = s.tx := rfl
@[simp] theorem State.onMills_raw (s : State) (f : (Table MillSt) → (Table MillSt)) : (s.onMills f).raw = s.raw := rfl
@[simp] theorem State.onMills_time (s : State) (f : (Table MillSt) → (Table MillSt)) : (s.onMills f).time = s.time := rfl
@[simp] theorem State.onMills_ports (s : State) (f : (Table MillSt) → (Table MillSt)) : (s.onMills f).ports = s.ports := rfl
@[simp] theorem State.onMills_hat (s : State) (f : (Table MillSt) → (Table MillSt)) : (s.onMills f).hat = s.hat := rfl
@[simp] theorem State.onMills_cards (s : State) (f : (Table MillSt) → (Table MillSt)) : (s.onMills f).cards = s.cards := rfl
@[simp] theorem State.onMills_slots (s : State) (f : (Table MillSt) → (Table MillSt)) : (s.onMills f).slots = s.slots := rfl
@[simp] theorem State.onMills_eqs (s : State) (f : (Table MillSt) → (Table MillSt)) : (s.onMills f).eqs = s.eqs := rfl
@[simp] theorem State.onMills_recSeq (s : State) (f : (Table MillSt) → (Table MillSt)) : (s.onMills f).recSeq = s.recSeq := rfl
@[simp] theorem State.onMills_kcopies (s : State) (f : (Table MillSt) → (Table MillSt)) : (s.onMills f).kcopies = s.kcopies := rfl
@[simp] theorem State.onMills_ful (s : State) (f : (Table MillSt) → (Table MillSt)) : (s.onMills f).ful = s.ful := rfl
@[simp] theorem State.onMills_ms (s : State) (f : (Table MillSt) → (Table MillSt)) : (s.onMills f).ms = s.ms := rfl
@[simp] theorem State.onMills_ft (s : State) (f : (Table MillSt) → (Table MillSt)) : (s.onMills f).ft = s.ft := rfl
@[simp] theorem State.onMills_kerb (s : State) (f : (Table MillSt) → (Table MillSt)) : (s.onMills f).kerb = s.kerb := rfl
@[simp] theorem State.onMills_mail (s : State) (f : (Table MillSt) → (Table MillSt)) : (s.onMills f).mail = s.mail := rfl
@[simp] theorem State.onMills_sec (s : State) (f : (Table MillSt) → (Table MillSt)) : (s.onMills f).sec = s.sec := rfl
@[simp] theorem State.onMills_cw (s : State) (f : (Table MillSt) → (Table MillSt)) : (s.onMills f).cw = s.cw := rfl
@[simp] theorem State.onMills_pm (s : State) (f : (Table MillSt) → (Table MillSt)) : (s.onMills f).pm = s.pm := rfl
@[simp] theorem State.onMills_rst (s : State) (f : (Table MillSt) → (Table MillSt)) : (s.onMills f).rst = s.rst := rfl
@[simp] theorem State.onMills_fns (s : State) (f : (Table MillSt) → (Table MillSt)) : (s.onMills f).fns = s.fns := rfl
@[simp] theorem State.onMills_vfEnable (s : State) (f : (Table MillSt) → (Table MillSt)) : (s.onMills f).vfEnable = s.vfEnable := rfl
@[simp] theorem State.onMills_numVfs (s : State) (f : (Table MillSt) → (Table MillSt)) : (s.onMills f).numVfs = s.numVfs := rfl
@[simp] theorem State.onMills_memCap (s : State) (f : (Table MillSt) → (Table MillSt)) : (s.onMills f).memCap = s.memCap := rfl
@[simp] theorem State.onMills_link (s : State) (f : (Table MillSt) → (Table MillSt)) : (s.onMills f).link = s.link := rfl
@[simp] theorem State.onMills_hostIn (s : State) (f : (Table MillSt) → (Table MillSt)) : (s.onMills f).hostIn = s.hostIn := rfl
@[simp] theorem State.onMills_linkUes (s : State) (f : (Table MillSt) → (Table MillSt)) : (s.onMills f).linkUes = s.linkUes := rfl
@[simp] theorem State.onMills_aux (s : State) (f : (Table MillSt) → (Table MillSt)) : (s.onMills f).aux = s.aux := rfl
@[simp] theorem State.onMills_errs (s : State) (f : (Table MillSt) → (Table MillSt)) : (s.onMills f).errs = s.errs := rfl
@[simp] theorem State.onMills_isoLog (s : State) (f : (Table MillSt) → (Table MillSt)) : (s.onMills f).isoLog = s.isoLog := rfl
@[simp] theorem State.onMills_wl1 (s : State) (f : (Table MillSt) → (Table MillSt)) : (s.onMills f).wl1 = s.wl1 := rfl
@[simp] theorem State.onMills_cardFenced (s : State) (f : (Table MillSt) → (Table MillSt)) : (s.onMills f).cardFenced = s.cardFenced := rfl
@[simp] theorem State.onMills_fulFenced (s : State) (f : (Table MillSt) → (Table MillSt)) : (s.onMills f).fulFenced = s.fulFenced := rfl
@[simp] theorem State.onMills_supply (s : State) (f : (Table MillSt) → (Table MillSt)) : (s.onMills f).supply = s.supply := rfl
@[simp] theorem State.onMills_pending (s : State) (f : (Table MillSt) → (Table MillSt)) : (s.onMills f).pending = s.pending := rfl

@[simp] theorem State.onMs_ms (s : State) (f : MsSt → MsSt) : (s.onMs f).ms = f s.ms := rfl
@[simp] theorem State.onMs_regs (s : State) (f : MsSt → MsSt) : (s.onMs f).regs = s.regs := rfl
@[simp] theorem State.onMs_mem (s : State) (f : MsSt → MsSt) : (s.onMs f).mem = s.mem := rfl
@[simp] theorem State.onMs_free (s : State) (f : MsSt → MsSt) : (s.onMs f).free = s.free := rfl
@[simp] theorem State.onMs_tx (s : State) (f : MsSt → MsSt) : (s.onMs f).tx = s.tx := rfl
@[simp] theorem State.onMs_raw (s : State) (f : MsSt → MsSt) : (s.onMs f).raw = s.raw := rfl
@[simp] theorem State.onMs_time (s : State) (f : MsSt → MsSt) : (s.onMs f).time = s.time := rfl
@[simp] theorem State.onMs_ports (s : State) (f : MsSt → MsSt) : (s.onMs f).ports = s.ports := rfl
@[simp] theorem State.onMs_hat (s : State) (f : MsSt → MsSt) : (s.onMs f).hat = s.hat := rfl
@[simp] theorem State.onMs_cards (s : State) (f : MsSt → MsSt) : (s.onMs f).cards = s.cards := rfl
@[simp] theorem State.onMs_slots (s : State) (f : MsSt → MsSt) : (s.onMs f).slots = s.slots := rfl
@[simp] theorem State.onMs_eqs (s : State) (f : MsSt → MsSt) : (s.onMs f).eqs = s.eqs := rfl
@[simp] theorem State.onMs_recSeq (s : State) (f : MsSt → MsSt) : (s.onMs f).recSeq = s.recSeq := rfl
@[simp] theorem State.onMs_kcopies (s : State) (f : MsSt → MsSt) : (s.onMs f).kcopies = s.kcopies := rfl
@[simp] theorem State.onMs_ful (s : State) (f : MsSt → MsSt) : (s.onMs f).ful = s.ful := rfl
@[simp] theorem State.onMs_mills (s : State) (f : MsSt → MsSt) : (s.onMs f).mills = s.mills := rfl
@[simp] theorem State.onMs_ft (s : State) (f : MsSt → MsSt) : (s.onMs f).ft = s.ft := rfl
@[simp] theorem State.onMs_kerb (s : State) (f : MsSt → MsSt) : (s.onMs f).kerb = s.kerb := rfl
@[simp] theorem State.onMs_mail (s : State) (f : MsSt → MsSt) : (s.onMs f).mail = s.mail := rfl
@[simp] theorem State.onMs_sec (s : State) (f : MsSt → MsSt) : (s.onMs f).sec = s.sec := rfl
@[simp] theorem State.onMs_cw (s : State) (f : MsSt → MsSt) : (s.onMs f).cw = s.cw := rfl
@[simp] theorem State.onMs_pm (s : State) (f : MsSt → MsSt) : (s.onMs f).pm = s.pm := rfl
@[simp] theorem State.onMs_rst (s : State) (f : MsSt → MsSt) : (s.onMs f).rst = s.rst := rfl
@[simp] theorem State.onMs_fns (s : State) (f : MsSt → MsSt) : (s.onMs f).fns = s.fns := rfl
@[simp] theorem State.onMs_vfEnable (s : State) (f : MsSt → MsSt) : (s.onMs f).vfEnable = s.vfEnable := rfl
@[simp] theorem State.onMs_numVfs (s : State) (f : MsSt → MsSt) : (s.onMs f).numVfs = s.numVfs := rfl
@[simp] theorem State.onMs_memCap (s : State) (f : MsSt → MsSt) : (s.onMs f).memCap = s.memCap := rfl
@[simp] theorem State.onMs_link (s : State) (f : MsSt → MsSt) : (s.onMs f).link = s.link := rfl
@[simp] theorem State.onMs_hostIn (s : State) (f : MsSt → MsSt) : (s.onMs f).hostIn = s.hostIn := rfl
@[simp] theorem State.onMs_linkUes (s : State) (f : MsSt → MsSt) : (s.onMs f).linkUes = s.linkUes := rfl
@[simp] theorem State.onMs_aux (s : State) (f : MsSt → MsSt) : (s.onMs f).aux = s.aux := rfl
@[simp] theorem State.onMs_errs (s : State) (f : MsSt → MsSt) : (s.onMs f).errs = s.errs := rfl
@[simp] theorem State.onMs_isoLog (s : State) (f : MsSt → MsSt) : (s.onMs f).isoLog = s.isoLog := rfl
@[simp] theorem State.onMs_wl1 (s : State) (f : MsSt → MsSt) : (s.onMs f).wl1 = s.wl1 := rfl
@[simp] theorem State.onMs_cardFenced (s : State) (f : MsSt → MsSt) : (s.onMs f).cardFenced = s.cardFenced := rfl
@[simp] theorem State.onMs_fulFenced (s : State) (f : MsSt → MsSt) : (s.onMs f).fulFenced = s.fulFenced := rfl
@[simp] theorem State.onMs_supply (s : State) (f : MsSt → MsSt) : (s.onMs f).supply = s.supply := rfl
@[simp] theorem State.onMs_pending (s : State) (f : MsSt → MsSt) : (s.onMs f).pending = s.pending := rfl

@[simp] theorem State.onFt_ft (s : State) (f : FtSt → FtSt) : (s.onFt f).ft = f s.ft := rfl
@[simp] theorem State.onFt_regs (s : State) (f : FtSt → FtSt) : (s.onFt f).regs = s.regs := rfl
@[simp] theorem State.onFt_mem (s : State) (f : FtSt → FtSt) : (s.onFt f).mem = s.mem := rfl
@[simp] theorem State.onFt_free (s : State) (f : FtSt → FtSt) : (s.onFt f).free = s.free := rfl
@[simp] theorem State.onFt_tx (s : State) (f : FtSt → FtSt) : (s.onFt f).tx = s.tx := rfl
@[simp] theorem State.onFt_raw (s : State) (f : FtSt → FtSt) : (s.onFt f).raw = s.raw := rfl
@[simp] theorem State.onFt_time (s : State) (f : FtSt → FtSt) : (s.onFt f).time = s.time := rfl
@[simp] theorem State.onFt_ports (s : State) (f : FtSt → FtSt) : (s.onFt f).ports = s.ports := rfl
@[simp] theorem State.onFt_hat (s : State) (f : FtSt → FtSt) : (s.onFt f).hat = s.hat := rfl
@[simp] theorem State.onFt_cards (s : State) (f : FtSt → FtSt) : (s.onFt f).cards = s.cards := rfl
@[simp] theorem State.onFt_slots (s : State) (f : FtSt → FtSt) : (s.onFt f).slots = s.slots := rfl
@[simp] theorem State.onFt_eqs (s : State) (f : FtSt → FtSt) : (s.onFt f).eqs = s.eqs := rfl
@[simp] theorem State.onFt_recSeq (s : State) (f : FtSt → FtSt) : (s.onFt f).recSeq = s.recSeq := rfl
@[simp] theorem State.onFt_kcopies (s : State) (f : FtSt → FtSt) : (s.onFt f).kcopies = s.kcopies := rfl
@[simp] theorem State.onFt_ful (s : State) (f : FtSt → FtSt) : (s.onFt f).ful = s.ful := rfl
@[simp] theorem State.onFt_mills (s : State) (f : FtSt → FtSt) : (s.onFt f).mills = s.mills := rfl
@[simp] theorem State.onFt_ms (s : State) (f : FtSt → FtSt) : (s.onFt f).ms = s.ms := rfl
@[simp] theorem State.onFt_kerb (s : State) (f : FtSt → FtSt) : (s.onFt f).kerb = s.kerb := rfl
@[simp] theorem State.onFt_mail (s : State) (f : FtSt → FtSt) : (s.onFt f).mail = s.mail := rfl
@[simp] theorem State.onFt_sec (s : State) (f : FtSt → FtSt) : (s.onFt f).sec = s.sec := rfl
@[simp] theorem State.onFt_cw (s : State) (f : FtSt → FtSt) : (s.onFt f).cw = s.cw := rfl
@[simp] theorem State.onFt_pm (s : State) (f : FtSt → FtSt) : (s.onFt f).pm = s.pm := rfl
@[simp] theorem State.onFt_rst (s : State) (f : FtSt → FtSt) : (s.onFt f).rst = s.rst := rfl
@[simp] theorem State.onFt_fns (s : State) (f : FtSt → FtSt) : (s.onFt f).fns = s.fns := rfl
@[simp] theorem State.onFt_vfEnable (s : State) (f : FtSt → FtSt) : (s.onFt f).vfEnable = s.vfEnable := rfl
@[simp] theorem State.onFt_numVfs (s : State) (f : FtSt → FtSt) : (s.onFt f).numVfs = s.numVfs := rfl
@[simp] theorem State.onFt_memCap (s : State) (f : FtSt → FtSt) : (s.onFt f).memCap = s.memCap := rfl
@[simp] theorem State.onFt_link (s : State) (f : FtSt → FtSt) : (s.onFt f).link = s.link := rfl
@[simp] theorem State.onFt_hostIn (s : State) (f : FtSt → FtSt) : (s.onFt f).hostIn = s.hostIn := rfl
@[simp] theorem State.onFt_linkUes (s : State) (f : FtSt → FtSt) : (s.onFt f).linkUes = s.linkUes := rfl
@[simp] theorem State.onFt_aux (s : State) (f : FtSt → FtSt) : (s.onFt f).aux = s.aux := rfl
@[simp] theorem State.onFt_errs (s : State) (f : FtSt → FtSt) : (s.onFt f).errs = s.errs := rfl
@[simp] theorem State.onFt_isoLog (s : State) (f : FtSt → FtSt) : (s.onFt f).isoLog = s.isoLog := rfl
@[simp] theorem State.onFt_wl1 (s : State) (f : FtSt → FtSt) : (s.onFt f).wl1 = s.wl1 := rfl
@[simp] theorem State.onFt_cardFenced (s : State) (f : FtSt → FtSt) : (s.onFt f).cardFenced = s.cardFenced := rfl
@[simp] theorem State.onFt_fulFenced (s : State) (f : FtSt → FtSt) : (s.onFt f).fulFenced = s.fulFenced := rfl
@[simp] theorem State.onFt_supply (s : State) (f : FtSt → FtSt) : (s.onFt f).supply = s.supply := rfl
@[simp] theorem State.onFt_pending (s : State) (f : FtSt → FtSt) : (s.onFt f).pending = s.pending := rfl

@[simp] theorem State.onKerb_kerb (s : State) (f : KerbSt → KerbSt) : (s.onKerb f).kerb = f s.kerb := rfl
@[simp] theorem State.onKerb_regs (s : State) (f : KerbSt → KerbSt) : (s.onKerb f).regs = s.regs := rfl
@[simp] theorem State.onKerb_mem (s : State) (f : KerbSt → KerbSt) : (s.onKerb f).mem = s.mem := rfl
@[simp] theorem State.onKerb_free (s : State) (f : KerbSt → KerbSt) : (s.onKerb f).free = s.free := rfl
@[simp] theorem State.onKerb_tx (s : State) (f : KerbSt → KerbSt) : (s.onKerb f).tx = s.tx := rfl
@[simp] theorem State.onKerb_raw (s : State) (f : KerbSt → KerbSt) : (s.onKerb f).raw = s.raw := rfl
@[simp] theorem State.onKerb_time (s : State) (f : KerbSt → KerbSt) : (s.onKerb f).time = s.time := rfl
@[simp] theorem State.onKerb_ports (s : State) (f : KerbSt → KerbSt) : (s.onKerb f).ports = s.ports := rfl
@[simp] theorem State.onKerb_hat (s : State) (f : KerbSt → KerbSt) : (s.onKerb f).hat = s.hat := rfl
@[simp] theorem State.onKerb_cards (s : State) (f : KerbSt → KerbSt) : (s.onKerb f).cards = s.cards := rfl
@[simp] theorem State.onKerb_slots (s : State) (f : KerbSt → KerbSt) : (s.onKerb f).slots = s.slots := rfl
@[simp] theorem State.onKerb_eqs (s : State) (f : KerbSt → KerbSt) : (s.onKerb f).eqs = s.eqs := rfl
@[simp] theorem State.onKerb_recSeq (s : State) (f : KerbSt → KerbSt) : (s.onKerb f).recSeq = s.recSeq := rfl
@[simp] theorem State.onKerb_kcopies (s : State) (f : KerbSt → KerbSt) : (s.onKerb f).kcopies = s.kcopies := rfl
@[simp] theorem State.onKerb_ful (s : State) (f : KerbSt → KerbSt) : (s.onKerb f).ful = s.ful := rfl
@[simp] theorem State.onKerb_mills (s : State) (f : KerbSt → KerbSt) : (s.onKerb f).mills = s.mills := rfl
@[simp] theorem State.onKerb_ms (s : State) (f : KerbSt → KerbSt) : (s.onKerb f).ms = s.ms := rfl
@[simp] theorem State.onKerb_ft (s : State) (f : KerbSt → KerbSt) : (s.onKerb f).ft = s.ft := rfl
@[simp] theorem State.onKerb_mail (s : State) (f : KerbSt → KerbSt) : (s.onKerb f).mail = s.mail := rfl
@[simp] theorem State.onKerb_sec (s : State) (f : KerbSt → KerbSt) : (s.onKerb f).sec = s.sec := rfl
@[simp] theorem State.onKerb_cw (s : State) (f : KerbSt → KerbSt) : (s.onKerb f).cw = s.cw := rfl
@[simp] theorem State.onKerb_pm (s : State) (f : KerbSt → KerbSt) : (s.onKerb f).pm = s.pm := rfl
@[simp] theorem State.onKerb_rst (s : State) (f : KerbSt → KerbSt) : (s.onKerb f).rst = s.rst := rfl
@[simp] theorem State.onKerb_fns (s : State) (f : KerbSt → KerbSt) : (s.onKerb f).fns = s.fns := rfl
@[simp] theorem State.onKerb_vfEnable (s : State) (f : KerbSt → KerbSt) : (s.onKerb f).vfEnable = s.vfEnable := rfl
@[simp] theorem State.onKerb_numVfs (s : State) (f : KerbSt → KerbSt) : (s.onKerb f).numVfs = s.numVfs := rfl
@[simp] theorem State.onKerb_memCap (s : State) (f : KerbSt → KerbSt) : (s.onKerb f).memCap = s.memCap := rfl
@[simp] theorem State.onKerb_link (s : State) (f : KerbSt → KerbSt) : (s.onKerb f).link = s.link := rfl
@[simp] theorem State.onKerb_hostIn (s : State) (f : KerbSt → KerbSt) : (s.onKerb f).hostIn = s.hostIn := rfl
@[simp] theorem State.onKerb_linkUes (s : State) (f : KerbSt → KerbSt) : (s.onKerb f).linkUes = s.linkUes := rfl
@[simp] theorem State.onKerb_aux (s : State) (f : KerbSt → KerbSt) : (s.onKerb f).aux = s.aux := rfl
@[simp] theorem State.onKerb_errs (s : State) (f : KerbSt → KerbSt) : (s.onKerb f).errs = s.errs := rfl
@[simp] theorem State.onKerb_isoLog (s : State) (f : KerbSt → KerbSt) : (s.onKerb f).isoLog = s.isoLog := rfl
@[simp] theorem State.onKerb_wl1 (s : State) (f : KerbSt → KerbSt) : (s.onKerb f).wl1 = s.wl1 := rfl
@[simp] theorem State.onKerb_cardFenced (s : State) (f : KerbSt → KerbSt) : (s.onKerb f).cardFenced = s.cardFenced := rfl
@[simp] theorem State.onKerb_fulFenced (s : State) (f : KerbSt → KerbSt) : (s.onKerb f).fulFenced = s.fulFenced := rfl
@[simp] theorem State.onKerb_supply (s : State) (f : KerbSt → KerbSt) : (s.onKerb f).supply = s.supply := rfl
@[simp] theorem State.onKerb_pending (s : State) (f : KerbSt → KerbSt) : (s.onKerb f).pending = s.pending := rfl

@[simp] theorem State.onMail_mail (s : State) (f : MailSt → MailSt) : (s.onMail f).mail = f s.mail := rfl
@[simp] theorem State.onMail_regs (s : State) (f : MailSt → MailSt) : (s.onMail f).regs = s.regs := rfl
@[simp] theorem State.onMail_mem (s : State) (f : MailSt → MailSt) : (s.onMail f).mem = s.mem := rfl
@[simp] theorem State.onMail_free (s : State) (f : MailSt → MailSt) : (s.onMail f).free = s.free := rfl
@[simp] theorem State.onMail_tx (s : State) (f : MailSt → MailSt) : (s.onMail f).tx = s.tx := rfl
@[simp] theorem State.onMail_raw (s : State) (f : MailSt → MailSt) : (s.onMail f).raw = s.raw := rfl
@[simp] theorem State.onMail_time (s : State) (f : MailSt → MailSt) : (s.onMail f).time = s.time := rfl
@[simp] theorem State.onMail_ports (s : State) (f : MailSt → MailSt) : (s.onMail f).ports = s.ports := rfl
@[simp] theorem State.onMail_hat (s : State) (f : MailSt → MailSt) : (s.onMail f).hat = s.hat := rfl
@[simp] theorem State.onMail_cards (s : State) (f : MailSt → MailSt) : (s.onMail f).cards = s.cards := rfl
@[simp] theorem State.onMail_slots (s : State) (f : MailSt → MailSt) : (s.onMail f).slots = s.slots := rfl
@[simp] theorem State.onMail_eqs (s : State) (f : MailSt → MailSt) : (s.onMail f).eqs = s.eqs := rfl
@[simp] theorem State.onMail_recSeq (s : State) (f : MailSt → MailSt) : (s.onMail f).recSeq = s.recSeq := rfl
@[simp] theorem State.onMail_kcopies (s : State) (f : MailSt → MailSt) : (s.onMail f).kcopies = s.kcopies := rfl
@[simp] theorem State.onMail_ful (s : State) (f : MailSt → MailSt) : (s.onMail f).ful = s.ful := rfl
@[simp] theorem State.onMail_mills (s : State) (f : MailSt → MailSt) : (s.onMail f).mills = s.mills := rfl
@[simp] theorem State.onMail_ms (s : State) (f : MailSt → MailSt) : (s.onMail f).ms = s.ms := rfl
@[simp] theorem State.onMail_ft (s : State) (f : MailSt → MailSt) : (s.onMail f).ft = s.ft := rfl
@[simp] theorem State.onMail_kerb (s : State) (f : MailSt → MailSt) : (s.onMail f).kerb = s.kerb := rfl
@[simp] theorem State.onMail_sec (s : State) (f : MailSt → MailSt) : (s.onMail f).sec = s.sec := rfl
@[simp] theorem State.onMail_cw (s : State) (f : MailSt → MailSt) : (s.onMail f).cw = s.cw := rfl
@[simp] theorem State.onMail_pm (s : State) (f : MailSt → MailSt) : (s.onMail f).pm = s.pm := rfl
@[simp] theorem State.onMail_rst (s : State) (f : MailSt → MailSt) : (s.onMail f).rst = s.rst := rfl
@[simp] theorem State.onMail_fns (s : State) (f : MailSt → MailSt) : (s.onMail f).fns = s.fns := rfl
@[simp] theorem State.onMail_vfEnable (s : State) (f : MailSt → MailSt) : (s.onMail f).vfEnable = s.vfEnable := rfl
@[simp] theorem State.onMail_numVfs (s : State) (f : MailSt → MailSt) : (s.onMail f).numVfs = s.numVfs := rfl
@[simp] theorem State.onMail_memCap (s : State) (f : MailSt → MailSt) : (s.onMail f).memCap = s.memCap := rfl
@[simp] theorem State.onMail_link (s : State) (f : MailSt → MailSt) : (s.onMail f).link = s.link := rfl
@[simp] theorem State.onMail_hostIn (s : State) (f : MailSt → MailSt) : (s.onMail f).hostIn = s.hostIn := rfl
@[simp] theorem State.onMail_linkUes (s : State) (f : MailSt → MailSt) : (s.onMail f).linkUes = s.linkUes := rfl
@[simp] theorem State.onMail_aux (s : State) (f : MailSt → MailSt) : (s.onMail f).aux = s.aux := rfl
@[simp] theorem State.onMail_errs (s : State) (f : MailSt → MailSt) : (s.onMail f).errs = s.errs := rfl
@[simp] theorem State.onMail_isoLog (s : State) (f : MailSt → MailSt) : (s.onMail f).isoLog = s.isoLog := rfl
@[simp] theorem State.onMail_wl1 (s : State) (f : MailSt → MailSt) : (s.onMail f).wl1 = s.wl1 := rfl
@[simp] theorem State.onMail_cardFenced (s : State) (f : MailSt → MailSt) : (s.onMail f).cardFenced = s.cardFenced := rfl
@[simp] theorem State.onMail_fulFenced (s : State) (f : MailSt → MailSt) : (s.onMail f).fulFenced = s.fulFenced := rfl
@[simp] theorem State.onMail_supply (s : State) (f : MailSt → MailSt) : (s.onMail f).supply = s.supply := rfl
@[simp] theorem State.onMail_pending (s : State) (f : MailSt → MailSt) : (s.onMail f).pending = s.pending := rfl

@[simp] theorem State.onSec_sec (s : State) (f : SecSt → SecSt) : (s.onSec f).sec = f s.sec := rfl
@[simp] theorem State.onSec_regs (s : State) (f : SecSt → SecSt) : (s.onSec f).regs = s.regs := rfl
@[simp] theorem State.onSec_mem (s : State) (f : SecSt → SecSt) : (s.onSec f).mem = s.mem := rfl
@[simp] theorem State.onSec_free (s : State) (f : SecSt → SecSt) : (s.onSec f).free = s.free := rfl
@[simp] theorem State.onSec_tx (s : State) (f : SecSt → SecSt) : (s.onSec f).tx = s.tx := rfl
@[simp] theorem State.onSec_raw (s : State) (f : SecSt → SecSt) : (s.onSec f).raw = s.raw := rfl
@[simp] theorem State.onSec_time (s : State) (f : SecSt → SecSt) : (s.onSec f).time = s.time := rfl
@[simp] theorem State.onSec_ports (s : State) (f : SecSt → SecSt) : (s.onSec f).ports = s.ports := rfl
@[simp] theorem State.onSec_hat (s : State) (f : SecSt → SecSt) : (s.onSec f).hat = s.hat := rfl
@[simp] theorem State.onSec_cards (s : State) (f : SecSt → SecSt) : (s.onSec f).cards = s.cards := rfl
@[simp] theorem State.onSec_slots (s : State) (f : SecSt → SecSt) : (s.onSec f).slots = s.slots := rfl
@[simp] theorem State.onSec_eqs (s : State) (f : SecSt → SecSt) : (s.onSec f).eqs = s.eqs := rfl
@[simp] theorem State.onSec_recSeq (s : State) (f : SecSt → SecSt) : (s.onSec f).recSeq = s.recSeq := rfl
@[simp] theorem State.onSec_kcopies (s : State) (f : SecSt → SecSt) : (s.onSec f).kcopies = s.kcopies := rfl
@[simp] theorem State.onSec_ful (s : State) (f : SecSt → SecSt) : (s.onSec f).ful = s.ful := rfl
@[simp] theorem State.onSec_mills (s : State) (f : SecSt → SecSt) : (s.onSec f).mills = s.mills := rfl
@[simp] theorem State.onSec_ms (s : State) (f : SecSt → SecSt) : (s.onSec f).ms = s.ms := rfl
@[simp] theorem State.onSec_ft (s : State) (f : SecSt → SecSt) : (s.onSec f).ft = s.ft := rfl
@[simp] theorem State.onSec_kerb (s : State) (f : SecSt → SecSt) : (s.onSec f).kerb = s.kerb := rfl
@[simp] theorem State.onSec_mail (s : State) (f : SecSt → SecSt) : (s.onSec f).mail = s.mail := rfl
@[simp] theorem State.onSec_cw (s : State) (f : SecSt → SecSt) : (s.onSec f).cw = s.cw := rfl
@[simp] theorem State.onSec_pm (s : State) (f : SecSt → SecSt) : (s.onSec f).pm = s.pm := rfl
@[simp] theorem State.onSec_rst (s : State) (f : SecSt → SecSt) : (s.onSec f).rst = s.rst := rfl
@[simp] theorem State.onSec_fns (s : State) (f : SecSt → SecSt) : (s.onSec f).fns = s.fns := rfl
@[simp] theorem State.onSec_vfEnable (s : State) (f : SecSt → SecSt) : (s.onSec f).vfEnable = s.vfEnable := rfl
@[simp] theorem State.onSec_numVfs (s : State) (f : SecSt → SecSt) : (s.onSec f).numVfs = s.numVfs := rfl
@[simp] theorem State.onSec_memCap (s : State) (f : SecSt → SecSt) : (s.onSec f).memCap = s.memCap := rfl
@[simp] theorem State.onSec_link (s : State) (f : SecSt → SecSt) : (s.onSec f).link = s.link := rfl
@[simp] theorem State.onSec_hostIn (s : State) (f : SecSt → SecSt) : (s.onSec f).hostIn = s.hostIn := rfl
@[simp] theorem State.onSec_linkUes (s : State) (f : SecSt → SecSt) : (s.onSec f).linkUes = s.linkUes := rfl
@[simp] theorem State.onSec_aux (s : State) (f : SecSt → SecSt) : (s.onSec f).aux = s.aux := rfl
@[simp] theorem State.onSec_errs (s : State) (f : SecSt → SecSt) : (s.onSec f).errs = s.errs := rfl
@[simp] theorem State.onSec_isoLog (s : State) (f : SecSt → SecSt) : (s.onSec f).isoLog = s.isoLog := rfl
@[simp] theorem State.onSec_wl1 (s : State) (f : SecSt → SecSt) : (s.onSec f).wl1 = s.wl1 := rfl
@[simp] theorem State.onSec_cardFenced (s : State) (f : SecSt → SecSt) : (s.onSec f).cardFenced = s.cardFenced := rfl
@[simp] theorem State.onSec_fulFenced (s : State) (f : SecSt → SecSt) : (s.onSec f).fulFenced = s.fulFenced := rfl
@[simp] theorem State.onSec_supply (s : State) (f : SecSt → SecSt) : (s.onSec f).supply = s.supply := rfl
@[simp] theorem State.onSec_pending (s : State) (f : SecSt → SecSt) : (s.onSec f).pending = s.pending := rfl

@[simp] theorem State.onCw_cw (s : State) (f : CwSt → CwSt) : (s.onCw f).cw = f s.cw := rfl
@[simp] theorem State.onCw_regs (s : State) (f : CwSt → CwSt) : (s.onCw f).regs = s.regs := rfl
@[simp] theorem State.onCw_mem (s : State) (f : CwSt → CwSt) : (s.onCw f).mem = s.mem := rfl
@[simp] theorem State.onCw_free (s : State) (f : CwSt → CwSt) : (s.onCw f).free = s.free := rfl
@[simp] theorem State.onCw_tx (s : State) (f : CwSt → CwSt) : (s.onCw f).tx = s.tx := rfl
@[simp] theorem State.onCw_raw (s : State) (f : CwSt → CwSt) : (s.onCw f).raw = s.raw := rfl
@[simp] theorem State.onCw_time (s : State) (f : CwSt → CwSt) : (s.onCw f).time = s.time := rfl
@[simp] theorem State.onCw_ports (s : State) (f : CwSt → CwSt) : (s.onCw f).ports = s.ports := rfl
@[simp] theorem State.onCw_hat (s : State) (f : CwSt → CwSt) : (s.onCw f).hat = s.hat := rfl
@[simp] theorem State.onCw_cards (s : State) (f : CwSt → CwSt) : (s.onCw f).cards = s.cards := rfl
@[simp] theorem State.onCw_slots (s : State) (f : CwSt → CwSt) : (s.onCw f).slots = s.slots := rfl
@[simp] theorem State.onCw_eqs (s : State) (f : CwSt → CwSt) : (s.onCw f).eqs = s.eqs := rfl
@[simp] theorem State.onCw_recSeq (s : State) (f : CwSt → CwSt) : (s.onCw f).recSeq = s.recSeq := rfl
@[simp] theorem State.onCw_kcopies (s : State) (f : CwSt → CwSt) : (s.onCw f).kcopies = s.kcopies := rfl
@[simp] theorem State.onCw_ful (s : State) (f : CwSt → CwSt) : (s.onCw f).ful = s.ful := rfl
@[simp] theorem State.onCw_mills (s : State) (f : CwSt → CwSt) : (s.onCw f).mills = s.mills := rfl
@[simp] theorem State.onCw_ms (s : State) (f : CwSt → CwSt) : (s.onCw f).ms = s.ms := rfl
@[simp] theorem State.onCw_ft (s : State) (f : CwSt → CwSt) : (s.onCw f).ft = s.ft := rfl
@[simp] theorem State.onCw_kerb (s : State) (f : CwSt → CwSt) : (s.onCw f).kerb = s.kerb := rfl
@[simp] theorem State.onCw_mail (s : State) (f : CwSt → CwSt) : (s.onCw f).mail = s.mail := rfl
@[simp] theorem State.onCw_sec (s : State) (f : CwSt → CwSt) : (s.onCw f).sec = s.sec := rfl
@[simp] theorem State.onCw_pm (s : State) (f : CwSt → CwSt) : (s.onCw f).pm = s.pm := rfl
@[simp] theorem State.onCw_rst (s : State) (f : CwSt → CwSt) : (s.onCw f).rst = s.rst := rfl
@[simp] theorem State.onCw_fns (s : State) (f : CwSt → CwSt) : (s.onCw f).fns = s.fns := rfl
@[simp] theorem State.onCw_vfEnable (s : State) (f : CwSt → CwSt) : (s.onCw f).vfEnable = s.vfEnable := rfl
@[simp] theorem State.onCw_numVfs (s : State) (f : CwSt → CwSt) : (s.onCw f).numVfs = s.numVfs := rfl
@[simp] theorem State.onCw_memCap (s : State) (f : CwSt → CwSt) : (s.onCw f).memCap = s.memCap := rfl
@[simp] theorem State.onCw_link (s : State) (f : CwSt → CwSt) : (s.onCw f).link = s.link := rfl
@[simp] theorem State.onCw_hostIn (s : State) (f : CwSt → CwSt) : (s.onCw f).hostIn = s.hostIn := rfl
@[simp] theorem State.onCw_linkUes (s : State) (f : CwSt → CwSt) : (s.onCw f).linkUes = s.linkUes := rfl
@[simp] theorem State.onCw_aux (s : State) (f : CwSt → CwSt) : (s.onCw f).aux = s.aux := rfl
@[simp] theorem State.onCw_errs (s : State) (f : CwSt → CwSt) : (s.onCw f).errs = s.errs := rfl
@[simp] theorem State.onCw_isoLog (s : State) (f : CwSt → CwSt) : (s.onCw f).isoLog = s.isoLog := rfl
@[simp] theorem State.onCw_wl1 (s : State) (f : CwSt → CwSt) : (s.onCw f).wl1 = s.wl1 := rfl
@[simp] theorem State.onCw_cardFenced (s : State) (f : CwSt → CwSt) : (s.onCw f).cardFenced = s.cardFenced := rfl
@[simp] theorem State.onCw_fulFenced (s : State) (f : CwSt → CwSt) : (s.onCw f).fulFenced = s.fulFenced := rfl
@[simp] theorem State.onCw_supply (s : State) (f : CwSt → CwSt) : (s.onCw f).supply = s.supply := rfl
@[simp] theorem State.onCw_pending (s : State) (f : CwSt → CwSt) : (s.onCw f).pending = s.pending := rfl

@[simp] theorem State.onPm_pm (s : State) (f : PmSt → PmSt) : (s.onPm f).pm = f s.pm := rfl
@[simp] theorem State.onPm_regs (s : State) (f : PmSt → PmSt) : (s.onPm f).regs = s.regs := rfl
@[simp] theorem State.onPm_mem (s : State) (f : PmSt → PmSt) : (s.onPm f).mem = s.mem := rfl
@[simp] theorem State.onPm_free (s : State) (f : PmSt → PmSt) : (s.onPm f).free = s.free := rfl
@[simp] theorem State.onPm_tx (s : State) (f : PmSt → PmSt) : (s.onPm f).tx = s.tx := rfl
@[simp] theorem State.onPm_raw (s : State) (f : PmSt → PmSt) : (s.onPm f).raw = s.raw := rfl
@[simp] theorem State.onPm_time (s : State) (f : PmSt → PmSt) : (s.onPm f).time = s.time := rfl
@[simp] theorem State.onPm_ports (s : State) (f : PmSt → PmSt) : (s.onPm f).ports = s.ports := rfl
@[simp] theorem State.onPm_hat (s : State) (f : PmSt → PmSt) : (s.onPm f).hat = s.hat := rfl
@[simp] theorem State.onPm_cards (s : State) (f : PmSt → PmSt) : (s.onPm f).cards = s.cards := rfl
@[simp] theorem State.onPm_slots (s : State) (f : PmSt → PmSt) : (s.onPm f).slots = s.slots := rfl
@[simp] theorem State.onPm_eqs (s : State) (f : PmSt → PmSt) : (s.onPm f).eqs = s.eqs := rfl
@[simp] theorem State.onPm_recSeq (s : State) (f : PmSt → PmSt) : (s.onPm f).recSeq = s.recSeq := rfl
@[simp] theorem State.onPm_kcopies (s : State) (f : PmSt → PmSt) : (s.onPm f).kcopies = s.kcopies := rfl
@[simp] theorem State.onPm_ful (s : State) (f : PmSt → PmSt) : (s.onPm f).ful = s.ful := rfl
@[simp] theorem State.onPm_mills (s : State) (f : PmSt → PmSt) : (s.onPm f).mills = s.mills := rfl
@[simp] theorem State.onPm_ms (s : State) (f : PmSt → PmSt) : (s.onPm f).ms = s.ms := rfl
@[simp] theorem State.onPm_ft (s : State) (f : PmSt → PmSt) : (s.onPm f).ft = s.ft := rfl
@[simp] theorem State.onPm_kerb (s : State) (f : PmSt → PmSt) : (s.onPm f).kerb = s.kerb := rfl
@[simp] theorem State.onPm_mail (s : State) (f : PmSt → PmSt) : (s.onPm f).mail = s.mail := rfl
@[simp] theorem State.onPm_sec (s : State) (f : PmSt → PmSt) : (s.onPm f).sec = s.sec := rfl
@[simp] theorem State.onPm_cw (s : State) (f : PmSt → PmSt) : (s.onPm f).cw = s.cw := rfl
@[simp] theorem State.onPm_rst (s : State) (f : PmSt → PmSt) : (s.onPm f).rst = s.rst := rfl
@[simp] theorem State.onPm_fns (s : State) (f : PmSt → PmSt) : (s.onPm f).fns = s.fns := rfl
@[simp] theorem State.onPm_vfEnable (s : State) (f : PmSt → PmSt) : (s.onPm f).vfEnable = s.vfEnable := rfl
@[simp] theorem State.onPm_numVfs (s : State) (f : PmSt → PmSt) : (s.onPm f).numVfs = s.numVfs := rfl
@[simp] theorem State.onPm_memCap (s : State) (f : PmSt → PmSt) : (s.onPm f).memCap = s.memCap := rfl
@[simp] theorem State.onPm_link (s : State) (f : PmSt → PmSt) : (s.onPm f).link = s.link := rfl
@[simp] theorem State.onPm_hostIn (s : State) (f : PmSt → PmSt) : (s.onPm f).hostIn = s.hostIn := rfl
@[simp] theorem State.onPm_linkUes (s : State) (f : PmSt → PmSt) : (s.onPm f).linkUes = s.linkUes := rfl
@[simp] theorem State.onPm_aux (s : State) (f : PmSt → PmSt) : (s.onPm f).aux = s.aux := rfl
@[simp] theorem State.onPm_errs (s : State) (f : PmSt → PmSt) : (s.onPm f).errs = s.errs := rfl
@[simp] theorem State.onPm_isoLog (s : State) (f : PmSt → PmSt) : (s.onPm f).isoLog = s.isoLog := rfl
@[simp] theorem State.onPm_wl1 (s : State) (f : PmSt → PmSt) : (s.onPm f).wl1 = s.wl1 := rfl
@[simp] theorem State.onPm_cardFenced (s : State) (f : PmSt → PmSt) : (s.onPm f).cardFenced = s.cardFenced := rfl
@[simp] theorem State.onPm_fulFenced (s : State) (f : PmSt → PmSt) : (s.onPm f).fulFenced = s.fulFenced := rfl
@[simp] theorem State.onPm_supply (s : State) (f : PmSt → PmSt) : (s.onPm f).supply = s.supply := rfl
@[simp] theorem State.onPm_pending (s : State) (f : PmSt → PmSt) : (s.onPm f).pending = s.pending := rfl

@[simp] theorem State.onRst_rst (s : State) (f : RstSt → RstSt) : (s.onRst f).rst = f s.rst := rfl
@[simp] theorem State.onRst_regs (s : State) (f : RstSt → RstSt) : (s.onRst f).regs = s.regs := rfl
@[simp] theorem State.onRst_mem (s : State) (f : RstSt → RstSt) : (s.onRst f).mem = s.mem := rfl
@[simp] theorem State.onRst_free (s : State) (f : RstSt → RstSt) : (s.onRst f).free = s.free := rfl
@[simp] theorem State.onRst_tx (s : State) (f : RstSt → RstSt) : (s.onRst f).tx = s.tx := rfl
@[simp] theorem State.onRst_raw (s : State) (f : RstSt → RstSt) : (s.onRst f).raw = s.raw := rfl
@[simp] theorem State.onRst_time (s : State) (f : RstSt → RstSt) : (s.onRst f).time = s.time := rfl
@[simp] theorem State.onRst_ports (s : State) (f : RstSt → RstSt) : (s.onRst f).ports = s.ports := rfl
@[simp] theorem State.onRst_hat (s : State) (f : RstSt → RstSt) : (s.onRst f).hat = s.hat := rfl
@[simp] theorem State.onRst_cards (s : State) (f : RstSt → RstSt) : (s.onRst f).cards = s.cards := rfl
@[simp] theorem State.onRst_slots (s : State) (f : RstSt → RstSt) : (s.onRst f).slots = s.slots := rfl
@[simp] theorem State.onRst_eqs (s : State) (f : RstSt → RstSt) : (s.onRst f).eqs = s.eqs := rfl
@[simp] theorem State.onRst_recSeq (s : State) (f : RstSt → RstSt) : (s.onRst f).recSeq = s.recSeq := rfl
@[simp] theorem State.onRst_kcopies (s : State) (f : RstSt → RstSt) : (s.onRst f).kcopies = s.kcopies := rfl
@[simp] theorem State.onRst_ful (s : State) (f : RstSt → RstSt) : (s.onRst f).ful = s.ful := rfl
@[simp] theorem State.onRst_mills (s : State) (f : RstSt → RstSt) : (s.onRst f).mills = s.mills := rfl
@[simp] theorem State.onRst_ms (s : State) (f : RstSt → RstSt) : (s.onRst f).ms = s.ms := rfl
@[simp] theorem State.onRst_ft (s : State) (f : RstSt → RstSt) : (s.onRst f).ft = s.ft := rfl
@[simp] theorem State.onRst_kerb (s : State) (f : RstSt → RstSt) : (s.onRst f).kerb = s.kerb := rfl
@[simp] theorem State.onRst_mail (s : State) (f : RstSt → RstSt) : (s.onRst f).mail = s.mail := rfl
@[simp] theorem State.onRst_sec (s : State) (f : RstSt → RstSt) : (s.onRst f).sec = s.sec := rfl
@[simp] theorem State.onRst_cw (s : State) (f : RstSt → RstSt) : (s.onRst f).cw = s.cw := rfl
@[simp] theorem State.onRst_pm (s : State) (f : RstSt → RstSt) : (s.onRst f).pm = s.pm := rfl
@[simp] theorem State.onRst_fns (s : State) (f : RstSt → RstSt) : (s.onRst f).fns = s.fns := rfl
@[simp] theorem State.onRst_vfEnable (s : State) (f : RstSt → RstSt) : (s.onRst f).vfEnable = s.vfEnable := rfl
@[simp] theorem State.onRst_numVfs (s : State) (f : RstSt → RstSt) : (s.onRst f).numVfs = s.numVfs := rfl
@[simp] theorem State.onRst_memCap (s : State) (f : RstSt → RstSt) : (s.onRst f).memCap = s.memCap := rfl
@[simp] theorem State.onRst_link (s : State) (f : RstSt → RstSt) : (s.onRst f).link = s.link := rfl
@[simp] theorem State.onRst_hostIn (s : State) (f : RstSt → RstSt) : (s.onRst f).hostIn = s.hostIn := rfl
@[simp] theorem State.onRst_linkUes (s : State) (f : RstSt → RstSt) : (s.onRst f).linkUes = s.linkUes := rfl
@[simp] theorem State.onRst_aux (s : State) (f : RstSt → RstSt) : (s.onRst f).aux = s.aux := rfl
@[simp] theorem State.onRst_errs (s : State) (f : RstSt → RstSt) : (s.onRst f).errs = s.errs := rfl
@[simp] theorem State.onRst_isoLog (s : State) (f : RstSt → RstSt) : (s.onRst f).isoLog = s.isoLog := rfl
@[simp] theorem State.onRst_wl1 (s : State) (f : RstSt → RstSt) : (s.onRst f).wl1 = s.wl1 := rfl
@[simp] theorem State.onRst_cardFenced (s : State) (f : RstSt → RstSt) : (s.onRst f).cardFenced = s.cardFenced := rfl
@[simp] theorem State.onRst_fulFenced (s : State) (f : RstSt → RstSt) : (s.onRst f).fulFenced = s.fulFenced := rfl
@[simp] theorem State.onRst_supply (s : State) (f : RstSt → RstSt) : (s.onRst f).supply = s.supply := rfl
@[simp] theorem State.onRst_pending (s : State) (f : RstSt → RstSt) : (s.onRst f).pending = s.pending := rfl

@[simp] theorem State.onFns_fns (s : State) (f : (Table FnSt) → (Table FnSt)) : (s.onFns f).fns = f s.fns := rfl
@[simp] theorem State.onFns_regs (s : State) (f : (Table FnSt) → (Table FnSt)) : (s.onFns f).regs = s.regs := rfl
@[simp] theorem State.onFns_mem (s : State) (f : (Table FnSt) → (Table FnSt)) : (s.onFns f).mem = s.mem := rfl
@[simp] theorem State.onFns_free (s : State) (f : (Table FnSt) → (Table FnSt)) : (s.onFns f).free = s.free := rfl
@[simp] theorem State.onFns_tx (s : State) (f : (Table FnSt) → (Table FnSt)) : (s.onFns f).tx = s.tx := rfl
@[simp] theorem State.onFns_raw (s : State) (f : (Table FnSt) → (Table FnSt)) : (s.onFns f).raw = s.raw := rfl
@[simp] theorem State.onFns_time (s : State) (f : (Table FnSt) → (Table FnSt)) : (s.onFns f).time = s.time := rfl
@[simp] theorem State.onFns_ports (s : State) (f : (Table FnSt) → (Table FnSt)) : (s.onFns f).ports = s.ports := rfl
@[simp] theorem State.onFns_hat (s : State) (f : (Table FnSt) → (Table FnSt)) : (s.onFns f).hat = s.hat := rfl
@[simp] theorem State.onFns_cards (s : State) (f : (Table FnSt) → (Table FnSt)) : (s.onFns f).cards = s.cards := rfl
@[simp] theorem State.onFns_slots (s : State) (f : (Table FnSt) → (Table FnSt)) : (s.onFns f).slots = s.slots := rfl
@[simp] theorem State.onFns_eqs (s : State) (f : (Table FnSt) → (Table FnSt)) : (s.onFns f).eqs = s.eqs := rfl
@[simp] theorem State.onFns_recSeq (s : State) (f : (Table FnSt) → (Table FnSt)) : (s.onFns f).recSeq = s.recSeq := rfl
@[simp] theorem State.onFns_kcopies (s : State) (f : (Table FnSt) → (Table FnSt)) : (s.onFns f).kcopies = s.kcopies := rfl
@[simp] theorem State.onFns_ful (s : State) (f : (Table FnSt) → (Table FnSt)) : (s.onFns f).ful = s.ful := rfl
@[simp] theorem State.onFns_mills (s : State) (f : (Table FnSt) → (Table FnSt)) : (s.onFns f).mills = s.mills := rfl
@[simp] theorem State.onFns_ms (s : State) (f : (Table FnSt) → (Table FnSt)) : (s.onFns f).ms = s.ms := rfl
@[simp] theorem State.onFns_ft (s : State) (f : (Table FnSt) → (Table FnSt)) : (s.onFns f).ft = s.ft := rfl
@[simp] theorem State.onFns_kerb (s : State) (f : (Table FnSt) → (Table FnSt)) : (s.onFns f).kerb = s.kerb := rfl
@[simp] theorem State.onFns_mail (s : State) (f : (Table FnSt) → (Table FnSt)) : (s.onFns f).mail = s.mail := rfl
@[simp] theorem State.onFns_sec (s : State) (f : (Table FnSt) → (Table FnSt)) : (s.onFns f).sec = s.sec := rfl
@[simp] theorem State.onFns_cw (s : State) (f : (Table FnSt) → (Table FnSt)) : (s.onFns f).cw = s.cw := rfl
@[simp] theorem State.onFns_pm (s : State) (f : (Table FnSt) → (Table FnSt)) : (s.onFns f).pm = s.pm := rfl
@[simp] theorem State.onFns_rst (s : State) (f : (Table FnSt) → (Table FnSt)) : (s.onFns f).rst = s.rst := rfl
@[simp] theorem State.onFns_vfEnable (s : State) (f : (Table FnSt) → (Table FnSt)) : (s.onFns f).vfEnable = s.vfEnable := rfl
@[simp] theorem State.onFns_numVfs (s : State) (f : (Table FnSt) → (Table FnSt)) : (s.onFns f).numVfs = s.numVfs := rfl
@[simp] theorem State.onFns_memCap (s : State) (f : (Table FnSt) → (Table FnSt)) : (s.onFns f).memCap = s.memCap := rfl
@[simp] theorem State.onFns_link (s : State) (f : (Table FnSt) → (Table FnSt)) : (s.onFns f).link = s.link := rfl
@[simp] theorem State.onFns_hostIn (s : State) (f : (Table FnSt) → (Table FnSt)) : (s.onFns f).hostIn = s.hostIn := rfl
@[simp] theorem State.onFns_linkUes (s : State) (f : (Table FnSt) → (Table FnSt)) : (s.onFns f).linkUes = s.linkUes := rfl
@[simp] theorem State.onFns_aux (s : State) (f : (Table FnSt) → (Table FnSt)) : (s.onFns f).aux = s.aux := rfl
@[simp] theorem State.onFns_errs (s : State) (f : (Table FnSt) → (Table FnSt)) : (s.onFns f).errs = s.errs := rfl
@[simp] theorem State.onFns_isoLog (s : State) (f : (Table FnSt) → (Table FnSt)) : (s.onFns f).isoLog = s.isoLog := rfl
@[simp] theorem State.onFns_wl1 (s : State) (f : (Table FnSt) → (Table FnSt)) : (s.onFns f).wl1 = s.wl1 := rfl
@[simp] theorem State.onFns_cardFenced (s : State) (f : (Table FnSt) → (Table FnSt)) : (s.onFns f).cardFenced = s.cardFenced := rfl
@[simp] theorem State.onFns_fulFenced (s : State) (f : (Table FnSt) → (Table FnSt)) : (s.onFns f).fulFenced = s.fulFenced := rfl
@[simp] theorem State.onFns_supply (s : State) (f : (Table FnSt) → (Table FnSt)) : (s.onFns f).supply = s.supply := rfl
@[simp] theorem State.onFns_pending (s : State) (f : (Table FnSt) → (Table FnSt)) : (s.onFns f).pending = s.pending := rfl

@[simp] theorem State.onVfEnable_vfEnable (s : State) (f : Bool → Bool) : (s.onVfEnable f).vfEnable = f s.vfEnable := rfl
@[simp] theorem State.onVfEnable_regs (s : State) (f : Bool → Bool) : (s.onVfEnable f).regs = s.regs := rfl
@[simp] theorem State.onVfEnable_mem (s : State) (f : Bool → Bool) : (s.onVfEnable f).mem = s.mem := rfl
@[simp] theorem State.onVfEnable_free (s : State) (f : Bool → Bool) : (s.onVfEnable f).free = s.free := rfl
@[simp] theorem State.onVfEnable_tx (s : State) (f : Bool → Bool) : (s.onVfEnable f).tx = s.tx := rfl
@[simp] theorem State.onVfEnable_raw (s : State) (f : Bool → Bool) : (s.onVfEnable f).raw = s.raw := rfl
@[simp] theorem State.onVfEnable_time (s : State) (f : Bool → Bool) : (s.onVfEnable f).time = s.time := rfl
@[simp] theorem State.onVfEnable_ports (s : State) (f : Bool → Bool) : (s.onVfEnable f).ports = s.ports := rfl
@[simp] theorem State.onVfEnable_hat (s : State) (f : Bool → Bool) : (s.onVfEnable f).hat = s.hat := rfl
@[simp] theorem State.onVfEnable_cards (s : State) (f : Bool → Bool) : (s.onVfEnable f).cards = s.cards := rfl
@[simp] theorem State.onVfEnable_slots (s : State) (f : Bool → Bool) : (s.onVfEnable f).slots = s.slots := rfl
@[simp] theorem State.onVfEnable_eqs (s : State) (f : Bool → Bool) : (s.onVfEnable f).eqs = s.eqs := rfl
@[simp] theorem State.onVfEnable_recSeq (s : State) (f : Bool → Bool) : (s.onVfEnable f).recSeq = s.recSeq := rfl
@[simp] theorem State.onVfEnable_kcopies (s : State) (f : Bool → Bool) : (s.onVfEnable f).kcopies = s.kcopies := rfl
@[simp] theorem State.onVfEnable_ful (s : State) (f : Bool → Bool) : (s.onVfEnable f).ful = s.ful := rfl
@[simp] theorem State.onVfEnable_mills (s : State) (f : Bool → Bool) : (s.onVfEnable f).mills = s.mills := rfl
@[simp] theorem State.onVfEnable_ms (s : State) (f : Bool → Bool) : (s.onVfEnable f).ms = s.ms := rfl
@[simp] theorem State.onVfEnable_ft (s : State) (f : Bool → Bool) : (s.onVfEnable f).ft = s.ft := rfl
@[simp] theorem State.onVfEnable_kerb (s : State) (f : Bool → Bool) : (s.onVfEnable f).kerb = s.kerb := rfl
@[simp] theorem State.onVfEnable_mail (s : State) (f : Bool → Bool) : (s.onVfEnable f).mail = s.mail := rfl
@[simp] theorem State.onVfEnable_sec (s : State) (f : Bool → Bool) : (s.onVfEnable f).sec = s.sec := rfl
@[simp] theorem State.onVfEnable_cw (s : State) (f : Bool → Bool) : (s.onVfEnable f).cw = s.cw := rfl
@[simp] theorem State.onVfEnable_pm (s : State) (f : Bool → Bool) : (s.onVfEnable f).pm = s.pm := rfl
@[simp] theorem State.onVfEnable_rst (s : State) (f : Bool → Bool) : (s.onVfEnable f).rst = s.rst := rfl
@[simp] theorem State.onVfEnable_fns (s : State) (f : Bool → Bool) : (s.onVfEnable f).fns = s.fns := rfl
@[simp] theorem State.onVfEnable_numVfs (s : State) (f : Bool → Bool) : (s.onVfEnable f).numVfs = s.numVfs := rfl
@[simp] theorem State.onVfEnable_memCap (s : State) (f : Bool → Bool) : (s.onVfEnable f).memCap = s.memCap := rfl
@[simp] theorem State.onVfEnable_link (s : State) (f : Bool → Bool) : (s.onVfEnable f).link = s.link := rfl
@[simp] theorem State.onVfEnable_hostIn (s : State) (f : Bool → Bool) : (s.onVfEnable f).hostIn = s.hostIn := rfl
@[simp] theorem State.onVfEnable_linkUes (s : State) (f : Bool → Bool) : (s.onVfEnable f).linkUes = s.linkUes := rfl
@[simp] theorem State.onVfEnable_aux (s : State) (f : Bool → Bool) : (s.onVfEnable f).aux = s.aux := rfl
@[simp] theorem State.onVfEnable_errs (s : State) (f : Bool → Bool) : (s.onVfEnable f).errs = s.errs := rfl
@[simp] theorem State.onVfEnable_isoLog (s : State) (f : Bool → Bool) : (s.onVfEnable f).isoLog = s.isoLog := rfl
@[simp] theorem State.onVfEnable_wl1 (s : State) (f : Bool → Bool) : (s.onVfEnable f).wl1 = s.wl1 := rfl
@[simp] theorem State.onVfEnable_cardFenced (s : State) (f : Bool → Bool) : (s.onVfEnable f).cardFenced = s.cardFenced := rfl
@[simp] theorem State.onVfEnable_fulFenced (s : State) (f : Bool → Bool) : (s.onVfEnable f).fulFenced = s.fulFenced := rfl
@[simp] theorem State.onVfEnable_supply (s : State) (f : Bool → Bool) : (s.onVfEnable f).supply = s.supply := rfl
@[simp] theorem State.onVfEnable_pending (s : State) (f : Bool → Bool) : (s.onVfEnable f).pending = s.pending := rfl

@[simp] theorem State.onNumVfs_numVfs (s : State) (f : Nat → Nat) : (s.onNumVfs f).numVfs = f s.numVfs := rfl
@[simp] theorem State.onNumVfs_regs (s : State) (f : Nat → Nat) : (s.onNumVfs f).regs = s.regs := rfl
@[simp] theorem State.onNumVfs_mem (s : State) (f : Nat → Nat) : (s.onNumVfs f).mem = s.mem := rfl
@[simp] theorem State.onNumVfs_free (s : State) (f : Nat → Nat) : (s.onNumVfs f).free = s.free := rfl
@[simp] theorem State.onNumVfs_tx (s : State) (f : Nat → Nat) : (s.onNumVfs f).tx = s.tx := rfl
@[simp] theorem State.onNumVfs_raw (s : State) (f : Nat → Nat) : (s.onNumVfs f).raw = s.raw := rfl
@[simp] theorem State.onNumVfs_time (s : State) (f : Nat → Nat) : (s.onNumVfs f).time = s.time := rfl
@[simp] theorem State.onNumVfs_ports (s : State) (f : Nat → Nat) : (s.onNumVfs f).ports = s.ports := rfl
@[simp] theorem State.onNumVfs_hat (s : State) (f : Nat → Nat) : (s.onNumVfs f).hat = s.hat := rfl
@[simp] theorem State.onNumVfs_cards (s : State) (f : Nat → Nat) : (s.onNumVfs f).cards = s.cards := rfl
@[simp] theorem State.onNumVfs_slots (s : State) (f : Nat → Nat) : (s.onNumVfs f).slots = s.slots := rfl
@[simp] theorem State.onNumVfs_eqs (s : State) (f : Nat → Nat) : (s.onNumVfs f).eqs = s.eqs := rfl
@[simp] theorem State.onNumVfs_recSeq (s : State) (f : Nat → Nat) : (s.onNumVfs f).recSeq = s.recSeq := rfl
@[simp] theorem State.onNumVfs_kcopies (s : State) (f : Nat → Nat) : (s.onNumVfs f).kcopies = s.kcopies := rfl
@[simp] theorem State.onNumVfs_ful (s : State) (f : Nat → Nat) : (s.onNumVfs f).ful = s.ful := rfl
@[simp] theorem State.onNumVfs_mills (s : State) (f : Nat → Nat) : (s.onNumVfs f).mills = s.mills := rfl
@[simp] theorem State.onNumVfs_ms (s : State) (f : Nat → Nat) : (s.onNumVfs f).ms = s.ms := rfl
@[simp] theorem State.onNumVfs_ft (s : State) (f : Nat → Nat) : (s.onNumVfs f).ft = s.ft := rfl
@[simp] theorem State.onNumVfs_kerb (s : State) (f : Nat → Nat) : (s.onNumVfs f).kerb = s.kerb := rfl
@[simp] theorem State.onNumVfs_mail (s : State) (f : Nat → Nat) : (s.onNumVfs f).mail = s.mail := rfl
@[simp] theorem State.onNumVfs_sec (s : State) (f : Nat → Nat) : (s.onNumVfs f).sec = s.sec := rfl
@[simp] theorem State.onNumVfs_cw (s : State) (f : Nat → Nat) : (s.onNumVfs f).cw = s.cw := rfl
@[simp] theorem State.onNumVfs_pm (s : State) (f : Nat → Nat) : (s.onNumVfs f).pm = s.pm := rfl
@[simp] theorem State.onNumVfs_rst (s : State) (f : Nat → Nat) : (s.onNumVfs f).rst = s.rst := rfl
@[simp] theorem State.onNumVfs_fns (s : State) (f : Nat → Nat) : (s.onNumVfs f).fns = s.fns := rfl
@[simp] theorem State.onNumVfs_vfEnable (s : State) (f : Nat → Nat) : (s.onNumVfs f).vfEnable = s.vfEnable := rfl
@[simp] theorem State.onNumVfs_memCap (s : State) (f : Nat → Nat) : (s.onNumVfs f).memCap = s.memCap := rfl
@[simp] theorem State.onNumVfs_link (s : State) (f : Nat → Nat) : (s.onNumVfs f).link = s.link := rfl
@[simp] theorem State.onNumVfs_hostIn (s : State) (f : Nat → Nat) : (s.onNumVfs f).hostIn = s.hostIn := rfl
@[simp] theorem State.onNumVfs_linkUes (s : State) (f : Nat → Nat) : (s.onNumVfs f).linkUes = s.linkUes := rfl
@[simp] theorem State.onNumVfs_aux (s : State) (f : Nat → Nat) : (s.onNumVfs f).aux = s.aux := rfl
@[simp] theorem State.onNumVfs_errs (s : State) (f : Nat → Nat) : (s.onNumVfs f).errs = s.errs := rfl
@[simp] theorem State.onNumVfs_isoLog (s : State) (f : Nat → Nat) : (s.onNumVfs f).isoLog = s.isoLog := rfl
@[simp] theorem State.onNumVfs_wl1 (s : State) (f : Nat → Nat) : (s.onNumVfs f).wl1 = s.wl1 := rfl
@[simp] theorem State.onNumVfs_cardFenced (s : State) (f : Nat → Nat) : (s.onNumVfs f).cardFenced = s.cardFenced := rfl
@[simp] theorem State.onNumVfs_fulFenced (s : State) (f : Nat → Nat) : (s.onNumVfs f).fulFenced = s.fulFenced := rfl
@[simp] theorem State.onNumVfs_supply (s : State) (f : Nat → Nat) : (s.onNumVfs f).supply = s.supply := rfl
@[simp] theorem State.onNumVfs_pending (s : State) (f : Nat → Nat) : (s.onNumVfs f).pending = s.pending := rfl

@[simp] theorem State.onMemCap_memCap (s : State) (f : Nat → Nat) : (s.onMemCap f).memCap = f s.memCap := rfl
@[simp] theorem State.onMemCap_regs (s : State) (f : Nat → Nat) : (s.onMemCap f).regs = s.regs := rfl
@[simp] theorem State.onMemCap_mem (s : State) (f : Nat → Nat) : (s.onMemCap f).mem = s.mem := rfl
@[simp] theorem State.onMemCap_free (s : State) (f : Nat → Nat) : (s.onMemCap f).free = s.free := rfl
@[simp] theorem State.onMemCap_tx (s : State) (f : Nat → Nat) : (s.onMemCap f).tx = s.tx := rfl
@[simp] theorem State.onMemCap_raw (s : State) (f : Nat → Nat) : (s.onMemCap f).raw = s.raw := rfl
@[simp] theorem State.onMemCap_time (s : State) (f : Nat → Nat) : (s.onMemCap f).time = s.time := rfl
@[simp] theorem State.onMemCap_ports (s : State) (f : Nat → Nat) : (s.onMemCap f).ports = s.ports := rfl
@[simp] theorem State.onMemCap_hat (s : State) (f : Nat → Nat) : (s.onMemCap f).hat = s.hat := rfl
@[simp] theorem State.onMemCap_cards (s : State) (f : Nat → Nat) : (s.onMemCap f).cards = s.cards := rfl
@[simp] theorem State.onMemCap_slots (s : State) (f : Nat → Nat) : (s.onMemCap f).slots = s.slots := rfl
@[simp] theorem State.onMemCap_eqs (s : State) (f : Nat → Nat) : (s.onMemCap f).eqs = s.eqs := rfl
@[simp] theorem State.onMemCap_recSeq (s : State) (f : Nat → Nat) : (s.onMemCap f).recSeq = s.recSeq := rfl
@[simp] theorem State.onMemCap_kcopies (s : State) (f : Nat → Nat) : (s.onMemCap f).kcopies = s.kcopies := rfl
@[simp] theorem State.onMemCap_ful (s : State) (f : Nat → Nat) : (s.onMemCap f).ful = s.ful := rfl
@[simp] theorem State.onMemCap_mills (s : State) (f : Nat → Nat) : (s.onMemCap f).mills = s.mills := rfl
@[simp] theorem State.onMemCap_ms (s : State) (f : Nat → Nat) : (s.onMemCap f).ms = s.ms := rfl
@[simp] theorem State.onMemCap_ft (s : State) (f : Nat → Nat) : (s.onMemCap f).ft = s.ft := rfl
@[simp] theorem State.onMemCap_kerb (s : State) (f : Nat → Nat) : (s.onMemCap f).kerb = s.kerb := rfl
@[simp] theorem State.onMemCap_mail (s : State) (f : Nat → Nat) : (s.onMemCap f).mail = s.mail := rfl
@[simp] theorem State.onMemCap_sec (s : State) (f : Nat → Nat) : (s.onMemCap f).sec = s.sec := rfl
@[simp] theorem State.onMemCap_cw (s : State) (f : Nat → Nat) : (s.onMemCap f).cw = s.cw := rfl
@[simp] theorem State.onMemCap_pm (s : State) (f : Nat → Nat) : (s.onMemCap f).pm = s.pm := rfl
@[simp] theorem State.onMemCap_rst (s : State) (f : Nat → Nat) : (s.onMemCap f).rst = s.rst := rfl
@[simp] theorem State.onMemCap_fns (s : State) (f : Nat → Nat) : (s.onMemCap f).fns = s.fns := rfl
@[simp] theorem State.onMemCap_vfEnable (s : State) (f : Nat → Nat) : (s.onMemCap f).vfEnable = s.vfEnable := rfl
@[simp] theorem State.onMemCap_numVfs (s : State) (f : Nat → Nat) : (s.onMemCap f).numVfs = s.numVfs := rfl
@[simp] theorem State.onMemCap_link (s : State) (f : Nat → Nat) : (s.onMemCap f).link = s.link := rfl
@[simp] theorem State.onMemCap_hostIn (s : State) (f : Nat → Nat) : (s.onMemCap f).hostIn = s.hostIn := rfl
@[simp] theorem State.onMemCap_linkUes (s : State) (f : Nat → Nat) : (s.onMemCap f).linkUes = s.linkUes := rfl
@[simp] theorem State.onMemCap_aux (s : State) (f : Nat → Nat) : (s.onMemCap f).aux = s.aux := rfl
@[simp] theorem State.onMemCap_errs (s : State) (f : Nat → Nat) : (s.onMemCap f).errs = s.errs := rfl
@[simp] theorem State.onMemCap_isoLog (s : State) (f : Nat → Nat) : (s.onMemCap f).isoLog = s.isoLog := rfl
@[simp] theorem State.onMemCap_wl1 (s : State) (f : Nat → Nat) : (s.onMemCap f).wl1 = s.wl1 := rfl
@[simp] theorem State.onMemCap_cardFenced (s : State) (f : Nat → Nat) : (s.onMemCap f).cardFenced = s.cardFenced := rfl
@[simp] theorem State.onMemCap_fulFenced (s : State) (f : Nat → Nat) : (s.onMemCap f).fulFenced = s.fulFenced := rfl
@[simp] theorem State.onMemCap_supply (s : State) (f : Nat → Nat) : (s.onMemCap f).supply = s.supply := rfl
@[simp] theorem State.onMemCap_pending (s : State) (f : Nat → Nat) : (s.onMemCap f).pending = s.pending := rfl

@[simp] theorem State.onLink_link (s : State) (f : LinkSt → LinkSt) : (s.onLink f).link = f s.link := rfl
@[simp] theorem State.onLink_regs (s : State) (f : LinkSt → LinkSt) : (s.onLink f).regs = s.regs := rfl
@[simp] theorem State.onLink_mem (s : State) (f : LinkSt → LinkSt) : (s.onLink f).mem = s.mem := rfl
@[simp] theorem State.onLink_free (s : State) (f : LinkSt → LinkSt) : (s.onLink f).free = s.free := rfl
@[simp] theorem State.onLink_tx (s : State) (f : LinkSt → LinkSt) : (s.onLink f).tx = s.tx := rfl
@[simp] theorem State.onLink_raw (s : State) (f : LinkSt → LinkSt) : (s.onLink f).raw = s.raw := rfl
@[simp] theorem State.onLink_time (s : State) (f : LinkSt → LinkSt) : (s.onLink f).time = s.time := rfl
@[simp] theorem State.onLink_ports (s : State) (f : LinkSt → LinkSt) : (s.onLink f).ports = s.ports := rfl
@[simp] theorem State.onLink_hat (s : State) (f : LinkSt → LinkSt) : (s.onLink f).hat = s.hat := rfl
@[simp] theorem State.onLink_cards (s : State) (f : LinkSt → LinkSt) : (s.onLink f).cards = s.cards := rfl
@[simp] theorem State.onLink_slots (s : State) (f : LinkSt → LinkSt) : (s.onLink f).slots = s.slots := rfl
@[simp] theorem State.onLink_eqs (s : State) (f : LinkSt → LinkSt) : (s.onLink f).eqs = s.eqs := rfl
@[simp] theorem State.onLink_recSeq (s : State) (f : LinkSt → LinkSt) : (s.onLink f).recSeq = s.recSeq := rfl
@[simp] theorem State.onLink_kcopies (s : State) (f : LinkSt → LinkSt) : (s.onLink f).kcopies = s.kcopies := rfl
@[simp] theorem State.onLink_ful (s : State) (f : LinkSt → LinkSt) : (s.onLink f).ful = s.ful := rfl
@[simp] theorem State.onLink_mills (s : State) (f : LinkSt → LinkSt) : (s.onLink f).mills = s.mills := rfl
@[simp] theorem State.onLink_ms (s : State) (f : LinkSt → LinkSt) : (s.onLink f).ms = s.ms := rfl
@[simp] theorem State.onLink_ft (s : State) (f : LinkSt → LinkSt) : (s.onLink f).ft = s.ft := rfl
@[simp] theorem State.onLink_kerb (s : State) (f : LinkSt → LinkSt) : (s.onLink f).kerb = s.kerb := rfl
@[simp] theorem State.onLink_mail (s : State) (f : LinkSt → LinkSt) : (s.onLink f).mail = s.mail := rfl
@[simp] theorem State.onLink_sec (s : State) (f : LinkSt → LinkSt) : (s.onLink f).sec = s.sec := rfl
@[simp] theorem State.onLink_cw (s : State) (f : LinkSt → LinkSt) : (s.onLink f).cw = s.cw := rfl
@[simp] theorem State.onLink_pm (s : State) (f : LinkSt → LinkSt) : (s.onLink f).pm = s.pm := rfl
@[simp] theorem State.onLink_rst (s : State) (f : LinkSt → LinkSt) : (s.onLink f).rst = s.rst := rfl
@[simp] theorem State.onLink_fns (s : State) (f : LinkSt → LinkSt) : (s.onLink f).fns = s.fns := rfl
@[simp] theorem State.onLink_vfEnable (s : State) (f : LinkSt → LinkSt) : (s.onLink f).vfEnable = s.vfEnable := rfl
@[simp] theorem State.onLink_numVfs (s : State) (f : LinkSt → LinkSt) : (s.onLink f).numVfs = s.numVfs := rfl
@[simp] theorem State.onLink_memCap (s : State) (f : LinkSt → LinkSt) : (s.onLink f).memCap = s.memCap := rfl
@[simp] theorem State.onLink_hostIn (s : State) (f : LinkSt → LinkSt) : (s.onLink f).hostIn = s.hostIn := rfl
@[simp] theorem State.onLink_linkUes (s : State) (f : LinkSt → LinkSt) : (s.onLink f).linkUes = s.linkUes := rfl
@[simp] theorem State.onLink_aux (s : State) (f : LinkSt → LinkSt) : (s.onLink f).aux = s.aux := rfl
@[simp] theorem State.onLink_errs (s : State) (f : LinkSt → LinkSt) : (s.onLink f).errs = s.errs := rfl
@[simp] theorem State.onLink_isoLog (s : State) (f : LinkSt → LinkSt) : (s.onLink f).isoLog = s.isoLog := rfl
@[simp] theorem State.onLink_wl1 (s : State) (f : LinkSt → LinkSt) : (s.onLink f).wl1 = s.wl1 := rfl
@[simp] theorem State.onLink_cardFenced (s : State) (f : LinkSt → LinkSt) : (s.onLink f).cardFenced = s.cardFenced := rfl
@[simp] theorem State.onLink_fulFenced (s : State) (f : LinkSt → LinkSt) : (s.onLink f).fulFenced = s.fulFenced := rfl
@[simp] theorem State.onLink_supply (s : State) (f : LinkSt → LinkSt) : (s.onLink f).supply = s.supply := rfl
@[simp] theorem State.onLink_pending (s : State) (f : LinkSt → LinkSt) : (s.onLink f).pending = s.pending := rfl

@[simp] theorem State.onHostIn_hostIn (s : State) (f : (Table (List Byte)) → (Table (List Byte))) : (s.onHostIn f).hostIn = f s.hostIn := rfl
@[simp] theorem State.onHostIn_regs (s : State) (f : (Table (List Byte)) → (Table (List Byte))) : (s.onHostIn f).regs = s.regs := rfl
@[simp] theorem State.onHostIn_mem (s : State) (f : (Table (List Byte)) → (Table (List Byte))) : (s.onHostIn f).mem = s.mem := rfl
@[simp] theorem State.onHostIn_free (s : State) (f : (Table (List Byte)) → (Table (List Byte))) : (s.onHostIn f).free = s.free := rfl
@[simp] theorem State.onHostIn_tx (s : State) (f : (Table (List Byte)) → (Table (List Byte))) : (s.onHostIn f).tx = s.tx := rfl
@[simp] theorem State.onHostIn_raw (s : State) (f : (Table (List Byte)) → (Table (List Byte))) : (s.onHostIn f).raw = s.raw := rfl
@[simp] theorem State.onHostIn_time (s : State) (f : (Table (List Byte)) → (Table (List Byte))) : (s.onHostIn f).time = s.time := rfl
@[simp] theorem State.onHostIn_ports (s : State) (f : (Table (List Byte)) → (Table (List Byte))) : (s.onHostIn f).ports = s.ports := rfl
@[simp] theorem State.onHostIn_hat (s : State) (f : (Table (List Byte)) → (Table (List Byte))) : (s.onHostIn f).hat = s.hat := rfl
@[simp] theorem State.onHostIn_cards (s : State) (f : (Table (List Byte)) → (Table (List Byte))) : (s.onHostIn f).cards = s.cards := rfl
@[simp] theorem State.onHostIn_slots (s : State) (f : (Table (List Byte)) → (Table (List Byte))) : (s.onHostIn f).slots = s.slots := rfl
@[simp] theorem State.onHostIn_eqs (s : State) (f : (Table (List Byte)) → (Table (List Byte))) : (s.onHostIn f).eqs = s.eqs := rfl
@[simp] theorem State.onHostIn_recSeq (s : State) (f : (Table (List Byte)) → (Table (List Byte))) : (s.onHostIn f).recSeq = s.recSeq := rfl
@[simp] theorem State.onHostIn_kcopies (s : State) (f : (Table (List Byte)) → (Table (List Byte))) : (s.onHostIn f).kcopies = s.kcopies := rfl
@[simp] theorem State.onHostIn_ful (s : State) (f : (Table (List Byte)) → (Table (List Byte))) : (s.onHostIn f).ful = s.ful := rfl
@[simp] theorem State.onHostIn_mills (s : State) (f : (Table (List Byte)) → (Table (List Byte))) : (s.onHostIn f).mills = s.mills := rfl
@[simp] theorem State.onHostIn_ms (s : State) (f : (Table (List Byte)) → (Table (List Byte))) : (s.onHostIn f).ms = s.ms := rfl
@[simp] theorem State.onHostIn_ft (s : State) (f : (Table (List Byte)) → (Table (List Byte))) : (s.onHostIn f).ft = s.ft := rfl
@[simp] theorem State.onHostIn_kerb (s : State) (f : (Table (List Byte)) → (Table (List Byte))) : (s.onHostIn f).kerb = s.kerb := rfl
@[simp] theorem State.onHostIn_mail (s : State) (f : (Table (List Byte)) → (Table (List Byte))) : (s.onHostIn f).mail = s.mail := rfl
@[simp] theorem State.onHostIn_sec (s : State) (f : (Table (List Byte)) → (Table (List Byte))) : (s.onHostIn f).sec = s.sec := rfl
@[simp] theorem State.onHostIn_cw (s : State) (f : (Table (List Byte)) → (Table (List Byte))) : (s.onHostIn f).cw = s.cw := rfl
@[simp] theorem State.onHostIn_pm (s : State) (f : (Table (List Byte)) → (Table (List Byte))) : (s.onHostIn f).pm = s.pm := rfl
@[simp] theorem State.onHostIn_rst (s : State) (f : (Table (List Byte)) → (Table (List Byte))) : (s.onHostIn f).rst = s.rst := rfl
@[simp] theorem State.onHostIn_fns (s : State) (f : (Table (List Byte)) → (Table (List Byte))) : (s.onHostIn f).fns = s.fns := rfl
@[simp] theorem State.onHostIn_vfEnable (s : State) (f : (Table (List Byte)) → (Table (List Byte))) : (s.onHostIn f).vfEnable = s.vfEnable := rfl
@[simp] theorem State.onHostIn_numVfs (s : State) (f : (Table (List Byte)) → (Table (List Byte))) : (s.onHostIn f).numVfs = s.numVfs := rfl
@[simp] theorem State.onHostIn_memCap (s : State) (f : (Table (List Byte)) → (Table (List Byte))) : (s.onHostIn f).memCap = s.memCap := rfl
@[simp] theorem State.onHostIn_link (s : State) (f : (Table (List Byte)) → (Table (List Byte))) : (s.onHostIn f).link = s.link := rfl
@[simp] theorem State.onHostIn_linkUes (s : State) (f : (Table (List Byte)) → (Table (List Byte))) : (s.onHostIn f).linkUes = s.linkUes := rfl
@[simp] theorem State.onHostIn_aux (s : State) (f : (Table (List Byte)) → (Table (List Byte))) : (s.onHostIn f).aux = s.aux := rfl
@[simp] theorem State.onHostIn_errs (s : State) (f : (Table (List Byte)) → (Table (List Byte))) : (s.onHostIn f).errs = s.errs := rfl
@[simp] theorem State.onHostIn_isoLog (s : State) (f : (Table (List Byte)) → (Table (List Byte))) : (s.onHostIn f).isoLog = s.isoLog := rfl
@[simp] theorem State.onHostIn_wl1 (s : State) (f : (Table (List Byte)) → (Table (List Byte))) : (s.onHostIn f).wl1 = s.wl1 := rfl
@[simp] theorem State.onHostIn_cardFenced (s : State) (f : (Table (List Byte)) → (Table (List Byte))) : (s.onHostIn f).cardFenced = s.cardFenced := rfl
@[simp] theorem State.onHostIn_fulFenced (s : State) (f : (Table (List Byte)) → (Table (List Byte))) : (s.onHostIn f).fulFenced = s.fulFenced := rfl
@[simp] theorem State.onHostIn_supply (s : State) (f : (Table (List Byte)) → (Table (List Byte))) : (s.onHostIn f).supply = s.supply := rfl
@[simp] theorem State.onHostIn_pending (s : State) (f : (Table (List Byte)) → (Table (List Byte))) : (s.onHostIn f).pending = s.pending := rfl

@[simp] theorem State.onLinkUes_linkUes (s : State) (f : (Table (List Nat)) → (Table (List Nat))) : (s.onLinkUes f).linkUes = f s.linkUes := rfl
@[simp] theorem State.onLinkUes_regs (s : State) (f : (Table (List Nat)) → (Table (List Nat))) : (s.onLinkUes f).regs = s.regs := rfl
@[simp] theorem State.onLinkUes_mem (s : State) (f : (Table (List Nat)) → (Table (List Nat))) : (s.onLinkUes f).mem = s.mem := rfl
@[simp] theorem State.onLinkUes_free (s : State) (f : (Table (List Nat)) → (Table (List Nat))) : (s.onLinkUes f).free = s.free := rfl
@[simp] theorem State.onLinkUes_tx (s : State) (f : (Table (List Nat)) → (Table (List Nat))) : (s.onLinkUes f).tx = s.tx := rfl
@[simp] theorem State.onLinkUes_raw (s : State) (f : (Table (List Nat)) → (Table (List Nat))) : (s.onLinkUes f).raw = s.raw := rfl
@[simp] theorem State.onLinkUes_time (s : State) (f : (Table (List Nat)) → (Table (List Nat))) : (s.onLinkUes f).time = s.time := rfl
@[simp] theorem State.onLinkUes_ports (s : State) (f : (Table (List Nat)) → (Table (List Nat))) : (s.onLinkUes f).ports = s.ports := rfl
@[simp] theorem State.onLinkUes_hat (s : State) (f : (Table (List Nat)) → (Table (List Nat))) : (s.onLinkUes f).hat = s.hat := rfl
@[simp] theorem State.onLinkUes_cards (s : State) (f : (Table (List Nat)) → (Table (List Nat))) : (s.onLinkUes f).cards = s.cards := rfl
@[simp] theorem State.onLinkUes_slots (s : State) (f : (Table (List Nat)) → (Table (List Nat))) : (s.onLinkUes f).slots = s.slots := rfl
@[simp] theorem State.onLinkUes_eqs (s : State) (f : (Table (List Nat)) → (Table (List Nat))) : (s.onLinkUes f).eqs = s.eqs := rfl
@[simp] theorem State.onLinkUes_recSeq (s : State) (f : (Table (List Nat)) → (Table (List Nat))) : (s.onLinkUes f).recSeq = s.recSeq := rfl
@[simp] theorem State.onLinkUes_kcopies (s : State) (f : (Table (List Nat)) → (Table (List Nat))) : (s.onLinkUes f).kcopies = s.kcopies := rfl
@[simp] theorem State.onLinkUes_ful (s : State) (f : (Table (List Nat)) → (Table (List Nat))) : (s.onLinkUes f).ful = s.ful := rfl
@[simp] theorem State.onLinkUes_mills (s : State) (f : (Table (List Nat)) → (Table (List Nat))) : (s.onLinkUes f).mills = s.mills := rfl
@[simp] theorem State.onLinkUes_ms (s : State) (f : (Table (List Nat)) → (Table (List Nat))) : (s.onLinkUes f).ms = s.ms := rfl
@[simp] theorem State.onLinkUes_ft (s : State) (f : (Table (List Nat)) → (Table (List Nat))) : (s.onLinkUes f).ft = s.ft := rfl
@[simp] theorem State.onLinkUes_kerb (s : State) (f : (Table (List Nat)) → (Table (List Nat))) : (s.onLinkUes f).kerb = s.kerb := rfl
@[simp] theorem State.onLinkUes_mail (s : State) (f : (Table (List Nat)) → (Table (List Nat))) : (s.onLinkUes f).mail = s.mail := rfl
@[simp] theorem State.onLinkUes_sec (s : State) (f : (Table (List Nat)) → (Table (List Nat))) : (s.onLinkUes f).sec = s.sec := rfl
@[simp] theorem State.onLinkUes_cw (s : State) (f : (Table (List Nat)) → (Table (List Nat))) : (s.onLinkUes f).cw = s.cw := rfl
@[simp] theorem State.onLinkUes_pm (s : State) (f : (Table (List Nat)) → (Table (List Nat))) : (s.onLinkUes f).pm = s.pm := rfl
@[simp] theorem State.onLinkUes_rst (s : State) (f : (Table (List Nat)) → (Table (List Nat))) : (s.onLinkUes f).rst = s.rst := rfl
@[simp] theorem State.onLinkUes_fns (s : State) (f : (Table (List Nat)) → (Table (List Nat))) : (s.onLinkUes f).fns = s.fns := rfl
@[simp] theorem State.onLinkUes_vfEnable (s : State) (f : (Table (List Nat)) → (Table (List Nat))) : (s.onLinkUes f).vfEnable = s.vfEnable := rfl
@[simp] theorem State.onLinkUes_numVfs (s : State) (f : (Table (List Nat)) → (Table (List Nat))) : (s.onLinkUes f).numVfs = s.numVfs := rfl
@[simp] theorem State.onLinkUes_memCap (s : State) (f : (Table (List Nat)) → (Table (List Nat))) : (s.onLinkUes f).memCap = s.memCap := rfl
@[simp] theorem State.onLinkUes_link (s : State) (f : (Table (List Nat)) → (Table (List Nat))) : (s.onLinkUes f).link = s.link := rfl
@[simp] theorem State.onLinkUes_hostIn (s : State) (f : (Table (List Nat)) → (Table (List Nat))) : (s.onLinkUes f).hostIn = s.hostIn := rfl
@[simp] theorem State.onLinkUes_aux (s : State) (f : (Table (List Nat)) → (Table (List Nat))) : (s.onLinkUes f).aux = s.aux := rfl
@[simp] theorem State.onLinkUes_errs (s : State) (f : (Table (List Nat)) → (Table (List Nat))) : (s.onLinkUes f).errs = s.errs := rfl
@[simp] theorem State.onLinkUes_isoLog (s : State) (f : (Table (List Nat)) → (Table (List Nat))) : (s.onLinkUes f).isoLog = s.isoLog := rfl
@[simp] theorem State.onLinkUes_wl1 (s : State) (f : (Table (List Nat)) → (Table (List Nat))) : (s.onLinkUes f).wl1 = s.wl1 := rfl
@[simp] theorem State.onLinkUes_cardFenced (s : State) (f : (Table (List Nat)) → (Table (List Nat))) : (s.onLinkUes f).cardFenced = s.cardFenced := rfl
@[simp] theorem State.onLinkUes_fulFenced (s : State) (f : (Table (List Nat)) → (Table (List Nat))) : (s.onLinkUes f).fulFenced = s.fulFenced := rfl
@[simp] theorem State.onLinkUes_supply (s : State) (f : (Table (List Nat)) → (Table (List Nat))) : (s.onLinkUes f).supply = s.supply := rfl
@[simp] theorem State.onLinkUes_pending (s : State) (f : (Table (List Nat)) → (Table (List Nat))) : (s.onLinkUes f).pending = s.pending := rfl

@[simp] theorem State.onAux_aux (s : State) (f : AuxSt → AuxSt) : (s.onAux f).aux = f s.aux := rfl
@[simp] theorem State.onAux_regs (s : State) (f : AuxSt → AuxSt) : (s.onAux f).regs = s.regs := rfl
@[simp] theorem State.onAux_mem (s : State) (f : AuxSt → AuxSt) : (s.onAux f).mem = s.mem := rfl
@[simp] theorem State.onAux_free (s : State) (f : AuxSt → AuxSt) : (s.onAux f).free = s.free := rfl
@[simp] theorem State.onAux_tx (s : State) (f : AuxSt → AuxSt) : (s.onAux f).tx = s.tx := rfl
@[simp] theorem State.onAux_raw (s : State) (f : AuxSt → AuxSt) : (s.onAux f).raw = s.raw := rfl
@[simp] theorem State.onAux_time (s : State) (f : AuxSt → AuxSt) : (s.onAux f).time = s.time := rfl
@[simp] theorem State.onAux_ports (s : State) (f : AuxSt → AuxSt) : (s.onAux f).ports = s.ports := rfl
@[simp] theorem State.onAux_hat (s : State) (f : AuxSt → AuxSt) : (s.onAux f).hat = s.hat := rfl
@[simp] theorem State.onAux_cards (s : State) (f : AuxSt → AuxSt) : (s.onAux f).cards = s.cards := rfl
@[simp] theorem State.onAux_slots (s : State) (f : AuxSt → AuxSt) : (s.onAux f).slots = s.slots := rfl
@[simp] theorem State.onAux_eqs (s : State) (f : AuxSt → AuxSt) : (s.onAux f).eqs = s.eqs := rfl
@[simp] theorem State.onAux_recSeq (s : State) (f : AuxSt → AuxSt) : (s.onAux f).recSeq = s.recSeq := rfl
@[simp] theorem State.onAux_kcopies (s : State) (f : AuxSt → AuxSt) : (s.onAux f).kcopies = s.kcopies := rfl
@[simp] theorem State.onAux_ful (s : State) (f : AuxSt → AuxSt) : (s.onAux f).ful = s.ful := rfl
@[simp] theorem State.onAux_mills (s : State) (f : AuxSt → AuxSt) : (s.onAux f).mills = s.mills := rfl
@[simp] theorem State.onAux_ms (s : State) (f : AuxSt → AuxSt) : (s.onAux f).ms = s.ms := rfl
@[simp] theorem State.onAux_ft (s : State) (f : AuxSt → AuxSt) : (s.onAux f).ft = s.ft := rfl
@[simp] theorem State.onAux_kerb (s : State) (f : AuxSt → AuxSt) : (s.onAux f).kerb = s.kerb := rfl
@[simp] theorem State.onAux_mail (s : State) (f : AuxSt → AuxSt) : (s.onAux f).mail = s.mail := rfl
@[simp] theorem State.onAux_sec (s : State) (f : AuxSt → AuxSt) : (s.onAux f).sec = s.sec := rfl
@[simp] theorem State.onAux_cw (s : State) (f : AuxSt → AuxSt) : (s.onAux f).cw = s.cw := rfl
@[simp] theorem State.onAux_pm (s : State) (f : AuxSt → AuxSt) : (s.onAux f).pm = s.pm := rfl
@[simp] theorem State.onAux_rst (s : State) (f : AuxSt → AuxSt) : (s.onAux f).rst = s.rst := rfl
@[simp] theorem State.onAux_fns (s : State) (f : AuxSt → AuxSt) : (s.onAux f).fns = s.fns := rfl
@[simp] theorem State.onAux_vfEnable (s : State) (f : AuxSt → AuxSt) : (s.onAux f).vfEnable = s.vfEnable := rfl
@[simp] theorem State.onAux_numVfs (s : State) (f : AuxSt → AuxSt) : (s.onAux f).numVfs = s.numVfs := rfl
@[simp] theorem State.onAux_memCap (s : State) (f : AuxSt → AuxSt) : (s.onAux f).memCap = s.memCap := rfl
@[simp] theorem State.onAux_link (s : State) (f : AuxSt → AuxSt) : (s.onAux f).link = s.link := rfl
@[simp] theorem State.onAux_hostIn (s : State) (f : AuxSt → AuxSt) : (s.onAux f).hostIn = s.hostIn := rfl
@[simp] theorem State.onAux_linkUes (s : State) (f : AuxSt → AuxSt) : (s.onAux f).linkUes = s.linkUes := rfl
@[simp] theorem State.onAux_errs (s : State) (f : AuxSt → AuxSt) : (s.onAux f).errs = s.errs := rfl
@[simp] theorem State.onAux_isoLog (s : State) (f : AuxSt → AuxSt) : (s.onAux f).isoLog = s.isoLog := rfl
@[simp] theorem State.onAux_wl1 (s : State) (f : AuxSt → AuxSt) : (s.onAux f).wl1 = s.wl1 := rfl
@[simp] theorem State.onAux_cardFenced (s : State) (f : AuxSt → AuxSt) : (s.onAux f).cardFenced = s.cardFenced := rfl
@[simp] theorem State.onAux_fulFenced (s : State) (f : AuxSt → AuxSt) : (s.onAux f).fulFenced = s.fulFenced := rfl
@[simp] theorem State.onAux_supply (s : State) (f : AuxSt → AuxSt) : (s.onAux f).supply = s.supply := rfl
@[simp] theorem State.onAux_pending (s : State) (f : AuxSt → AuxSt) : (s.onAux f).pending = s.pending := rfl

@[simp] theorem State.onErrs_errs (s : State) (f : (Table ErrRing) → (Table ErrRing)) : (s.onErrs f).errs = f s.errs := rfl
@[simp] theorem State.onErrs_regs (s : State) (f : (Table ErrRing) → (Table ErrRing)) : (s.onErrs f).regs = s.regs := rfl
@[simp] theorem State.onErrs_mem (s : State) (f : (Table ErrRing) → (Table ErrRing)) : (s.onErrs f).mem = s.mem := rfl
@[simp] theorem State.onErrs_free (s : State) (f : (Table ErrRing) → (Table ErrRing)) : (s.onErrs f).free = s.free := rfl
@[simp] theorem State.onErrs_tx (s : State) (f : (Table ErrRing) → (Table ErrRing)) : (s.onErrs f).tx = s.tx := rfl
@[simp] theorem State.onErrs_raw (s : State) (f : (Table ErrRing) → (Table ErrRing)) : (s.onErrs f).raw = s.raw := rfl
@[simp] theorem State.onErrs_time (s : State) (f : (Table ErrRing) → (Table ErrRing)) : (s.onErrs f).time = s.time := rfl
@[simp] theorem State.onErrs_ports (s : State) (f : (Table ErrRing) → (Table ErrRing)) : (s.onErrs f).ports = s.ports := rfl
@[simp] theorem State.onErrs_hat (s : State) (f : (Table ErrRing) → (Table ErrRing)) : (s.onErrs f).hat = s.hat := rfl
@[simp] theorem State.onErrs_cards (s : State) (f : (Table ErrRing) → (Table ErrRing)) : (s.onErrs f).cards = s.cards := rfl
@[simp] theorem State.onErrs_slots (s : State) (f : (Table ErrRing) → (Table ErrRing)) : (s.onErrs f).slots = s.slots := rfl
@[simp] theorem State.onErrs_eqs (s : State) (f : (Table ErrRing) → (Table ErrRing)) : (s.onErrs f).eqs = s.eqs := rfl
@[simp] theorem State.onErrs_recSeq (s : State) (f : (Table ErrRing) → (Table ErrRing)) : (s.onErrs f).recSeq = s.recSeq := rfl
@[simp] theorem State.onErrs_kcopies (s : State) (f : (Table ErrRing) → (Table ErrRing)) : (s.onErrs f).kcopies = s.kcopies := rfl
@[simp] theorem State.onErrs_ful (s : State) (f : (Table ErrRing) → (Table ErrRing)) : (s.onErrs f).ful = s.ful := rfl
@[simp] theorem State.onErrs_mills (s : State) (f : (Table ErrRing) → (Table ErrRing)) : (s.onErrs f).mills = s.mills := rfl
@[simp] theorem State.onErrs_ms (s : State) (f : (Table ErrRing) → (Table ErrRing)) : (s.onErrs f).ms = s.ms := rfl
@[simp] theorem State.onErrs_ft (s : State) (f : (Table ErrRing) → (Table ErrRing)) : (s.onErrs f).ft = s.ft := rfl
@[simp] theorem State.onErrs_kerb (s : State) (f : (Table ErrRing) → (Table ErrRing)) : (s.onErrs f).kerb = s.kerb := rfl
@[simp] theorem State.onErrs_mail (s : State) (f : (Table ErrRing) → (Table ErrRing)) : (s.onErrs f).mail = s.mail := rfl
@[simp] theorem State.onErrs_sec (s : State) (f : (Table ErrRing) → (Table ErrRing)) : (s.onErrs f).sec = s.sec := rfl
@[simp] theorem State.onErrs_cw (s : State) (f : (Table ErrRing) → (Table ErrRing)) : (s.onErrs f).cw = s.cw := rfl
@[simp] theorem State.onErrs_pm (s : State) (f : (Table ErrRing) → (Table ErrRing)) : (s.onErrs f).pm = s.pm := rfl
@[simp] theorem State.onErrs_rst (s : State) (f : (Table ErrRing) → (Table ErrRing)) : (s.onErrs f).rst = s.rst := rfl
@[simp] theorem State.onErrs_fns (s : State) (f : (Table ErrRing) → (Table ErrRing)) : (s.onErrs f).fns = s.fns := rfl
@[simp] theorem State.onErrs_vfEnable (s : State) (f : (Table ErrRing) → (Table ErrRing)) : (s.onErrs f).vfEnable = s.vfEnable := rfl
@[simp] theorem State.onErrs_numVfs (s : State) (f : (Table ErrRing) → (Table ErrRing)) : (s.onErrs f).numVfs = s.numVfs := rfl
@[simp] theorem State.onErrs_memCap (s : State) (f : (Table ErrRing) → (Table ErrRing)) : (s.onErrs f).memCap = s.memCap := rfl
@[simp] theorem State.onErrs_link (s : State) (f : (Table ErrRing) → (Table ErrRing)) : (s.onErrs f).link = s.link := rfl
@[simp] theorem State.onErrs_hostIn (s : State) (f : (Table ErrRing) → (Table ErrRing)) : (s.onErrs f).hostIn = s.hostIn := rfl
@[simp] theorem State.onErrs_linkUes (s : State) (f : (Table ErrRing) → (Table ErrRing)) : (s.onErrs f).linkUes = s.linkUes := rfl
@[simp] theorem State.onErrs_aux (s : State) (f : (Table ErrRing) → (Table ErrRing)) : (s.onErrs f).aux = s.aux := rfl
@[simp] theorem State.onErrs_isoLog (s : State) (f : (Table ErrRing) → (Table ErrRing)) : (s.onErrs f).isoLog = s.isoLog := rfl
@[simp] theorem State.onErrs_wl1 (s : State) (f : (Table ErrRing) → (Table ErrRing)) : (s.onErrs f).wl1 = s.wl1 := rfl
@[simp] theorem State.onErrs_cardFenced (s : State) (f : (Table ErrRing) → (Table ErrRing)) : (s.onErrs f).cardFenced = s.cardFenced := rfl
@[simp] theorem State.onErrs_fulFenced (s : State) (f : (Table ErrRing) → (Table ErrRing)) : (s.onErrs f).fulFenced = s.fulFenced := rfl
@[simp] theorem State.onErrs_supply (s : State) (f : (Table ErrRing) → (Table ErrRing)) : (s.onErrs f).supply = s.supply := rfl
@[simp] theorem State.onErrs_pending (s : State) (f : (Table ErrRing) → (Table ErrRing)) : (s.onErrs f).pending = s.pending := rfl

@[simp] theorem State.onIsoLog_isoLog (s : State) (f : (List IsoEnt) → (List IsoEnt)) : (s.onIsoLog f).isoLog = f s.isoLog := rfl
@[simp] theorem State.onIsoLog_regs (s : State) (f : (List IsoEnt) → (List IsoEnt)) : (s.onIsoLog f).regs = s.regs := rfl
@[simp] theorem State.onIsoLog_mem (s : State) (f : (List IsoEnt) → (List IsoEnt)) : (s.onIsoLog f).mem = s.mem := rfl
@[simp] theorem State.onIsoLog_free (s : State) (f : (List IsoEnt) → (List IsoEnt)) : (s.onIsoLog f).free = s.free := rfl
@[simp] theorem State.onIsoLog_tx (s : State) (f : (List IsoEnt) → (List IsoEnt)) : (s.onIsoLog f).tx = s.tx := rfl
@[simp] theorem State.onIsoLog_raw (s : State) (f : (List IsoEnt) → (List IsoEnt)) : (s.onIsoLog f).raw = s.raw := rfl
@[simp] theorem State.onIsoLog_time (s : State) (f : (List IsoEnt) → (List IsoEnt)) : (s.onIsoLog f).time = s.time := rfl
@[simp] theorem State.onIsoLog_ports (s : State) (f : (List IsoEnt) → (List IsoEnt)) : (s.onIsoLog f).ports = s.ports := rfl
@[simp] theorem State.onIsoLog_hat (s : State) (f : (List IsoEnt) → (List IsoEnt)) : (s.onIsoLog f).hat = s.hat := rfl
@[simp] theorem State.onIsoLog_cards (s : State) (f : (List IsoEnt) → (List IsoEnt)) : (s.onIsoLog f).cards = s.cards := rfl
@[simp] theorem State.onIsoLog_slots (s : State) (f : (List IsoEnt) → (List IsoEnt)) : (s.onIsoLog f).slots = s.slots := rfl
@[simp] theorem State.onIsoLog_eqs (s : State) (f : (List IsoEnt) → (List IsoEnt)) : (s.onIsoLog f).eqs = s.eqs := rfl
@[simp] theorem State.onIsoLog_recSeq (s : State) (f : (List IsoEnt) → (List IsoEnt)) : (s.onIsoLog f).recSeq = s.recSeq := rfl
@[simp] theorem State.onIsoLog_kcopies (s : State) (f : (List IsoEnt) → (List IsoEnt)) : (s.onIsoLog f).kcopies = s.kcopies := rfl
@[simp] theorem State.onIsoLog_ful (s : State) (f : (List IsoEnt) → (List IsoEnt)) : (s.onIsoLog f).ful = s.ful := rfl
@[simp] theorem State.onIsoLog_mills (s : State) (f : (List IsoEnt) → (List IsoEnt)) : (s.onIsoLog f).mills = s.mills := rfl
@[simp] theorem State.onIsoLog_ms (s : State) (f : (List IsoEnt) → (List IsoEnt)) : (s.onIsoLog f).ms = s.ms := rfl
@[simp] theorem State.onIsoLog_ft (s : State) (f : (List IsoEnt) → (List IsoEnt)) : (s.onIsoLog f).ft = s.ft := rfl
@[simp] theorem State.onIsoLog_kerb (s : State) (f : (List IsoEnt) → (List IsoEnt)) : (s.onIsoLog f).kerb = s.kerb := rfl
@[simp] theorem State.onIsoLog_mail (s : State) (f : (List IsoEnt) → (List IsoEnt)) : (s.onIsoLog f).mail = s.mail := rfl
@[simp] theorem State.onIsoLog_sec (s : State) (f : (List IsoEnt) → (List IsoEnt)) : (s.onIsoLog f).sec = s.sec := rfl
@[simp] theorem State.onIsoLog_cw (s : State) (f : (List IsoEnt) → (List IsoEnt)) : (s.onIsoLog f).cw = s.cw := rfl
@[simp] theorem State.onIsoLog_pm (s : State) (f : (List IsoEnt) → (List IsoEnt)) : (s.onIsoLog f).pm = s.pm := rfl
@[simp] theorem State.onIsoLog_rst (s : State) (f : (List IsoEnt) → (List IsoEnt)) : (s.onIsoLog f).rst = s.rst := rfl
@[simp] theorem State.onIsoLog_fns (s : State) (f : (List IsoEnt) → (List IsoEnt)) : (s.onIsoLog f).fns = s.fns := rfl
@[simp] theorem State.onIsoLog_vfEnable (s : State) (f : (List IsoEnt) → (List IsoEnt)) : (s.onIsoLog f).vfEnable = s.vfEnable := rfl
@[simp] theorem State.onIsoLog_numVfs (s : State) (f : (List IsoEnt) → (List IsoEnt)) : (s.onIsoLog f).numVfs = s.numVfs := rfl
@[simp] theorem State.onIsoLog_memCap (s : State) (f : (List IsoEnt) → (List IsoEnt)) : (s.onIsoLog f).memCap = s.memCap := rfl
@[simp] theorem State.onIsoLog_link (s : State) (f : (List IsoEnt) → (List IsoEnt)) : (s.onIsoLog f).link = s.link := rfl
@[simp] theorem State.onIsoLog_hostIn (s : State) (f : (List IsoEnt) → (List IsoEnt)) : (s.onIsoLog f).hostIn = s.hostIn := rfl
@[simp] theorem State.onIsoLog_linkUes (s : State) (f : (List IsoEnt) → (List IsoEnt)) : (s.onIsoLog f).linkUes = s.linkUes := rfl
@[simp] theorem State.onIsoLog_aux (s : State) (f : (List IsoEnt) → (List IsoEnt)) : (s.onIsoLog f).aux = s.aux := rfl
@[simp] theorem State.onIsoLog_errs (s : State) (f : (List IsoEnt) → (List IsoEnt)) : (s.onIsoLog f).errs = s.errs := rfl
@[simp] theorem State.onIsoLog_wl1 (s : State) (f : (List IsoEnt) → (List IsoEnt)) : (s.onIsoLog f).wl1 = s.wl1 := rfl
@[simp] theorem State.onIsoLog_cardFenced (s : State) (f : (List IsoEnt) → (List IsoEnt)) : (s.onIsoLog f).cardFenced = s.cardFenced := rfl
@[simp] theorem State.onIsoLog_fulFenced (s : State) (f : (List IsoEnt) → (List IsoEnt)) : (s.onIsoLog f).fulFenced = s.fulFenced := rfl
@[simp] theorem State.onIsoLog_supply (s : State) (f : (List IsoEnt) → (List IsoEnt)) : (s.onIsoLog f).supply = s.supply := rfl
@[simp] theorem State.onIsoLog_pending (s : State) (f : (List IsoEnt) → (List IsoEnt)) : (s.onIsoLog f).pending = s.pending := rfl

@[simp] theorem State.onWl1_wl1 (s : State) (f : (Table Bool) → (Table Bool)) : (s.onWl1 f).wl1 = f s.wl1 := rfl
@[simp] theorem State.onWl1_regs (s : State) (f : (Table Bool) → (Table Bool)) : (s.onWl1 f).regs = s.regs := rfl
@[simp] theorem State.onWl1_mem (s : State) (f : (Table Bool) → (Table Bool)) : (s.onWl1 f).mem = s.mem := rfl
@[simp] theorem State.onWl1_free (s : State) (f : (Table Bool) → (Table Bool)) : (s.onWl1 f).free = s.free := rfl
@[simp] theorem State.onWl1_tx (s : State) (f : (Table Bool) → (Table Bool)) : (s.onWl1 f).tx = s.tx := rfl
@[simp] theorem State.onWl1_raw (s : State) (f : (Table Bool) → (Table Bool)) : (s.onWl1 f).raw = s.raw := rfl
@[simp] theorem State.onWl1_time (s : State) (f : (Table Bool) → (Table Bool)) : (s.onWl1 f).time = s.time := rfl
@[simp] theorem State.onWl1_ports (s : State) (f : (Table Bool) → (Table Bool)) : (s.onWl1 f).ports = s.ports := rfl
@[simp] theorem State.onWl1_hat (s : State) (f : (Table Bool) → (Table Bool)) : (s.onWl1 f).hat = s.hat := rfl
@[simp] theorem State.onWl1_cards (s : State) (f : (Table Bool) → (Table Bool)) : (s.onWl1 f).cards = s.cards := rfl
@[simp] theorem State.onWl1_slots (s : State) (f : (Table Bool) → (Table Bool)) : (s.onWl1 f).slots = s.slots := rfl
@[simp] theorem State.onWl1_eqs (s : State) (f : (Table Bool) → (Table Bool)) : (s.onWl1 f).eqs = s.eqs := rfl
@[simp] theorem State.onWl1_recSeq (s : State) (f : (Table Bool) → (Table Bool)) : (s.onWl1 f).recSeq = s.recSeq := rfl
@[simp] theorem State.onWl1_kcopies (s : State) (f : (Table Bool) → (Table Bool)) : (s.onWl1 f).kcopies = s.kcopies := rfl
@[simp] theorem State.onWl1_ful (s : State) (f : (Table Bool) → (Table Bool)) : (s.onWl1 f).ful = s.ful := rfl
@[simp] theorem State.onWl1_mills (s : State) (f : (Table Bool) → (Table Bool)) : (s.onWl1 f).mills = s.mills := rfl
@[simp] theorem State.onWl1_ms (s : State) (f : (Table Bool) → (Table Bool)) : (s.onWl1 f).ms = s.ms := rfl
@[simp] theorem State.onWl1_ft (s : State) (f : (Table Bool) → (Table Bool)) : (s.onWl1 f).ft = s.ft := rfl
@[simp] theorem State.onWl1_kerb (s : State) (f : (Table Bool) → (Table Bool)) : (s.onWl1 f).kerb = s.kerb := rfl
@[simp] theorem State.onWl1_mail (s : State) (f : (Table Bool) → (Table Bool)) : (s.onWl1 f).mail = s.mail := rfl
@[simp] theorem State.onWl1_sec (s : State) (f : (Table Bool) → (Table Bool)) : (s.onWl1 f).sec = s.sec := rfl
@[simp] theorem State.onWl1_cw (s : State) (f : (Table Bool) → (Table Bool)) : (s.onWl1 f).cw = s.cw := rfl
@[simp] theorem State.onWl1_pm (s : State) (f : (Table Bool) → (Table Bool)) : (s.onWl1 f).pm = s.pm := rfl
@[simp] theorem State.onWl1_rst (s : State) (f : (Table Bool) → (Table Bool)) : (s.onWl1 f).rst = s.rst := rfl
@[simp] theorem State.onWl1_fns (s : State) (f : (Table Bool) → (Table Bool)) : (s.onWl1 f).fns = s.fns := rfl
@[simp] theorem State.onWl1_vfEnable (s : State) (f : (Table Bool) → (Table Bool)) : (s.onWl1 f).vfEnable = s.vfEnable := rfl
@[simp] theorem State.onWl1_numVfs (s : State) (f : (Table Bool) → (Table Bool)) : (s.onWl1 f).numVfs = s.numVfs := rfl
@[simp] theorem State.onWl1_memCap (s : State) (f : (Table Bool) → (Table Bool)) : (s.onWl1 f).memCap = s.memCap := rfl
@[simp] theorem State.onWl1_link (s : State) (f : (Table Bool) → (Table Bool)) : (s.onWl1 f).link = s.link := rfl
@[simp] theorem State.onWl1_hostIn (s : State) (f : (Table Bool) → (Table Bool)) : (s.onWl1 f).hostIn = s.hostIn := rfl
@[simp] theorem State.onWl1_linkUes (s : State) (f : (Table Bool) → (Table Bool)) : (s.onWl1 f).linkUes = s.linkUes := rfl
@[simp] theorem State.onWl1_aux (s : State) (f : (Table Bool) → (Table Bool)) : (s.onWl1 f).aux = s.aux := rfl
@[simp] theorem State.onWl1_errs (s : State) (f : (Table Bool) → (Table Bool)) : (s.onWl1 f).errs = s.errs := rfl
@[simp] theorem State.onWl1_isoLog (s : State) (f : (Table Bool) → (Table Bool)) : (s.onWl1 f).isoLog = s.isoLog := rfl
@[simp] theorem State.onWl1_cardFenced (s : State) (f : (Table Bool) → (Table Bool)) : (s.onWl1 f).cardFenced = s.cardFenced := rfl
@[simp] theorem State.onWl1_fulFenced (s : State) (f : (Table Bool) → (Table Bool)) : (s.onWl1 f).fulFenced = s.fulFenced := rfl
@[simp] theorem State.onWl1_supply (s : State) (f : (Table Bool) → (Table Bool)) : (s.onWl1 f).supply = s.supply := rfl
@[simp] theorem State.onWl1_pending (s : State) (f : (Table Bool) → (Table Bool)) : (s.onWl1 f).pending = s.pending := rfl

@[simp] theorem State.onCardFenced_cardFenced (s : State) (f : (Table Bool) → (Table Bool)) : (s.onCardFenced f).cardFenced = f s.cardFenced := rfl
@[simp] theorem State.onCardFenced_regs (s : State) (f : (Table Bool) → (Table Bool)) : (s.onCardFenced f).regs = s.regs := rfl
@[simp] theorem State.onCardFenced_mem (s : State) (f : (Table Bool) → (Table Bool)) : (s.onCardFenced f).mem = s.mem := rfl
@[simp] theorem State.onCardFenced_free (s : State) (f : (Table Bool) → (Table Bool)) : (s.onCardFenced f).free = s.free := rfl
@[simp] theorem State.onCardFenced_tx (s : State) (f : (Table Bool) → (Table Bool)) : (s.onCardFenced f).tx = s.tx := rfl
@[simp] theorem State.onCardFenced_raw (s : State) (f : (Table Bool) → (Table Bool)) : (s.onCardFenced f).raw = s.raw := rfl
@[simp] theorem State.onCardFenced_time (s : State) (f : (Table Bool) → (Table Bool)) : (s.onCardFenced f).time = s.time := rfl
@[simp] theorem State.onCardFenced_ports (s : State) (f : (Table Bool) → (Table Bool)) : (s.onCardFenced f).ports = s.ports := rfl
@[simp] theorem State.onCardFenced_hat (s : State) (f : (Table Bool) → (Table Bool)) : (s.onCardFenced f).hat = s.hat := rfl
@[simp] theorem State.onCardFenced_cards (s : State) (f : (Table Bool) → (Table Bool)) : (s.onCardFenced f).cards = s.cards := rfl
@[simp] theorem State.onCardFenced_slots (s : State) (f : (Table Bool) → (Table Bool)) : (s.onCardFenced f).slots = s.slots := rfl
@[simp] theorem State.onCardFenced_eqs (s : State) (f : (Table Bool) → (Table Bool)) : (s.onCardFenced f).eqs = s.eqs := rfl
@[simp] theorem State.onCardFenced_recSeq (s : State) (f : (Table Bool) → (Table Bool)) : (s.onCardFenced f).recSeq = s.recSeq := rfl
@[simp] theorem State.onCardFenced_kcopies (s : State) (f : (Table Bool) → (Table Bool)) : (s.onCardFenced f).kcopies = s.kcopies := rfl
@[simp] theorem State.onCardFenced_ful (s : State) (f : (Table Bool) → (Table Bool)) : (s.onCardFenced f).ful = s.ful := rfl
@[simp] theorem State.onCardFenced_mills (s : State) (f : (Table Bool) → (Table Bool)) : (s.onCardFenced f).mills = s.mills := rfl
@[simp] theorem State.onCardFenced_ms (s : State) (f : (Table Bool) → (Table Bool)) : (s.onCardFenced f).ms = s.ms := rfl
@[simp] theorem State.onCardFenced_ft (s : State) (f : (Table Bool) → (Table Bool)) : (s.onCardFenced f).ft = s.ft := rfl
@[simp] theorem State.onCardFenced_kerb (s : State) (f : (Table Bool) → (Table Bool)) : (s.onCardFenced f).kerb = s.kerb := rfl
@[simp] theorem State.onCardFenced_mail (s : State) (f : (Table Bool) → (Table Bool)) : (s.onCardFenced f).mail = s.mail := rfl
@[simp] theorem State.onCardFenced_sec (s : State) (f : (Table Bool) → (Table Bool)) : (s.onCardFenced f).sec = s.sec := rfl
@[simp] theorem State.onCardFenced_cw (s : State) (f : (Table Bool) → (Table Bool)) : (s.onCardFenced f).cw = s.cw := rfl
@[simp] theorem State.onCardFenced_pm (s : State) (f : (Table Bool) → (Table Bool)) : (s.onCardFenced f).pm = s.pm := rfl
@[simp] theorem State.onCardFenced_rst (s : State) (f : (Table Bool) → (Table Bool)) : (s.onCardFenced f).rst = s.rst := rfl
@[simp] theorem State.onCardFenced_fns (s : State) (f : (Table Bool) → (Table Bool)) : (s.onCardFenced f).fns = s.fns := rfl
@[simp] theorem State.onCardFenced_vfEnable (s : State) (f : (Table Bool) → (Table Bool)) : (s.onCardFenced f).vfEnable = s.vfEnable := rfl
@[simp] theorem State.onCardFenced_numVfs (s : State) (f : (Table Bool) → (Table Bool)) : (s.onCardFenced f).numVfs = s.numVfs := rfl
@[simp] theorem State.onCardFenced_memCap (s : State) (f : (Table Bool) → (Table Bool)) : (s.onCardFenced f).memCap = s.memCap := rfl
@[simp] theorem State.onCardFenced_link (s : State) (f : (Table Bool) → (Table Bool)) : (s.onCardFenced f).link = s.link := rfl
@[simp] theorem State.onCardFenced_hostIn (s : State) (f : (Table Bool) → (Table Bool)) : (s.onCardFenced f).hostIn = s.hostIn := rfl
@[simp] theorem State.onCardFenced_linkUes (s : State) (f : (Table Bool) → (Table Bool)) : (s.onCardFenced f).linkUes = s.linkUes := rfl
@[simp] theorem State.onCardFenced_aux (s : State) (f : (Table Bool) → (Table Bool)) : (s.onCardFenced f).aux = s.aux := rfl
@[simp] theorem State.onCardFenced_errs (s : State) (f : (Table Bool) → (Table Bool)) : (s.onCardFenced f).errs = s.errs := rfl
@[simp] theorem State.onCardFenced_isoLog (s : State) (f : (Table Bool) → (Table Bool)) : (s.onCardFenced f).isoLog = s.isoLog := rfl
@[simp] theorem State.onCardFenced_wl1 (s : State) (f : (Table Bool) → (Table Bool)) : (s.onCardFenced f).wl1 = s.wl1 := rfl
@[simp] theorem State.onCardFenced_fulFenced (s : State) (f : (Table Bool) → (Table Bool)) : (s.onCardFenced f).fulFenced = s.fulFenced := rfl
@[simp] theorem State.onCardFenced_supply (s : State) (f : (Table Bool) → (Table Bool)) : (s.onCardFenced f).supply = s.supply := rfl
@[simp] theorem State.onCardFenced_pending (s : State) (f : (Table Bool) → (Table Bool)) : (s.onCardFenced f).pending = s.pending := rfl

@[simp] theorem State.onFulFenced_fulFenced (s : State) (f : Nat → Nat) : (s.onFulFenced f).fulFenced = f s.fulFenced := rfl
@[simp] theorem State.onFulFenced_regs (s : State) (f : Nat → Nat) : (s.onFulFenced f).regs = s.regs := rfl
@[simp] theorem State.onFulFenced_mem (s : State) (f : Nat → Nat) : (s.onFulFenced f).mem = s.mem := rfl
@[simp] theorem State.onFulFenced_free (s : State) (f : Nat → Nat) : (s.onFulFenced f).free = s.free := rfl
@[simp] theorem State.onFulFenced_tx (s : State) (f : Nat → Nat) : (s.onFulFenced f).tx = s.tx := rfl
@[simp] theorem State.onFulFenced_raw (s : State) (f : Nat → Nat) : (s.onFulFenced f).raw = s.raw := rfl
@[simp] theorem State.onFulFenced_time (s : State) (f : Nat → Nat) : (s.onFulFenced f).time = s.time := rfl
@[simp] theorem State.onFulFenced_ports (s : State) (f : Nat → Nat) : (s.onFulFenced f).ports = s.ports := rfl
@[simp] theorem State.onFulFenced_hat (s : State) (f : Nat → Nat) : (s.onFulFenced f).hat = s.hat := rfl
@[simp] theorem State.onFulFenced_cards (s : State) (f : Nat → Nat) : (s.onFulFenced f).cards = s.cards := rfl
@[simp] theorem State.onFulFenced_slots (s : State) (f : Nat → Nat) : (s.onFulFenced f).slots = s.slots := rfl
@[simp] theorem State.onFulFenced_eqs (s : State) (f : Nat → Nat) : (s.onFulFenced f).eqs = s.eqs := rfl
@[simp] theorem State.onFulFenced_recSeq (s : State) (f : Nat → Nat) : (s.onFulFenced f).recSeq = s.recSeq := rfl
@[simp] theorem State.onFulFenced_kcopies (s : State) (f : Nat → Nat) : (s.onFulFenced f).kcopies = s.kcopies := rfl
@[simp] theorem State.onFulFenced_ful (s : State) (f : Nat → Nat) : (s.onFulFenced f).ful = s.ful := rfl
@[simp] theorem State.onFulFenced_mills (s : State) (f : Nat → Nat) : (s.onFulFenced f).mills = s.mills := rfl
@[simp] theorem State.onFulFenced_ms (s : State) (f : Nat → Nat) : (s.onFulFenced f).ms = s.ms := rfl
@[simp] theorem State.onFulFenced_ft (s : State) (f : Nat → Nat) : (s.onFulFenced f).ft = s.ft := rfl
@[simp] theorem State.onFulFenced_kerb (s : State) (f : Nat → Nat) : (s.onFulFenced f).kerb = s.kerb := rfl
@[simp] theorem State.onFulFenced_mail (s : State) (f : Nat → Nat) : (s.onFulFenced f).mail = s.mail := rfl
@[simp] theorem State.onFulFenced_sec (s : State) (f : Nat → Nat) : (s.onFulFenced f).sec = s.sec := rfl
@[simp] theorem State.onFulFenced_cw (s : State) (f : Nat → Nat) : (s.onFulFenced f).cw = s.cw := rfl
@[simp] theorem State.onFulFenced_pm (s : State) (f : Nat → Nat) : (s.onFulFenced f).pm = s.pm := rfl
@[simp] theorem State.onFulFenced_rst (s : State) (f : Nat → Nat) : (s.onFulFenced f).rst = s.rst := rfl
@[simp] theorem State.onFulFenced_fns (s : State) (f : Nat → Nat) : (s.onFulFenced f).fns = s.fns := rfl
@[simp] theorem State.onFulFenced_vfEnable (s : State) (f : Nat → Nat) : (s.onFulFenced f).vfEnable = s.vfEnable := rfl
@[simp] theorem State.onFulFenced_numVfs (s : State) (f : Nat → Nat) : (s.onFulFenced f).numVfs = s.numVfs := rfl
@[simp] theorem State.onFulFenced_memCap (s : State) (f : Nat → Nat) : (s.onFulFenced f).memCap = s.memCap := rfl
@[simp] theorem State.onFulFenced_link (s : State) (f : Nat → Nat) : (s.onFulFenced f).link = s.link := rfl
@[simp] theorem State.onFulFenced_hostIn (s : State) (f : Nat → Nat) : (s.onFulFenced f).hostIn = s.hostIn := rfl
@[simp] theorem State.onFulFenced_linkUes (s : State) (f : Nat → Nat) : (s.onFulFenced f).linkUes = s.linkUes := rfl
@[simp] theorem State.onFulFenced_aux (s : State) (f : Nat → Nat) : (s.onFulFenced f).aux = s.aux := rfl
@[simp] theorem State.onFulFenced_errs (s : State) (f : Nat → Nat) : (s.onFulFenced f).errs = s.errs := rfl
@[simp] theorem State.onFulFenced_isoLog (s : State) (f : Nat → Nat) : (s.onFulFenced f).isoLog = s.isoLog := rfl
@[simp] theorem State.onFulFenced_wl1 (s : State) (f : Nat → Nat) : (s.onFulFenced f).wl1 = s.wl1 := rfl
@[simp] theorem State.onFulFenced_cardFenced (s : State) (f : Nat → Nat) : (s.onFulFenced f).cardFenced = s.cardFenced := rfl
@[simp] theorem State.onFulFenced_supply (s : State) (f : Nat → Nat) : (s.onFulFenced f).supply = s.supply := rfl
@[simp] theorem State.onFulFenced_pending (s : State) (f : Nat → Nat) : (s.onFulFenced f).pending = s.pending := rfl

@[simp] theorem State.onSupply_supply (s : State) (f : SupplySt → SupplySt) : (s.onSupply f).supply = f s.supply := rfl
@[simp] theorem State.onSupply_regs (s : State) (f : SupplySt → SupplySt) : (s.onSupply f).regs = s.regs := rfl
@[simp] theorem State.onSupply_mem (s : State) (f : SupplySt → SupplySt) : (s.onSupply f).mem = s.mem := rfl
@[simp] theorem State.onSupply_free (s : State) (f : SupplySt → SupplySt) : (s.onSupply f).free = s.free := rfl
@[simp] theorem State.onSupply_tx (s : State) (f : SupplySt → SupplySt) : (s.onSupply f).tx = s.tx := rfl
@[simp] theorem State.onSupply_raw (s : State) (f : SupplySt → SupplySt) : (s.onSupply f).raw = s.raw := rfl
@[simp] theorem State.onSupply_time (s : State) (f : SupplySt → SupplySt) : (s.onSupply f).time = s.time := rfl
@[simp] theorem State.onSupply_ports (s : State) (f : SupplySt → SupplySt) : (s.onSupply f).ports = s.ports := rfl
@[simp] theorem State.onSupply_hat (s : State) (f : SupplySt → SupplySt) : (s.onSupply f).hat = s.hat := rfl
@[simp] theorem State.onSupply_cards (s : State) (f : SupplySt → SupplySt) : (s.onSupply f).cards = s.cards := rfl
@[simp] theorem State.onSupply_slots (s : State) (f : SupplySt → SupplySt) : (s.onSupply f).slots = s.slots := rfl
@[simp] theorem State.onSupply_eqs (s : State) (f : SupplySt → SupplySt) : (s.onSupply f).eqs = s.eqs := rfl
@[simp] theorem State.onSupply_recSeq (s : State) (f : SupplySt → SupplySt) : (s.onSupply f).recSeq = s.recSeq := rfl
@[simp] theorem State.onSupply_kcopies (s : State) (f : SupplySt → SupplySt) : (s.onSupply f).kcopies = s.kcopies := rfl
@[simp] theorem State.onSupply_ful (s : State) (f : SupplySt → SupplySt) : (s.onSupply f).ful = s.ful := rfl
@[simp] theorem State.onSupply_mills (s : State) (f : SupplySt → SupplySt) : (s.onSupply f).mills = s.mills := rfl
@[simp] theorem State.onSupply_ms (s : State) (f : SupplySt → SupplySt) : (s.onSupply f).ms = s.ms := rfl
@[simp] theorem State.onSupply_ft (s : State) (f : SupplySt → SupplySt) : (s.onSupply f).ft = s.ft := rfl
@[simp] theorem State.onSupply_kerb (s : State) (f : SupplySt → SupplySt) : (s.onSupply f).kerb = s.kerb := rfl
@[simp] theorem State.onSupply_mail (s : State) (f : SupplySt → SupplySt) : (s.onSupply f).mail = s.mail := rfl
@[simp] theorem State.onSupply_sec (s : State) (f : SupplySt → SupplySt) : (s.onSupply f).sec = s.sec := rfl
@[simp] theorem State.onSupply_cw (s : State) (f : SupplySt → SupplySt) : (s.onSupply f).cw = s.cw := rfl
@[simp] theorem State.onSupply_pm (s : State) (f : SupplySt → SupplySt) : (s.onSupply f).pm = s.pm := rfl
@[simp] theorem State.onSupply_rst (s : State) (f : SupplySt → SupplySt) : (s.onSupply f).rst = s.rst := rfl
@[simp] theorem State.onSupply_fns (s : State) (f : SupplySt → SupplySt) : (s.onSupply f).fns = s.fns := rfl
@[simp] theorem State.onSupply_vfEnable (s : State) (f : SupplySt → SupplySt) : (s.onSupply f).vfEnable = s.vfEnable := rfl
@[simp] theorem State.onSupply_numVfs (s : State) (f : SupplySt → SupplySt) : (s.onSupply f).numVfs = s.numVfs := rfl
@[simp] theorem State.onSupply_memCap (s : State) (f : SupplySt → SupplySt) : (s.onSupply f).memCap = s.memCap := rfl
@[simp] theorem State.onSupply_link (s : State) (f : SupplySt → SupplySt) : (s.onSupply f).link = s.link := rfl
@[simp] theorem State.onSupply_hostIn (s : State) (f : SupplySt → SupplySt) : (s.onSupply f).hostIn = s.hostIn := rfl
@[simp] theorem State.onSupply_linkUes (s : State) (f : SupplySt → SupplySt) : (s.onSupply f).linkUes = s.linkUes := rfl
@[simp] theorem State.onSupply_aux (s : State) (f : SupplySt → SupplySt) : (s.onSupply f).aux = s.aux := rfl
@[simp] theorem State.onSupply_errs (s : State) (f : SupplySt → SupplySt) : (s.onSupply f).errs = s.errs := rfl
@[simp] theorem State.onSupply_isoLog (s : State) (f : SupplySt → SupplySt) : (s.onSupply f).isoLog = s.isoLog := rfl
@[simp] theorem State.onSupply_wl1 (s : State) (f : SupplySt → SupplySt) : (s.onSupply f).wl1 = s.wl1 := rfl
@[simp] theorem State.onSupply_cardFenced (s : State) (f : SupplySt → SupplySt) : (s.onSupply f).cardFenced = s.cardFenced := rfl
@[simp] theorem State.onSupply_fulFenced (s : State) (f : SupplySt → SupplySt) : (s.onSupply f).fulFenced = s.fulFenced := rfl
@[simp] theorem State.onSupply_pending (s : State) (f : SupplySt → SupplySt) : (s.onSupply f).pending = s.pending := rfl

@[simp] theorem State.onPending_pending (s : State) (f : (List Instr) → (List Instr)) : (s.onPending f).pending = f s.pending := rfl
@[simp] theorem State.onPending_regs (s : State) (f : (List Instr) → (List Instr)) : (s.onPending f).regs = s.regs := rfl
@[simp] theorem State.onPending_mem (s : State) (f : (List Instr) → (List Instr)) : (s.onPending f).mem = s.mem := rfl
@[simp] theorem State.onPending_free (s : State) (f : (List Instr) → (List Instr)) : (s.onPending f).free = s.free := rfl
@[simp] theorem State.onPending_tx (s : State) (f : (List Instr) → (List Instr)) : (s.onPending f).tx = s.tx := rfl
@[simp] theorem State.onPending_raw (s : State) (f : (List Instr) → (List Instr)) : (s.onPending f).raw = s.raw := rfl
@[simp] theorem State.onPending_time (s : State) (f : (List Instr) → (List Instr)) : (s.onPending f).time = s.time := rfl
@[simp] theorem State.onPending_ports (s : State) (f : (List Instr) → (List Instr)) : (s.onPending f).ports = s.ports := rfl
@[simp] theorem State.onPending_hat (s : State) (f : (List Instr) → (List Instr)) : (s.onPending f).hat = s.hat := rfl
@[simp] theorem State.onPending_cards (s : State) (f : (List Instr) → (List Instr)) : (s.onPending f).cards = s.cards := rfl
@[simp] theorem State.onPending_slots (s : State) (f : (List Instr) → (List Instr)) : (s.onPending f).slots = s.slots := rfl
@[simp] theorem State.onPending_eqs (s : State) (f : (List Instr) → (List Instr)) : (s.onPending f).eqs = s.eqs := rfl
@[simp] theorem State.onPending_recSeq (s : State) (f : (List Instr) → (List Instr)) : (s.onPending f).recSeq = s.recSeq := rfl
@[simp] theorem State.onPending_kcopies (s : State) (f : (List Instr) → (List Instr)) : (s.onPending f).kcopies = s.kcopies := rfl
@[simp] theorem State.onPending_ful (s : State) (f : (List Instr) → (List Instr)) : (s.onPending f).ful = s.ful := rfl
@[simp] theorem State.onPending_mills (s : State) (f : (List Instr) → (List Instr)) : (s.onPending f).mills = s.mills := rfl
@[simp] theorem State.onPending_ms (s : State) (f : (List Instr) → (List Instr)) : (s.onPending f).ms = s.ms := rfl
@[simp] theorem State.onPending_ft (s : State) (f : (List Instr) → (List Instr)) : (s.onPending f).ft = s.ft := rfl
@[simp] theorem State.onPending_kerb (s : State) (f : (List Instr) → (List Instr)) : (s.onPending f).kerb = s.kerb := rfl
@[simp] theorem State.onPending_mail (s : State) (f : (List Instr) → (List Instr)) : (s.onPending f).mail = s.mail := rfl
@[simp] theorem State.onPending_sec (s : State) (f : (List Instr) → (List Instr)) : (s.onPending f).sec = s.sec := rfl
@[simp] theorem State.onPending_cw (s : State) (f : (List Instr) → (List Instr)) : (s.onPending f).cw = s.cw := rfl
@[simp] theorem State.onPending_pm (s : State) (f : (List Instr) → (List Instr)) : (s.onPending f).pm = s.pm := rfl
@[simp] theorem State.onPending_rst (s : State) (f : (List Instr) → (List Instr)) : (s.onPending f).rst = s.rst := rfl
@[simp] theorem State.onPending_fns (s : State) (f : (List Instr) → (List Instr)) : (s.onPending f).fns = s.fns := rfl
@[simp] theorem State.onPending_vfEnable (s : State) (f : (List Instr) → (List Instr)) : (s.onPending f).vfEnable = s.vfEnable := rfl
@[simp] theorem State.onPending_numVfs (s : State) (f : (List Instr) → (List Instr)) : (s.onPending f).numVfs = s.numVfs := rfl
@[simp] theorem State.onPending_memCap (s : State) (f : (List Instr) → (List Instr)) : (s.onPending f).memCap = s.memCap := rfl
@[simp] theorem State.onPending_link (s : State) (f : (List Instr) → (List Instr)) : (s.onPending f).link = s.link := rfl
@[simp] theorem State.onPending_hostIn (s : State) (f : (List Instr) → (List Instr)) : (s.onPending f).hostIn = s.hostIn := rfl
@[simp] theorem State.onPending_linkUes (s : State) (f : (List Instr) → (List Instr)) : (s.onPending f).linkUes = s.linkUes := rfl
@[simp] theorem State.onPending_aux (s : State) (f : (List Instr) → (List Instr)) : (s.onPending f).aux = s.aux := rfl
@[simp] theorem State.onPending_errs (s : State) (f : (List Instr) → (List Instr)) : (s.onPending f).errs = s.errs := rfl
@[simp] theorem State.onPending_isoLog (s : State) (f : (List Instr) → (List Instr)) : (s.onPending f).isoLog = s.isoLog := rfl
@[simp] theorem State.onPending_wl1 (s : State) (f : (List Instr) → (List Instr)) : (s.onPending f).wl1 = s.wl1 := rfl
@[simp] theorem State.onPending_cardFenced (s : State) (f : (List Instr) → (List Instr)) : (s.onPending f).cardFenced = s.cardFenced := rfl
@[simp] theorem State.onPending_fulFenced (s : State) (f : (List Instr) → (List Instr)) : (s.onPending f).fulFenced = s.fulFenced := rfl
@[simp] theorem State.onPending_supply (s : State) (f : (List Instr) → (List Instr)) : (s.onPending f).supply = s.supply := rfl

end Sys2Proof.Machine
end

