-- ==== Sys2Proof/Laws/Table.lean ====
section
/-!
SUPPORT. The laws of sparse tables: a read after a write, and every operation keeps the canonical form.
-/
namespace Sys2Proof.Machine

variable {α : Type}

@[simp] theorem Table.get_nil (d : α) (k : Nat) : Table.get d [] k = d := rfl

theorem Table.get_cons (d : α) (e : Nat × α) (t : Table α) (k : Nat) :
    Table.get d (e :: t) k = if e.1 = k then e.2 else Table.get d t k := rfl

@[simp] theorem Table.get_erase_same (d : α) (t : Table α) (k : Nat) : Table.get d (Table.erase t k) k = d := by
  induction t with
  | nil => rfl
  | cons e t ih => by_cases h : e.1 = k <;> simp_all [Table.erase, Table.get_cons]

@[simp] theorem Table.get_erase_other (d : α) (t : Table α) {k j : Nat} (h : j ≠ k) :
    Table.get d (Table.erase t k) j = Table.get d t j := by
  induction t with
  | nil => rfl
  | cons e t ih =>
    by_cases hk : e.1 = k
    · have : e.1 ≠ j := by omega
      simp_all [Table.erase, Table.get_cons]
    · simp_all [Table.erase, Table.get_cons]

theorem Table.get_insert_other (d : α) (t : Table α) (k : Nat) (v : α) {j : Nat} (h : j ≠ k) :
    Table.get d (Table.insert t k v) j = Table.get d t j := by
  induction t with
  | nil => simp [Table.insert, Table.get_cons, h.symm]
  | cons e t ih =>
    simp only [Table.insert]
    split
    · simp [Table.get_cons, h.symm]
    · simp [Table.get_cons, ih]

theorem Table.get_insert_same (d : α) (t : Table α) (k : Nat) (v : α) (h : ∀ e ∈ t, e.1 ≠ k) :
    Table.get d (Table.insert t k v) k = v := by
  induction t with
  | nil => simp [Table.insert, Table.get_cons]
  | cons e t ih =>
    simp only [Table.insert]
    split
    · simp [Table.get_cons]
    · rw [Table.get_cons, if_neg (h e (by simp))]
      exact ih fun f hf => h f (List.mem_cons_of_mem _ hf)

theorem Table.mem_erase {t : Table α} {k : Nat} {e : Nat × α} (h : e ∈ Table.erase t k) : e ∈ t ∧ e.1 ≠ k := by
  induction t with
  | nil => simp [Table.erase] at h
  | cons f t ih =>
    by_cases hk : f.1 = k
    · simp only [Table.erase, hk, if_true] at h
      exact ⟨List.mem_cons_of_mem _ (ih h).1, (ih h).2⟩
    · simp only [Table.erase, hk, if_false, List.mem_cons] at h
      obtain rfl | h := h
      · exact ⟨by simp, hk⟩
      · exact ⟨List.mem_cons_of_mem _ (ih h).1, (ih h).2⟩

theorem Table.mem_insert {t : Table α} {k : Nat} {v : α} {e : Nat × α} (h : e ∈ Table.insert t k v) :
    e = (k, v) ∨ e ∈ t := by
  induction t with
  | nil => simpa [Table.insert] using h
  | cons f t ih =>
    by_cases hk : k < f.1
    · simpa [Table.insert, hk] using h
    · simp only [Table.insert, hk, if_false, List.mem_cons] at h
      obtain rfl | h := h
      · simp
      · obtain h | h := ih h <;> simp [h]

variable [DecidableEq α]

/-- A read after a write to the same key. -/
@[simp] theorem Table.get_set_same (d : α) (t : Table α) (k : Nat) (v : α) : Table.get d (Table.set d t k v) k = v := by
  unfold Table.set
  split
  · simp [*]
  · exact Table.get_insert_same d _ k v fun e he => (Table.mem_erase he).2

/-- A write leaves every other key alone. -/
@[simp] theorem Table.get_set_other (d : α) (t : Table α) (k : Nat) (v : α) {j : Nat} (h : j ≠ k) :
    Table.get d (Table.set d t k v) j = Table.get d t j := by
  unfold Table.set
  split
  · exact Table.get_erase_other d t h
  · rw [Table.get_insert_other d _ k v h, Table.get_erase_other d t h]

/-- The same where the two keys have different defaults. -/
theorem Table.get_set_two (d d' : α) (t : Table α) {k j : Nat} (v : α) (h : j ≠ k) :
    Table.get d' (Table.set d t k v) j = Table.get d' t j := by
  unfold Table.set
  split
  · exact Table.get_erase_other d' t h
  · rw [Table.get_insert_other d' _ k v h, Table.get_erase_other d' t h]

@[simp] theorem Table.get_upd_same (d : α) (t : Table α) (k : Nat) (f : α → α) :
    Table.get d (Table.upd d t k f) k = f (Table.get d t k) := Table.get_set_same d t k _

@[simp] theorem Table.get_upd_other (d : α) (t : Table α) (k : Nat) (f : α → α) {j : Nat} (h : j ≠ k) :
    Table.get d (Table.upd d t k f) j = Table.get d t j := Table.get_set_other d t k _ h

omit [DecidableEq α] in
/-- What a kept key reads as, and what a dropped one does. -/
theorem Table.get_keep (d : α) (p : Nat → Bool) (t : Table α) (k : Nat) :
    Table.get d (Table.keep p t) k = if p k then Table.get d t k else d := by
  induction t with
  | nil => simp [Table.keep]
  | cons e t ih =>
    by_cases hp : p e.1
    · rw [show Table.keep p (e :: t) = e :: Table.keep p t from List.filter_cons_of_pos hp, Table.get_cons, ih, Table.get_cons]
      by_cases hk : e.1 = k
      · simp [← hk, hp]
      · simp [hk]
    · rw [show Table.keep p (e :: t) = Table.keep p t from List.filter_cons_of_neg (by simpa using hp), ih, Table.get_cons]
      by_cases hk : e.1 = k
      · simp [← hk, hp]
      · simp [hk]

/-! ### The canonical form -/

theorem Table.wf_nil (d : α) : Table.wf d ([] : Table α) := ⟨List.Pairwise.nil, by simp⟩

theorem Table.wf_keep {d : α} {t : Table α} (h : Table.wf d t) (p : Nat → Bool) : Table.wf d (Table.keep p t) :=
  ⟨h.1.sublist (List.filter_sublist.map _), fun e he => h.2 e (List.mem_of_mem_filter he)⟩

omit [DecidableEq α] in
theorem Table.erase_eq_keep (t : Table α) (k : Nat) : Table.erase t k = Table.keep (fun j => decide (j ≠ k)) t := by
  induction t with
  | nil => rfl
  | cons e t ih => by_cases h : e.1 = k <;> simp_all [Table.erase, Table.keep]

omit [DecidableEq α] in
theorem Table.sorted_insert {t : Table α} {k : Nat} {v : α} (h : (t.map Prod.fst).Pairwise (· < ·)) (hk : ∀ e ∈ t, e.1 ≠ k) :
    ((Table.insert t k v).map Prod.fst).Pairwise (· < ·) := by
  induction t with
  | nil => simp [Table.insert]
  | cons e t ih =>
    rw [List.map_cons, List.pairwise_cons] at h
    by_cases hlt : k < e.1
    · simp only [Table.insert, hlt, if_true, List.map_cons, List.pairwise_cons]
      refine ⟨?_, h⟩
      intro a ha
      rcases List.mem_cons.1 ha with rfl | ha
      · exact hlt
      · exact hlt.trans (h.1 a ha)
    · simp only [Table.insert, hlt, if_false, List.map_cons, List.pairwise_cons]
      refine ⟨?_, ih h.2 fun f hf => hk f (List.mem_cons_of_mem _ hf)⟩
      intro a ha
      obtain ⟨f, hf, rfl⟩ := List.mem_map.1 ha
      have hne := hk e (by simp)
      rcases Table.mem_insert hf with rfl | hf
      · simp only; omega
      · exact h.1 _ (List.mem_map_of_mem hf)

/-- A write keeps the canonical form. -/
theorem Table.wf_set {d : α} {t : Table α} (h : Table.wf d t) (k : Nat) (v : α) : Table.wf d (Table.set d t k v) := by
  have he : Table.wf d (Table.erase t k) := by rw [Table.erase_eq_keep]; exact Table.wf_keep h _
  unfold Table.set
  split
  · exact he
  · refine ⟨Table.sorted_insert he.1 fun e h => (Table.mem_erase h).2, fun e h => ?_⟩
    rcases Table.mem_insert h with rfl | h
    · assumption
    · exact he.2 e h

theorem Table.wf_upd {d : α} {t : Table α} (h : Table.wf d t) (k : Nat) (f : α → α) : Table.wf d (Table.upd d t k f) :=
  Table.wf_set h k _

/-- Every entry of a table after a write is the one written or an old one. -/
theorem Table.mem_set {d : α} {t : Table α} {k : Nat} {v : α} {e : Nat × α} (h : e ∈ Table.set d t k v) :
    (e = (k, v) ∧ v ≠ d) ∨ e ∈ t := by
  unfold Table.set at h
  split at h
  · exact .inr (Table.mem_erase h).1
  · rcases Table.mem_insert h with rfl | h
    · exact .inl ⟨rfl, ‹_›⟩
    · exact .inr (Table.mem_erase h).1

end Sys2Proof.Machine
end

