-- ==== Sys2Proof/Laws/Ops.lean ====
section
/-!
SUPPORT. The laws of the named operations: register fields, memory bytes, free values, and what each leaves alone.
-/
namespace Sys2Proof.Machine

/-! ### Keys -/

theorem Reg.ctorIdx_inj {r q : Reg} (h : r.ctorIdx = q.ctorIdx) : r = q := by simpa [Reg.ofNat_ctorIdx] using congrArg Reg.ofNat h

theorem Reg.key_inj {r q : Reg} {i j : Nat} (h : r.key i = q.key j) : r = q ∧ i % 2 ^ 24 = j % 2 ^ 24 := by
  unfold Reg.key at h
  have hi := Nat.mod_lt i (show 0 < 2 ^ 24 by norm_num)
  have hj := Nat.mod_lt j (show 0 < 2 ^ 24 by norm_num)
  exact ⟨Reg.ctorIdx_inj (by omega), by omega⟩

theorem Reg.key_ne_of_reg {r q : Reg} (h : r ≠ q) (i j : Nat) : r.key i ≠ q.key j := fun e => h (Reg.key_inj e).1

theorem Reg.key_ne_of_index {r : Reg} {i j : Nat} (hi : i < 2 ^ 24) (hj : j < 2 ^ 24) (h : i ≠ j) : r.key i ≠ r.key j := by
  intro e
  have := (Reg.key_inj e).2
  rw [Nat.mod_eq_of_lt hi, Nat.mod_eq_of_lt hj] at this
  exact h this

@[simp] theorem keyField_key (r : Reg) (i : Nat) : keyField (r.key i) = r.ctorIdx := by
  unfold keyField Reg.key
  have hi := Nat.mod_lt i (show 0 < 2 ^ 24 by norm_num)
  omega

/-! ### Register fields -/

/-- A field reads what was written to it, cut to its width. -/
@[simp] theorem State.rd_wr_same (s : State) (r : Reg) (i v : Nat) : (s.wr r i v).rd r i = v % 2 ^ r.spec.width :=
  Table.get_set_same _ _ _ _

/-- Instances are numbered modulo 2^24. -/
theorem State.rd_wr_mod (s : State) (r : Reg) (i j v : Nat) (h : i % 2 ^ 24 = j % 2 ^ 24) :
    (s.wr r i v).rd r j = v % 2 ^ r.spec.width := by
  have : r.key j = r.key i := by unfold Reg.key; omega
  unfold State.rd
  rw [this]
  exact State.rd_wr_same s r i v

/-- A write to one field leaves every instance of every other field. -/
theorem State.rd_wr_other (s : State) {r q : Reg} (i v j : Nat) (h : q ≠ r) : (s.wr r i v).rd q j = s.rd q j := by
  unfold State.rd State.wr
  rw [State.onRegs_regs]
  exact Table.get_set_two _ _ _ _ (Reg.key_ne_of_reg h j i)

/-- A write to one instance leaves the others. -/
theorem State.rd_wr_index (s : State) (r : Reg) {i j : Nat} (v : Nat) (hi : i < 2 ^ 24) (hj : j < 2 ^ 24) (h : j ≠ i) :
    (s.wr r i v).rd r j = s.rd r j :=
  Table.get_set_other _ _ _ _ (Reg.key_ne_of_index hj hi h)

/-- A read in a state whose register fields are the same. -/
theorem State.rd_congr {s t : State} (h : t.regs = s.regs) (r : Reg) (i : Nat) : t.rd r i = s.rd r i := by
  unfold State.rd
  rw [h]

/-- Every field reads its reset value after reset. -/
@[simp] theorem State.rd_reset (r : Reg) (i : Nat) : State.reset.rd r i = r.spec.rst := rfl

/-- The reset value of a field fits its width. -/
theorem Reg.rst_lt (r : Reg) : r.spec.rst < 2 ^ r.spec.width := by cases r <;> decide

/-- In a state whose registers are in canonical form a field reads a value of its width. -/
theorem State.rd_lt {s : State} (h : RegsOk s.regs) (r : Reg) (i : Nat) :
    s.rd r i < 2 ^ r.spec.width := by
  have key : ∀ t : Table Nat, (∀ e ∈ t, e ∈ s.regs) → Table.get r.spec.rst t (r.key i) < 2 ^ r.spec.width := by
    intro t
    induction t with
    | nil => intro _; exact r.rst_lt
    | cons e t ih =>
      intro hm
      rw [Table.get_cons]
      split
      · next hkey =>
        obtain ⟨q, j, hk, hw, -⟩ := h.2 e (hm e (by simp))
        rw [hkey] at hk
        rw [(Reg.key_inj hk).1]
        exact hw
      · exact ih fun f hf => hm f (List.mem_cons_of_mem _ hf)
  exact key s.regs fun _ he => he

/-- A write keeps the registers in their canonical form. -/
theorem State.regsOk_wr {s : State} (h : RegsOk s.regs) (r : Reg) (i v : Nat) : RegsOk (s.wr r i v).regs := by
  have hs : ((s.regs.map Prod.fst).Pairwise (· < ·)) := by rw [List.pairwise_map]; exact h.1
  have he : ((Table.erase s.regs (r.key i)).map Prod.fst).Pairwise (· < ·) := by
    rw [Table.erase_eq_keep]; exact hs.sublist (List.filter_sublist.map _)
  refine ⟨?_, fun e he => ?_⟩
  · rw [← List.pairwise_map (f := Prod.fst)]
    change ((Table.set r.spec.rst s.regs (r.key i) _).map Prod.fst).Pairwise _
    unfold Table.set
    split
    · exact he
    · exact Table.sorted_insert he fun e h => (Table.mem_erase h).2
  · obtain ⟨rfl, hv⟩ | he := Table.mem_set (d := r.spec.rst) he
    · exact ⟨r, i, rfl, Nat.mod_lt _ (Nat.two_pow_pos _), hv⟩
    · exact h.2 e he

/-- Dropping entries keeps it. -/
theorem regsOk_keep {t : Table Nat} (h : RegsOk t) (p : Nat → Bool) : RegsOk (Table.keep p t) :=
  ⟨h.1.sublist List.filter_sublist, fun e he => h.2 e (List.mem_of_mem_filter he)⟩

theorem regsOk_nil : RegsOk [] := ⟨List.Pairwise.nil, by simp⟩

theorem State.regsOk_put {s : State} (h : RegsOk s.regs) (r : Reg) (i : Nat) (b : Bool) : RegsOk (s.put r i b).regs :=
  State.regsOk_wr h r i _

theorem State.regsOk_count {s : State} (h : RegsOk s.regs) (r : Reg) (i n : Nat) : RegsOk (s.count r i n).regs :=
  State.regsOk_wr h r i _

theorem State.regsOk_clearRange {s : State} (h : RegsOk s.regs) (r : Reg) (n : Nat) : RegsOk (s.clearRange r n).regs := by
  unfold State.clearRange
  rw [State.onRegs_regs]
  exact regsOk_keep h _

/-! ### Memory -/

/-- A byte reads what was stored in it. -/
@[simp] theorem State.ldByte_stByte_same (s : State) (p : Space) (a : Nat) (b : Byte) : (s.stByte p a b).ldByte p a = b :=
  Table.get_set_same _ _ _ _

/-- A store leaves every byte at another place of the flat space. -/
theorem State.ldByte_stByte_other (s : State) (p q : Space) (a c : Nat) (b : Byte) (h : q.base + c ≠ p.base + a) :
    (s.stByte p a b).ldByte q c = s.ldByte q c :=
  Table.get_set_other _ _ _ _ h

/-- A store of several bytes leaves every byte outside them. -/
theorem State.ldByte_stBytes_other (s : State) (p q : Space) (a c : Nat) (l : List Byte)
    (h : q.base + c < p.base + a ∨ p.base + a + l.length ≤ q.base + c) : (s.stBytes p a l).ldByte q c = s.ldByte q c := by
  induction l generalizing s a with
  | nil => rfl
  | cons b l ih =>
    simp only [List.length_cons] at h
    rw [State.stBytes, ih _ _ (by omega), State.ldByte_stByte_other _ _ _ _ _ _ (by omega)]

/-- A store of several bytes puts each at its place. -/
theorem State.ldByte_stBytes (s : State) (p : Space) (a : Nat) (l : List Byte) (i : Nat) (h : i < l.length) :
    (s.stBytes p a l).ldByte p (a + i) = l[i] := by
  induction l generalizing s a i with
  | nil => simp at h
  | cons b l ih =>
    cases i with
    | zero =>
      rw [State.stBytes, State.ldByte_stBytes_other _ _ _ _ _ _ (by simp)]
      simp
    | succ i =>
      have := ih (s.stByte p a b) (a + 1) i (by simpa using h)
      rw [State.stBytes, show a + (i + 1) = a + 1 + i by omega, this]
      rfl

theorem State.memWf_stByte {s : State} (h : Memory.wf s.mem) (p : Space) (a : Nat) (b : Byte) : Memory.wf (s.stByte p a b).mem :=
  Table.wf_set h _ _

theorem State.memWf_stBytes {s : State} (h : Memory.wf s.mem) (p : Space) (a : Nat) (l : List Byte) :
    Memory.wf (s.stBytes p a l).mem := by
  induction l generalizing s a with
  | nil => exact h
  | cons b l ih => exact ih (State.memWf_stByte h p a b) (a + 1)

theorem State.memWf_stLe {s : State} (h : Memory.wf s.mem) (p : Space) (a n v : Nat) : Memory.wf (s.stLe p a n v).mem :=
  State.memWf_stBytes h p a _

theorem State.memWf_zero {s : State} (h : Memory.wf s.mem) (p : Space) (a n : Nat) : Memory.wf (s.zero p a n).mem := by
  unfold State.zero
  rw [State.onMem_mem]
  exact Table.wf_keep h _

/-- The memory after reset. -/
theorem State.memWf_reset : Memory.wf State.reset.mem := Table.wf_nil _

/-- A zeroed byte reads as one that nothing has written; every other byte stays. -/
theorem State.ldByte_zero (s : State) (p q : Space) (a n c : Nat) : (s.zero p a n).ldByte q c =
    if p.base + a ≤ q.base + c ∧ q.base + c < p.base + a + n then unwritten else s.ldByte q c := by
  unfold State.zero State.ldByte
  rw [State.onMem_mem, Table.get_keep]
  by_cases h : p.base + a ≤ q.base + c ∧ q.base + c < p.base + a + n
  · rw [if_pos h]; simp [h.1, h.2]
  · rw [if_neg h]
    have : (!(decide (p.base + a ≤ q.base + c) && decide (q.base + c < p.base + a + n))) = true := by
      by_cases h1 : p.base + a ≤ q.base + c <;> by_cases h2 : q.base + c < p.base + a + n <;> simp_all
    rw [if_pos this]

/-! ### What a field operation leaves alone -/

@[simp] theorem State.wr_mem (s : State) (r : Reg) (i v : Nat) : (s.wr r i v).mem = s.mem := rfl
@[simp] theorem State.wr_raw (s : State) (r : Reg) (i v : Nat) : (s.wr r i v).raw = s.raw := rfl
@[simp] theorem State.wr_tx (s : State) (r : Reg) (i v : Nat) : (s.wr r i v).tx = s.tx := rfl
@[simp] theorem State.wr_pending (s : State) (r : Reg) (i v : Nat) : (s.wr r i v).pending = s.pending := rfl
@[simp] theorem State.put_mem (s : State) (r : Reg) (i : Nat) (b : Bool) : (s.put r i b).mem = s.mem := rfl
@[simp] theorem State.put_raw (s : State) (r : Reg) (i : Nat) (b : Bool) : (s.put r i b).raw = s.raw := rfl
@[simp] theorem State.put_tx (s : State) (r : Reg) (i : Nat) (b : Bool) : (s.put r i b).tx = s.tx := rfl
@[simp] theorem State.put_pending (s : State) (r : Reg) (i : Nat) (b : Bool) : (s.put r i b).pending = s.pending := rfl
@[simp] theorem State.count_mem (s : State) (r : Reg) (i n : Nat) : (s.count r i n).mem = s.mem := rfl
@[simp] theorem State.count_raw (s : State) (r : Reg) (i n : Nat) : (s.count r i n).raw = s.raw := rfl
@[simp] theorem State.count_tx (s : State) (r : Reg) (i n : Nat) : (s.count r i n).tx = s.tx := rfl
@[simp] theorem State.count_pending (s : State) (r : Reg) (i n : Nat) : (s.count r i n).pending = s.pending := rfl
@[simp] theorem State.emit_regs (s : State) (x : Tx) : (s.emit x).regs = s.regs := rfl
@[simp] theorem State.emit_mem (s : State) (x : Tx) : (s.emit x).mem = s.mem := rfl
@[simp] theorem State.emit_raw (s : State) (x : Tx) : (s.emit x).raw = s.raw := rfl
@[simp] theorem State.emit_tx (s : State) (x : Tx) : (s.emit x).tx = x :: s.tx := rfl
@[simp] theorem State.emit_pending (s : State) (x : Tx) : (s.emit x).pending = s.pending := rfl
@[simp] theorem State.stByte_regs (s : State) (p : Space) (a : Nat) (b : Byte) : (s.stByte p a b).regs = s.regs := rfl
@[simp] theorem State.zero_regs (s : State) (p : Space) (a n : Nat) : (s.zero p a n).regs = s.regs := rfl
@[simp] theorem State.fresh_regs (s : State) (w : Nat) : (s.fresh w).2.regs = s.regs := rfl
@[simp] theorem State.fresh_mem (s : State) (w : Nat) : (s.fresh w).2.mem = s.mem := rfl
@[simp] theorem State.fresh_pending (s : State) (w : Nat) : (s.fresh w).2.pending = s.pending := rfl

theorem State.stBytes_regs (s : State) (p : Space) (a : Nat) (l : List Byte) : (s.stBytes p a l).regs = s.regs := by
  induction l generalizing s a with
  | nil => rfl
  | cons b l ih => exact ih (s.stByte p a b) (a + 1)

theorem State.fresh_lt (s : State) (w : Nat) : (s.fresh w).1 < 2 ^ w := Nat.mod_lt _ (Nat.two_pow_pos _)

/-- A property that a change keeps, a run of changes keeps. -/
theorem State.each_keeps {α : Type} (P : State → Prop) (f : State → α → State) (hf : ∀ s a, P s → P (f s a)) (l : List α) :
    ∀ s, P s → P (s.each l f) := by
  induction l with
  | nil => intro s h; exact h
  | cons a l ih => intro s h; exact ih _ (hf s a h)

theorem State.when_keeps (P : State → Prop) (c : Bool) (f : State → State) (hf : ∀ s, P s → P (f s)) (s : State) (h : P s) :
    P (s.when c f) := by
  unfold State.when
  split
  · exact hf s h
  · exact h

/-- A part of the state that no change of a run touches. -/
theorem State.each_same {α β : Type} (g : State → β) (f : State → α → State) (hf : ∀ s a, g (f s a) = g s) (l : List α)
    (s : State) : g (s.each l f) = g s :=
  State.each_keeps (fun t => g t = g s) f (fun t a h => (hf t a).trans h) l s rfl

@[simp] theorem State.when_true (s : State) (f : State → State) : s.when true f = f s := rfl
@[simp] theorem State.when_false (s : State) (f : State → State) : s.when false f = s := rfl

end Sys2Proof.Machine
end

