-- ==== Sys2Proof/Laws/Calm.lean ====
section
/-!
SUPPORT. What the shared operations that report, count and evaluate the Kerb all leave alone: memory, the raw counter, the queue
and the canonical form of the registers.
-/
namespace Sys2Proof.Machine

/-- Memory, the raw counter and the queue are the same, and registers in canonical form stay so. -/
structure State.Calm (s t : State) : Prop where
  mem : t.mem = s.mem
  raw : t.raw = s.raw
  pending : t.pending = s.pending
  regs : RegsOk s.regs → RegsOk t.regs

theorem State.Calm.rfl {s : State} : s.Calm s := ⟨.refl _, .refl _, .refl _, id⟩

theorem State.Calm.trans {s t u : State} (h : s.Calm t) (k : t.Calm u) : s.Calm u :=
  ⟨k.mem.trans h.mem, k.raw.trans h.raw, k.pending.trans h.pending, k.regs ∘ h.regs⟩

/-- A change that touches no register is calm where it leaves memory, raw counter and queue. -/
theorem State.Calm.of_regs {s t : State} (hr : t.regs = s.regs) (hm : t.mem = s.mem) (hw : t.raw = s.raw)
    (hp : t.pending = s.pending) : s.Calm t := ⟨hm, hw, hp, fun h => hr ▸ h⟩

theorem State.Calm.each {α : Type} {s t : State} (h : s.Calm t) (l : List α) (f : State → α → State)
    (hf : ∀ (s : State) a, s.Calm (f s a)) : s.Calm (t.each l f) :=
  State.each_keeps (fun u => s.Calm u) f (fun u a k => k.trans (hf u a)) l t h

theorem State.Calm.when {s t : State} (h : s.Calm t) (c : Bool) (f : State → State) (hf : ∀ s : State, s.Calm (f s)) :
    s.Calm (t.when c f) :=
  State.when_keeps (fun u => s.Calm u) c f (fun u k => k.trans (hf u)) t h

theorem State.calm_ite {s t u : State} {p : Prop} [Decidable p] (h : s.Calm t) (k : s.Calm u) : s.Calm (if p then t else u) := by
  split
  · exact h
  · exact k

theorem State.calm_wr (s : State) (r : Reg) (i v : Nat) : s.Calm (s.wr r i v) :=
  ⟨.refl _, .refl _, .refl _, fun h => State.regsOk_wr h r i v⟩

theorem State.calm_put (s : State) (r : Reg) (i : Nat) (b : Bool) : s.Calm (s.put r i b) := s.calm_wr r i _
theorem State.calm_count (s : State) (r : Reg) (i n : Nat) : s.Calm (s.count r i n) := s.calm_wr r i _
theorem State.calm_setBitOf (s : State) (r : Reg) (i b : Nat) (v : Bool) : s.Calm (s.setBitOf r i b v) := s.calm_wr r i _
theorem State.calm_emit (s : State) (x : Tx) : s.Calm (s.emit x) := .of_regs rfl rfl rfl rfl
theorem State.calm_onFns (s : State) (f : Table FnSt → Table FnSt) : s.Calm (s.onFns f) := .of_regs rfl rfl rfl rfl
theorem State.calm_onErrs (s : State) (f : Table ErrRing → Table ErrRing) : s.Calm (s.onErrs f) := .of_regs rfl rfl rfl rfl
theorem State.calm_onKerb (s : State) (f : KerbSt → KerbSt) : s.Calm (s.onKerb f) := .of_regs rfl rfl rfl rfl
theorem State.calm_onCw (s : State) (f : CwSt → CwSt) : s.Calm (s.onCw f) := .of_regs rfl rfl rfl rfl
theorem State.calm_onSec (s : State) (f : SecSt → SecSt) : s.Calm (s.onSec f) := .of_regs rfl rfl rfl rfl
theorem State.calm_onIsoLog (s : State) (f : List IsoEnt → List IsoEnt) : s.Calm (s.onIsoLog f) := .of_regs rfl rfl rfl rfl
theorem State.calm_fresh (s : State) (w : Nat) : s.Calm (s.fresh w).2 := .of_regs rfl rfl rfl rfl

/-! ### Reports -/

theorem State.calm_post (s : State) (f : Nat) (p : HostPost) : s.Calm (s.post f p) := by
  unfold State.post
  exact State.calm_ite .rfl (State.calm_ite (s.calm_emit _) (s.calm_onFns _))

theorem State.calm_irq (s : State) (f v : Nat) : s.Calm (s.irq f v) := by
  unfold State.irq
  exact State.calm_ite .rfl (State.calm_ite (s.calm_onFns _) (s.calm_post _ _))

theorem State.calm_recordTo (s : State) (dst owner : Nat) (t : ErrType) (unit : Nat) (detail : List Nat) :
    s.Calm (s.recordTo dst owner t unit detail) := by
  unfold State.recordTo
  exact State.calm_ite (((s.calm_onErrs _).trans (State.calm_count _ _ _ _)).trans (State.calm_put _ _ _ _))
    ((s.calm_onErrs _).trans (State.calm_irq _ _ _))

theorem State.calm_record (s : State) (owner : Nat) (t : ErrType) (unit : Nat) (detail : List Nat) :
    s.Calm (s.record owner t unit detail) := s.calm_recordTo owner owner t unit detail

theorem State.calm_record2 (s : State) (owner : Nat) (t : ErrType) (unit : Nat) (detail : List Nat) :
    s.Calm (s.record2 owner t unit detail) := by
  unfold State.record2
  exact State.calm_ite (s.calm_recordTo _ _ _ _ _) ((s.calm_recordTo _ _ _ _ _).trans (State.calm_recordTo _ _ _ _ _ _))

theorem State.calm_spurTrigger (s : State) (spur code : Nat) : s.Calm (s.spurTrigger spur code) := by
  unfold State.spurTrigger
  exact State.calm_ite .rfl
    (State.calm_ite ((s.calm_wr _ _ _).trans (State.calm_onSec _ _)) (State.calm_ite (s.calm_wr _ _ _) .rfl))

theorem State.calm_isoViolation (s : State) (spur cls obj : Nat) : s.Calm (s.isoViolation spur cls obj) := by
  unfold State.isoViolation
  have h := s.calm_count .ISO_CNT spur 1
  have h2 := h.trans (State.calm_ite (p := 32 ≤ (s.count .ISO_CNT spur).isoLog.length) (State.calm_count _ .ISO_OVF 0 1)
    ((State.calm_onIsoLog _ (· ++ [{ spur := spur, cls := cls, obj := obj % 2 ^ 16, stamp := (s.count .ISO_CNT spur).now % 2 ^ 32 }])).trans
      (State.calm_irq _ 0 19)))
  have h3 := h2.trans (State.calm_recordTo _ 0 spur .isolation obj [cls])
  exact State.calm_ite (h3.trans (State.calm_spurTrigger _ spur 2)) h3

theorem State.calm_lockViolation (s : State) (who : Agent) (off : Nat) : s.Calm (s.lockViolation who off) := by
  unfold State.lockViolation
  refine ((State.Calm.when (s.calm_count _ _ _) _ _ fun u => ?_)).trans (State.calm_recordTo _ _ _ _ _ _)
  exact (((u.calm_wr _ _ _).trans (State.calm_wr _ _ _ _)).trans (State.calm_put _ _ _ _)).trans (State.calm_irq _ _ _)

theorem State.calm_setTq (s : State) (tq : Nat) : s.Calm (s.setTq tq) := by
  unfold State.setTq
  exact State.calm_ite .rfl ((s.calm_wr _ _ _).trans (State.calm_irq _ _ _))

/-! ### The Kerb -/

theorem State.calm_onZone (s : State) (z : Nat) (f : ZoneSt → ZoneSt) : s.Calm (s.onZone z f) := s.calm_onKerb _

theorem State.calm_cwPut (s : State) (cls : Nat) (t : Tx) : s.Calm (s.cwPut cls t) := by
  unfold State.cwPut
  exact (State.calm_ite (s.calm_onCw _) .rfl).trans (State.calm_emit _ _)

theorem State.calm_cwEmit (s : State) (cls dst : Nat) (bcast : Bool) (spur sub : Nat) (fields payload : List Byte) :
    s.Calm (s.cwEmit cls dst bcast spur sub fields payload) := by
  unfold State.cwEmit
  exact State.calm_ite .rfl ((s.calm_onCw _).trans (State.calm_cwPut _ _ _))

theorem State.calm_sendStopState (s : State) : s.Calm s.sendStopState := by
  unfold State.sendStopState
  refine State.calm_ite ?_ .rfl
  split
  · exact .rfl
  · exact s.calm_cwEmit _ _ _ _ _ _ _

theorem State.calm_refreshLoss (s : State) : s.Calm s.refreshLoss := by
  unfold State.refreshLoss
  refine (State.Calm.each .rfl _ _ fun u k => u.calm_onKerb _).trans (State.Calm.each .rfl _ _ fun u z => ?_)
  exact State.calm_ite (u.calm_onZone _ _) .rfl

theorem State.calm_aggRefresh (s : State) : s.Calm s.aggRefresh := by
  unfold State.aggRefresh
  exact State.calm_ite .rfl (State.Calm.each .rfl _ _ fun u d => u.calm_setBitOf _ _ _ _)

theorem State.calm_setCause (s : State) (c : Nat) : s.Calm (s.setCause c) := by
  unfold State.setCause
  exact State.calm_ite .rfl (((s.calm_wr _ _ _).trans (State.calm_wr _ _ _ _)).trans (State.calm_irq _ _ _))

theorem State.calm_combine (s : State) : s.Calm s.combine := by
  unfold State.combine
  refine State.Calm.when (State.Calm.when ?_ _ _ fun u => u.calm_emit _) _ _ fun u => u.calm_sendStopState
  refine State.Calm.trans ?_ (State.calm_setCause _ _)
  refine State.Calm.trans (State.Calm.trans ?_ (State.calm_put _ _ _ _)) (State.calm_put _ _ _ _)
  refine State.Calm.trans (State.Calm.trans ?_ (State.calm_put _ _ _ _)) (State.calm_put _ _ _ _)
  exact ((s.calm_onKerb _).trans (State.calm_wr _ _ _ _)).trans (State.calm_wr _ _ _ _)

/-- An evaluation of the Kerb hub. -/
theorem State.calm_kerbUpdate (s : State) : s.Calm s.kerbUpdate :=
  (s.calm_refreshLoss.trans (State.calm_aggRefresh _)).trans (State.calm_combine _)

end Sys2Proof.Machine
end

