-- ==== Sys2Proof/Laws/Commands.lean ====
section
/-!
SUPPORT. What a mailbox command that may run comes to, and what one that may not.
-/
namespace Sys2Proof.Machine

/-- A command that runs has its effect. -/
theorem State.runCmd_runs {s : State} {mb : Fin 64} {tag : BitVec 16} {op : Nat} {host : Bool} {c : Cmd}
    (h : s.runs mb tag op host c) (f : State → Cmd → State) : s.runCmd mb tag op host f = .next (f s c) := by
  obtain ⟨hs, hl, hh⟩ := h
  unfold State.runCmd
  rw [hs]
  cases host with
  | false => simp [hl, done]
  | true => simp [hl, hh rfl, done]

/-- Past its DEADLINE it is claimed with TIMEOUT (R340). -/
theorem State.runCmd_late {s : State} {mb : Fin 64} {tag : BitVec 16} {op : Nat} {c : Cmd} (host : Bool)
    (hs : s.startable mb.val tag.toNat op = some c) (hl : s.late c = true) (f : State → Cmd → State) :
    s.runCmd mb tag op host f = .next (s.claimTimeout mb.val c) := by
  unfold State.runCmd
  rw [hs]
  simp [hl, done]

/-- One that may not start changes nothing (R343, R344, R346). -/
theorem State.runCmd_none {s : State} {mb : Fin 64} {tag : BitVec 16} {op : Nat} (host : Bool)
    (hs : s.startable mb.val tag.toNat op = none) (f : State → Cmd → State) : s.runCmd mb tag op host f = .next s := by
  unfold State.runCmd
  rw [hs]
  rfl

/-- Every outcome of a run is a next state. -/
theorem State.runCmd_next (s : State) (mb : Fin 64) (tag : BitVec 16) (op : Nat) (host : Bool) (f : State → Cmd → State) :
    ∃ t, s.runCmd mb tag op host f = .next t := by
  unfold State.runCmd
  split
  · exact ⟨_, rfl⟩
  · split
    · exact ⟨_, rfl⟩
    · split <;> exact ⟨_, rfl⟩

/-- A property that the effect and the claim of TIMEOUT keep, a run keeps. -/
theorem State.runCmd_keeps {s t : State} {mb : Fin 64} {tag : BitVec 16} {op : Nat} {host : Bool} {f : State → Cmd → State}
    (P : State → Prop) (h : s.runCmd mb tag op host f = .next t) (hs : P s) (hf : ∀ c, P (f s c))
    (hl : ∀ c, P (s.claimTimeout mb.val c)) : P t := by
  unfold State.runCmd at h
  split at h
  · injection h with h; exact h ▸ hs
  · split at h
    · injection h with h; exact h ▸ hl _
    · split at h
      · injection h with h; exact h ▸ hs
      · injection h with h; exact h ▸ hf _

/-- A checked meaning on a well-formed command. -/
@[simp] theorem checked_true (o : Out) : checked true o = o := rfl

/-- A checked meaning on an ill-formed one. -/
@[simp] theorem checked_false (o : Out) : checked false o = .fault .malformed := rfl

end Sys2Proof.Machine
end

