-- ==== Sys2Proof/Tests/Slice0.lean ====
section
/-!
SUPPORT. Tests of the model's own: the WellFormed smoke test, worked examples of the spec, and for every obligation with
hypotheses a state and operands that meet them (`wit_…`).
-/
namespace Sys2Proof.Machine

set_option Elab.async false

/-- The state after reset with some register fields written: field, instance, value. -/
def regsAt (l : List (Reg × Nat × Nat)) : State := l.foldl (fun s e => s.wr e.1 e.2.1 e.2.2) State.reset

/-- A command waiting on mailbox 0 with TAG 7 and these settings. -/
def cfgCmd (op target : Nat) (l : List RegSet) : Cmd := ⟨0, 7, leBytes 64 op, .ready, { settings := l, target := target }, [], none⟩

/-- Mailbox 0 serves one command, after these register writes. -/
def serving (c : Cmd) (l : List (Reg × Nat × Nat)) : State :=
  (regsAt ((.MB_STAT_STATE, 0, 2) :: (.NGX_STATE, 0, 1) :: l)).onCmds 0 fun _ => [c]

/-- What a boot finds: nothing fused, both images good. -/
def bootFacts0 : BootFacts :=
  { refA := true, refB := true, devid := 0, role := 0, strapUnstable := false, fuses := [],
    fused := ⟨0x9640, 1, 0, 0, 0, 0, false, false, false, false, 0⟩, temp := 25, imgA := true, imgB := true, sfdpOk := true,
    certBad := false, settings := [], trainFail := 0, journalOk := true, cardPass := 255, huCode := 0, cellsMatch := true,
    cellsTake := true, ngxVer := 0, flash := [], teFail := [], millFail := [], coreFail := 0 }


/-! ### Well-formedness: an ill-formed term for each check -/

/-- A byte list of zeros. -/
def zeros (n : Nat) : List Byte := List.replicate n 0

/-- A packet whose header says one block of payload. -/
def pkt1 (payload : List Byte) : CwPacket := ⟨[0, 0, 1] ++ zeros 29, payload, true⟩

theorem test_packet_wf : (pkt1 (zeros 32)).wf = true ∧ (pkt1 []).wf = false ∧ (CwPacket.mk (zeros 31) [] true).wf = false ∧
    (CwPacket.mk ([0, 0, 65] ++ zeros 29) (zeros (32 * 65)) true).wf = false := by decide

theorem test_packets_refused : Instr.wf (.helloRx (pkt1 []) true) = false ∧ Instr.wf (.mapRx (pkt1 [])) = false ∧
    Instr.wf (.discoverRx (pkt1 [])) = false ∧ Instr.wf (.ctrlPacketRx (pkt1 [])) = false ∧ Instr.wf (.ctrlAckRx (pkt1 [])) = false ∧
    Instr.wf (.dataPacketRx (pkt1 [])) = false ∧ Instr.wf (.stopStateRx (pkt1 [])) = false := by decide

theorem test_lengths_refused : Instr.wf (.projectorClose 0 (zeros 31)) = false ∧ Instr.wf (.trackerFlush 0 (zeros 63)) = false ∧
    Instr.wf (.verdictCommit 0 (zeros 143)) = false ∧ Instr.wf (.poseFrameRx 0 (zeros 63)) = false := by decide

theorem test_fuse_read_refused : BootFacts.wf { bootFacts0 with fuses := [⟨9, 0, 0, 0, 0, 0, 0⟩, ⟨9, 0, 0, 0, 0, 0, 0⟩] } = false := by
  decide

theorem test_malformed_faults : exec (.trackerFlush 0 []) State.reset = .fault .malformed := rfl

theorem test_no_word_spells : decodeTableWord 64 0xFFFF = none ∧ State.reset.withFetchWord 64 0xFFFF = State.reset := ⟨rfl, rfl⟩

/-! ### Worked cases of the spec -/

/-- `spec/02_time_base.md`, worked case "Raw counter to Waytime", with OFF = 1,717,239,600,000,000,000 ns, for which the case's own
sums hold. -/
def waytimeCase : State :=
  (State.reset.onRaw fun _ => 3600000000000).onTime fun t =>
    { t with off := 1717239600000000000 * 2 ^ 16, rate := -(2 ^ 30), rbase := 3000000000000 }

theorem test_waytime : wtSec waytimeCase.waytime = 0x665B0D3F ∧ wtNs waytimeCase.waytime = 997711181 ∧
    wtFrac waytimeCase.waytime = 0xA400 ∧ waytimeCase.nowUs % 2 ^ 31 = 0x56EDC70F := by decide +kernel

/-- `spec/02_time_base.md`, "Stamp across a wrap". -/
theorem test_stamp_wrap : extendUs 1717243888574144 1200000 = 1717243890257792 := by decide +kernel

/-- `spec/03_wayline_link.md`, "Words of one event". -/
theorem test_event_word : wordType 0xD401E00F = 13 ∧ bits 0xD401E00F 19 11 = 640 ∧ bits 0xD401E00F 8 11 = 480 ∧
    extendIdx 6707981249991 0xDC7 = 6707981249991 ∧ State.reset.stampOf 34 6707981249991 15 = 0x56EDC70F := by decide +kernel

/-- `spec/05_carding_and_queues.md`, "An IER" and Table CD-7's marker. -/
theorem test_ier : evRecord true 34 652 471 0x56EDC70F = 0x644A30EBD6EDC70F := by decide +kernel

theorem test_gap_marker : qfullRecord ⟨0x56EDC800, none, 2000, 1840⟩ = 0x80FA039856EDC800 := by decide +kernel

/-- `spec/06_fuller_surfaces.md`, "One decayed pixel": table entries 11 and 12, Q = 4 (code 2). -/
theorem test_decay :
    let s := regsAt [(.SUB_Q, 0, 2), (.FUL_LUT, 11, 49451), (.FUL_LUT, 12, 48201)]
    s.decay 0 3000 = 48553 ∧ elementOf 0 48553 = 189 := by decide +kernel

/-- `spec/07_number_formats.md`, the mixed-precision dot product: BF16 0x3FDF, NX. -/
theorem test_dot_product :
    let w := 0x1AB51013
    let a := [0x3C, 0xB4, 0x44, 0x20, 0x03, 0x5A, 0x98, 0x41].map fun n => (elValue 3 true n).1
    let b := [0x7, 0xD, 0x2, 0x8, 0x5, 0x1, 0xF, 0x4].map fun n => (elValue 0 true n).1
    let acc := (dot (nfAccm w) a b [fineOf 0x70] [fineOf 0x5C] (accStart (nfAccm w) none)).1
    let o := outEl w 0 0 acc.out (f32 0x3E800000) (f32 0x40400000) (f32 0x3DCCCCCD)
    acc.value = .fin (2247 / 1024) ∧ o.code = 0x3FDF ∧ o.fl.nx = true := by decide +kernel

/-- `spec/08_mills.md`: a GEMM of TM 16, K 256, TN 64 in INT8 takes 4,112 cycles. -/
theorem test_dense_cycles :
    denseCycles (zeros 4 ++ leBytes 4 0x0101 ++ leBytes 2 16 ++ [8, 0] ++ leBytes 4 256 ++ zeros 112) = 4112 := by decide +kernel

/-- `spec/09_milestones_and_buffers.md`, "A long-batt handle". -/
theorem test_handle : mkHandle true 0x3C 0x4A21 = 0x83C04A21 ∧ mkHandle true 0x3D 0x4A21 = 0x83D04A21 ∧
    hIndex 0x83C04A21 = 0x4A21 ∧ hGen 0x83C04A21 = 0x3C := by decide +kernel

/-- `spec/15_power.md`, "PARK budget on Device 1": 14.1, 14.4 and 15.1 mA. -/
theorem test_aon_budget :
    let s := fun refs wl => regsAt [(.PM_AON_CFG_REFS, 0, refs), (.PM_AON_CFG_WL_WAKE, 0, wl), (.PM_AON_CFG_CW_WAKE, 0, 1)]
    (s 1 0).aonSum 41 = 141 ∧ (s 3 0).aonSum 41 = 144 ∧ (s 3 1).aonSum 41 = 151 := by decide +kernel

/-- `spec/15_power.md`, "SENTRY and back": the leaving domains hold 4,742 words with the MST group. -/
theorem test_retention_words : retWords (domainsOf 0x00040081 &&& (0x1FFF - domainsOf 0x0302)) = 4742 := by decide +kernel

/-- `spec/16_reset_and_persistence.md`, "A fuse word": majority 0xC5, flagged; the same reads of FW010 place in QUARANTINE. -/
theorem test_fuse_word :
    let t := senseFuses [⟨100, 0xC5, 0xC5, 0xC4, 0xC5, 0x45, 0xC4⟩]
    Table.get 0 t 100 % 2 ^ 32 = 0xC5 ∧ flaggedWords t = [100] := by decide +kernel

/-- `spec/16_reset_and_persistence.md`, "A store on Device 0": 160.6 ms, 362 mJ, 244 mJ and 2,475 mJ. -/
theorem test_hold_up :
    let s := regsAt [(.HU_CFG_CAP, 0, 10000), (.HU_CFG_DIV, 0, 320), (.HU_CFG2_VMIN, 0, 9000), (.HU_CFG2_PSTORE, 0, 1500),
      (.HU_CFG3_MARGIN, 0, 50)]
    storeUs ⟨12000, 150, 4, 256⟩ 16384 6144 false = 160600 ∧ s.holdUpReq 160600 = 362 ∧ s.holdUp 1900 = 244 ∧ s.holdUp 4000 = 2475 := by
  decide +kernel

/-- `spec/17_host_and_memory.md`, "A long batt on Spur 1 of Device 0". -/
theorem test_lpddr_map :
    let s := (regsAt [(.SPUR_RES_CH, 1, 0x0F)]).onMemCap fun _ => 2
    s.spurMap 1 0x44A21000 = some (0, 0x11288400) := by decide +kernel

/-- `spec/17_host_and_memory.md`, "Spur 1's host view": EQ040's registers are Spur 1's local queue 40, and a write of the tenant
to EQ_CFG counts HL_FWWR_CNT[1] and captures 0x10_0A00. -/
theorem test_tenant_write :
    let s := (regsAt [(.SPUR_EQ, 1, 0x0F)]).onNumVfs (fun _ => 1) |>.onVfEnable fun _ => true
    let t := match execRegisterWrite (.host 1 false) 0x20A00 4 true false 0x2C03 s with | .next t => t | _ => s
    s.vfRoute 1 0x20A00 = .writable 0x100A00 ∧ t.rd .HL_FWWR_CNT 1 = 1 ∧ t.rd .HL_FWWR_ADDR = 0x100A00 ∧ t.rd .EQ_CFG_EN 40 = 0 := by
  decide +kernel

/-- `spec/18_aux_signals.md`, Table AX-7: the output's stamp, with D = 134 input periods of 125 µs. -/
theorem test_chain_stamp : chainStamp 1717243199997952000 (2 * 134) 125000 = 1717243199981202000 := by decide +kernel

/-- `spec/01_architecture.md`, GLOBAL_CAP: 128 Mills; `spec/05_carding_and_queues.md`: a queue is disabled after reset. -/
theorem test_reset_values : State.reset.rd .GLOBAL_CAP_MILLS = 128 ∧ State.reset.rd .EQ_CFG_EN 3 = 0 := by decide +kernel


theorem wit_IdleStepIsOneNanosecond :
    State.reset.pending = [] ∧ State.reset.inOff = false ∧
      (State.reset.wr .PM_STATUS_CUR 0 4).inOff = true := by
  decide +kernel

theorem wit_StepKeepsTheInvariant :
    (State.reset.wr .SPUR_STATE 1 2).Inv ∧ ∃ t, Sys2Proof.Machine.step (State.reset.wr .SPUR_STATE 1 2) = .next t := by
  refine ⟨⟨by decide +kernel, ?_, by decide +kernel, by intro c h; cases h⟩, _, rfl⟩
  refine ⟨by decide +kernel, ?_⟩
  intro e he
  have h : (State.reset.wr .SPUR_STATE 1 2).regs = [(Reg.SPUR_STATE.key 1, 2)] := by decide +kernel
  rw [h] at he
  simp at he
  exact ⟨.SPUR_STATE, 1, by rw [he], by rw [he]; decide +kernel, by rw [he]; decide +kernel⟩

theorem wit_BuffersStayBounded :
    State.reset.Bounded ∧ ∃ t, Sys2Proof.Machine.step State.reset = .next t := by
  refine ⟨⟨fun _ => ?_, ?_, ?_, fun _ => ?_, ?_, ?_, fun _ => ?_, ?_, ?_⟩, _, rfl⟩ <;> exact Nat.zero_le _

theorem wit_WellFormedCommandsComplete :
    (Instr.projectorClose 0 (List.replicate 32 0)).wf = true ∧ (Instr.projectorClose 0 []).wf = false := by decide

theorem wit_CommandsLeaveTheQueue :
    ∃ t, Sys2Proof.Machine.exec (.busMasterEnable 0 true) State.reset = .next t := ⟨_, rfl⟩

theorem wit_RawCounterOnlyResets :
    (∃ t, Sys2Proof.Machine.exec (.borCrossing 1) (State.reset.onRaw fun _ => 7) = .next t ∧ t.raw = 0) := ⟨_, rfl, by decide +kernel⟩

theorem wit_TimeReadsAndSnapshot :
    State.reset.readOpen (.fw 0) = .ok State.reset ∧ State.reset.admitRead (.fw 0) .TIME_RC_HI 0 = .ok State.reset ∧
      State.reset.letIn (.fw 0) .TIME_SNAP_GO 0 = .ok State.reset ∧
      State.reset.letIn (.host 0 false) .TIME_SNAP_GO 0 = .ok State.reset ∧
      (let s := { State.reset with vfEnable := true, numVfs := 3 }
       s.letIn (.host 3 false) .TIME_SNAP_GO 0 = .ok s ∧ (3 : Fin 8) ≠ 0) := by
  refine ⟨rfl, rfl, rfl, rfl, rfl, by decide⟩

theorem wit_WaytimeValue :
    let s := State.reset.onTime fun t => { t with off := -1 }
    s.time.taken = none ∧ s.letIn (.fw 0) .TIME_SNAP_GO 0 = .ok s ∧
      (s.raw : Int) * 2 ^ 16 + s.time.off + (s.time.rate * ((s.raw : Int) - s.time.rbase)).fdiv (2 ^ 32) < 0 := by
  refine ⟨rfl, rfl, by decide +kernel⟩

theorem wit_TimeCommitsAtRc :
    State.reset.letIn (.fw 0) .TIME_CMD_OP 0 = .ok State.reset ∧ State.reset.time.taken = none ∧
      State.reset.time.held = [] ∧ State.reset.stepRefused = false ∧
      (regsAt [(.SLOT_CTRL_STATE, 5, 1)]).stepRefused = true ∧
      (regsAt [(.SLOT_CTRL_STATE, 5, 1)]).letIn (.fw 0) .TIME_CMD_OP 0 = .ok (regsAt [(.SLOT_CTRL_STATE, 5, 1)]) := by
  refine ⟨rfl, rfl, rfl, by decide +kernel, by decide +kernel, rfl⟩

theorem wit_TimeCommitLifeAndSlew :
    (let s := State.reset.onTime fun t => { t with held := [⟨.fold, 0, 0, 100⟩] }
     s.time.held = [⟨.fold, 0, 0, 100⟩] ∧ s.time.taken = none ∧ s.raw ≤ s.time.rc ∧
       (s.onRaw fun _ => 1).time.rc < (s.onRaw fun _ => 1).raw) ∧
    (let s := State.reset.onTime fun t => { t with taken := some (⟨.slew, 0, -5, 100⟩, 0) }
     s.time.taken = some (⟨.slew, 0, -5, 100⟩, 0) ∧ (0 : Nat) ≤ s.raw ∧ s.raw < 16) ∧
    State.reset.time.slewRem = 0 ∧ (State.reset.onTime fun t => { t with slewRem := -1 }).time.slewRem ≠ 0 := by
  decide +kernel

theorem wit_ReferencesAndTimeQuality :
    (let s := (regsAt [(.TIME_STAT_GRADE_A, 0, 3), (.TIME_STAT_GRADE_B, 0, 3)]).onTime fun t => { t with holdover := true }
     s.time.holdover = true ∧ s.rd .TIME_STAT_GRADE_A = 3 ∧ s.rd .TIME_STAT_GRADE_B = 3) ∧
    (State.reset.onTime fun t => { t with lastGood := some 0 }).time.lastGood ≠ none := by
  decide +kernel

theorem wit_NetworkTimeOnEth0 :
    let m : PtpMsg := ⟨.layer2, 0, 1, 0, -3, 0, false, false, false, 5⟩
    let full := State.reset.onTime fun t => { t with txts := List.replicate 64 ⟨0, true, 0⟩ }
    State.reset.domOn pdAux = true ∧ State.reset.ptpSupported m = true ∧
      State.reset.ptpSupported { m with mgmtSet := true } = false ∧ m.msgType = 0 ∧
      State.reset.ptpSupported { m with msgType := 11 } = true ∧ State.reset.ptpSupported { m with logInterval := 2 } = false ∧
      State.reset.time.txts.length < 64 ∧ 64 ≤ full.time.txts.length ∧
      State.reset.letIn (.fw 0) .TXTS_POP 0 = .ok State.reset ∧ (0 : Word).toNat = State.reset.rd .ETH_IP ∧
      (1 : Word).toNat ≠ State.reset.rd .ETH_IP := by
  decide +kernel

theorem wit_TriggerEngines :
    let s := regsAt [(.TRIG_WIDTH, 7, 10), (.TRIG_PERIOD, 7, 100)]
    let r := (s.onTrig 7 fun x => { x with next := some 0, pulseEnd := some 0, periodic := true })
    let l := s.onRaw fun _ => 1000
    State.reset.letIn (.fw 0) .TRIG_CTRL_EN 7 = .ok State.reset ∧ State.reset.rd .TRIG_WIDTH 7 = 0 ∧
      State.reset.flag .TRIG_CTRL_EN 7 = false ∧
      s.letIn (.fw 0) .TRIG_CTRL_EN 7 = .ok s ∧ s.letIn (.fw 0) .TRIG_COUNT 7 = .ok s ∧
      ¬ (s.rd .TRIG_WIDTH 7 = 0 ∨ s.rd .TRIG_PERIOD 7 < 100 ∨ s.rd .TRIG_PERIOD 7 ≤ s.rd .TRIG_WIDTH 7) ∧
      s.now ≤ s.rd64 .TRIG_START_LO .TRIG_START_HI 7 ∧
      l.rd64 .TRIG_START_LO .TRIG_START_HI 7 < l.now ∧ l.letIn (.fw 0) .TRIG_CTRL_EN 7 = .ok l ∧
      r.letIn (.fw 0) .TRIG_CTRL_EN 7 = .ok r ∧ (r.trig 7).next = some 0 ∧ (r.trig 7).pulseEnd = some 0 ∧ 0 ≤ r.now ∧
      r.domOn pdAux = true ∧ (r.trig 7).periodic = true ∧ (r.trig 7).limited = false := by
  decide +kernel

theorem wit_WaylinePortControl :
    let w : Word := 0x6401
    let on := regsAt [(.WL_CTRL_EN, 7, 1), (.WL_STAT_STATE, 7, 1)]
    let run := (regsAt [(.WL_STAT_STATE, 7, 4)]).onPort 7 fun x => { x with locked := true, inFlight := [0] }
    let late := run.onRaw fun _ => 20001
    let re := (regsAt [(.WL_STAT_STATE, 7, 5)]).onPort 7 fun x => { x with back := true }
    let sp := run.onPort 7 fun x => { x with splice := [0] }
    State.reset.letIn (.fw 0) .WL_CTRL_EN 7 = .ok State.reset ∧ on.letIn (.fw 0) .WL_CTRL_EN 7 = .ok on ∧
      State.reset.domOn (wlDomain 7) = true ∧ State.reset.portGated 7 = false ∧ bits w.toNat 8 8 ≠ 0 ∧
      State.reset.flag .WL_CTRL_EN 7 = false ∧ on.flag .WL_CTRL_EN 7 = true ∧ on.domOn (wlDomain 7) = true ∧
      on.portGated 7 = false ∧ on.portUp 7 = true ∧ (on.port 7).burst = none ∧ on.rd .WL_STAT_STATE 7 = 1 ∧
      run.portUp 7 = true ∧ run.rd .WL_STAT_STATE 7 = 4 ∧ (run.port 7).splice = [] ∧ (run.port 7).burst = none ∧
      re.portUp 7 = true ∧ re.rd .WL_STAT_STATE 7 = 5 ∧ (re.port 7).back = true ∧ (re.port 7).burst = none ∧
      sp.portUp 7 = true ∧ (sp.port 7).splice = [0] ∧ 0 * 256000 ≤ sp.now ∧ sp.now < 0 * 256000 + 300000 ∧
      late.portUp 7 = true ∧ (late.port 7).inFlight = [0] ∧ (late.port 7).locked = true ∧ (late.port 7).goodL = none ∧ 0 * 256000 + 20000 < late.now := by
  refine ⟨rfl, rfl, ?_⟩
  decide +kernel

theorem wit_WaylineWordsAndBursts :
    let up := regsAt [(.WL_STAT_STATE, 7, 4), (.HT_STATE, 255, 2)]
    let ret := up.onPort 7 fun x => { x with returned := true, lastW := 100 }
    let opn := fun (idx : Nat) => (BitVec.ofNat 32 (2 * 2 ^ 28 + 31 * 2 ^ 23 + 5 * 2 ^ 12 + idx) : Word)
    let old := ret.onHead 255 fun h => { h with lastOpen := some 99 }
    let bur := (regsAt [(.WL_STAT_STATE, 7, 4), (.HT_GEOM_W, 255, 1279), (.HT_GEOM_H, 255, 959)]).onPort 7 fun x =>
      { x with burst := some ⟨31, 100, 5, 0, 0, true⟩ }
    let full := bur.onCardFenced fun _ => [(7, true)]
    up.portUp 7 = true ∧ wordBad false (0xF0000000 : Word).toNat = true ∧
      wordType (opn 5).toNat = 2 ∧ wordSub (opn 5).toNat = 0 ∧ (up.port 7).burst = none ∧ (ret.port 7).burst = none ∧
      (regsAt [(.WL_STAT_STATE, 7, 4)]).portUp 7 = true ∧ (regsAt [(.WL_STAT_STATE, 7, 4)]).rd .HT_STATE 255 = 0 ∧
      up.rd .HT_STATE 255 ≠ 0 ∧ (up.port 7).returned = false ∧ ret.portUp 7 = true ∧ (ret.port 7).returned = true ∧
      (extendIdx 100 92 + 7 < 100) ∧ 100 < extendIdx 100 101 ∧ extendIdx 100 93 + 7 = 100 ∧ extendIdx 100 100 = 100 ∧
      (old.head 255).lastOpen.any (fun k => decide (extendIdx 100 93 < k)) = true ∧
      (ret.head 255).lastOpen.any (fun k => decide (extendIdx 100 93 < k)) = false ∧
      bur.portUp 7 = true ∧ (bur.port 7).burst = some ⟨31, 100, 5, 0, 0, true⟩ ∧
      8 ≤ wordType (0xD8000000 : Word).toNat ∧ bur.headW 255 ≤ bits (0xA8000000 : Word).toNat 19 11 ∧
      bits (0xD401E00F : Word).toNat 19 11 < bur.headW 255 ∧ bits (0xD401E00F : Word).toNat 8 11 < bur.headH 255 ∧
      wordType (0x30000000 : Word).toNat = 3 ∧ wordType (0x40000000 : Word).toNat = 4 ∧
      bur.cardLive 7 = true ∧ bur.domOn pdAux = true ∧ full.cardLive 7 = false ∧
      (Table.get [] bur.aux.auxev 7).length < 64 ∧
      wordSub (0x20100000 : Word).toNat = 1 ∧ wordSub (0x20200000 : Word).toNat = 2 ∧ wordSub (0x20300000 : Word).toNat = 3 := by
  decide +kernel

theorem wit_WaylineManagementAndMarks :
    let up := regsAt [(.WL_STAT_STATE, 0, 4)]
    let hdr : List Byte := [0x1E, 32, 0x90, 9, 3, 0, 0, 0, 1, 2]
    let f := hdr ++ leBytes 4 (crc32 hdr)
    let hdr2 : List Byte := [0x1E, 0x7F, 1, 9, 2, 0, 0, 34, 0]
    let f2 := hdr2 ++ leBytes 4 (crc32 hdr2)
    let o : MgmtOut := ⟨9, ⟨32, 0x10, [], .ident 0⟩, 2⟩
    let o3 : MgmtOut := ⟨9, ⟨0, 0x14, [], .cfg⟩, 3⟩
    let o2 : MgmtOut := ⟨9, ⟨0x7F, 1, [], .enum⟩, 2⟩
    let a := up.onPort 0 fun x => { x with out := [o], inFlight := [6] }
    let b := up.onPort 0 fun x => { x with out := [o2] }
    let c := up.onPort 0 fun x => { x with out := [o3] }
    let sp := (up.onPort 0 fun x => { x with splice := [0] }).onRaw fun _ => 300000
    let ok := sp.onPort 0 fun x => { x with locked := true, returned := true, lastW := 1 }
    up.portUp 0 = true ∧ (up.port 0).burst = none ∧ frameOk [] = false ∧ frameOk f = true ∧ frameOk f2 = true ∧
      (∀ o ∈ (up.port 0).out, ¬ (o.seq = byteAt f 3 ∧ byteAt f 2 = o.req.typ + 0x80)) ∧
      a.portUp 0 = true ∧ (a.port 0).burst = none ∧ (a.port 0).out = [o] ∧ o.seq = byteAt f 3 ∧
      byteAt f 2 = o.req.typ + 0x80 ∧ 2 ≤ byteAt f 4 ∧ byteAt ((f.drop 7).take (byteAt f 4)) 0 = 0 ∧
      b.portUp 0 = true ∧ (b.port 0).burst = none ∧ (b.port 0).out = [o2] ∧ byteAt f2 2 = 1 ∧ bit (byteAt f2 8) 0 = false ∧
      o.seq < 256 ∧ o.sends < 3 ∧ (c.port 0).out = [o3] ∧ c.portUp 0 = true ∧ 3 ≤ o3.sends ∧ o3.req.use = .cfg ∧ (c.port 0).waiting = [] ∧
      up.time.lastMark ≠ some up.nowUs ∧ up.nowUs % 256 = 0 ∧ up.isBrim = false ∧ up.inRing = false ∧ (∀ q < 8, q ≠ 0 → up.portUp q = false) ∧
      (up.onRaw fun _ => 1000).nowUs % 256 ≠ 0 ∧
      waymarkCrc 0 0 ≠ bits 1 0 8 ∧ waymarkCrc 0x10000006 0 = bits (waymarkCrc 0x10000006 0) 0 8 ∧
      wordType 0x10000006 = 1 ∧ (a.port 0).inFlight = [6] ∧ 6 % 2 ^ 28 = bits 0x10000006 0 28 ∧
      up.flag .WL_CTRL_AUTO_SPLICE 0 = true ∧ (up.port 0).inFlight = [] ∧
      sp.portUp 0 = true ∧ (sp.port 0).burst = none ∧ (sp.port 0).splice = [0] ∧ 0 * 256000 + 300000 ≤ sp.now ∧
      ((sp.port 0).locked && (sp.port 0).returned && decide (0 ≤ (sp.port 0).lastW)) = false ∧
      ok.portUp 0 = true ∧ (ok.port 0).burst = none ∧ (ok.port 0).splice = [0] ∧
      ((ok.port 0).locked && (ok.port 0).returned && decide (0 ≤ (ok.port 0).lastW)) = true := by
  decide +kernel

/-- The directory of a store: slot A of 64 bytes at 32, slot B at 96 (`spec/04_module_identity.md`, Table ID-1). -/
def dirBytes : List Byte :=
  let d := leBytes 2 0xA7D1 ++ [1, 1] ++ leBytes 2 32 ++ leBytes 2 96 ++ leBytes 2 64 ++ [4] ++ zeros 17
  d ++ leBytes 4 (crc32 d)

/-- A store with no record. -/
def bareStore : List Byte := dirBytes ++ zeros 128

/-- A store with a tool record, SEQ 1, in slot A: class 7, variant 3, one box. -/
def toolStore : List Byte :=
  let pay := [1, 8, 0, 9, 0, 0, 0, 0, 0, 0, 0] ++ [0x21, 4, 0, 7, 0, 3, 0] ++ [0x22, 12, 0] ++ zeros 12
  dirBytes ++ slotHeader 1 2 pay ++ pay ++ zeros (64 - 24 - pay.length) ++ commitBlock 1 ++ zeros 64

theorem wit_HatbandReader :
    let on := regsAt [(.HB_CFG_EN, 0, 1), (.HB_STAT_STATE, 0, 1)]
    let rdg := on.onHat fun h => { h with reading := some 5 }
    State.reset.letIn (.fw 0) .HB_CFG_EN 0 = .ok State.reset ∧
      5 ≤ bits (0x01000501 : Word).toNat 8 8 ∧ bits (0x01000501 : Word).toNat 24 4 ≠ 0 ∧
      State.reset.flag .HB_CFG_EN = false ∧ State.reset.domOn pdAux = true ∧ State.reset.hat.write = none ∧
      on.hbOn = true ∧ on.hat.fault = false ∧ on.flag .HB_CFG_SEL = false ∧ ([1, 2].map (BitVec.toNat (w := 64))).dedup.length = 2 ∧ on.hat = {} ∧
      on.rd .HB_STAT_MASK_LIVE = 0 ∧ (on.onHat fun h => { h with seen := [(5, 1)] }).hat = { seen := [(5, 1)] } ∧
      rdg.hbOn = true ∧ rdg.hat.reading = some 5 ∧ rdg.hat.retried ≠ some (0x2B, 0) ∧
      (rdg.onHat fun h => { h with retried := some (0x2B, 0) }).hat.retried = some (0x2B, 0) ∧ storeOf [] 0 = none := by
  refine ⟨rfl, ?_⟩
  decide +kernel

theorem wit_HatbandReaderTool :
    let s := (regsAt [(.HB_CFG_EN, 0, 1), (.KRB_STAT_ARMED, 0, 1), (.KRB_TOOL_CLASS, 15, 7), (.KRB_TOOL_VARIANT, 15, 3)]).onHat fun h =>
      { h with reading := some 5, present := [5] }
    ((storeOf toolStore toolStore.length).any fun x => x.active.any fun a =>
        a.2.rtype == 2 && s.toolListed (leAt (tlvVal a.2.ents 0x21) 0 2) (leAt (tlvVal a.2.ents 0x21) 2 2) &&
          !(s.wr .KRB_TOOL_CLASS 15 6).toolListed (leAt (tlvVal a.2.ents 0x21) 0 2) (leAt (tlvVal a.2.ents 0x21) 2 2)) = true ∧
      s.hbOn = true ∧ s.hat.reading = some (5 : DWord).toNat ∧ s.hat.present = [(5 : DWord).toNat] ∧ s.hat.multi = false := by
  decide +kernel

theorem wit_IdentityWrites :
    let cmd := fun (op : Nat) => (⟨0, 7, leBytes 64 op, .ready, {}, [], none⟩ : Cmd)
    let fl := fun (op st : Nat) => ((regsAt [(.HT_STATE, 0, st), (.MB_STAT_STATE, 0, 2), (.HB_CFG_EN, 0, 1),
      (.HB_STAT_STATE, 0, 1)]).onCmds 0 fun _ => [cmd op]).onFn 0 fun x => { x with bme := true }
    let here := (fl 0x59 1).onHat fun h => { h with present := [5] }
    (fl 0x58 0).runs 0 7 0x58 true (cmd 0x58) ∧ (fl 0x59 1).runs 0 7 0x59 false (cmd 0x59) ∧
      (fl 0x5A 1).runs 0 7 0x5A true (cmd 0x5A) ∧ here.runs 0 7 0x59 false (cmd 0x59) ∧
      (fl 0x58 1).runs 0 7 0x58 true (cmd 0x58) ∧
      ((fl 0x58 0).hat.write = none ∧ (fl 0x58 0).hat.reading = none ∧ opMedium ((cmd 0x58).opw 0) = .head 0 ∧
        (fl 0x58 0).rd .HT_STATE 0 = 0 ∧ (fl 0x58 1).rd .HT_STATE 0 = 1 ∧
        ((storeOf bareStore bareStore.length).any fun x => x.act.2 != 0xFFFFFFFE && decide ((cmd 0x58).opw 2 ≤ x.dir.size - 24)) = true ∧
        (cmd 0x58).opw 2 = ([] : List Byte).length) ∧
      (here.hbOn = true ∧ here.hat.fault = false ∧ here.hat.present = [5] ∧ here.hat.multi = false ∧
        (fl 0x59 1).hat.present = [] ∧ (storeOf bareStore bareStore.length).any (fun d => decide (ceilDiv 32 (here.writeUnit .tag d) ≤ 32)) = true) ∧
      (opMedium ((cmd 0x5A).opw 0) = .head 0 ∧ (fl 0x5A 1).rd .HT_STATE 0 = 1) := by
  refine ⟨⟨?_, ?_, ?_⟩, ⟨?_, ?_, fun h => by cases h⟩, ⟨?_, ?_, ?_⟩, ⟨?_, ?_, fun h => by cases h⟩, ⟨?_, ?_, ?_⟩, ?_, ?_, ?_⟩
  all_goals decide +kernel

theorem wit_IdentityWritesInProgress :
    let w : IdWriteSt := ⟨0, 0, .tag, 5, false, 0, 64, 4, 1, [], 2, 6, [], 0, false, 0, false⟩
    let w3 : IdWriteSt := { w with step := 3, todo := [(0, [])] }
    let on := fun (x : IdWriteSt) => State.reset.onHat fun h => { h with write := some x }
    let a := State.reset.onHat fun h => { h with write := some w, awaiting := true }
    ((on w3).hat.write = some w3 ∧ (on w3).hat.awaiting = false ∧ w3.todo = [(0, [])] ∧ w3.step ≤ 3) ∧
      (w.step = 6 ∧ w.collapsed = false ∧
        ({ w with size := 8 } : IdWriteSt).matches (commitBlock 1) = true) ∧
      ((on { w with dead := true }).hat.write = some { w with dead := true } ∧ w.ident ∉ (on w).hat.present) ∧
      (on { w with medium := .head 0, dead := true }).hat.write = some { w with medium := .head 0, dead := true } ∧
      (a.hat.write = some w ∧ a.hat.awaiting = true ∧ a.resumeOver = false ∧ (a.onRaw fun _ => 10 ^ 12).resumeOver = true ∧
        (6 : DWord).toNat ≠ w.ident ∧ (5 : DWord).toNat = w.ident ∧
        (slotAt [] w.base w.size).any (fun x => x.seq == w.seq) = false ∧ w.restarts < 2 ∧ 2 ≤ ({ w with restarts := 2 } : IdWriteSt).restarts) ∧
      (slotAt toolStore 32 64).any (fun x => x.seq == w.seq) = true := by
  decide +kernel

theorem wit_EventQueueReads :
    let on := (regsAt [(.EQ_CFG_EN, 511, 1)]).onEq 511 fun e =>
      { e with recs := List.replicate 9 ⟨BitVec.ofNat 64 (2 ^ 62), 3⟩, lastEv := some (34, 3) }
    let fb := regsAt [(.SUB_EN, 0, 1), (.SUB_SLOT, 0, 3), (.SLOT_ROUTE_EN, 3, 1), (.SLOT_ROUTE_EQ, 3, 511)]
    on.admitRead (.fw 0) .EQ_WP 511 = .ok on ∧ fb.admitRead (.fw 0) .EQ_WP 511 = .ok fb ∧
      on.letIn (.fw 0) .EQ_SKIP_GO 511 = .ok on ∧ fb.letIn (.fw 0) .EQ_SKIP_GO 511 = .ok fb ∧
      on.fullerBound 511 = false ∧ fb.fullerBound 511 = true ∧ on.flag .EQ_CFG_EN 511 = true ∧ (on.eq 511).mask = none ∧
      (on.eq 511).lastEv = some (34, 3) ∧ (fb.eq 511).lastEv = none ∧ on.ptrFails 511 = false := by
  refine ⟨rfl, rfl, rfl, rfl, ?_⟩
  decide +kernel

theorem wit_EventQueueControl :
    let on := (regsAt [(.EQ_CFG_EN, 511, 1), (.EQ_CFG_LOG2N, 511, 6)])
    let pend := fun (n : Nat) => on.onEq 511 fun e => { e with recs := List.replicate n ⟨0, 0⟩, wide := [pendRec 0 511 0 2 5 false] }
    let mk := fun (n : Nat) => on.onEq 511 fun e => { e with recs := List.replicate n ⟨0, 0⟩, marker := some ⟨0, none, 1, 0⟩ }
    let torn := ((pend 63).wr .EQ_CFG_CLASS 511 1).onEq 511 fun e => { e with wp2 := 1 }
    State.reset.letIn (.fw 0) .EQ_CFG_EN 511 = .ok State.reset ∧ on.letIn (.fw 0) .EQ_CFG_EN 511 = .ok on ∧
      State.reset.letIn (.host 0 true) .EQ_CTRL_RESET 511 = .ok State.reset ∧
      on.letIn (.host 0 true) .EQ_CTRL_RESET 511 = .ok on ∧
      bits (0x19 : Word).toNat 2 5 = 6 ∧ bits (0x49 : Word).toNat 2 5 = 18 ∧
      State.reset.flag .EQ_CFG_EN 511 = false ∧ on.flag .EQ_CFG_EN 511 = true ∧ on.domOn pdCtrl = true ∧
      (∀ i < 512, i ≠ 511 → on.flag .EQ_CFG_EN i = false) ∧ ((on.eq 511).wide.any fun p => p.sub == 1) = false ∧
      (pend 63).eqPending 511 = [pendRec 0 511 0 2 5 false] ∧ (pend 63).flag .EQ_CFG_EN 511 = true ∧
      (pend 63).domOn pdCtrl = true ∧ ((pend 63).eq 511).recs.length < 2 ^ (pend 63).rd .EQ_CFG_LOG2N 511 ∧
      (pend 64).eqPending 511 = [pendRec 0 511 0 2 5 false] ∧
      2 ^ (pend 64).rd .EQ_CFG_LOG2N 511 ≤ ((pend 64).eq 511).recs.length ∧
      (mk 62).eqPending 511 = [] ∧ ((mk 62).eq 511).marker = some ⟨0, none, 1, 0⟩ ∧
      ((mk 62).eq 511).recs.length + 1 < 2 ^ (mk 62).rd .EQ_CFG_LOG2N 511 ∧
      2 ^ (mk 63).rd .EQ_CFG_LOG2N 511 ≤ ((mk 63).eq 511).recs.length + 1 ∧
      (on.eq 511).seg = on.nowUs / 2 ^ 28 ∧ ((on.onEq 511 fun e => { e with seg := 1 }).eq 511).seg ≠ on.nowUs / 2 ^ 28 ∧
      ((pend 63).eq 511).seg = (pend 63).nowUs / 2 ^ 28 ∧ ((pend 63).eq 511).wrote ≠ some (pend 63).raw ∧
      (((pend 63).onEq 511 fun e => { e with wrote := some 0 }).eq 511).wrote = some (pend 63).raw ∧
      (pend 63).ptrFails 511 = false ∧ (mk 62).ptrFails 511 = false ∧ torn.ptrFails 511 = true ∧
      torn.eqPending 511 = [pendRec 0 511 0 2 5 false] ∧ torn.flag .EQ_CFG_EN 511 = true := by
  refine ⟨rfl, rfl, rfl, rfl, ?_⟩
  decide +kernel

theorem wit_EventRecordAcceptance :
    let on := (regsAt [(.EQ_CFG_EN, 511, 1), (.EQ_CFG_LOG2N, 511, 6)])
    let n := fun (k : Nat) => on.onEq 511 fun e => { e with recs := List.replicate k ⟨0, 0⟩ }
    State.reset.domOn pdCtrl = true ∧ State.reset.flag .EQ_CFG_EN 511 = false ∧ (n 62).domOn pdCtrl = true ∧
      (n 62).flag .EQ_CFG_EN 511 = true ∧ (n 62).eqPending 511 = [] ∧ ((n 62).eq 511).marker = none ∧
      ((n 62).eq 511).recs.length + 1 < 2 ^ (n 62).rd .EQ_CFG_LOG2N 511 ∧
      2 ^ (n 63).rd .EQ_CFG_LOG2N 511 ≤ ((n 63).eq 511).recs.length + 1 ∧ (n 63).flag .EQ_CFG_EN 511 = true ∧
      ((n 62).eq 511).seg = (n 62).nowUs / 2 ^ 28 ∧ ((n 62).eq 511).wrote ≠ some (n 62).raw ∧ (n 62).ptrFails 511 = false ∧
      (((n 62).wr .EQ_CFG_CLASS 511 1).onEq 511 fun e => { e with wp2 := 1 }).ptrFails 511 = true := by
  decide +kernel

theorem wit_CardingStages :
    let r : RunSt := ⟨0, none, 0⟩
    let a := ((regsAt [(.SLOT_BAF_EN, 255, 0)]).onSlot 255 fun x => { x with run := some r }).onCard 7 fun c =>
      { c with inbox := [.pixel 255 3 0xD401E00F], hot := [(255, 640, 480)] }
    let a' := a.onCard 7 fun c => { c with hot := [] }
    let wm := (State.reset.onSlot 255 fun x => { x with run := some { r with warmEnd := some 0 } }).onRaw fun _ => 2500000
    a.cardLive 7 = true ∧ (a.card 7).inbox = [.pixel 255 3 0xD401E00F] ∧ unitOfSlot 255 = 7 ∧ (a.slot 255).stopped = none ∧
      (a.slot 255).run = some r ∧ r.warmEnd = none ∧
      (a.card 7).hot.contains (255, bits 0xD401E00F 19 11, bits 0xD401E00F 8 11) = true ∧
      (a'.card 7).hot.contains (255, bits 0xD401E00F 19 11, bits 0xD401E00F 8 11) = false ∧ a'.cardLive 7 = true ∧
      (a'.card 7).inbox = [.pixel 255 3 0xD401E00F] ∧ (a'.slot 255).run = some r ∧ (a'.slot 255).stopped = none ∧
      a'.flag .SLOT_BAF_EN 255 = false ∧ a'.flag .SLOT_RECT_EN 255 = false ∧ a'.flag .CARD_CTRL_KCOPY_RAW 7 = false ∧ (wm.slot 255).run = some { r with warmEnd := some 0 } ∧
      wm.cardLive (unitOfSlot 255) = true ∧ 0 + 2500 ≤ wm.nowUs ∧ Table.wf 0 (State.reset.card 7).act := by
  decide +kernel

theorem wit_FullerAtWork :
    let s := (regsAt [(.FUL_CTRL_EN, 0, 1), (.SUB_EN, 3, 1), (.SLOT_ROUTE_EN, 0, 1), (.SUB_WIN, 3, 1), (.EQ_CFG_EN, 0, 1)])
    let e := s.onEq 0 fun e => { e with recs := [⟨0, 0⟩] }
    let d := s.onTime fun x => { x with off := 10 ^ 9 * 2 ^ 16 }
    let dd := d.onSub 3 fun x => { x with snaps := [(0, 0)], snapTo := 1 }
    let dq := d.onEq 0 fun e => { e with recs := [⟨0, 0⟩] }
    let h := (s.onTile 3 0 fun x => { x with fresh := false })
    let xf : Xfer := { desc := List.replicate 32 0, todo := [0] }
    let x := s.onXfers 2 1 fun _ => [xf]
    let p := s.onSub 3 fun x => { x with fifo := [5] }
    e.fulLive = true ∧ e.flag .FUL_CTRL_EN = true ∧ e.ful.turn = 0 ∧ e.fullerBound 0 = true ∧ e.flag .EQ_CFG_EN 0 = true ∧
      (e.eq 0).recs ≠ [] ∧ (h.tile 3 0).fresh = false ∧ (h.tile 3 0).base ≤ 5 ∧ (5 - (h.tile 3 0).base) / h.subQ 3 ≤ 0xFFFE ∧
      h.ldNap (h.napAddr 3 0 255 (h.planeOf 3 true)) ≤ (5 - (h.tile 3 0).base) / h.subQ 3 ∧ (s.tile 3 0).fresh = true ∧
      s.subQueue 3 = some 0 ∧ s.closeDue 3 = false ∧ d.closeDue 3 = true ∧ d.subQueue 3 = some 0 ∧ (d.sub 3).snaps = [] ∧ d.eqOcc 0 = 0 ∧
      0 < d.winLen 3 ∧ (d.sub 3).snapTo ≤ (d.sub 3).cur ∧ dd.closeDue 3 = true ∧ (dd.sub 3).snaps = [(0, 0)] ∧ (dd.sub 3).cur ≤ 0 ∧
      dq.closeDue 3 = true ∧ dq.eqOcc 0 ≠ 0 ∧ dq.subQueue 3 = some 0 ∧ e.ptrFails 0 = false ∧ x.fulLive = true ∧ x.millLive 2 = true ∧ x.xfers 2 1 = [xf] ∧ (p.sub 3).fifo = [5] ∧
      (p.sub 3).spur = 0 ∧ (s.sub 3).fifo = [] := by
  decide +kernel

theorem wit_TaskQueues :
    let s := regsAt [(.TQ_SIZE, 8, 4), (.TQ_TAIL, 8, 1)]
    let z := regsAt [(.TQ_STATE, 8, 2)]
    let good : List Byte := [0, 0, 1, 0] ++ leBytes 4 0 ++ [1, 0, 1, 0, 1, 0, 0, 0] ++ List.replicate 112 0
    let g := (s.stBytes (.mill 1) 0 good)
    let r : RunTask := { tq := 0, desc := good }
    let rs := s.setTask 1 15 r
    let jb := fun n => s.onMill 1 fun x => { x with jobs := [{ mb := 0, id := 0, todo := n }] }
    let p : Post := ⟨1, 63, 65535⟩
    let ps := State.reset.onMs fun x => { x with posts := [p] }
    s.letIn (.fw 0) .TQ_TAIL 8 = .ok s ∧ s.letIn (.fw 0) .TQ_CLR 8 = .ok s ∧ s.tqHalted 8 = false ∧ z.tqHalted 8 = true ∧
      z.letIn (.fw 0) .TQ_CLR 8 = .ok z ∧ s.millLive 1 = true ∧ s.draining 1 = false ∧ s.headExposed 1 0 = true ∧
      (∀ j, j < 8 → j ≠ 0 → s.tqEmpty (8 * 1 + j) = true ∧ s.reruns 1 j = [] ∧ s.expanding 1 j = none) ∧
      s.taskBad 1 (s.tqHeadDesc 1 0) = true ∧ g.millLive 1 = true ∧ g.headExposed 1 0 = true ∧
      g.taskBad 1 (g.tqHeadDesc 1 0) = false ∧ taskAlias (g.tqHeadDesc 1 0) = false ∧ tdSparse (g.tqHeadDesc 1 0) = false ∧
      g.waitsMet 1 (tdWaits (g.tqHeadDesc 1 0)) = true ∧ g.idleTe 1 = some 0 ∧
      rs.task 1 15 = some r ∧ r.reading = false ∧ r.tmpl = none ∧ bit (rs.mill 1).offReq 15 = false ∧
      ps.ms.posts = [p] ∧ ps.rd .MILL_STAT_STATE 1 = 0 ∧ ps.rd .TKC 127 + 65535 ≤ 65535 ∧
      65535 < (ps.wr .TKC 127 1).rd .TKC 127 + p.count ∧ (ps.wr .MILL_STAT_STATE 1 1).rd .MILL_STAT_STATE 1 ≠ 0 ∧ tdKind r.desc ≠ 15 ∧
      (s.mill 1).jobs = [] ∧ (z.mill 1).offReq = 0 ∧ bit (rs.mill 1).testReq 15 = false ∧ r.tq ≠ 8 ∧ rs.domOn (pdMq (quadOf 1)) = true ∧
      ((jb 0).mill 1).jobs = [{ mb := 0, id := 0, todo := 0 }] ∧ 0 < (jb 0).tasksAdded 8 2 ∧ (jb 9).tasksAdded 8 2 ≤ 9 := by
  decide +kernel

theorem wit_MillUnits :
    let s := State.reset
    let b := s.setTask 5 3 { tq := 0, desc := [] }
    let cr := s.onMill 5 fun x => { x with chans := [(0, [{ desc := [] }])] }
    let ps := (regsAt [(.MILL_STAT_TE_LIVE, 5, 0xFFF7)]).onMill 5 fun x => { x with passed := 8 }
    let f := regsAt [(.MILL_STAT_STATE, 5, 1), (.MILL_STAT_TE_LIVE, 5, 0)]
    let g := f.onMill 5 fun x => { x with millPass := true, passed := 0xFFFF }
    let cmd : Cmd := ⟨0, 7, leBytes 64 0x68, .ready, {}, [], none⟩
    let u := (regsAt [(.MB_STAT_STATE, 0, 2), (.MILL_STAT_STATE, 0, 2)]).onCmds 0 fun _ => [cmd]
    let cmd1 : Cmd := ⟨0, 7, leBytes 8 0x68 ++ leBytes 24 0 ++ leBytes 32 0, .ready, {}, [], none⟩
    s.millLive 5 = true ∧ s.teLive 5 3 = true ∧ Table.get 0 (s.mill 5).removals 3 < 2 ∧
      setBit (s.rd .MILL_STAT_TE_LIVE 5) 3 false ≠ 0 ∧ s.rd .MILL_STAT_TE_LIVE 5 < 2 ^ 16 ∧
      cr.millLive 5 = true ∧ (cr.mill 5).chans.all (fun e => e.2.isEmpty) = false ∧
      b.letIn (.fw 0) .MILL_CTRL_TE_OFF 5 = .ok b ∧ b.millLive 5 = true ∧ (b.task 5 3).isSome = true ∧ b.teLive 5 3 = true ∧
      ps.letIn (.fw 0) .MILL_CTRL_TE_READMIT 5 = .ok ps ∧ ps.millLive 5 = true ∧ bit (ps.mill 5).passed 3 = true ∧
      ps.teLive 5 3 = false ∧ ps.teCause 5 3 ≠ causeRetired ∧
      f.letIn (.fw 0) .MILL_CMD_RETEST 5 = .ok f ∧ f.rd .MILL_STAT_STATE 5 = 1 ∧ (f.wr .MILL_STAT_STATE 5 2).rd .MILL_STAT_STATE 5 = 2 ∧
      g.letIn (.fw 0) .MILL_CMD_READMIT 5 = .ok g ∧ (g.mill 5).millPass = true ∧ (g.mill 5).passed < 2 ^ 16 ∧
      (regsAt [(.MQ_TEST_PERIOD, 0, 10)]).rd .MQ_TEST_PERIOD 0 ≠ 0 ∧ s.domOn (pdMq 0) = true ∧ s.task 5 3 = none ∧
      s.letIn (.fw 0) .TE_FLAGS_NANTILE (16 * 5 + 3) = .ok s ∧
      u.runs 0 7 0x68 false cmd ∧ bits (cmd.opw 0) 11 2 = 0 ∧ (u.millLive (bits (cmd.opw 0) 0 7) && u.teLive 0 0) = false ∧
      cmd1.op = cmd.op := by
  unfold State.runs
  decide +kernel

theorem wit_MillTestsAndRequests :
    let s := State.reset
    let i : Inv := { mb := 0, id := 0, spur := 0, hb := 0, slot := 0, gen := 0, win := 0, adm := 0 }
    let f := regsAt [(.MILL_STAT_STATE, 5, 1), (.MILL_STAT_TE_LIVE, 5, 0)]
    let g := (f.onMill 5 fun x => { x with millPass := true, passed := 0xFFFF }).onMail fun m => { m with invs := [i] }
    let q := s.onPm fun x => { x with bist := 2 }
    let cmd := fun (n : Nat) => (⟨0, 7, leBytes 24 0x68 ++ leBytes 40 n, .ready, {}, [], none⟩ : Cmd)
    let u := fun (n st : Nat) => ((regsAt [(.MB_STAT_STATE, 0, 2), (.MILL_STAT_STATE, 0, st)]).onCmds 0 fun _ => [cmd n]).onMill 0
      fun x => { x with millPass := true }
    (s.mill 5).chans.all (fun e => e.2.isEmpty) = true ∧ s.letIn (.fw 0) .MILL_CTRL_TE_OFF 5 = .ok s ∧
      bit (s.mill 5).passed 3 = false ∧ s.letIn (.fw 0) .MILL_CTRL_TE_READMIT 5 = .ok s ∧
      (f.wr .MILL_STAT_STATE 5 2).rd .MILL_STAT_STATE 5 = 2 ∧ bit f.pm.bist (quadOf 5) = false ∧ bit q.pm.bist 1 = true ∧
      f.noInvs (f.millOwner 5) = true ∧ (f.mill 5).millPass = false ∧ g.rd .MILL_STAT_STATE 5 = 1 ∧ (g.mill 5).millPass = true ∧
      g.noInvs (g.millOwner 5) = false ∧ g.letIn (.fw 0) .MILL_CMD_READMIT 5 = .ok g ∧ f.letIn (.fw 0) .MILL_CMD_READMIT 5 = .ok f ∧
      s.flag .MQ_OP_BUSY 0 = false ∧ (s.mill 0).offReq = 0 ∧
      (u 0 0).runs 0 7 0x68 false (cmd 0) ∧ bits ((cmd 0).opw 0) 11 2 = 0 ∧
      ((u 0 0).millLive (bits ((cmd 0).opw 0) 0 7) && (u 0 0).teLive 0 0) = true ∧
      (u 0x1000 1).runs 0 7 0x68 false (cmd 0x1000) ∧ bits ((cmd 0x1000).opw 0) 11 2 = 2 ∧
      (u 0x1000 1).rd .MILL_STAT_STATE 0 = 1 ∧ ((u 0x1000 1).mill 0).millPass = true ∧
      (u 0x800 2).runs 0 7 0x68 false (cmd 0x800) ∧ bits ((cmd 0x800).opw 0) 11 2 = 1 ∧
      (u 0x800 2).rd .MILL_STAT_STATE 0 = 2 := by
  unfold State.runs
  decide +kernel

theorem wit_DmaChannels :
    let good : List Byte := [3, 0, 0, 0, 0, 0, 0, 0] ++ leBytes 8 0 ++ leBytes 8 (5 * 2 ^ 20 + 64) ++ leBytes 4 16 ++ leBytes 4 0
    let s := (regsAt [(.DC_TAIL, 23, 1), (.SPUR_QUADS, 0, 2)])
    let g := s.stBytes (.mill 5) 0 good
    let x := State.reset.onXfers 5 3 fun _ => [{ desc := 1 :: good.tail }]
    let y := State.reset.onXfers 5 3 fun _ => [{ desc := good, todo := [1] }]
    s.letIn (.fw 0) .DC_TAIL 23 = .ok s ∧ State.reset.rd .DC_HEAD 23 = State.reset.rd .DC_TAIL 23 ∧
      s.millLive 5 = true ∧ s.draining 5 = false ∧ s.flag .DC_ERR 23 = false ∧ s.rd .DC_HEAD 23 ≠ s.rd .DC_TAIL 23 ∧
      s.waitsMet 5 (ddWaits (s.dmaDesc 5 3)) = true ∧ s.dmaRoom 5 (s.dmaDesc 5 3) = true ∧
      (s.dmaShapeBad 5 (s.dmaDesc 5 3) || s.dmaTargetBad 5 (s.dmaDesc 5 3)) = true ∧ s.dmaForeign 5 (s.dmaDesc 5 3) = none ∧
      s.flag .DC_ERR 22 = false ∧ (s.put .DC_ERR 22 true).flag .DC_ERR 22 = true ∧ x.millLive 5 = true ∧ y.millLive 5 = true ∧
      g.millLive 5 = true ∧ g.waitsMet 5 (ddWaits (g.dmaDesc 5 3)) = true ∧ g.dmaRoom 5 (g.dmaDesc 5 3) = true ∧
      g.dmaShapeBad 5 (g.dmaDesc 5 3) = false ∧ g.dmaTargetBad 5 (g.dmaDesc 5 3) = false ∧
      (x.xfers 5 3).map Xfer.todo = [[]] ∧ (y.xfers 5 3).map Xfer.todo = [[1]] ∧ (x.xfers 5 3).map (fun z => ddKind z.desc) = [1] := by
  refine ⟨rfl, ?_⟩
  decide +kernel

set_option synthInstance.maxSize 2000 in
theorem wit_MilestoneOperations :
    let g : Signal := ⟨1023, 0, 65535, .core 0⟩
    let w : Waiter := ⟨1023, 5, some 7, .ncc 1, 0⟩
    let s := (regsAt [(.MS_CFG_EN, 1023, 1), (.MS_WQUOTA, 0, 1)]).onMs fun m => { m with signals := [g] }
    let f := s.wr .MS_VALUE 1023 0xFFFF0001
    let o := State.reset.onMs fun m => { m with signals := [{ g with spur := 1 }], waiters := [w] }
    let sw := s.onMs fun m => { m with waiters := [w] }
    let l := o.onTime fun x => { x with off := 100 * 2 ^ 16 }
    let off := s.wr .MS_CFG_EN 1023 0
    let cmd := fun (op : Nat) => (⟨0, 7, leBytes 64 op, .ready, {}, [], none⟩ : Cmd)
    let u := fun (op : Nat) => (regsAt [(.MB_STAT_STATE, 0, 2), (.MS_CFG_EN, 0, 1)]).onCmds 0 fun _ => [cmd op]
    s.ms.signals = [g] ∧ s.ms.waiters = [] ∧ s.rd .MS_CFG_OWNER 1023 = 0 ∧ s.flag .MS_CFG_EN 1023 = true ∧
      s.rd .MS_VALUE 1023 + 65535 < 2 ^ 32 ∧ 2 ^ 32 ≤ f.rd .MS_VALUE 1023 + 65535 ∧ f.flag .MS_CFG_EN 1023 = true ∧
      State.reset.flag .MS_CFG_EN 1023 = false ∧ o.rd .MS_CFG_OWNER 1023 ≠ 1 ∧
      sw.ms.waiters = [w] ∧ w.h ≤ sw.rd .MS_VALUE 1023 + 65535 ∧ sw.rd .MS_VALUE 1023 + 4 < w.h ∧ sw.now ≤ 7 ∧
      sw.ms.signals = [g] ∧ off.ms.signals = [g] ∧ off.rd .MS_CFG_OWNER 1023 = 0 ∧ off.flag .MS_CFG_EN 1023 = false ∧
      o.ms.signals = [{ g with spur := 1 }] ∧ (s.errRing 0).recs.length < 64 ∧
      s.rd .MS_WUSED 0 < s.rd .MS_WQUOTA 0 ∧ (s.wr .MS_WUSED 0 1).rd .MS_WQUOTA 0 ≤ (s.wr .MS_WUSED 0 1).rd .MS_WUSED 0 ∧
      l.rd .MS_VALUE 1023 < w.h ∧ 7 < l.now ∧ o.now ≤ 7 ∧
      (u 0x30).runs 0 7 0x30 false (cmd 0x30) ∧ (u 0x30).msCfgReason (cmd 0x30) = 0 ∧
      (u 0x31).runs 0 7 0x31 false (cmd 0x31) ∧ (u 0x32).runs 0 7 0x32 false (cmd 0x32) ∧
      (u 0x33).runs 0 7 0x33 false (cmd 0x33) ∧ bits ((cmd 0x33).opw 0) 0 10 = 0 ∧ (u 0x33).flag .MS_CFG_EN 0 = true ∧
      ((u 0x33).wr .MS_CFG_EN 0 0).runs 0 7 0x33 false (cmd 0x33) := by
  unfold State.runs
  decide +kernel

theorem wit_BattPools :
    let s := regsAt [(.BP_SHORT_MAX, 2, 5)]
    let w : BWaiter := ⟨0x100, 2, some 7, .agent 0x100 2⟩
    let sq := s.onMs fun m => { m with shortQ := [w] }
    let l := (State.reset.onMs fun m => { m with shortQ := [w] }).onTime fun x => { x with off := 100 * 2 ^ 16 }
    let h : Word := BitVec.ofNat 32 (mkHandle false 1 16383)
    let o := State.reset.onBatt false 16383 fun b => { b with owner := some (0x204, 2) }
    let cmd := fun (op : Nat) => (⟨0, 7, leBytes 24 op ++ leBytes 40 (2 ^ 20), .ready, {}, [], none⟩ : Cmd)
    let a := fun (op : Nat) => (⟨0, 7, leBytes 64 op, .ready, {}, [], none⟩ : Cmd)
    let u := fun (op : Nat) => (regsAt [(.MB_STAT_STATE, 0, 2)]).onCmds 0 fun _ => [cmd op]
    let v := (regsAt [(.MB_STAT_STATE, 0, 2)]).onCmds 0 fun _ => [a 0x38]
    s.ms.shortQ = [] ∧ s.grantsNow false < 4 ∧ s.eligible false 2 = true ∧ State.reset.eligible false 2 = false ∧
      sq.ms.shortQ = [w] ∧ sq.eligible false 2 = true ∧ l.eligible false 2 = false ∧ 7 < l.now ∧
      hRsv h.toNat = 0 ∧ hGen h.toNat = 1 ∧ hIndex h.toNat = 16383 ∧ hLong h.toNat = false ∧ (State.reset.batt false 16383).owner = none ∧
      o.batt false 16383 = ⟨1, some (0x204, 2)⟩ ∧ hGen 0 = 0 ∧
      (u 0x39).runs 0 7 0x39 false (cmd 0x39) ∧ (u 0x3A).runs 0 7 0x3A false (cmd 0x3A) ∧ hGen ((cmd 0x3A).opw 0) = 1 ∧
      ((u 0x39).onBatt false 0 fun b => { b with owner := some ((u 0x39).mbCore 0, 0) }).battCheck ((u 0x39).mbCore 0) 0
        ((cmd 0x39).opw 0) none = none ∧
      v.runs 0 7 0x38 false (a 0x38) ∧ bits ((a 0x38).opw 0) 0 2 = 0 ∧ v.eligible false 0 = false ∧ v.cmdById 0 0 = some (a 0x38) := by
  unfold State.runs
  decide +kernel

theorem wit_ProjectorsAndGrid :
    let s := (regsAt [(.PRJ_SPUR, 0, 0)]).onGrid 0 fun g => { g with opened := [⟨5, 3, 0, 0, 0⟩] }
    let c := s.onGrid 0 fun g => { g with closed := some 4 }
    let cl : List Byte := [3, 0, 0, 0, 0, 0, 0, 0, 0, 0, 0, 0] ++ leBytes 4 5 ++ List.replicate 16 0
    let pt := fun (w : Nat) => ([2, 0, 0, 0, 1, 0, 0, 0, 0, 0, 0, 0] ++ leBytes 4 w ++ List.replicate 16 0 : List Byte)
    let pj : PrjJob := { spur := 0, place := 63, status := 2 }
    let j := s.onFt fun x => { x with jobs := [(15, pj)] }
    let hn : List Byte := leBytes 4 (mkHandle false 1 3)
    let ph : List Byte := [2, 0, 0, 0, 1, 0, 0, 0] ++ hn ++ leBytes 4 5 ++ List.replicate 16 0
    let im : List Byte := [1, 0, 0, 0, 1, 0, 0, 0, 0, 0, 0, 0] ++ leBytes 4 4 ++ List.replicate 16 0
    let b := s.onBatt false 3 fun _ => ⟨1, some (0x300, 0)⟩
    let e := c.wr .EGO_STAT_STATE 0 2
    cl.length = 32 ∧ (pt 7).length = 32 ∧ s.idleProjector 0 = some 0 ∧ s.idleProjector 1 = none ∧ s.projLive = true ∧
      s.jobBad 0 (List.replicate 32 0) = true ∧ s.jobBad 0 (pt 7) = false ∧ (c.grid 0).classify (pjWin (pt 4)) = .late ∧
      (s.grid 0).classify (pjWin (pt 7)) = .ahead ∧ pjKind (pt 7) = 2 ∧ pjKind cl = 3 ∧ pjMode cl = 0 ∧ leAt cl 16 16 = 0 ∧
      (s.grid 0).opened = [⟨5, 3, 0, 0, 0⟩] ∧ (s.grid 0).closed = none ∧ pjWin cl = 5 ∧
      (s.ft.jobs.any fun e => e.2.spur == 0) = false ∧ j.ft.jobs.find? (fun e => e.1 == 15) = some (15, pj) ∧ pj.recs ≤ pj.cur ∧
      ph.length = 32 ∧ b.idleProjector 0 = some 0 ∧ b.projLive = true ∧ b.jobBad 0 ph = false ∧ pjKind ph = 2 ∧
      ((b.grid 0).opened.any fun x => x.win == pjWin ph) = true ∧ b.handleLive (pjHandle ph) = true ∧
      b.handleOwner (pjHandle ph) = some 0 ∧ 8 + (b.ringTake 0 ph).2.jobNrec 0 ph * b.recSize 0 ph ≤ battSize (pjHandle ph) ∧
      im.length = 32 ∧ pjKind im = 1 ∧ e.suspended (pjSrc im) = true ∧ e.jobBad 0 im = false ∧
      (e.grid 0).classify (pjWin im) ≠ .ok ∧ e.idleProjector 0 = some 0 ∧ e.projLive = true ∧ (c.grid 0).closed = some 4 ∧
      0 ≤ winDiff 5 4 := by
  decide +kernel

theorem wit_EgoAndTracker :
    let w : EgoWin := ⟨0, 10, [0x40A00000, 0, 0, 0, 0, 0]⟩
    let rs := (List.range 6).flatMap fun k => [(⟨k, 5, 0, true⟩ : EgoRef), ⟨k, 10, 0, true⟩]
    let s := State.reset.onEgo 255 fun e => { e with waits := [w] }
    let o := s.onTime fun x => { x with off := 1000 * 2 ^ 16 }
    let r := s.onEgo 255 fun e => { e with refs := rs }
    let d := fun (k w : Nat) => (leBytes 4 k ++ leBytes 4 w ++ leBytes 56 0 : List Byte)
    let dh := leBytes 4 (1 + 256) ++ leBytes 60 0
    let p := State.reset.onFt fun f => { f with trk := [(7, ⟨some 9, 0, 0⟩)] }
    (s.ego 255).waits = [w] ∧ (s.rd .EGO_CTRL_XCHK_SRC 255 = 0) ∧
      ((List.range 6).all fun k => (s.ego 255).refs.any fun r => r.chain == k && decide (10 ≤ r.stamp)) = false ∧
      ¬ 10 + 16 * (10 - 0) ≤ s.now ∧ 10 + 16 * (10 - 0) ≤ o.now ∧
      ((List.range 6).all fun k => (r.ego 255).refs.any fun r => r.chain == k && decide (10 ≤ r.stamp)) = true ∧
      (((List.range 6).map fun k => r.refMean 255 k 0 10).all Option.isSome) = true ∧
      farApart ((w.twist.map f32).take 3) ((((List.range 6).map fun k => r.refMean 255 k 0 10).filterMap id).take 3)
        ((r.rd .XCHK_W 255 : Rat) / 1000) = true ∧
      (r.wr .EGO_STAT_STATE 255 1).rd .EGO_STAT_STATE 255 = 1 ∧ r.rd .EGO_STAT_STATE 255 ≠ 1 ∧
      s.letIn (.fw 0) .EGO_CTRL_CLR 255 = .ok s ∧
      (d 1 5).length = 64 ∧ State.reset.trkLive = true ∧ paKind (d 1 5) = 1 ∧ paNdb (d 1 5) = 0 ∧ leAt (d 1 5) 48 16 = 0 ∧
      paWin (d 1 5) = 5 ∧ p.passOld 7 (d 1 5) = true ∧ p.passOld 7 (d 1 10) = false ∧ p.ft.pass = none ∧
      (∃ h ∈ paHandles dh, State.reset.handleLive h = false) ∧ paNdb dh = 1 ∧ paKind dh = 1 ∧ State.reset.tracksOf 7 = [] ∧
      paKind (d 2 5) = 2 := by
  decide +kernel

theorem wit_KerbStaysArmed :
    let s := regsAt [(.KRB_STAT_ARMED, 0, 1)]
    s.armed = true ∧ (∃ t, exec (.busMasterEnable 0 true) s = .next t) ∧
      (∃ t, exec (.borCrossing 0) s = .next t ∧ t.armed = false) := by
  exact ⟨by decide +kernel, ⟨_, rfl⟩, _, rfl, by decide +kernel⟩

theorem wit_GlobalStopsStopEveryGroup :
    State.reset.armed = false ∧ State.reset.rd .KRB_OUT_SSTOP_COVER ≠ 0 ∧ State.reset.rd .KRB_OUT_SSTOP_COVER < 2 ^ 8 ∧
      (State.reset.onKerb fun k => { k with forcedOff := true }).kerb.forcedOff = true := by decide +kernel

theorem wit_KerbCountsAndMasks :
    let c : KCopy := ⟨255, 2047, 0, true, 0, false⟩
    let s := (regsAt [(.ZR_EN, 2047, 1), (.ZR_SLOT, 2047, 255), (.ZR_X1, 2047, 2047), (.ZR_ZONE, 2047, 63), (.ZONE_EN, 511, 1)]).onKcopies
      fun t => Table.set [] t 7 [c]
    let f : List Byte := leBytes 2 0xA5E1 ++ leBytes 2 0 ++ leBytes 8 5 ++ leBytes 48 0
    let g := f ++ leBytes 4 (crc32 f)
    let p := State.reset.onKerb fun k => { k with goodVt := some 5, pose := some ⟨true, 5, [], []⟩ }
    let b := State.reset.onKerb fun k => { k with pose := some ⟨false, 5, [], []⟩ }
    s.domOn pdKerb = true ∧ Table.get [] s.kcopies 7 = [c] ∧ s.zonesHit 7 c = [511] ∧
      g.length = 64 ∧ g.take 60 = f ∧ leAt g 60 4 = crc32 f ∧ leAt g 0 2 = 0xA5E1 ∧ leAt g 4 8 = 5 ∧ State.reset.rd .KRB_MASK_SRC = 0 ∧
      leAt (List.replicate 64 0) 60 4 ≠ crc32 (List.replicate 60 (0 : Byte)) ∧ State.reset.kerb.goodVt = none ∧
      p.kerb.goodVt = some 5 ∧ p.kerb.pose = some ⟨true, 5, [], []⟩ ∧ (∀ z ∈ s.zonesHit 7 c, z < 512) ∧
      b.kerb.pose = some ⟨false, 5, [], []⟩ ∧ State.reset.rd .KRB_MASK_SRC ≠ 11 := by
  decide +kernel

theorem wit_VerdictsAndDeadlines :
    let s := State.reset
    let a := regsAt [(.SLOT_CTRL_STATE, 1023, 1), (.VS_EN, 0, 1), (.VS_MASK, 15, 0x80000000), (.VS_MINACT, 0, 1), (.VS_MAXAGE, 0, 5)]
    let due := (a.onTime fun x => { x with off := 100 * 2 ^ 16 })
    let ok := (a.wr .SLOT_CTRL_STATE 1023 1).onKerb fun k => { k with slots := Table.set {} k.slots 1023 ⟨200, 7, 0, 1, 0⟩ }
    let r : List Byte := leBytes 2 1023 ++ [0, 0] ++ leBytes 4 7 ++ leBytes 136 0
    let r2 : List Byte := leBytes 2 1023 ++ [1, 0] ++ leBytes 140 0
    let old := ((a.wr .LATCH_REASON 511 1).onTime fun x => { x with off := 10 ^ 6 * 2 ^ 16 })
    let l := s.onKerb fun k => { k with lateLog := [⟨1, 2, 3, 4⟩] }
    s.letIn (.fw 0) .SLOT_CTRL_ARM 1023 = .ok s ∧ bits (0x7 : Word).toNat 1 2 = 3 ∧ bits (0x5 : Word).toNat 1 2 = 2 ∧
      s.rd .SLOT_CTRL_STATE 1023 ≠ 1 ∧ a.rd .SLOT_CTRL_STATE 1023 = 1 ∧ a.letIn (.fw 0) .SLOT_CTRL_ARM 1023 = .ok a ∧
      s.due 1023 = false ∧ s.activeLatches = [] ∧ due.due 1023 = true ∧ due.activeLatches = [511] ∧
      max (due.armedSlot 1023).act (due.rd .VS_MINACT (due.armedSlot 1023).vset) = 1 ∧ due.inSet 0 511 = true ∧
      r.length = 144 ∧ (∀ z ∈ ok.activeLatches, ok.aged z = false) ∧ (∀ d ∈ ok.armedSlots, ok.due d = false) ∧
      ok.verdictCheck 0 r = 0 ∧ ok.verdictCheck 2 r = 3 ∧ ok.verdictCheck 0 r2 = 2 ∧ ok.setZones 0 = [511] ∧
      (ok.wr .SLOT_CTRL_STATE 1023 3).verdictCheck 0 r = 6 ∧ (ok.wr .SLOT_CTRL_STATE 1023 3).armedSlots = [] ∧
      511 ∈ old.activeLatches ∧ old.aged 511 = true ∧ 511 ∈ a.activeLatches ∧ a.aged 511 = false ∧
      l.admitRead (.fw 0) .KRB_LATELOG 0 = .ok l ∧ l.kerb.lateLog = [⟨1, 2, 3, 4⟩] := by
  decide +kernel

theorem wit_KerbInputsFaultsAndArming :
    let s := State.reset
    let dk := s.onKerb fun k => { k with dark := [(10, 0)] }
    let en := s.onKerb fun k => { k with out := 0x400 }
    let dif := s.onKerb fun k => { k with estopDiff := some 0, fbAAway := some 0 }
    let hi := s.onKerb fun k => { k with estopA := true }
    let ar := regsAt [(.KRB_STAT_ARMED, 0, 1)]
    let bad := regsAt [(.ZR_EN, 0, 1), (.ZR_X0, 0, 1)]
    let cmd := fun (op : Nat) => (⟨0, 7, leBytes 64 op, .ready, {}, [], none⟩ : Cmd)
    let u := fun (op ar zr : Nat) => ((regsAt [(.MB_STAT_STATE, 0, 2), (.KRB_STAT_ARMED, 0, ar), (.ZR_EN, 0, zr), (.ZR_X0, 0, zr)]).onCmds 0
      fun _ => [cmd op]).onFn 0 fun x => { x with bme := true }
    dk.inDark 10 = true ∧ s.inDark 10 = false ∧ (s.onKerb fun k => { k with dark := [(0, 0)] }).inDark 0 = true ∧
      (s.wr .PM_STATUS_DOM_ON 0 0).domOn pdKerb = false ∧ s.domOn pdKerb = true ∧ dif.kerb.estopDiff = some 0 ∧ dif.kerb.fbAAway = some 0 ∧
      s.kerb.estopA = false ∧ s.kerb.estopASince + s.rd .KRB_ESTOP_FILT * 1000 ≤ (s.onRaw fun _ => 50000).raw ∧ hi.kerb.estopA = true ∧
      bit en.kerb.out 10 = true ∧ en.domOn pdKerb = true ∧ bit s.kerb.out 10 = false ∧ s.letIn (.fw 0) .KRB_RESET 0 = .ok s ∧
      s.letIn (.fw 0) .KRB_ARM_ARM 0 = .ok s ∧ s.armed = false ∧ ar.armed = true ∧ ar.letIn (.fw 0) .KRB_ARM_ARM 0 = .ok ar ∧
      s.armRefusal = 0 ∧ bad.armRefusal = 1 ∧ bad.armed = false ∧ bad.letIn (.fw 0) .KRB_ARM_ARM 0 = .ok bad ∧
      (u 0x20 1 0).runs 0 7 0x20 true (cmd 0x20) ∧ (u 0x20 1 0).armed = true ∧
      (u 0x20 0 0).runs 0 7 0x20 true (cmd 0x20) ∧ (u 0x20 0 0).armed = false ∧
      reservedIn (kerbCfgOffsets.zip (([] : List Word).map BitVec.toNat)) = none ∧ (u 0x20 0 0).armRefusal = 0 ∧
      (u 0x20 0 0).kerb.zones = [] ∧
      (u 0x20 0 1).runs 0 7 0x20 true (cmd 0x20) ∧ (u 0x20 0 1).armRefusal = 1 ∧
      (u 0x21 0 0).runs 0 7 0x21 false (cmd 0x21) := by
  unfold State.runs
  decide +kernel

theorem wit_KerbLoadReserved :
    reservedIn (kerbCfgOffsets.zip (([0xFF14FFFF] : List Word).map BitVec.toNat)) = some 0 := by
  have h : kerbCfgOffsets.zip (([0xFF14FFFF] : List Word).map BitVec.toNat) = [(0x60020, 0xFF14FFFF)] := rfl
  rw [h]
  decide +kernel

theorem wit_MailboxRingsAndFetch :
    let s := State.reset
    let en := regsAt [(.MB_CFG_EN, 0, 1), (.NGX_STATE, 0, 1), (.MB_STAT_STATE, 0, 2), (.MB_SQ_TAIL, 0, 1)]
    let f := en.onFn 0 fun x => { x with bme := true }
    let d := leBytes 4 (9 * 2 ^ 16) ++ leBytes 60 0
    let c : Cmd := { id := f.mail.nextId, tag := leAt d 2 2, desc := d, stage := .ready, cfg := {} }
    let bad : Cmd := { c with desc := leBytes 64 0xFF }
    let l := (f.onCmds 0 fun _ => [{ c with desc := leBytes 16 (9 * 2 ^ 16) ++ leBytes 8 1 ++ leBytes 40 0 }]).onTime fun x =>
      { x with off := 100 * 2 ^ 16 }
    let one := s.onMail fun m => { m with fenced := 2 }
    s.letIn (.fw 0) .MB_CFG_EN 0 = .ok s ∧ bits (0x20155 : Word).toNat 16 11 = 2 ∧ bits (0x20155 : Word).toNat 2 4 = 5 ∧
      bits (0x20155 : Word).toNat 6 4 = 5 ∧ s.flag .MB_CFG_EN 0 = false ∧ s.rd .MB_STAT_STATE 0 = 0 ∧
      en.letIn (.fw 0) .MB_CFG_EN 0 = .ok en ∧ en.flag .MB_CFG_EN 0 = true ∧ en.rd .MB_STAT_STATE 0 = 2 ∧
      en.letIn (.host 0 false) .MB_SQ_DB 0 = .ok en ∧ en.letIn (.host 0 false) .MB_CQ_DB 0 = .ok en ∧
      d.length = 64 ∧ s.mayFetch 0 = false ∧ f.mayFetch 0 = true ∧ f.flag .MB_CFG_LOC 0 = false ∧ f.cmds 0 = [] ∧
      bad.op ∉ opcodes ∧ c.op ∈ opcodes ∧ descBad c = none ∧ c.settingsBad = false ∧ f.notPermitted 0 c = none ∧
      c.flagBit 0 = false ∧ f.late c = false ∧ ((l.cmds 0).find? (fun x => x.tag == 9 && l.late x)).isSome = true ∧
      (s.cmds 0).find? (fun x => x.tag == 9 && s.late x) = none ∧
      s.domOn pdCtrl = true ∧ bit s.mail.fenced 0 = false ∧ bit one.mail.fenced 1 = true ∧ bit one.mail.fenced 0 = false ∧ sibling 0 = 1 ∧
      f.rd .SPUR_TDI 0 ≠ 3 ∧ f.fnExists 0 = true ∧ f.mayIssue 0 = true := by
  decide +kernel

theorem wit_HatboxesAndInvoke (hc : ∀ k m o, Config.hbCost k m o = 1) :
    let cmd := fun (op : Nat) => (⟨0, 7, leBytes 64 op, .ready, {}, [], none⟩ : Cmd)
    let u := fun (op : Nat) => ((regsAt [(.MB_STAT_STATE, 0, 2), (.NGX_STATE, 0, 1)]).onCmds 0 fun _ => [cmd op]).onFn 0 fun x => { x with bme := true }
    let hb := fun (op : Nat) => (u op).onMail fun m => { m with hbs := [(0, { loaded := true })] }
    let inv : Cmd := { cmd 0x12 with desc := leBytes 16 0x12 ++ leBytes 8 300000 ++ leBytes 40 0 }
    let iv := (hb 0x12).onCmds 0 fun _ => [inv]
    let five := fun (q : Nat) => (iv.wr .SPUR_QUADS 0 q).onMail fun m => { m with hbs := [(0, { loaded := true, mills := [5] })] }
    let two := five 2
    let late := two.onMail fun m => { m with invs :=
      [{ mb := 1, id := 9, spur := 0, hb := 1, slot := 9, gen := 0, win := 0, adm := 0, cost := 300000, mills := [5] }] }
    let out_ := five 0
    (u 0x10).runs 0 7 0x10 false (cmd 0x10) ∧ ((u 0x10).wr .NGX_STATE 0 2).quarantined = true ∧ (u 0x10).quarantined = false ∧
      hbFormatBad ⟨[], 0, ⟨[], 0, 0, 0, [], [], [], true, 0, false, 0, 0⟩⟩ 0 = true ∧
      (u 0x11).runs 0 7 0x11 false (cmd 0x11) ∧ (u 0x11).hbOf 0 ((cmd 0x11).opw 0) = none ∧
      (hb 0x11).runs 0 7 0x11 false (cmd 0x11) ∧ (hb 0x11).hbOf 0 ((cmd 0x11).opw 0) = some 0 ∧
      (u 0x12).runs 0 7 0x12 false (cmd 0x12) ∧ (hb 0x12).invokeBad 0 0 (cmd 0x12) = some (0x16, 250) ∧
      iv.runs 0 7 0x12 false inv ∧ iv.hbOf 0 (inv.opw 0 % 2 ^ 16) = some 0 ∧ iv.invokeBad 0 0 inv = none ∧
      iv.rd .SLOT_CTRL_STATE 0 ≠ 1 ∧ (∀ m ∈ (two.hb 0 0).placed, two.inMillSet 0 m = true) ∧ (two.hb 0 0).placed = [5] ∧
      two.now + two.hbCostOn 0 0 [5] + (two.queuedCost [5] - 0) ≤ inv.deadline ∧
      inv.deadline < late.now + late.hbCostOn 0 0 [5] + (late.queuedCost [5] - 0) ∧ late.invokeBad 0 0 inv = none ∧
      (out_.hb 0 0).placed = [5] ∧ out_.inMillSet 0 5 = false ∧ out_.invokeBad 0 0 inv = none ∧
      (u 0x13).hbOf 0 ((cmd 0x13).opw 0) = none ∧ ptpCfgOk ⟨0, 0, 2, 0, 0, 0⟩ = false ∧ ptpCfgOk ⟨0, 0, 0, 0, 0, 0⟩ = true ∧
      (u 0).runs 0 7 0 false (cmd 0) ∧ (u 1).runs 0 7 1 true (cmd 1) ∧ (u 0x13).runs 0 7 0x13 true (cmd 0x13) ∧
      (hb 0x13).hbOf 0 ((cmd 0x13).opw 0) = some 0 ∧ (u 0x51).runs 0 7 0x51 true (cmd 0x51) ∧
      (u 0x50).runs 0 7 0x50 false (cmd 0x50) := by
  refine ⟨⟨?_, ?_, fun h => by cases h⟩, by decide +kernel, by decide +kernel, by decide +kernel, ⟨?_, ?_, fun h => by cases h⟩,
    by decide +kernel, ⟨?_, ?_, fun h => by cases h⟩, by decide +kernel, ⟨?_, ?_, fun h => by cases h⟩, by decide +kernel,
    ⟨?_, ?_, fun h => by cases h⟩, by decide +kernel, by decide +kernel, by decide +kernel, by decide +kernel, by decide +kernel,
    ?_, ?_, by decide +kernel, by decide +kernel, by decide +kernel, by decide +kernel, by decide +kernel, by decide +kernel,
    by decide +kernel,
    ⟨?_, ?_, fun h => by cases h⟩, ⟨?_, ?_, fun _ => ?_⟩, ⟨?_, ?_, fun _ => ?_⟩, by decide +kernel, ⟨?_, ?_, fun _ => ?_⟩,
    ⟨?_, ?_, fun h => by cases h⟩⟩
  case _ => decide +kernel
  case _ => decide +kernel
  case _ => decide +kernel
  all_goals first | decide +kernel | (unfold State.hbCostOn; rw [hc]; decide +kernel)

theorem wit_HbLoadAccepted (hsha : ∀ l, Config.sha384 l = List.replicate 12 1) (hchk : ∀ k a b, Config.hbCheck k a b = true) :
    let h : List Byte := leBytes 6 (0x7B1D0A57 + 2 ^ 32) ++ [1, 1] ++ leBytes 8 1 ++ List.replicate 1136 0
    let img : HbImage := ⟨h, 1, ⟨[], 0, 0, 0, [], [], [], true, 0, false, 0, 0⟩⟩
    let c : Cmd := ⟨0, 7, leBytes 32 0x10 ++ leBytes 32 1153, .ready, {}, [], none⟩
    let s := (regsAt ((.MB_STAT_STATE, 0, 2) :: (.NGX_STATE, 0, 1) :: (.SEC_STAT_KIT_PRESENT, 0, 1) ::
      (List.range 12).map fun i => (.SIGNER_HASH, i, 1))).onCmds 0 fun _ => [c]
    s.runs 0 7 0x10 false c ∧ s.quarantined = false ∧ s.hbAuth 0 img (bits (c.opw 1) 0 32) = 0 ∧ s.hbVersion h = none ∧
      s.hbTasks img.body = (none, s) ∧ s.hbFit 0 img.body = 0 ∧ s.hbFree 0 = some 0 := by
  refine ⟨⟨by decide +kernel, by decide +kernel, fun h => by cases h⟩, by decide +kernel, ?_, by decide +kernel, rfl, by decide +kernel,
    by decide +kernel⟩
  unfold State.hbAuth State.signerTrusted
  simp only [hsha, hchk]
  decide +kernel

set_option synthInstance.maxSize 2000 in
theorem wit_ConfigurationCommands :
    let wl := cfgCmd 0x40 0 [⟨0x081014, 230401⟩]
    let wlOk := cfgCmd 0x40 0 [⟨0x080000, 1⟩]
    let eq := cfgCmd 0x42 511 [⟨0x107FC0, 0x29⟩]
    let eqBase := cfgCmd 0x42 0 [⟨0x100000, 0x128⟩]
    let eqOk := cfgCmd 0x42 0 [⟨0x100000, 0x29⟩]
    let ful := cfgCmd 0x43 63 [⟨0x141FC8, 1⟩, ⟨0x141FC0, 0x81000800⟩]
    let ft := cfgCmd 0x44 0 [⟨0x180010, 0⟩]
    let off := (serving wlOk []).wr .PM_STATUS_DOM_ON 0 0
    let lock := cfgCmd 0x40 0 [⟨0x060020, 0⟩]
    let sLock := serving lock [(.KRB_STAT_ARMED, 0, 1)]
    let sWl := serving wl [(.HT_STATE, 0, 1)]
    let sEq := serving eq [(.EQ_CFG_EN, 511, 1), (.EQ_CFG_LOG2N, 511, 11)]
    let sFul := serving ful [(.SPUR_RES_WL, 0, 0xFF)]
    let busy := (serving ft []).onFt fun f => { f with grids := [(0, { opened := [⟨0, 0, 0, 0, 0⟩] })] }
    (sLock.runs 0 7 0x40 false lock ∧ sLock.cfgLocked 0 lock = some 0x060020) ∧
      (off.runs 0 7 0x40 false wlOk ∧ off.cfgLocked 0 wlOk = none ∧ off.cfgDomain wlOk ≠ none) ∧
      (sWl.runs 0 7 0x40 false wl ∧ sWl.cfgLocked 0 wl = none ∧ sWl.cfgDomain wl = none ∧ 230400 < sWl.quotaAfter wl 0 ∧
        0 ∈ (wl.idxOf .HT_QUOTA).map (· / 32)) ∧
      ((serving wlOk []).runs 0 7 0x40 false wlOk ∧ wlOk.idxOf .HT_QUOTA = []) ∧
      (sEq.runs 0 7 0x42 false eq ∧ sEq.cfgLocked 0 eq = none ∧ sEq.cfgDomain eq = none ∧ eq.idxOf .EQ_CFG_EN = [511] ∧
        sEq.rd .EQ_CFG_EN 511 = 1 ∧ sEq.settingOf eq.pairs .EQ_CFG_LOG2N 511 ≠ sEq.rd .EQ_CFG_LOG2N 511) ∧
      ((serving eqBase []).runs 0 7 0x42 false eqBase ∧ eqBase.idxOf .EQ_CFG_EN = [0] ∧
        ((serving eqBase []).settingOf eqBase.pairs .EQ_CFG_BASE 0 * 64) %
          2 ^ (serving eqBase []).settingOf eqBase.pairs .EQ_CFG_LOG2N 0 ≠ 0) ∧
      ((serving eqOk []).runs 0 7 0x42 false eqOk ∧ (serving eqOk []).eqCfgBad eqOk 0 = false) ∧
      (sFul.runs 0 7 0x43 false ful ∧ sFul.fulRefuse 0 ful = none ∧ ful.subs = [63] ∧
        (sFul.applySettings 0 ful.pairs).rd .SUB_EN 63 = 1 ∧ (sFul.applySettings 0 ful.pairs).decTries 63 = [0] ∧
        (sFul.applySettings 0 ful.pairs).napFits 0 63 0 [] = false ∧ sFul.flag .SUB_EN 63 = false) ∧
      (serving ful [(.SPUR_RES_WL, 1, 1)]).fulRefuse 0 ful ≠ none ∧
      (busy.runs 0 7 0x44 false ft ∧ busy.ftHeld 0x180010 = true ∧ ft.pairs = [(0x180010, 0)]) ∧
      ((serving ft []).ftHeld 0x180010 = false ∧ (serving ft []).poseBad ft = some 0x180010) := by
  unfold State.runs
  decide +kernel

theorem wit_ConfigurationCommandsEmpty :
    let hd := cfgCmd 0x41 0 []
    let big := cfgCmd 0x41 0 [⟨0x0C0104, 0xFA0011⟩]
    let sOver := serving big [(.HT_STATE, 0, 1), (.HT_GEOM_W, 0, 2047), (.HT_GEOM_H, 0, 2047)]
    let rt := cfgCmd 0x41 0 [⟨0x0C0100, 0x8001⟩]
    let sRt := serving rt [(.SPUR_RES_WL, 1, 1)]
    let ful := cfgCmd 0x43 0 []
    let ft := cfgCmd 0x44 0 []
    ((serving hd []).runs 0 7 0x41 false hd ∧ (serving hd []).quotaBad hd = false ∧
        (∀ u < 8, (((serving hd []).applySettings 0 hd.pairs).giveTables hd).tblSum u ≤ tblSpace) ∧
        (((serving hd []).applySettings 0 hd.pairs).giveTables hd).badRoute (hd.idxOf .SLOT_ROUTE_EN) = none) ∧
      (sOver.runs 0 7 0x41 false big ∧ sOver.quotaBad big = false ∧ big.touches 0 = true ∧
        tblSpace < ((sOver.applySettings 0 big.pairs).giveTables big).tblSum 0) ∧
      (sRt.runs 0 7 0x41 false rt ∧ ((sRt.applySettings 0 rt.pairs).giveTables rt).badRoute (rt.idxOf .SLOT_ROUTE_EN) = some 1) ∧
      ((serving ful []).runs 0 7 0x43 false ful ∧ (serving ful []).fulRefuse 0 ful = none ∧ ful.subs = []) ∧
      ((serving ft []).runs 0 7 0x44 false ft ∧ (serving ft []).ftRefuse ft = none ∧ (serving ft []).cfgLocked 0 ft = none ∧
        (serving ft []).cfgDomain ft = none) := by
  unfold State.runs
  decide +kernel

theorem wit_SpurAssignmentAndScrubs :
    let c := cfgCmd 0x70 1 [⟨0x500104, 0x80000000⟩, ⟨0x500108, 0x80⟩]
    let s := serving c []
    let c8 := cfgCmd 0x70 8 []
    let c0 : Cmd := { cfgCmd 0x70 0 [] with cfg := { release := true } }
    let c1 := cfgCmd 0x70 7 []
    let scr := State.reset.onSec fun x => { x with scrubs := [⟨0, 31, 1, none⟩, ⟨1, 7, 1, none⟩] }
    let flt := regsAt [(.ERR_FAULT_CODE, 7, 1), (.SPUR_STATE, 7, 2)]
    (s.runs 0 7 0x70 false c ∧ s.spurCfgReason 1 c = 0 ∧ s.rd .SPUR_STATE 1 ≠ 3 ∧ s.spurPoolBad 1 c = false) ∧
      ((serving c8 []).runs 0 7 0x70 false c8 ∧ c8.cfg.target = 8) ∧
      ((serving c0 []).runs 0 7 0x70 false c0 ∧ c0.foreignRow 0 = false ∧ c0.cfg.release = true ∧ c0.cfg.target = 0) ∧
      ((serving c1 [(.SPUR_TDI, 7, 2)]).runs 0 7 0x70 false c1 ∧ c1.foreignRow 7 = false ∧
        (serving c1 [(.SPUR_TDI, 7, 2)]).rd .SPUR_TDI 7 = 2) ∧
      State.reset.sec.scrubs = [] ∧ (⟨0, 31, 1, none⟩ : Scrub) ∈ scr.sec.scrubs ∧ scrubKey (.quad 31) = (0, 31) ∧
      (⟨1, 7, 1, none⟩ : Scrub) ∈ scr.sec.scrubs ∧ scrubKey (.channel 7) = (1, 7) ∧
      State.reset.fnExists 7 = false ∧ State.reset.fnExists 0 = true ∧ State.reset.cfgOpen = true ∧
      (State.reset.onLink fun l => { l with perstLow := true }).cfgOpen = false ∧
      flt.domOn pdCtrl = true ∧ flt.rd .SPUR_STATE 7 = 2 ∧ flt.rd .ERR_FAULT_CODE 7 ≠ 0 ∧ State.reset.rd .ERR_FAULT_CODE 0 = 0 := by
  unfold State.runs
  decide +kernel

theorem wit_SpdmRequests :
    let q := regsAt [(.SEC_STAT_QUARANTINE, 0, 1)]
    let s := State.reset.onSec fun x =>
      { x with sessions := [(0, 1), (1, 1), (2, 1), (65535, 2)], ideKeys := [(7, 0xFC0)], ideSet := [(7, 2)] }
    let t := State.reset.onSec fun x => { x with sessions := [(0, 1), (1, 1), (2, 1), (3, 2)] }
    (q.doeUp = true ∧ q.rd .SEC_STAT_QUARANTINE ≠ 0) ∧
      (s.doeUp = true ∧ s.rd .SEC_STAT_QUARANTINE = 0 ∧ s.rd .SEC_STAT_DBG_OPEN = 0 ∧ s.session 65535 = 2 ∧ s.session 0 = 1 ∧
        s.session 3 = 0 ∧ 4 ≤ s.sec.sessions.length ∧
        bits (Table.get 0 s.sec.ideKeys 7) 6 6 = 0x3F ∧ bits (Table.get 0 s.sec.ideKeys 7) 0 6 ≠ 0x3F ∧
        Table.get 0 s.sec.ideSet 7 = 2 ∧ Table.get 0 s.sec.ideSet 6 ≠ 2) ∧
      t.session 65535 = 0 ∧ State.reset.sec.sessions.length < 4 ∧ (1 : BitVec 4) ≠ 0 ∧ (255 : Byte).toNat ∈ [1, 2, 3, 4, 5, 255] ∧
      5 < (6 : Byte).toNat ∧ (6 : Byte).toNat ≠ 255 := by decide +kernel

theorem wit_TdispAndIsolation :
    let s := regsAt [(.SPUR_STREAM, 7, 1), (.SPUR_STATE, 7, 2)]
    let x := State.reset.onIsoLog fun _ => [⟨7, 1, 2, 3⟩]
    (s.doeUp = true ∧ s.spdmClosed = false ∧ s.rd .SPUR_TDI 7 = 0 ∧ s.rd .SPUR_STREAM 7 = 1 ∧ s.rd .SPUR_STATE 7 = 2 ∧
        s.sec.scrubs = [] ∧ s.rd .SPUR_STREAM 6 = 0 ∧ (s.wr .SPUR_TDI 7 1).rd .SPUR_TDI 7 = 1 ∧ s.domOn pdHost = true) ∧
      State.reset.admitRead (.fw 0) .ISO_LOG_LO 0 = .ok State.reset ∧ State.reset.isoLog = [] ∧
      x.admitRead (.fw 0) .ISO_LOG_LO 0 = .ok x ∧ x.isoLog = [⟨7, 1, 2, 3⟩] := by
  refine ⟨by decide +kernel, rfl, rfl, rfl, rfl⟩

theorem wit_CausewayMarkersAndHops :
    let s := regsAt [(.CW_STAT_STATE, 0, 3)]
    let m : BitVec 256 := BitVec.ofNat 256 (crc16 (leBytes 30 0) * 2 ^ 240)
    let c := regsAt ([(.CW_STAT_STATE, 0, 3), (.CW_HOP_GOOD, 1, 0x7F)] ++ (List.range 7).map fun l => (.CW_LANE_IN, l, 0))
    let late := s.onRaw fun _ => 300000
    (State.reset.wr .PM_STATUS_DOM_ON 0 0).domOn pdCw = false ∧ State.reset.rd .CW_STAT_STATE ≠ 2 ∧ State.reset.rd .CW_STAT_STATE ≠ 3 ∧
      (s.domOn pdCw = true ∧ s.rd .CW_STAT_STATE = 3 ∧ bits m.toNat 240 16 = crc16 (leBytes 30 m.toNat) ∧
        bits (0 : BitVec 256).toNat 240 16 ≠ crc16 (leBytes 30 (0 : BitVec 256).toNat)) ∧
      s.frameMask = s.rd .CW_HOP_MASK 1 ∧ (s.wr .CW_HOP_GOOD 1 0xFF).frameMask ≠ (s.wr .CW_HOP_GOOD 1 0xFF).rd .CW_HOP_MASK 1 ∧
      ((s.wr .GLOBAL_ID_DEVID 0 15).onCw fun x => { x with hoptab := [(3, 1)] }).spliceMaster = false ∧ s.cw.inKnown = false ∧ (s.onCw fun x => { x with inKnown := true }).cw.inKnown = true ∧
      s.rd .CW_LANE_IN 7 ≠ 1 ∧ (s.wr .CW_LANE_IN 7 2).rd .CW_LANE_IN 7 = 2 ∧ c.laneModeOk = true ∧ c.rd .CW_STAT_STATE = 3 ∧ c.domOn pdCw = true ∧
      (late.rd .CW_HOP_WIDTH 0 = 0 ∧ late.cw.inEpochAt + 300000 ≤ late.raw ∧ late.cw.outEpochAt + 300000 ≤ late.raw ∧
        late.rd .CW_HOP_WIDTH 1 = 0) ∧
      (s.wr .CW_LANE_IN 7 3).rd .CW_LANE_IN 7 = 3 ∧ bit (s.onCw fun x => { x with outCal := 128 }).cw.outCal 7 = true := by
  decide +kernel

theorem wit_CausewayPackets :
    let hdr := fun (cls ds l sub : Nat) => leBytes 1 cls ++ leBytes 1 ds ++ leBytes 1 l ++ leBytes 1 (sub * 8) ++ leBytes 4 1 ++ leBytes 24 0
    let pkt := fun (cls ds l sub : Nat) => (⟨hdr cls ds l sub, List.replicate (32 * (l % 128)) 0, true⟩ : CwPacket)
    let s := regsAt [(.CW_STAT_STATE, 0, 3)]
    let crown := (regsAt [(.CW_STAT_STATE, 0, 3), (.GLOBAL_ID_ROLE, 0, 1), (.CW_HOP_WIDTH, 0, 8), (.CW_HOP_WIDTH, 1, 8),
      (.AGG_EN, 0, 0x8000), (.AGG_TO, 0, 1)]).onCw fun x =>
        { x with map := [⟨0, 0, 1, true⟩, ⟨9, 15, 2, true⟩], timeOut := [0], goodL := some 0, agg := [(15, ⟨some 1, 0, 0, 0⟩)] }
    let brim := regsAt [(.CW_STAT_STATE, 0, 3), (.GLOBAL_ID_ROLE, 0, 2)]
    let stop := pkt 1 0xF0 0 0
    (stop.wf = true ∧ State.reset.rd .CW_STAT_STATE ≠ 3 ∧ s.domOn pdCw = true ∧ s.rd .CW_STAT_STATE = 3 ∧
        s.rd .CW_STAT_NOT_KIT_UP = 0 ∧ s.rd .CW_STAT_DEVID_DUP = 0) ∧
      ((pkt 6 0 0 0).wf = true ∧ 5 < pCls (pkt 6 0 0 0)) ∧
      ((pkt 5 0x00 0 0).wf = true ∧ pSrc (pkt 5 0x00 0 0) = s.devid ∧ pBcast (pkt 5 0 0 0) = false ∧ pDst (pkt 5 0xFE 0 0) = 14 ∧
        pSrc (pkt 5 0xFE 0 0) ≠ s.devid) ∧
      (pCls stop = 1 ∧ pSrc stop = 15 ∧ pDst stop = crown.devid ∧ pSeq stop = 1 ∧ crown.mapHas 15 = true ∧
        (crown.aggSt 15).seq = some 1 ∧ (crown.aggSt 14).seq = none ∧ crown.rd .GLOBAL_ID_ROLE = 1) ∧
      ((pkt 2 0xF0 0x82 0).wf = true ∧ pBcast (pkt 2 0xF0 0x82 0) = true ∧ brim.rd .GLOBAL_ID_ROLE = 2 ∧
        pSrc (pkt 2 0x00 0x82 0) = crown.devid) ∧
      ((pkt 3 0xF0 0 0).wf = true ∧ pSub (pkt 3 0xF0 0 0) = 0 ∧ pSub (pkt 3 0xF0 0x81 1) = 1 ∧ pSub (pkt 3 0x00 0x81 1) = 1 ∧
        pSub (pkt 3 0xF0 0x81 2) = 2 ∧ (pkt 3 0xF0 0x81 2).wf = true) ∧
      crown.rd .CW_HOP_WIDTH 1 ≠ 0 ∧ crown.cw.map ≠ [] ∧ crown.cw.timeOut = [0] ∧ crown.cw.goodL = some 0 ∧
      crown.now ≤ 2000 ∧ 2000 < (crown.onTime fun t => { t with off := 2001 * 2 ^ 16 }).now ∧
      bit (crown.rd .AGG_EN) 15 = true ∧ crown.raw < (crown.aggSt 15).at_ + crown.rd .AGG_TO * 1000 ∧
      (crown.aggSt 15).at_ + crown.rd .AGG_TO * 1000 ≤ (crown.onRaw fun _ => 1000).raw := by
  decide +kernel

theorem wit_CausewayWorkSplicesAndFailures :
    let hdr := fun (cls ds l sub : Nat) => leBytes 1 cls ++ leBytes 1 ds ++ leBytes 1 l ++ leBytes 1 (sub * 8) ++ leBytes 4 1 ++ leBytes 24 0
    let pkt := fun (cls sub : Nat) => (⟨hdr cls 0xF0 0 sub, [], true⟩ : CwPacket)
    let s := regsAt [(.CW_STAT_STATE, 0, 3), (.GLOBAL_ID_ROLE, 0, 1), (.CW_EXPORT_SIZE, 0, 1)]
    let seen := s.onCw fun x => { x with rxSeq := [(rxKey (pkt 4 0), 1)] }
    let e : CwSend := ⟨4, 15, 0, false, 7, 0, 5, [], []⟩
    let out := fun n => s.onCw fun x => { x with ctrlOut := [(e, n)] }
    let listen := (regsAt [(.CW_STAT_STATE, 0, 2)]).onCw fun x => { x with joining := true, spliceWt := 1, markerAt := some 0 }
    let bad := regsAt ((.CW_STAT_STATE, 0, 3) :: (List.range 8).map fun l => (.CW_LANE_IN, l, 1))
    let act := fun (a : CwAct) => ({ cfgCmd 0x7C 0 [] with cfg := { act := a } } : Cmd)
    let at1 := fun (t : State) => t.onTime fun x => { x with off := 2 ^ 16 }
    ((pkt 4 0).wf = true ∧ s.domOn pdCw = true ∧ pSrc (pkt 4 0) ≠ s.devid ∧ pBcast (pkt 4 0) = false ∧ pDst (pkt 4 0) = s.devid ∧
        pSub (pkt 4 0) = 0 ∧ pSub (pkt 4 1) = 1 ∧ pSeq (pkt 4 0) = (Table.get 0 s.cw.rxSeq (rxKey (pkt 4 0)) + 1) % 2 ^ 32 ∧
        pSeq (pkt 4 0) ≠ (Table.get 0 seen.cw.rxSeq (rxKey (pkt 4 0)) + 1) % 2 ^ 32 ∧
        pSeq (pkt 4 0) ≤ Table.get 0 seen.cw.rxSeq (rxKey (pkt 4 0)) ∧ s.cwAllowed 0 0 0 = true ∧ s.cwAllowed 0 0 4097 = false) ∧
      ((out 2).cw.ctrlOut = [(e, 2)] ∧ (out 3).cw.ctrlOut = [(e, 3)] ∧ e.seq = (5 : Word).toNat ∧ e.spur = 7) ∧
      (listen.domOn pdCw = true ∧ listen.mayJoin = true ∧ listen.rd .CW_STAT_STATE = 2 ∧ listen.raw < 2000000 ∧ listen.now < 1 ∧
        listen.cw.spliceWt ≤ (at1 listen).now ∧ 2000000 ≤ (listen.onRaw fun _ => 2000000).raw) ∧
      (bad.inLanes 1 = 0xFF ∧ s.inLanes 1 ≠ 0xFF ∧ (s.wr .CW_STAT_STATE 0 4).rd .CW_STAT_STATE = 4) ∧
      ((serving (act .batch) []).runs 0 7 0x7C false (act .batch) ∧ (serving (act .batch) []).cwCfgReason (act .batch) = 4 ∧
        cwReserved (act .batch) = false) ∧
      ((serving (act .join) []).runs 0 7 0x7C false (act .join) ∧ (serving (act .join) []).cwCfgReason (act .join) = 0 ∧
        (serving (act .batch) [(.CW_STAT_STATE, 0, 3)]).cwCfgReason (act .batch) = 0) := by
  unfold State.runs
  decide +kernel

theorem wit_PowerRequestsRailsAndStores :
    let req := fun (op tg : Nat) => (⟨0, 7, leBytes 24 op ++ leBytes 8 tg ++ leBytes 32 0, .ready, {}, [], none⟩ : Cmd)
    let pm := fun tg l => serving (req 0x60 tg) l
    let mq := fun tg l => serving (req 0x61 tg) l
    let held := (pm 1 []).onPm fun p => { p with held := [⟨0, 0, 0x11, 0, 0⟩] }
    let busy := regsAt [(.MQ_OP_BUSY, 3, 1), (.MQ_OP_TARGET, 3, 3), (.PM_RAIL_EN, 4, 1)]
    let wait := fun n => busy.onPm fun p => { p with waits := [⟨4, .volt 1, n, .volt 2, false, 0⟩] }
    ((pm 3 [(.KRB_STAT_ARMED, 0, 1)]).runs 0 7 0x60 false (req 0x60 3) ∧ tgState ((req 0x60 3).opw 0) = 3 ∧
        (pm 3 [(.KRB_STAT_ARMED, 0, 1)]).armed = true) ∧
      ((pm 0 []).runs 0 7 0x60 false (req 0x60 0) ∧ (pm 0 []).pmReason ((req 0x60 0).opw 0) = 0 ∧
        (pm 0 []).pmEqual ((req 0x60 0).opw 0) = true ∧ (pm 1 []).pmEqual ((req 0x60 1).opw 0) = false ∧
        (pm 0 []).rd .HL_LINK_L2 = 0 ∧ (pm 0 []).domOn pdHost = true) ∧
      ((pm 0 []).wr .SUB_EN 0 1).badUnused 0x80000 = true ∧
      ((∀ r ∈ held.pm.held, (held.cmdById r.mb r.id).isSome = true) ∧ held.waitpReady ⟨0, 0, 0x11, 0, 0⟩ = true ∧
        held.rd .PM_STATUS_DOM_ON &&& (0x1FFF - domainsOf 0x11) ≠ 0 ∧ held.kerb.bow = false ∧ tgState 0x11 ≠ 3 ∧
        (held.onPm fun p => { p with stalled := true }).waitpReady ⟨0, 0, 0x11, 0, 0⟩ = false) ∧
      ((mq 3 []).runs 0 7 0x61 false (req 0x61 3) ∧ (mq 3 []).rd .MQ_OP_CUR 3 = 0 ∧ (mq 3 []).domOn (pdMq 3) = true ∧
        bits ((req 0x61 15).opw 0) 2 2 = 3 ∧ (mq 15 []).opAllowed 3 3 = true ∧
        (mq 3 []).rd .MQ_OP_BUSY 3 = 0 ∧ (mq 3 []).cmdById 0 0 = some (req 0x61 3) ∧ (mq 3 []).invsClear 0x11 = true ∧
        (mq 15 []).pm.opHeld = [] ∧
        bit ((mq 3 []).onPm fun p => { p with railsBad := 16 }).pm.railsBad 4 = true) ∧
      (busy.quadIdle 3 = true ∧ busy.railWait 4 = none ∧ busy.rd .MQ_OP_CUR 3 < busy.rd .MQ_OP_TARGET 3 ∧
        (((busy.wr .MQ_OP_CUR 3 3).wr .MQ_OP_TARGET 3 0).rd .MQ_OP_TARGET 3 < 3) ∧ (wait 2).railWait 4 = some ⟨4, .volt 1, 2, .volt 2, false, 0⟩ ∧
        (wait 1).railWait 4 = some ⟨4, .volt 1, 1, .volt 2, false, 0⟩ ∧ (wait 1).raw < 2000000 ∧ busy.pm.opHeld = [] ∧
        2000000 ≤ ((wait 2).onRaw fun _ => 2000000).raw) := by
  unfold State.runs
  decide +kernel

/-- A state whose one invocation, on a Mill of quadrant 3, is past its deadline. -/
def lateQuadrant : State :=
  ((serving ⟨0, 7, leBytes 24 0x61 ++ leBytes 40 15, .ready, {}, [], none⟩ []).onTime fun t => { t with off := 2 ^ 16 }).onMail fun m =>
    { m with invs := [{ mb := 0, id := 0, spur := 0, hb := 0, slot := 0, gen := 0, win := 0, adm := 0, mills := [96] }] }

theorem wit_SlowerPointDelayed : lateQuadrant.opAllowed 3 3 = false ∧ bit lateQuadrant.pm.railsBad 4 = false ∧
    lateQuadrant.rd .MQ_OP_CUR 3 < 3 := by
  have hn : lateQuadrant.now = 1 := by decide +kernel
  have hi : lateQuadrant.mail.invs =
    [{ mb := 0, id := 0, spur := 0, hb := 0, slot := 0, gen := 0, win := 0, adm := 0, mills := [96] }] := rfl
  exact ⟨by simp [State.opAllowed, hi, hn, Inv.inQuad, quadOf], by decide +kernel, by decide +kernel⟩

theorem wit_WakesAndSupplyWarnings :
    let s := regsAt [(.PM_STATUS_CUR, 0, 3), (.PM_WAKE_CFG_EN, 0, 0xFF), (.PM_AON_CFG_WL_WAKE, 0, 0x80), (.PM_AON_CFG_CW_WAKE, 0, 8),
      (.PM_WAKE_TIME_LO, 0, 1)]
    let park := (s.onTime fun t => { t with off := 2 ^ 16 }).onPm fun p => { p with home := 3 }
    let ent := fun e => (s.put .PM_STATUS_BUSY 0 true).onPm fun p => { p with phase := .entering e }
    let over_ := State.reset.onPm fun p => { p with phase := .waking, goal := 1, rose := 0x1000 }
    (park.wakeTime ≠ 0 ∧ park.wakeTime ≤ park.now ∧ tgState (if park.pmIdle then park.pm.home else park.pm.goal) = 3 ∧
        bit (park.rd .PM_AON_CFG_WL_WAKE) 7 = true ∧ bit (park.rd .PM_AON_CFG_CW_WAKE) 3 = true ∧
        (park.rd .PM_AON_CFG_TMAX : Int) < 86 ∧ park.rd .PM_WAKE_SRC_LATCHED = 0 ∧ park.pm.phase = .idle) ∧
      (∀ n ∈ [0, 1, 3, 4, 7], bit (park.rd .PM_WAKE_CFG_EN) n = true ∧ park.wakeListens n = true) ∧
      (bit (State.reset.rd .PM_WAKE_CFG_EN) 1 = false ∧ State.reset.wakeListens 7 = false) ∧
      ((ent 1).pm.phase = .entering 1 ∧ (ent 1).raw < 1 ∧ bit ((ent 1).rd .PM_WAKE_CFG_REPLAY) 7 = true ∧ 0 ≤ (ent 0).raw) ∧
      (State.reset.wakeOver = false ∧ over_.wakeOver = true ∧ tgState over_.pm.goal < 5 ∧ (0x1FFF : BitVec 13).toNat &&& over_.pm.rose &&& 0x1FFF ≠ 0) ∧
      (State.reset.monMasked 2 = false ∧ (State.reset.onPm fun p => { p with railsOn := 0 }).monMasked 0 = true ∧
        State.reset.domOn (pdMq 3) = true ∧ State.reset.rd .PM_MON_BOW = 0) ∧
      ((s.put .PM_MON_BOW_HOLD 0 true).rd .PM_MON_BOW_HOLD ≠ 0 ∧ (s.wr .MQ_OP_CUR 3 3).rd .MQ_OP_CUR 3 ≠ (s.wr .MQ_OP_CUR 3 3).rd .MQ_OP_TARGET 3) ∧
      State.reset.rd .PM_STATUS_BUSY = 0 ∧ (4 : Fin 5) ≠ 0 ∧ (State.reset.wr .PM_STATUS_DOM_ON 0 0).domOn (pdMq 3) = false ∧
      (let t := (park.wr .PM_WAKE_SRC_LATCHED 0 0x80).wr .PM_WAKE_SRC_FIRST 0 7
       t.pm.firstAt = t.raw ∧ 0 < t.rd .PM_WAKE_SRC_FIRST) := by decide +kernel

theorem wit_DeviceResets :
    let s := State.reset
    let w := fun n => s.onRst fun r => { r with waiting := some n }
    let due := (s.put .RST_WDT_EN 0 true).onRaw fun _ => 2 * 10 ^ 9
    bootFacts0.wf = true ∧ ({ bootFacts0 with sfdpOk := false }).sfdpOk = false ∧ s.rst.store = none ∧
      (s.monMasked 2 = false ∧ s.inOff = false ∧ (s.wr .PM_STATUS_CUR 0 4).inOff = true ∧ (w 1).rst.waiting = some 1 ∧
        s.rst.waiting = none) ∧
      ((w 1).rst.resetLow = false ∧ ((w 1).onRst fun r => { r with resetLow := true }).rst.resetLow = true ∧ (w 2).inOff = false ∧
        ((w 0).onPm fun p => { p with bor := 1 }).pm.bor ≠ 0) ∧
      (s.ft.calDue = [] ∧ s.wdtDue = false ∧ due.wdtDue = true ∧ due.inOff = false ∧ due.rst.waiting = none) ∧
      s.letIn (.fw 0) .RST_CTRL_SOFT 0 = .ok s := by
  decide +kernel

theorem wit_DeviceResetsGoodDirectory :
    let d := leBytes 4 0x1A7ED1B0 ++ leBytes 2 1 ++ List.replicate 54 0
    let s := State.reset.stBytes .flash 0 (d ++ leBytes 4 (crc32 d))
    s.dirBad = false ∧ s.rst.store = none ∧ bootFacts0.flash = [] ∧ bootFacts0.imgA = true := by
  decide +kernel

theorem wit_PartialResetsAndStores :
    let s := State.reset
    let x : StoreSt := { mb := 0, id := 0, payload := [], settings := [], bankB := false, base := 0, size := 8192, seq := 1, page := 256, step := 2, todo := [0, 1] }
    let st := s.onRst fun r => { r with store := some x }
    (s.put .HL_LINK_L2 0 true).rd .HL_LINK_L2 ≠ 0 ∧ s.rd .HL_LINK_L2 = 0 ∧ s.rst.waiting = none ∧
      (s.onRst fun r => { r with waiting := some 2 }).rst.waiting ≠ none ∧ s.domOn pdHost = true ∧ s.domOn pdCtrl = true ∧
      (12 : BitVec 4).toNat ≠ pdCtrl ∧ s.domOn 12 = true ∧ 13 ≤ (13 : BitVec 4).toNat ∧ s.armed = false ∧
      (s.put .KRB_STAT_ARMED 0 true).armed = true ∧ s.inOff = false ∧
      (0 : BitVec 4).toNat + 16 * (0 : BitVec 2).toNat = s.rd .GLOBAL_ID_DEVID + 16 * s.rd .GLOBAL_ID_ROLE ∧
      (15 : BitVec 4).toNat + 16 * (2 : BitVec 2).toNat ≠ s.rd .GLOBAL_ID_DEVID + 16 * s.rd .GLOBAL_ID_ROLE ∧
      st.rst.store = some x ∧ x.todo = [0, 1] ∧ st.kerb.bow = false ∧ (st.onKerb fun k => { k with bow := true }).kerb.bow = true ∧
      bit s.mail.fenced 1 = false := by
  decide +kernel

theorem wit_PartialResetsAndStoresAdmission :
    State.reset.letIn (.fw 15) .RST_DOM_GO 0 = .ok State.reset ∧ State.reset.letIn (.fw 1) .RST_WDT_KICK 0 = .ok State.reset := ⟨rfl, rfl⟩

theorem wit_RegisterAccess :
    let s := State.reset
    let vf := (s.onVfEnable fun _ => true).onNumVfs fun _ => 7
    let w := fun (n : Nat) => (BitVec.ofNat 32 n : Word)
    (writeShapeOk 0x000004 8 true = false ∧ (0x000004 : BitVec 23).toNat % 4 = 0 ∧ hitsAt 0x7FFFFC = []) ∧
      ((hitsAt 0x200100).head?.any fun h => (s.wr .PM_STATUS_DOM_ON 0 0).islandGone h.reg h.idx && !s.lockedTenant h.reg h.idx) = true ∧
      ((hitsAt 0x060020).all fun h => h.reg.spec.own == .fw && !s.islandGone h.reg h.idx && h.reg != .ERR_OVF_CNT) = true ∧
      (vf.vfRoute 7 0 = .readOnly ∧ (7 : Fin 8) ≠ 0) ∧
      (s.busDead = false ∧ s.domOn pdKerb = true ∧ s.armed = false ∧ (s.put .KRB_STAT_ARMED 0 true).armed = true) ∧
      (bits (w 0x04000000).toNat 24 6 < 5 ∧ 40 < bits (w 0x29000000).toNat 24 6 ∧ bits (w 0x05000000).toNat 24 6 = 5 ∧
        bits (w 0x28000000).toNat 24 6 = 40) ∧
      (readShapeOk 0x3F 2 = false ∧ s.rd .RST_COUNT 7 < 2 ^ 16) := by decide +kernel

theorem wit_RegisterAccessOpen :
    State.reset.readOpen (.host 0 false) = .ok State.reset ∧
      let s := (State.reset.onVfEnable fun _ => true).onNumVfs fun _ => 7
      s.readOpen (.host 7 false) = .ok s := ⟨rfl, rfl⟩

theorem wit_HostLinkAndMemory :
    let s := State.reset
    let f := s.onFn 0 fun x => { x with pba := 0x80000001, held := [.msix 3], bme := true }
    let m := s.wr .MB_STAT_STATE 63 2
    let vf := (m.onVfEnable fun _ => true).onNumVfs fun _ => 7
    let low := s.onLink fun l => { l with wakeLow := some 0 }
    let err := f.wr .SPUR_TDI 0 3
    s.cfgOpen = true ∧ (s.onLink fun l => { l with perstLow := true }).cfgOpen = false ∧ f.rd .SPUR_TDI 0 ≠ 3 ∧ err.rd .SPUR_TDI 0 = 3 ∧
      s.domOn pdHost = true ∧ s.fnExists 0 = true ∧ s.fnExists 7 = false ∧ (f.fn 0).d3hot = false ∧ (f.fn 0).bme = true ∧
      vf.fnExists (63 / 8) = true ∧ vf.rd .MB_STAT_STATE 63 = 2 ∧ s.rd .HL_LINK_L2 = 0 ∧ (s.put .HL_LINK_L2 0 true).rd .HL_LINK_L2 ≠ 0 ∧
      (s.wr .PM_STATUS_DOM_ON 0 0).domOn pdHost = false ∧ s.link.wakeLow = none ∧ low.link.wakeLow = some 0 ∧ low.raw < 1000000000 ∧
      1000000000 ≤ (low.onRaw fun _ => 1000000000).raw ∧ s.link.perstLow = false ∧ s.domOn pdMem = true ∧
      (s.wr .MEM_STAT_STATE 7 chReady).rd .MEM_STAT_STATE 7 = chReady ∧ s.rd .MEM_STAT_STATE 7 ≠ chReady ∧
      s.rd .MEM_STAT_STATE 7 ≠ chFailed ∧ (s.wr .MEM_STAT_STATE 7 chFailed).rd .MEM_STAT_STATE 7 = chFailed := by decide +kernel

theorem wit_AuxiliaryAcquisition :
    let s := regsAt [(.SPI_CFG_STAMP, 7, 1), (.SPI_CFG_EN, 7, 1), (.I3C_DEV_ACQ, 31, 1), (.I3C_CFG_EN, 3, 1), (.I3C_DEV_SA, 31, 8),
      (.CH_CFG_EN, 15, 1), (.CH_CFG_SRC, 15, 7), (.SPI_CFG_LEN, 7, 3), (.CH_CFG_WIDTH, 15, 3), (.CH_CFG_LOG2M, 15, 0)]
    let busy := s.onAux fun a => { a with spi := [(7, [5])], i3c := [(31, [5])] }
    let full := busy.onChain 15 fun c => { c with fifo := List.replicate 64 ⟨0, 0, false, false, true⟩ }
    (s.domOn pdAux = true ∧ s.rd .SPI_CFG_STAMP 7 = 1 ∧ s.rd .SPI_CFG_EN 7 ≠ 0 ∧ s.spiBusy 7 = [] ∧ busy.spiBusy 7 = [5]) ∧
      (State.reset.rd .SPI_CFG_EN 7 = 0 ∧ State.reset.rd .I3C_DEV_ACQ 31 = 0 ∧ State.reset.rd .I3C_CFG_EN 3 = 0) ∧
      (s.rd .I3C_DEV_ACQ (i3cIdx 3 7) ≠ 0 ∧ s.rd .I3C_CFG_EN 3 ≠ 0 ∧ s.i3cUsed (i3cIdx 3 7) = true ∧ s.i3cBusy 3 7 = [] ∧
        busy.i3cBusy 3 7 = [5] ∧ busy.chainsOf (8 + i3cIdx 3 7) = [] ∧ busy.rd .I3C_DEV_KIND 31 ≠ 1) ∧
      (busy.rd .SPI_CFG_KIND 7 ≠ 1 ∧ busy.chainsOf 7 = [15] ∧ busy.rd .CH_CFG_LOG2M 15 = 0 ∧ busy.rd .CH_CFG_STEP 15 = 0 ∧
        busy.xchkSlots 15 = [] ∧ (busy.chain 15).missed = false ∧ (busy.chain 15).fifo.length < 64 ∧
        64 ≤ (full.chain 15).fifo.length) ∧
      State.reset.letIn (.fw 15) .CH_POP 15 = .ok State.reset := by
  decide +kernel

theorem wit_AuxiliaryEventsAndPins :
    let s := regsAt [(.GPIO_EDGE, 0, 0xC0000001), (.GPIO_WAKE, 0, 1), (.PM_WAKE_CFG_EN, 0, 0xFF), (.PM_STATUS_BUSY, 0, 1)]
    let full := s.onAux fun a => { a with gpio := List.replicate 32 (0, false, 0) }
    (s.rd .PM_STATUS_CUR ≠ 4 ∧ s.domOn pdAux = true ∧ edgeChosen (bits (s.rd .GPIO_EDGE) 30 2) false = true ∧
        edgeChosen (bits (s.rd .GPIO_EDGE) 0 2) false = false ∧ edgeChosen (bits (s.rd .GPIO_WAKE) 0 2) true = true ∧
        bit (s.rd .GPIO_DIR) 15 = false ∧ s.aux.gpio.length < 32 ∧ 32 ≤ full.aux.gpio.length ∧ s.wakeListens 5 = true ∧
        bit (s.rd .PM_WAKE_CFG_EN) 5 = true ∧ bit ((s.wr .GPIO_DIR 0 0x8000).rd .GPIO_DIR) 15 = true) ∧
      ((s.wr .PM_STATUS_DOM_ON 0 0).domOn pdAux = false ∧ s.armed = false ∧ (s.put .KRB_STAT_ARMED 0 true).armed = true) ∧
      State.reset.letIn (.fw 0) .AUXEV_POP 7 = .ok State.reset ∧ State.reset.letIn (.fw 0) .GPIO_POP 0 = .ok State.reset := by
  refine ⟨by decide +kernel, by decide +kernel, rfl, rfl⟩

theorem wit_FailedUnitsAndErrorRings :
    let s := State.reset
    let run := ((s.wr .SLOT_ROUTE_EN 255 1).wr .EQ_CFG_EN 0 1).onSlot 255 fun x => { x with run := some ⟨0, none, 9⟩ }
    let sub := ((s.wr .SPUR_STATE 0 2).wr .TRK_COUNT 0 8)
    let f := (s.wr .NGX_STATE 0 1)
    let ring := s.onErrs fun e => Table.upd {} e 7 fun g => { g with recs := [⟨.idReject, 7, false, false, 1, 2, 3, [4, 5, 6, 7]⟩] }
    (s.cardLive 7 = true ∧ (s.onCardFenced fun t => Table.set false t 7 true).cardLive 7 = false ∧ (s.errRing (s.portOwner 7)).recs.length < 64 ∧
        run.cardLive 7 = true ∧ (run.slot 255).run = some ⟨0, none, 9⟩ ∧ run.route 255 = some 0 ∧ run.domOn pdCtrl = true ∧ run.flag .EQ_CFG_EN 0 = true ∧
        ((run.card 7).pend.any fun p => p.slot == 255 && p.sub == subJoin) = false) ∧
      (bootFacts0.wf = true ∧ sub.domOn pdFul = true ∧ bit sub.fulFenced 3 = false ∧ sub.usesIsland 3 0 = true ∧ sub.rd .SPUR_STATE 0 ≠ 3 ∧
        sub.rd .ERR_FAULT_CODE 0 = 0) ∧
      (s.softCore = false ∧ f.softCore = true ∧ f.inOff = false ∧ f.rst.waiting = none) ∧
      (s.errRing 7).recs = [] ∧ (ring.errRing 7).recs = [⟨.idReject, 7, false, false, 1, 2, 3, [4, 5, 6, 7]⟩] ∧
      s.admitRead (.fw 0) .ERR_POP_VALID 7 = .ok s ∧ ring.admitRead (.fw 0) .ERR_POP_VALID 7 = .ok ring := by
  decide +kernel

theorem wit_SupplyLossAndThermtrip :
    let s := State.reset
    (s.onSupply fun x => { x with trip := true }).supply.trip = true ∧ s.inOff = false ∧ s.sensorLive 7 = true ∧
      (188 : Byte).toNat < 189 ∧ 189 ≤ (189 : Byte).toNat ∧ s.supply.trip = false ∧ (s.wr .PM_STATUS_CUR 0 4).inOff = true := by
  decide +kernel

end Sys2Proof.Machine
end

section
/-!
PROOFS of the statements of `spec/00_scope.md` in this row: the configuration commands of Table MB-4 (O40) and register
accesses (O51).
-/
namespace Sys2Proof.Machine

/-! ### What a report leaves of the registers (R499, R537) -/

section
variable (s : State)

theorem State.post_regs (f : Nat) (p : HostPost) : (s.post f p).regs = s.regs := by
  unfold State.post
  split
  · rfl
  · split <;> rfl

/-- A vector, sent, held or masked, changes no register. -/
theorem State.irq_regs (f v : Nat) : (s.irq f v).regs = s.regs := by
  unfold State.irq
  dsimp only
  split
  · rfl
  · split
    · rfl
    · exact s.post_regs ..

/-- A record changes no register but those of a full ring (R538). -/
theorem State.rd_recordTo {r : Reg} (hc : r ≠ .ERR_OVF_CNT) (ho : r ≠ .ERR_STAT_OVF) (i dst owner : Nat) (t : ErrType)
    (unit : Nat) (detail : List Nat) : (s.recordTo dst owner t unit detail).rd r i = s.rd r i := by
  unfold State.recordTo
  dsimp only
  split
  · exact (State.rd_wr_other _ _ _ _ ho).trans ((State.rd_wr_other _ _ _ _ hc).trans (State.rd_congr rfl _ _))
  · exact State.rd_congr (State.irq_regs ..) _ _

end

/-! ### The mailboxes' cores stay

Which core serves a mailbox is a matter of NGX_CORES.MIG alone (R346), a read-only field, so no setting that is written and
nothing that follows from one moves a mailbox to another core. -/

/-- NGX_CORES.MIG: the cores that serve their sibling's mailboxes. -/
def State.migrated (s : State) : Nat := s.rd .NGX_CORES_MIG

theorem State.coreAgent_congr {s t : State} (h : t.migrated = s.migrated) (mb : Nat) : t.coreAgent mb = s.coreAgent mb := by
  have hc : t.mbCore mb = s.mbCore mb := by
    unfold State.mbCore
    rw [show t.rd .NGX_CORES_MIG = s.rd .NGX_CORES_MIG from h]
  simp only [State.coreAgent, hc]

section
variable (s : State)

@[simp] theorem State.wr_migrated {r : Reg} (h : r ≠ .NGX_CORES_MIG) (i v : Nat) : (s.wr r i v).migrated = s.migrated :=
  State.rd_wr_other s i v 0 h.symm

@[simp] theorem State.put_migrated {r : Reg} (h : r ≠ .NGX_CORES_MIG) (i : Nat) (b : Bool) : (s.put r i b).migrated = s.migrated :=
  s.wr_migrated h i _

@[simp] theorem State.count_migrated {r : Reg} (h : r ≠ .NGX_CORES_MIG) (i n : Nat) : (s.count r i n).migrated = s.migrated :=
  s.wr_migrated h i _

@[simp] theorem State.setBitOf_migrated {r : Reg} (h : r ≠ .NGX_CORES_MIG) (i b : Nat) (v : Bool) :
    (s.setBitOf r i b v).migrated = s.migrated := s.wr_migrated h i _

@[simp] theorem State.clearRange_migrated {r : Reg} (h : r ≠ .NGX_CORES_MIG) (n : Nat) :
    (s.clearRange r n).migrated = s.migrated := by
  have hk : ¬ Reg.NGX_CORES_MIG.ctorIdx = r.ctorIdx := fun e => h (Reg.ctorIdx_inj e).symm
  unfold State.migrated State.rd State.clearRange
  rw [State.onRegs_regs, Table.get_keep, if_pos (by simp [hk])]

@[simp] theorem State.ite_migrated (p : Prop) [Decidable p] (t : State) :
    (if p then s else t).migrated = if p then s.migrated else t.migrated := apply_ite _ _ _ _

@[simp] theorem State.each_migrated {α : Type} {f : State → α → State} (hf : ∀ s a, (f s a).migrated = s.migrated) (l : List α) :
    (s.each l f).migrated = s.migrated := State.each_same State.migrated f hf l s

@[simp] theorem State.when_migrated {f : State → State} (hf : ∀ s, (f s).migrated = s.migrated) (c : Bool) :
    (s.when c f).migrated = s.migrated := by
  cases c
  · rfl
  · exact hf s

end

section
variable (s : State)

@[simp] theorem State.onErrs_migrated (f : Table ErrRing → Table ErrRing) : (s.onErrs f).migrated = s.migrated := State.rd_congr rfl _ _
@[simp] theorem State.onSec_migrated (f : SecSt → SecSt) : (s.onSec f).migrated = s.migrated := State.rd_congr rfl _ _
@[simp] theorem State.onWl1_migrated (f : Table Bool → Table Bool) : (s.onWl1 f).migrated = s.migrated := State.rd_congr rfl _ _
@[simp] theorem State.onPorts_migrated (f : Table PortSt → Table PortSt) : (s.onPorts f).migrated = s.migrated := State.rd_congr rfl _ _
@[simp] theorem State.onCards_migrated (f : Table CardSt → Table CardSt) : (s.onCards f).migrated = s.migrated := State.rd_congr rfl _ _
@[simp] theorem State.onSlots_migrated (f : Table SlotSt → Table SlotSt) : (s.onSlots f).migrated = s.migrated := State.rd_congr rfl _ _
@[simp] theorem State.onFt_migrated (f : FtSt → FtSt) : (s.onFt f).migrated = s.migrated := State.rd_congr rfl _ _
@[simp] theorem State.onEqs_migrated (f : Table EqSt → Table EqSt) : (s.onEqs f).migrated = s.migrated := State.rd_congr rfl _ _
@[simp] theorem State.onRecSeq_migrated (f : Nat → Nat) : (s.onRecSeq f).migrated = s.migrated := State.rd_congr rfl _ _
@[simp] theorem State.onKerb_migrated (f : KerbSt → KerbSt) : (s.onKerb f).migrated = s.migrated := State.rd_congr rfl _ _
@[simp] theorem State.onCw_migrated (f : CwSt → CwSt) : (s.onCw f).migrated = s.migrated := State.rd_congr rfl _ _
@[simp] theorem State.onMs_migrated (f : MsSt → MsSt) : (s.onMs f).migrated = s.migrated := State.rd_congr rfl _ _
@[simp] theorem State.onAux_migrated (f : AuxSt → AuxSt) : (s.onAux f).migrated = s.migrated := State.rd_congr rfl _ _
@[simp] theorem State.onFul_migrated (f : FulSt → FulSt) : (s.onFul f).migrated = s.migrated := State.rd_congr rfl _ _
@[simp] theorem State.onPm_migrated (f : PmSt → PmSt) : (s.onPm f).migrated = s.migrated := State.rd_congr rfl _ _
@[simp] theorem State.onHat_migrated (f : HatSt → HatSt) : (s.onHat f).migrated = s.migrated := State.rd_congr rfl _ _
@[simp] theorem State.emit_migrated (x : Tx) : (s.emit x).migrated = s.migrated := State.rd_congr rfl _ _

end

/-! #### Reports -/

section
variable (s : State)

@[simp] theorem State.irq_migrated (f v : Nat) : (s.irq f v).migrated = s.migrated := State.rd_congr (s.irq_regs f v) _ _

@[simp] theorem State.recordTo_migrated (dst owner : Nat) (t : ErrType) (unit : Nat) (detail : List Nat) :
    (s.recordTo dst owner t unit detail).migrated = s.migrated := s.rd_recordTo (by decide) (by decide) ..

@[simp] theorem State.record_migrated (owner : Nat) (t : ErrType) (unit : Nat) (detail : List Nat) :
    (s.record owner t unit detail).migrated = s.migrated := s.recordTo_migrated ..

@[simp] theorem State.record2_migrated (owner : Nat) (t : ErrType) (unit : Nat) (detail : List Nat) :
    (s.record2 owner t unit detail).migrated = s.migrated := by
  simp [State.record2]

@[simp] theorem State.lockViolation_migrated (who : Agent) (off : Nat) : (s.lockViolation who off).migrated = s.migrated := by
  simp [State.lockViolation]

end

/-! #### The Kerb -/

section
variable (s : State)

@[simp] theorem State.onZone_migrated (z : Nat) (f : ZoneSt → ZoneSt) : (s.onZone z f).migrated = s.migrated := State.rd_congr rfl _ _

@[simp] theorem State.sendStopState_migrated : s.sendStopState.migrated = s.migrated := by
  unfold State.sendStopState
  split
  · split
    · rfl
    · simp [State.cwEmit, State.cwPut]
  · rfl

@[simp] theorem State.refreshLoss_migrated : s.refreshLoss.migrated = s.migrated := by
  simp [State.refreshLoss, State.silentNow]

@[simp] theorem State.aggRefresh_migrated : s.aggRefresh.migrated = s.migrated := by
  simp [State.aggRefresh]

@[simp] theorem State.setCause_migrated (c : Nat) : (s.setCause c).migrated = s.migrated := by
  simp [State.setCause]

@[simp] theorem State.combine_migrated : s.combine.migrated = s.migrated := by
  refine (State.when_migrated _ (fun u => u.sendStopState_migrated) _).trans ?_
  refine (State.when_migrated _ (fun u => u.emit_migrated _) _).trans ((State.setCause_migrated _ _).trans ?_)
  refine (State.put_migrated _ (by decide) _ _).trans ((State.put_migrated _ (by decide) _ _).trans ?_)
  refine (State.put_migrated _ (by decide) _ _).trans ((State.put_migrated _ (by decide) _ _).trans ?_)
  exact (State.wr_migrated _ (by decide) _ _).trans ((State.wr_migrated _ (by decide) _ _).trans (State.onKerb_migrated _ _))

@[simp] theorem State.kerbUpdate_migrated : s.kerbUpdate.migrated = s.migrated := by
  simp [State.kerbUpdate]

end

/-! #### Queues and carding -/

section
variable (s : State)

@[simp] theorem State.segmentDue_migrated (q : Nat) : (s.segmentDue q).migrated = s.migrated := by
  simp [State.segmentDue, State.formSegment, State.onEq]

@[simp] theorem State.formControl_migrated (q slot sub param : Nat) (unf : Bool) :
    (s.formControl q slot sub param unf).migrated = s.migrated := by
  simp [State.formControl, State.onCard]

@[simp] theorem State.slotControl_migrated (slot sub param : Nat) (unf : Bool) :
    (s.slotControl slot sub param unf).migrated = s.migrated := by
  unfold State.slotControl
  split <;> simp

@[simp] theorem State.startRun_migrated (slot interval : Nat) : (s.startRun slot interval).migrated = s.migrated := by
  simp [State.startRun, State.egoZero, State.onEgo, State.onSlot, State.onCard]

@[simp] theorem State.eqReset_migrated (q reason : Nat) : (s.eqReset q reason).migrated = s.migrated := by
  simp [State.eqReset, State.onEq]

@[simp] theorem State.watermark_migrated (q pre : Nat) (quiet : Bool) : (s.watermark q pre quiet).migrated = s.migrated := by
  simp [State.watermark, State.signal]

@[simp] theorem State.eqPut_migrated (q r pkt : Nat) (quiet : Bool) : (s.eqPut q r pkt quiet).migrated = s.migrated := by
  simp [State.eqPut, State.onEq]

@[simp] theorem State.offerGap_migrated (q slot src count first : Nat) :
    (s.offerGap q slot src count first).migrated = s.migrated := by
  simp [State.offerGap, State.onEq]

@[simp] theorem State.flushStopped_migrated (slot : Nat) : (s.flushStopped slot).migrated = s.migrated := by
  unfold State.flushStopped
  split <;> simp

@[simp] theorem State.endRun_migrated (slot : Nat) (lost : Bool) : (s.endRun slot lost).migrated = s.migrated := by
  unfold State.endRun
  split <;> simp [State.onSlot]

/-- Each word that carding takes in. -/
@[simp] theorem State.cardOther_migrated (c : CardWord) : (s.cardOther c).migrated = s.migrated := by
  cases c with
  | pixel => rfl
  | opened => simp [State.cardOther, State.resumeSlot, State.onSlot]
  | left => simp [State.cardOther, State.leaveSlot, State.onSlot]
  | loss slot =>
    simp only [State.cardOther]
    split <;> simp

@[simp] theorem State.cardEnter_migrated (u : Nat) (c : CardWord) : (s.cardEnter u c).migrated = s.migrated := by
  simp [State.cardEnter, State.cardDrain, State.onCard]

end

/-! #### Ports -/

section
variable (s : State)

@[simp] theorem State.headsRefresh_migrated (p : Nat) : (s.headsRefresh p).migrated = s.migrated := by
  simp [State.headsRefresh, State.tblRefresh]

@[simp] theorem State.freeHead_migrated (slot : Nat) : (s.freeHead slot).migrated = s.migrated := by
  simp [State.freeHead, State.setHead, State.onPort]

@[simp] theorem State.portStart_migrated (p : Nat) : (s.portStart p).migrated = s.migrated := by
  simp [State.portStart]

@[simp] theorem State.portStop_migrated (p : Nat) : (s.portStop p).migrated = s.migrated := by
  simp [State.portStop]

@[simp] theorem State.mgmtSend_migrated (p : Nat) (r : MgmtReq) : (s.mgmtSend p r).migrated = s.migrated := by
  simp [State.mgmtSend, State.mgmtPut, State.onPort]

@[simp] theorem State.eqStart_migrated (q : Nat) : (s.eqStart q).migrated = s.migrated := by
  simp [State.eqStart, State.onEq]

@[simp] theorem State.eqDiscard_migrated (q : Nat) : (s.eqDiscard q).migrated = s.migrated := by
  simp [State.eqDiscard, State.onEq, State.onCard]

end

/-! #### What follows from a field -/

section
variable (s : State)

@[simp] theorem State.newPose_migrated (slot : Nat) : (s.newPose slot).migrated = s.migrated := by
  simp [State.newPose, State.egoUnconv, State.onEgo]

@[simp] theorem State.zoneSettings_migrated (z : Nat) : (s.zoneSettings z).migrated = s.migrated := by
  simp [State.zoneSettings, State.densityTest]

@[simp] theorem State.calFollow_migrated (slot : Nat) (all : Bool) : (s.calFollow slot all).migrated = s.migrated := by
  simp [State.calFollow, State.calSet]

@[simp] theorem State.subEnChange_migrated (who : Agent) (i : Nat) (en : Bool) :
    (s.subEnChange who i en).migrated = s.migrated := by
  simp [State.subEnChange, State.freshSub, State.onSub]

@[simp] theorem State.opRequest_migrated (q op : Nat) : (s.opRequest q op).migrated = s.migrated := by
  simp [State.opRequest]

@[simp] theorem State.cwLeave_migrated (st : Nat) : (s.cwLeave st).migrated = s.migrated := by
  simp [State.cwLeave]

@[simp] theorem State.cwRefresh_migrated : s.cwRefresh.migrated = s.migrated := by
  simp [State.cwRefresh]

@[simp] theorem State.chanRefresh_migrated (c : Nat) : (s.chanRefresh c).migrated = s.migrated := by
  simp [State.chanRefresh]

@[simp] theorem State.mbWake_migrated : s.mbWake.migrated = s.migrated := by
  simp [State.mbWake, State.setMbState]

@[simp] theorem State.spurWordDone_migrated (sp kind old new : Nat) : (s.spurWordDone sp kind old new).migrated = s.migrated := by
  simp [State.spurWordDone, State.spurRefresh, State.millSpurs, State.chansRefresh, State.scrubGiven]

@[simp] theorem State.hbDisable_migrated : s.hbDisable.migrated = s.migrated := by
  simp [State.hbDisable, State.maskWithdraw, State.hbState, State.wr64]

@[simp] theorem State.fieldHook_migrated (who : Agent) (h : Hit) (old : Nat) : (s.fieldHook who h old).migrated = s.migrated := by
  unfold State.fieldHook
  split
  · simp
  · simp
  · rfl
  · simp only [State.ite_migrated]
    split
    · rfl
    · split <;> simp [State.onChain, State.tblRefresh, State.onCard, State.gridAnew, State.onGrid]

end

/-! #### Words -/

section
variable (s : State)

/-- NGX_CORES.MIG is read only, so no word takes effect in it (R3). -/
@[simp] theorem State.writeField_migrated (h : Hit) (v : Nat) : (s.writeField h v).migrated = s.migrated := by
  by_cases hr : h.reg = .NGX_CORES_MIG
  · have hro : h.reg.spec.acc = .ro := by rw [hr]; rfl
    rw [State.writeField, hro]
  · unfold State.writeField
    split <;> simp [hr]

@[simp] theorem State.applyWord_migrated (core : Fin 16) (off w : Nat) : (s.applyWord (.fw core) off w).2.migrated = s.migrated := by
  unfold State.applyWord
  dsimp only
  split
  · simp
  · rfl
  · split <;> simp

@[simp] theorem State.wordHooks_migrated (s0 : State) (who : Agent) (off w : Nat) :
    (s.wordHooks s0 who off w).migrated = s.migrated := by
  simp [State.wordHooks]

@[simp] theorem State.wordApplied_migrated (core : Fin 16) (off w : Nat) :
    (s.wordApplied (.fw core) off w).migrated = s.migrated := by
  have h := s.applyWord_migrated core off w
  unfold State.wordApplied
  split <;> next heq => simpa [heq] using h

/-- A write that the owner of the register refuses whole is at most counted or recorded. -/
theorem State.refusedWrite_migrated {s t : State} {who : Agent} {off w : Nat} (h : s.refusedWrite who off w = some t) :
    t.migrated = s.migrated := by
  cases who with
  | host => simp [State.refusedWrite] at h
  | fw core =>
    dsimp only [State.refusedWrite] at h
    split_ifs at h <;> cases h <;> simp

@[simp] theorem State.wordEffect_migrated (core : Fin 16) (off w : Nat) :
    (s.wordEffect (.fw core) off w).migrated = s.migrated := by
  unfold State.wordEffect
  split
  · next h => exact State.refusedWrite_migrated h
  · simp

@[simp] theorem State.busWord_migrated (core : Fin 16) (off w : Nat) : (s.busWord (.fw core) off w).migrated = s.migrated := by
  unfold State.busWord
  split
  · rfl
  · simp

/-- The firmware's write to a field with a row of its own changes nothing on its way in. -/
theorem State.letIn_fw (core : Fin 16) (r : Reg) (i : Nat) :
    s.letIn (.fw core) r i = .error s ∨ s.letIn (.fw core) r i = .ok s := by
  dsimp only [State.letIn]
  split
  · exact .inl rfl
  · exact .inr rfl

@[simp] theorem State.wlCtrl_migrated (core : Fin 16) (p : Nat) (w : Word) (en : Bool) :
    (s.wlCtrl (.fw core) p w en).migrated = s.migrated := by
  have ha := s.applyWord_migrated core (Reg.WL_CTRL_EN.offset p) w.toNat
  unfold State.wlCtrl
  rcases s.letIn_fw core .WL_CTRL_EN p with h | h <;> rw [h]
  dsimp only
  split
  · rfl
  · split <;> next heq => simpa [heq] using ha

@[simp] theorem State.eqCfgWrite_migrated (core : Fin 16) (q w : Nat) (en : Bool) :
    (s.eqCfgWrite (.fw core) q w en).migrated = s.migrated := by
  unfold State.eqCfgWrite
  rcases s.letIn_fw core .EQ_CFG_EN q with h | h <;> rw [h]
  simp

end

/-! ### Configuration commands (Table MB-4) -/

section
variable {s t : State} {mb : Fin 64} {tag : BitVec 16} {op off d st detail result : Nat} {c : Cmd}
  {refuse : Cmd → State → Option (Nat × Nat × State)} {apply : Cmd → State → State × Nat × Nat × Nat}

/-- A lock that stops a setting ends the command before its chapter's rules are looked at (R6). -/
theorem State.runCmd_configure_locked (h : s.runs mb tag op false c) (hl : s.cfgLocked mb.val c = some off) :
    s.runCmd mb tag op false (fun s c => s.configure mb.val c (refuse c) (apply c)) =
      .next ((s.lockViolation (s.coreAgent mb.val) off).finish mb.val c 5 off 0) := by
  rw [State.runCmd_runs h]
  unfold State.configure
  rw [hl]

/-- So does a setting of a domain that is off. -/
theorem State.runCmd_configure_domainOff (h : s.runs mb tag op false c) (hl : s.cfgLocked mb.val c = none)
    (hd : s.cfgDomain c = some d) :
    s.runCmd mb tag op false (fun s c => s.configure mb.val c (refuse c) (apply c)) =
      .next (s.finish mb.val c 0x19 d 0) := by
  rw [State.runCmd_runs h]
  unfold State.configure
  rw [hl, hd]

/-- A command past both checks that its chapter refuses has no effect but the refusal. -/
theorem State.runCmd_configure_refused (h : s.runs mb tag op false c) (hl : s.cfgLocked mb.val c = none)
    (hd : s.cfgDomain c = none) (hr : refuse c s = some (st, detail, t)) :
    s.runCmd mb tag op false (fun s c => s.configure mb.val c (refuse c) (apply c)) =
      .next (t.finish mb.val c st detail 0) := by
  rw [State.runCmd_runs h]
  unfold State.configure
  rw [hl, hd, hr]

/-- One that nothing refuses has its effect. -/
theorem State.runCmd_configure_applied (h : s.runs mb tag op false c) (hl : s.cfgLocked mb.val c = none)
    (hd : s.cfgDomain c = none) (hr : refuse c s = none) (ha : apply c s = (t, st, detail, result)) :
    s.runCmd mb tag op false (fun s c => s.configure mb.val c (refuse c) (apply c)) =
      .next (t.finish mb.val c st detail result) := by
  rw [State.runCmd_runs h]
  unfold State.configure
  rw [hl, hd, hr, ha]

/-- The two checks that every configuration command shares. -/
theorem State.runCmd_configure_checks (h : s.runs mb tag op false c) :
    (∀ off, s.cfgLocked mb.val c = some off →
      s.runCmd mb tag op false (fun s c => s.configure mb.val c (refuse c) (apply c)) =
        .next ((s.lockViolation (s.coreAgent mb.val) off).finish mb.val c 5 off 0)) ∧
    (∀ d, s.cfgLocked mb.val c = none → s.cfgDomain c = some d →
      s.runCmd mb tag op false (fun s c => s.configure mb.val c (refuse c) (apply c)) =
        .next (s.finish mb.val c 0x19 d 0)) :=
  ⟨fun _ => State.runCmd_configure_locked h, fun _ => State.runCmd_configure_domainOff h⟩

end

/-! ### The refusals of the chapters -/

/-- R88, port by port. -/
theorem State.quotaBad_iff (s : State) (c : Cmd) :
    s.quotaBad c = true ↔ ∃ p ∈ (c.idxOf .HT_QUOTA).map (· / 32), 230400 < s.quotaAfter c p := by
  simp [State.quotaBad]

/-- R145 comes before R153: a unit past the table space is what refuses a HEAD_CFG whose quotas are good. -/
theorem State.headCfgRefuse_tables {s : State} {mb : Nat} {c : Cmd} (hq : s.quotaBad c = false)
    (ht : ∃ u, u < 8 ∧ c.touches u = true ∧ tblSpace < ((s.applySettings mb c.pairs).giveTables c).tblSum u) :
    s.headCfgRefuse mb c = some (0x21, c.cfg.target, s) := by
  obtain ⟨u, hu, htu, hsp⟩ := ht
  have hany : ((List.range 8).any fun u =>
      c.touches u && tblSpace < ((s.applySettings mb c.pairs).giveTables c).tblSum u) = true :=
    List.any_eq_true.2 ⟨u, List.mem_range.2 hu, by simp [htu, hsp]⟩
  simp [State.headCfgRefuse, hq, hany]

/-- With quotas and table space good, the routes decide (R153). -/
theorem State.headCfgRefuse_routes {s : State} {mb : Nat} {c : Cmd} (hq : s.quotaBad c = false)
    (ht : ∀ u, u < 8 → c.touches u = true → ((s.applySettings mb c.pairs).giveTables c).tblSum u ≤ tblSpace) :
    s.headCfgRefuse mb c =
      (((s.applySettings mb c.pairs).giveTables c).badRoute (c.idxOf .SLOT_ROUTE_EN)).map fun q => (0x22, q, s) := by
  have hany : ((List.range 8).any fun u =>
      c.touches u && tblSpace < ((s.applySettings mb c.pairs).giveTables c).tblSum u) = false := by
    simpa using ht
  simp [State.headCfgRefuse, hq, hany]

/-- An enabled queue may not change its length (R153). -/
theorem State.eqCfgBad_moved {s : State} {c : Cmd} {q : Nat} (hen : s.rd .EQ_CFG_EN q = 1)
    (hlg : s.settingOf c.pairs .EQ_CFG_LOG2N q ≠ s.rd .EQ_CFG_LOG2N q) : s.eqCfgBad c q = true := by
  simp [State.eqCfgBad, State.eqAfter, State.flag, hen, hlg]

/-- A ring starts at a multiple of its length (R153). -/
theorem State.eqCfgBad_misplaced {s : State} {c : Cmd} {q : Nat}
    (hb : (s.settingOf c.pairs .EQ_CFG_BASE q * 64) % 2 ^ s.settingOf c.pairs .EQ_CFG_LOG2N q ≠ 0) : s.eqCfgBad c q = true := by
  simp [State.eqCfgBad, State.eqAfter, hb]

/-! ### FUL_APPLY (R168, R169) -/

/-- The Nap ranges that the subscriptions outside a command hold (R168). -/
def State.heldNap (s : State) (c : Cmd) : List (Nat × Nat) :=
  ((List.range 64).filter fun j => s.flag .SUB_EN j && !(c.subs.contains j)).map
    fun j => s.footprint (s.sub j).spur j (s.sub j).dec

/-- RESULT of a FUL_APPLY: DEC_USED of subscriptions 0 to 31, two bits each. -/
def State.decUsed (s : State) : Nat := ((List.range 32).map fun i => s.rd .SUB_DEC_USED i * 4 ^ i).sum

/-- What becomes of each subscription that the settings `t` of a command leave enabled (R169). -/
def State.admission (s t : State) (mb : Nat) (c : Cmd) : List (Nat × Option Nat) :=
  t.admitSubs (mb / 8) (s.heldNap c) ((c.subs.filter fun i => t.flag .SUB_EN i).mergeSort fun i j =>
    t.rd .SUB_PRIO i < t.rd .SUB_PRIO j || (t.rd .SUB_PRIO i == t.rd .SUB_PRIO j && i ≤ j))

/-- The subscriptions of a command take what the admission gave them. -/
def State.admitted (s t : State) (mb : Nat) (c : Cmd) : State :=
  (t.each (c.subs.filter fun i => !t.flag .SUB_EN i) fun t i => t.subApply (t.coreAgent mb) i none).each
    (s.admission t mb c) fun t p => t.subApply (t.coreAgent mb) p.1 p.2

/-- FUL_APPLY completes with the first subscription refused, or with DEC_USED. -/
theorem State.fulApply_eq (s : State) (mb : Nat) (c : Cmd) :
    let t := s.applySettings mb c.pairs
    s.fulApply mb c = match (s.admission t mb c).find? fun p => p.2.isNone with
      | some p => (s.admitted t mb c, 0x24, p.1, 0)
      | none => (s.admitted t mb c, 0, 0, (s.admitted t mb c).decUsed) := rfl

theorem State.flag_eq_false {s : State} {r : Reg} {i : Nat} (h : s.rd r i = 0) : s.flag r i = false := by simp [State.flag, h]

theorem State.flag_eq_true {s : State} {r : Reg} {i : Nat} (h : s.rd r i = 1) : s.flag r i = true := by simp [State.flag, h]

/-- Settings that leave every subscription they name disabled let none in. -/
theorem State.admission_disabled {s t : State} {mb : Nat} {c : Cmd} (hoff : ∀ i ∈ c.subs, t.rd .SUB_EN i = 0) :
    s.admission t mb c = [] := by
  have hon : (c.subs.filter fun i => t.flag .SUB_EN i) = [] :=
    List.filter_eq_nil_iff.2 fun i hi => by simp [State.flag_eq_false (hoff i hi)]
  rw [State.admission, hon, List.mergeSort_nil]
  rfl

/-- One enabled subscription takes the first decimation at which it fits. -/
theorem State.admission_singleton {s t : State} {mb : Nat} {c : Cmd} {i : Nat} (hs : c.subs = [i]) (hen : t.rd .SUB_EN i = 1) :
    s.admission t mb c = [(i, (t.decTries i).find? fun d => t.napFits (mb / 8) i d (s.heldNap c))] := by
  have hon : (c.subs.filter fun i => t.flag .SUB_EN i) = [i] := by simp [hs, State.flag_eq_true hen]
  rw [State.admission, hon, List.mergeSort_singleton, State.admitSubs]
  split <;> next h => rw [h]; rfl

/-- Only that subscription changes. -/
theorem State.admitted_singleton {s t : State} {mb : Nat} {c : Cmd} {i : Nat} {d : Option Nat} (hs : c.subs = [i])
    (hen : t.rd .SUB_EN i = 1) (ha : s.admission t mb c = [(i, d)]) :
    s.admitted t mb c = t.subApply (t.coreAgent mb) i d := by
  have hoff : (c.subs.filter fun i => !t.flag .SUB_EN i) = [] := by simp [hs, State.flag_eq_true hen]
  rw [State.admitted, hoff, ha]
  rfl

/-- A subscription that is refused is left disabled. -/
theorem State.subApply_none_rd (s : State) (who : Agent) (i : Nat) : (s.subApply who i none).rd .SUB_EN i = 0 :=
  State.rd_wr_same s .SUB_EN i 0

/-- One that is admitted is enabled and shows its decimation. -/
theorem State.subApply_some_rd (s : State) (who : Agent) (i d : Nat) :
    (s.subApply who i (some d)).rd .SUB_EN i = 1 ∧
      (s.subApply who i (some d)).rd .SUB_DEC_USED i = d % 2 ^ Reg.SUB_DEC_USED.spec.width := by
  have hregs : (s.subApply who i (some d)).regs = ((s.put .SUB_EN i true).wr .SUB_DEC_USED i d).regs := rfl
  rw [State.rd_congr hregs, State.rd_congr hregs, State.rd_wr_other _ _ _ _ (by decide)]
  exact ⟨State.rd_wr_same s .SUB_EN i 1, State.rd_wr_same _ _ _ _⟩

/-- With every named subscription disabled nothing is refused. -/
theorem State.fulApply_disabled {s : State} {mb : Nat} {c : Cmd}
    (hoff : ∀ i ∈ c.subs, (s.applySettings mb c.pairs).rd .SUB_EN i = 0) :
    ∃ u, s.fulApply mb c = (u, 0, 0, u.decUsed) := by
  rw [State.fulApply_eq, State.admission_disabled hoff]
  exact ⟨_, rfl⟩

/-- NAP_FULL: the one enabled subscription fits at none of its decimations (R169). -/
theorem State.fulApply_full {s : State} {mb : Nat} {c : Cmd} {i : Nat} (hs : c.subs = [i]) {t : State}
    (ht : t = s.applySettings mb c.pairs) (hen : t.rd .SUB_EN i = 1)
    (hfit : ∀ d ∈ t.decTries i, t.napFits (mb / 8) i d (s.heldNap c) = false) :
    s.fulApply mb c = (t.subApply (t.coreAgent mb) i none, 0x24, i, 0) := by
  have hfind : ((t.decTries i).find? fun d => t.napFits (mb / 8) i d (s.heldNap c)) = none :=
    List.find?_eq_none.2 fun d hd => by simp [hfit d hd]
  have ha : s.admission t mb c = [(i, none)] := (State.admission_singleton hs hen).trans (by rw [hfind])
  rw [State.fulApply_eq, ← ht, ha, State.admitted_singleton hs hen ha]
  rfl

/-- The one enabled subscription fits at the first decimation it may take. -/
theorem State.fulApply_fits {s : State} {mb : Nat} {c : Cmd} {i d : Nat} {l : List Nat} (hs : c.subs = [i]) {t : State}
    (ht : t = s.applySettings mb c.pairs) (hen : t.rd .SUB_EN i = 1) (htry : t.decTries i = d :: l)
    (hfit : t.napFits (mb / 8) i d (s.heldNap c) = true) :
    let u := t.subApply (t.coreAgent mb) i (some d)
    s.fulApply mb c = (u, 0, 0, u.decUsed) := by
  have hfind : ((t.decTries i).find? fun d => t.napFits (mb / 8) i d (s.heldNap c)) = some d := by
    rw [htry]
    exact List.find?_cons_of_pos (p := fun d => t.napFits (mb / 8) i d (s.heldNap c)) hfit
  have ha : s.admission t mb c = [(i, some d)] := (State.admission_singleton hs hen).trans (by rw [hfind])
  rw [State.fulApply_eq, ← ht, ha, State.admitted_singleton hs hen ha]
  rfl

/-! ### FT_CFG (R275, R302) -/

/-- A setting that R302 holds is what refuses an FT_CFG before anything else. -/
theorem State.ftRefuse_held {s : State} {c : Cmd} {p : Nat × Nat} {l : List (Nat × Nat)} (hp : c.pairs = p :: l)
    (hh : s.ftHeld p.1 = true) : s.ftRefuse c = some (0x25, p.1, s) := by
  simp [State.ftRefuse, hp, hh]

/-- With none held, a bad base pose is (R275). -/
theorem State.ftRefuse_pose {s : State} {c : Cmd} {off : Nat} (hh : ∀ p ∈ c.pairs, s.ftHeld p.1 = false)
    (hb : s.poseBad c = some off) : s.ftRefuse c = some (0x25, off, s) := by
  have hf : (c.pairs.find? fun p => s.ftHeld p.1) = none := List.find?_eq_none.2 fun p hp => by simp [hh p hp]
  simp [State.ftRefuse, hf, hb]

/-! ### The five commands -/

section
variable {s : State} {mb : Fin 64} {tag : BitVec 16} {c : Cmd}

/-- Locks and domains stop each of the five alike (R6). -/
theorem configuration_checks (rect : List Nat) (ecc : EccResult) :
    ∀ p ∈ [(0x40, exec (.wlCfg mb tag) s), (0x41, exec (.headCfg mb tag ⟨rect, ecc⟩) s), (0x42, exec (.eqCfg mb tag) s),
        (0x43, exec (.fulApply mb tag) s), (0x44, exec (.ftCfg mb tag) s)], s.runs mb tag p.1 false c →
      (∀ off, s.cfgLocked mb.val c = some off →
        p.2 = .next ((s.lockViolation (s.coreAgent mb.val) off).finish mb.val c 5 off 0)) ∧
      (∀ d, s.cfgLocked mb.val c = none → s.cfgDomain c = some d → p.2 = .next (s.finish mb.val c 0x19 d 0)) := by
  simp only [List.forall_mem_cons]
  exact ⟨State.runCmd_configure_checks, State.runCmd_configure_checks, State.runCmd_configure_checks,
    State.runCmd_configure_checks, State.runCmd_configure_checks, by simp⟩

/-- A setting of WL_CFG takes effect: a WL_CTRL word enables or disables its port (R587). -/
def State.wlSetting (who : Agent) (s : State) (p : Nat × Nat) : State :=
  if p.1 % 0x8000 = 0 then s.wlCtrl who ((p.1 - 0x80000) / 0x8000) (BitVec.ofNat 32 p.2) (bit p.2 0) else s.busWord who p.1 p.2

/-- A setting of EQ_CFG takes effect: a word of EQ_CFG enables or disables its queue (R585). -/
def State.eqSetting (who : Agent) (s : State) (p : Nat × Nat) : State :=
  if p.1 < 0x108000 ∧ p.1 % 0x40 = 0 then s.eqCfgWrite who ((p.1 - 0x100000) / 0x40) p.2 (bit p.2 0) else s.busWord who p.1 p.2

/-- Settings written one after another are all written by the core that serves the mailbox when the command begins. -/
theorem State.each_coreAgent {α : Type} (F : Agent → State → α → State) (hF : ∀ core t a, (F (.fw core) t a).migrated = t.migrated)
    (mb : Nat) (l : List α) (s : State) : s.each l (fun t a => F (t.coreAgent mb) t a) = s.each l (F (s.coreAgent mb)) := by
  induction l generalizing s with
  | nil => rfl
  | cons a l ih =>
    have hc : (F (s.coreAgent mb) s a).coreAgent mb = s.coreAgent mb := State.coreAgent_congr (hF _ s a) mb
    have htail := ih (F (s.coreAgent mb) s a)
    rw [hc] at htail
    exact htail

theorem State.each_wlSetting (s : State) (mb : Nat) (l : List (Nat × Nat)) :
    s.each l (fun t p => t.wlSetting (t.coreAgent mb) p) = s.each l (State.wlSetting (s.coreAgent mb)) :=
  s.each_coreAgent State.wlSetting (fun core t p => by simp [State.wlSetting]) mb l

theorem State.each_eqSetting (s : State) (mb : Nat) (l : List (Nat × Nat)) :
    s.each l (fun t p => t.eqSetting (t.coreAgent mb) p) = s.each l (State.eqSetting (s.coreAgent mb)) :=
  s.each_coreAgent State.eqSetting (fun core t p => by simp [State.eqSetting]) mb l

/-- The refusal of WL_CFG (R88). -/
def State.wlCfgRefuse (s : State) (c : Cmd) : Option (Nat × Nat × State) :=
  if s.quotaBad c then s.freeDetail 0x2A 0 (2 ^ 32) else none

/-- The refusal of EQ_CFG (R153). -/
def State.eqCfgRefuse (s : State) (c : Cmd) : Option (Nat × Nat × State) :=
  ((c.idxOf .EQ_CFG_EN).find? fun q => s.eqCfgBad c q).map fun q => (0x22, q, s)

theorem exec_wlCfg (s : State) (mb : Fin 64) (tag : BitVec 16) :
    exec (.wlCfg mb tag) s = s.runCmd mb tag 0x40 false fun s c => s.configure mb.val c (fun s => s.wlCfgRefuse c)
      (fun s => (s.each c.pairs fun t p => t.wlSetting (t.coreAgent mb.val) p, 0, 0, 0)) := rfl

theorem exec_eqCfg (s : State) (mb : Fin 64) (tag : BitVec 16) :
    exec (.eqCfg mb tag) s = s.runCmd mb tag 0x42 false fun s c => s.configure mb.val c (fun s => s.eqCfgRefuse c)
      (fun s => (s.each c.pairs fun t p => t.eqSetting (t.coreAgent mb.val) p, 0, 0, 0)) := rfl

variable (hl : s.cfgLocked mb.val c = none) (hd : s.cfgDomain c = none)
include hl hd

/-- WL_CFG past the checks is refused by R88 alone. -/
theorem wlCfg_overQuota (h : s.runs mb tag 0x40 false c) {p : Nat} (hp : p ∈ (c.idxOf .HT_QUOTA).map (· / 32))
    (hover : 230400 < s.quotaAfter c p) :
    exec (.wlCfg mb tag) s = .next ((s.fresh 32).2.finish mb.val c 0x2A (0 + (s.fresh 32).1 % 2 ^ 32) 0) := by
  have hr : s.wlCfgRefuse c = s.freeDetail 0x2A 0 (2 ^ 32) := if_pos (s.quotaBad_iff c |>.2 ⟨p, hp, hover⟩)
  rw [exec_wlCfg]
  exact State.runCmd_configure_refused (refuse := fun c s => s.wlCfgRefuse c) h hl hd hr

theorem wlCfg_applied (h : s.runs mb tag 0x40 false c)
    (hok : ∀ p ∈ (c.idxOf .HT_QUOTA).map (· / 32), s.quotaAfter c p ≤ 230400) :
    exec (.wlCfg mb tag) s = .next ((s.each c.pairs (State.wlSetting (s.coreAgent mb.val))).finish mb.val c 0 0 0) := by
  have hr : s.wlCfgRefuse c = none := if_neg fun hq =>
    have ⟨p, hp, hover⟩ := s.quotaBad_iff c |>.1 hq
    absurd (hok p hp) (by omega)
  rw [exec_wlCfg, ← s.each_wlSetting]
  exact State.runCmd_configure_applied (refuse := fun c s => s.wlCfgRefuse c) h hl hd hr rfl

/-- EQ_CFG past the checks is refused with the first queue that R153 refuses. -/
theorem eqCfg_refused (h : s.runs mb tag 0x42 false c) {q : Nat} {l : List Nat} (hq : c.idxOf .EQ_CFG_EN = q :: l)
    (hbad : s.eqCfgBad c q = true) : exec (.eqCfg mb tag) s = .next (s.finish mb.val c 0x22 q 0) := by
  have hr : s.eqCfgRefuse c = some (0x22, q, s) := by
    rw [State.eqCfgRefuse, hq, List.find?_cons_of_pos (p := fun q => s.eqCfgBad c q) hbad]
    rfl
  rw [exec_eqCfg]
  exact State.runCmd_configure_refused (refuse := fun c s => s.eqCfgRefuse c) h hl hd hr

theorem eqCfg_applied (h : s.runs mb tag 0x42 false c) (hok : ∀ q ∈ c.idxOf .EQ_CFG_EN, s.eqCfgBad c q = false) :
    exec (.eqCfg mb tag) s = .next ((s.each c.pairs (State.eqSetting (s.coreAgent mb.val))).finish mb.val c 0 0 0) := by
  have hr : s.eqCfgRefuse c = none := by simpa [State.eqCfgRefuse] using hok
  rw [exec_eqCfg, ← s.each_eqSetting]
  exact State.runCmd_configure_applied (refuse := fun c s => s.eqCfgRefuse c) h hl hd hr rfl

theorem headCfg_refused (h : s.runs mb tag 0x41 false c) (tables : HeadTables) {st detail : Nat}
    (hr : s.headCfgRefuse mb.val c = some (st, detail, s)) :
    exec (.headCfg mb tag tables) s = .next (s.finish mb.val c st detail 0) :=
  State.runCmd_configure_refused (refuse := fun c s => s.headCfgRefuse mb.val c) h hl hd hr

theorem headCfg_applied (h : s.runs mb tag 0x41 false c) (rect : List Nat) (ecc : EccResult)
    (hr : s.headCfgRefuse mb.val c = none) :
    let slot := c.cfg.target % 256
    let loaded := (((s.giveTables c).cfgWrite mb.val c.pairs).loadRect slot rect).reloadSlot slot
    let ends := (loaded.tableEcc slot ecc).each (c.idxOf .SLOT_RECT_EN) fun s i => s.calFollow i false
    exec (.headCfg mb tag ⟨rect, ecc⟩) s =
      .next ((ends.each ((List.range 8).filter c.touches) State.tblRefresh).finish mb.val c 0 0 0) :=
  State.runCmd_configure_applied (refuse := fun c s => s.headCfgRefuse mb.val c) h hl hd hr rfl

theorem fulApply_refused (h : s.runs mb tag 0x43 false c) {st detail : Nat} {u : State}
    (hr : s.fulRefuse mb.val c = some (st, detail, u)) :
    exec (.fulApply mb tag) s = .next (u.finish mb.val c st detail 0) :=
  State.runCmd_configure_refused (refuse := fun c s => s.fulRefuse mb.val c) h hl hd hr

theorem fulApply_applied (h : s.runs mb tag 0x43 false c) (hr : s.fulRefuse mb.val c = none) {u : State} {st detail result : Nat}
    (ha : s.fulApply mb.val c = (u, st, detail, result)) :
    exec (.fulApply mb tag) s = .next (u.finish mb.val c st detail result) :=
  State.runCmd_configure_applied (refuse := fun c s => s.fulRefuse mb.val c) (apply := fun c s => s.fulApply mb.val c) h hl hd hr
    ha

theorem ftCfg_refused (h : s.runs mb tag 0x44 false c) {off : Nat} (hr : s.ftRefuse c = some (0x25, off, s)) :
    exec (.ftCfg mb tag) s = .next (s.finish mb.val c 0x25 off 0) :=
  State.runCmd_configure_refused (refuse := fun c s => s.ftRefuse c) h hl hd hr

theorem ftCfg_applied (h : s.runs mb tag 0x44 false c) (hr : s.ftRefuse c = none) :
    exec (.ftCfg mb tag) s = .next ((s.cfgWrite mb.val c.pairs).finish mb.val c 0 0 0) :=
  State.runCmd_configure_applied (refuse := fun c s => s.ftRefuse c) h hl hd hr rfl

end

/-- Settles O40: the two checks come first for each command, then the refusal of its chapter, then its settings; those of WL_CFG
and EQ_CFG are all written by the core that served the mailbox at the start, since no setting moves it (`State.each_coreAgent`). -/
theorem configurationCommands : Obligations.ConfigurationCommands := by
  intro s mb tag rect ecc c
  refine ⟨configuration_checks rect ecc, fun hl hd => ⟨fun h => ?wl, fun h hq => ?head, fun h => ?eq, fun h => ?ful, fun h => ?ft⟩⟩
  case wl => exact ⟨fun p hp hover => ⟨_, _, rfl, wlCfg_overQuota hl hd h hp hover⟩, wlCfg_applied hl hd h⟩
  case head =>
    refine ⟨fun ht => headCfg_refused hl hd h _ (State.headCfgRefuse_tables hq ht), fun ht => ⟨fun q hb => ?_, fun hb => ?_⟩⟩
    · exact headCfg_refused hl hd h _ (by rw [State.headCfgRefuse_routes hq ht, hb]; rfl)
    · exact headCfg_applied hl hd h rect ecc (by rw [State.headCfgRefuse_routes hq ht, hb]; rfl)
  case eq =>
    exact ⟨fun q l hi hen hlg => eqCfg_refused hl hd h hi (State.eqCfgBad_moved hen hlg),
      fun q l hi hb => eqCfg_refused hl hd h hi (State.eqCfgBad_misplaced hb), eqCfg_applied hl hd h⟩
  case ful =>
    refine ⟨fun st d u => fulApply_refused hl hd h, fun hr => ⟨fun hoff => ?_, fun i hs hen hfit => ?_,
      fun i d l hs hen htry hfit => ?_⟩⟩
    · obtain ⟨u, hu⟩ := State.fulApply_disabled hoff
      exact ⟨u, fulApply_applied hl hd h hr hu⟩
    · exact ⟨_, fulApply_applied hl hd h hr (State.fulApply_full hs rfl hen hfit), State.subApply_none_rd ..⟩
    · obtain ⟨hrd, hdec⟩ := State.subApply_some_rd (s.applySettings mb.val c.pairs) _ i d
      exact ⟨_, hrd, hdec, fulApply_applied hl hd h hr (State.fulApply_fits hs rfl hen htry hfit)⟩
  case ft =>
    exact ⟨fun p l hp hh => ftCfg_refused hl hd h (State.ftRefuse_held hp hh),
      fun off hh hb => ftCfg_refused hl hd h (State.ftRefuse_pose hh hb), ftCfg_applied hl hd h⟩

/-! ### Host writes to words of FW fields (R5, R495) -/

section
variable (s : State)

/-- What HL_FWWR.VALID holds after a log entry: the first entry sets it, a later one leaves it (R495). -/
theorem State.logFwWrite_valid (fn off : Nat) :
    (s.logFwWrite fn off).rd .HL_FWWR_VALID = if s.flag .HL_FWWR_VALID then s.rd .HL_FWWR_VALID else 1 := by
  have hcount : (s.count .HL_FWWR_CNT fn).rd .HL_FWWR_VALID = s.rd .HL_FWWR_VALID := State.rd_wr_other _ _ _ _ (by decide)
  have hflag : (s.count .HL_FWWR_CNT fn).flag .HL_FWWR_VALID = s.flag .HL_FWWR_VALID := by simp only [State.flag, hcount]
  have hrec : ∀ (t : State) (dst : Nat), (t.recordTo dst fn .hostFwwr fn [off]).rd .HL_FWWR_VALID = t.rd .HL_FWWR_VALID :=
    fun t dst => t.rd_recordTo (by decide) (by decide) ..
  unfold State.logFwWrite
  simp only [apply_ite (fun t : State => t.rd .HL_FWWR_VALID), hrec, ite_self, hflag]
  cases s.flag .HL_FWWR_VALID with
  | true => exact hcount
  | false =>
    rw [Bool.not_false, State.when_true, State.rd_congr (State.irq_regs ..)]
    exact State.rd_wr_same ..

/-- A word of FW fields only, written by a host function, is logged and takes no effect. -/
theorem State.wordApplied_hostFw (f : Fin 8) (b : Bool) {off : Nat} (w : Nat) (hne : hitsAt off ≠ [])
    (hfw : ∀ k ∈ hitsAt off, k.reg.spec.own = .fw) :
    s.wordApplied (.host f b) off w = s.logFwWrite f.val off := by
  have hmay : ∀ k ∈ hitsAt off, mayWrite (.host f b) k.reg = false := fun k hk => by
    unfold mayWrite
    split <;> simp [hfw k hk]
  have hmine : ((hitsAt off).filter fun h => mayWrite (.host f b) h.reg) = [] :=
    List.filter_eq_nil_iff.2 fun k hk => by simp [hmay k hk]
  have hany : ((hitsAt off).any fun h => h.reg.spec.own == .fw) = true := by
    obtain ⟨k, hk⟩ := List.exists_mem_of_ne_nil _ hne
    exact List.any_eq_true.2 ⟨k, hk, by simp [hfw k hk]⟩
  have happly : s.applyWord (.host f b) off w = (true, s.logFwWrite f.val off) := by
    unfold State.applyWord
    simp only [hmine, hany, if_true, List.filter_nil]
  have hhb : mayWrite (.host f b) .HB_CFG_EN = false := rfl
  unfold State.wordApplied State.wordHooks
  simp [happly, hmine, hhb, State.each]

end

/-- PF0 writes an aligned word of FW fields of an island that answers. -/
theorem exec_registerWrite_hostFw {s : State} {b : Bool} {off : BitVec 23} (data : DWord) (ho : s.readOpen (.host 0 b) = .ok s)
    (ha : off.toNat % 4 = 0) {h : Hit} {l : List Hit} (hh : hitsAt off.toNat = h :: l)
    (hlock : s.lockedTenant h.reg h.idx = false) (hgone : s.islandGone h.reg h.idx = false)
    (hfw : ∀ k ∈ hitsAt off.toNat, k.reg.spec.own = .fw) :
    exec (.registerWrite (.host 0 b) off 4 true false data) s = .next (s.logFwWrite 0 off.toNat) := by
  have hword : ∀ w, s.busWord (.host 0 b) off.toNat w = s.logFwWrite 0 off.toNat := fun w => by
    unfold State.busWord
    rw [hh]
    simp only [hlock, hgone, State.wordEffect, State.refusedWrite]
    simpa using s.wordApplied_hostFw 0 b _ (by simp [hh]) hfw
  change Host.Outcome.next (s.busWrite ..) = _
  simp [State.busWrite, ho, writeShapeOk, ha, State.writeWord, hword]

/-- A state outside the canonical form: the one-bit field HL_FWWR.VALID holds 2. -/
def validTwo : State := State.reset.onRegs fun _ => [(Reg.HL_FWWR_VALID.key 0, 2)]

theorem hitsAt_krbOut : hitsAt 0x060020 =
    [⟨.KRB_OUT_SSTOP_COVER, 0, 0⟩, ⟨.KRB_OUT_SLOW_COVER, 0, 8⟩, ⟨.KRB_OUT_MANUAL, 0, 16⟩, ⟨.KRB_OUT_DT_W, 0, 24⟩] := by
  decide +kernel

/-- Refutes O51: the statement quantifies over every `State`, also over one whose HL_FWWR.VALID holds a value wider than its one
bit. In `validTwo`, where it holds 2, PF0's write to KRB_OUT is logged, VALID counts as set and is left alone, and so it reads 2
afterwards where the statement says 1. The clause turns on this alone: no register write gives a field such a value
(`State.rd_wr_same`), and from a VALID that is 0 or 1 the log leaves 1 (`State.logFwWrite_valid`). -/
theorem not_registerAccess : ¬ Obligations.RegisterAccess := by
  rintro ⟨hhost, -⟩
  obtain ⟨-, -, hword, -⟩ := hhost validTwo 0 false 0x060020 4 true 0 rfl
  have hfw : ∀ k ∈ hitsAt (0x060020 : BitVec 23).toNat, k.reg.spec.own = .fw := by
    rw [show (0x060020 : BitVec 23).toNat = 0x060020 from rfl, hitsAt_krbOut]
    decide
  have hgone : validTwo.islandGone .KRB_OUT_SSTOP_COVER 0 = false := by decide +kernel
  obtain ⟨t, hnext, -, -, -, hvalid, -⟩ := ((hword rfl rfl rfl).2 _ _ hitsAt_krbOut rfl).2 hgone hfw
  have hlog := exec_registerWrite_hostFw (s := validTwo) (b := false) (off := 0x060020) 0 rfl rfl hitsAt_krbOut rfl hgone hfw
  obtain rfl := Host.Outcome.next.inj (hlog.symm.trans hnext)
  rw [State.logFwWrite_valid] at hvalid
  exact absurd hvalid (by decide +kernel)

end Sys2Proof.Machine
end

section
/-!
PROOFS of the statements of `spec/03_wayline_link.md` in this row: port control (O16), words and bursts (O17), management
frames, Waymarks and splices (O18).
-/
namespace Sys2Proof.Machine

/-! ### Ports -/

@[simp] theorem State.port_onPort_same (s : State) (p : Nat) (f : PortSt → PortSt) : (s.onPort p f).port p = f (s.port p) :=
  Table.get_upd_same ..

@[simp] theorem State.rd_onPort (s : State) (p : Nat) (f : PortSt → PortSt) (r : Reg) (i : Nat) :
    (s.onPort p f).rd r i = s.rd r i := State.rd_congr rfl r i

/-- A change of a port is a matter of what it makes of that port as it stands. -/
theorem State.onPort_congr {s : State} {p : Nat} {f g : PortSt → PortSt} (h : f (s.port p) = g (s.port p)) :
    s.onPort p f = s.onPort p g := by
  have ht : Table.upd {} s.ports p f = Table.upd {} s.ports p g := congrArg (Table.set ({} : PortSt) s.ports p) h
  simp [State.onPort, State.onPorts, ht]

/-- With no burst in progress nothing cuts one short (R84). -/
theorem State.cutBurst_none {s : State} {p : Nat} (hb : (s.port p).burst = none) : s.cutBurst p = s := by
  simp [State.cutBurst, hb]

/-! ### What a report to carding or to the Kerb hub leaves alone

A port tells its carding unit of the heads that leave (R103, R150), and the Kerb hub evaluates after a change of the port's
state (R309). Both change a few registers of theirs, none of memory and nothing of the ports. -/

/-- A register that carding, the event queues or the Kerb hub may change when a port reports to them. -/
@[simp] def Reg.reported (r : Reg) : Bool := List.contains
  [.EQ_WP, .EQ_RP, .EQ_RESETS, .ERR_OVF_CNT, .ERR_STAT_OVF, .SLOT_STAT_UNF, .EGO_TWIST, .EGO_STAT_STATE, .EGO_DRIFT_MM,
    .AGG_LOST, .KRB_STAT_ZG_STOP, .KRB_STAT_ZG_SLOW, .KRB_STAT_RUN, .KRB_STAT_SLOWOUT, .KRB_STAT_FAULT, .KRB_STAT_MASK_ON,
    .KRB_CAUSE, .KRB_CAUSE_SEEN] r

/-- What such a report leaves alone: memory, the ports, and every other register. -/
def State.linkSide (s : State) : List Host.Cell × Table PortSt × (Reg → Nat → Nat) :=
  (s.mem, s.ports, fun r i => if r.reported then 0 else s.rd r i)

theorem State.linkSide_congr {s t : State} (hr : t.regs = s.regs) (hm : t.mem = s.mem) (hp : t.ports = s.ports) :
    t.linkSide = s.linkSide := by
  simp only [State.linkSide, hm, hp, State.rd_congr hr]

section
variable {s t : State} (h : t.linkSide = s.linkSide)
include h

theorem State.mem_of_linkSide : t.mem = s.mem := congrArg Prod.fst h

theorem State.port_of_linkSide (p : Nat) : t.port p = s.port p :=
  congrArg (fun v => Table.get ({} : PortSt) (Prod.fst (Prod.snd v)) p) h

theorem State.rd_of_linkSide {r : Reg} (hr : r.reported = false) (i : Nat) : t.rd r i = s.rd r i := by
  have hv : (if r.reported then 0 else t.rd r i) = if r.reported then 0 else s.rd r i := congrArg (fun v => v.2.2 r i) h
  simpa only [hr, Bool.false_eq_true, if_false] using hv

end

section
variable (s : State)

@[simp] theorem State.wr_linkSide {r : Reg} (h : r.reported = true) (i v : Nat) : (s.wr r i v).linkSide = s.linkSide := by
  refine congrArg (fun g => (s.mem, s.ports, g)) (funext fun q => funext fun j => ?_)
  cases hq : q.reported with
  | true => rfl
  | false => exact s.rd_wr_other i v j fun e => by rw [e, h] at hq; cases hq

@[simp] theorem State.put_linkSide {r : Reg} (h : r.reported = true) (i : Nat) (b : Bool) :
    (s.put r i b).linkSide = s.linkSide := s.wr_linkSide h i _

@[simp] theorem State.count_linkSide {r : Reg} (h : r.reported = true) (i n : Nat) :
    (s.count r i n).linkSide = s.linkSide := s.wr_linkSide h i _

@[simp] theorem State.setBitOf_linkSide {r : Reg} (h : r.reported = true) (i b : Nat) (v : Bool) :
    (s.setBitOf r i b v).linkSide = s.linkSide := s.wr_linkSide h i _

@[simp] theorem State.ite_linkSide (p : Prop) [Decidable p] (t : State) :
    (if p then s else t).linkSide = if p then s.linkSide else t.linkSide := apply_ite _ _ _ _

@[simp] theorem State.each_linkSide {α : Type} {f : State → α → State} (hf : ∀ s a, (f s a).linkSide = s.linkSide)
    (l : List α) : (s.each l f).linkSide = s.linkSide := State.each_same State.linkSide f hf l s

@[simp] theorem State.when_linkSide {f : State → State} (hf : ∀ s, (f s).linkSide = s.linkSide) (c : Bool) :
    (s.when c f).linkSide = s.linkSide := by
  cases c
  · rfl
  · exact hf s

@[simp] theorem State.onErrs_linkSide (f : Table ErrRing → Table ErrRing) : (s.onErrs f).linkSide = s.linkSide :=
  State.linkSide_congr rfl rfl rfl
@[simp] theorem State.onFns_linkSide (f : Table FnSt → Table FnSt) : (s.onFns f).linkSide = s.linkSide :=
  State.linkSide_congr rfl rfl rfl
@[simp] theorem State.onCards_linkSide (f : Table CardSt → Table CardSt) : (s.onCards f).linkSide = s.linkSide :=
  State.linkSide_congr rfl rfl rfl
@[simp] theorem State.onSlots_linkSide (f : Table SlotSt → Table SlotSt) : (s.onSlots f).linkSide = s.linkSide :=
  State.linkSide_congr rfl rfl rfl
@[simp] theorem State.onFt_linkSide (f : FtSt → FtSt) : (s.onFt f).linkSide = s.linkSide :=
  State.linkSide_congr rfl rfl rfl
@[simp] theorem State.onEqs_linkSide (f : Table EqSt → Table EqSt) : (s.onEqs f).linkSide = s.linkSide :=
  State.linkSide_congr rfl rfl rfl
@[simp] theorem State.onRecSeq_linkSide (f : Nat → Nat) : (s.onRecSeq f).linkSide = s.linkSide :=
  State.linkSide_congr rfl rfl rfl
@[simp] theorem State.onKerb_linkSide (f : KerbSt → KerbSt) : (s.onKerb f).linkSide = s.linkSide :=
  State.linkSide_congr rfl rfl rfl
@[simp] theorem State.onCw_linkSide (f : CwSt → CwSt) : (s.onCw f).linkSide = s.linkSide :=
  State.linkSide_congr rfl rfl rfl
@[simp] theorem State.onMs_linkSide (f : MsSt → MsSt) : (s.onMs f).linkSide = s.linkSide :=
  State.linkSide_congr rfl rfl rfl
@[simp] theorem State.emit_linkSide (x : Tx) : (s.emit x).linkSide = s.linkSide := State.linkSide_congr rfl rfl rfl

@[simp] theorem State.irq_linkSide (f v : Nat) : (s.irq f v).linkSide = s.linkSide := by
  simp [State.irq, State.post, State.request, State.onFn]

@[simp] theorem State.recordTo_linkSide (dst owner : Nat) (t : ErrType) (unit : Nat) (detail : List Nat) :
    (s.recordTo dst owner t unit detail).linkSide = s.linkSide := by
  simp [State.recordTo]

end

/-! #### The Kerb -/

section
variable (s : State)

@[simp] theorem State.onZone_linkSide (z : Nat) (f : ZoneSt → ZoneSt) : (s.onZone z f).linkSide = s.linkSide :=
  State.linkSide_congr rfl rfl rfl

@[simp] theorem State.sendStopState_linkSide : s.sendStopState.linkSide = s.linkSide := by
  unfold State.sendStopState
  split
  · split
    · rfl
    · simp [State.cwEmit, State.cwPut]
  · rfl

@[simp] theorem State.setCause_linkSide (c : Nat) : (s.setCause c).linkSide = s.linkSide := by
  simp [State.setCause]

@[simp] theorem State.combine_linkSide : s.combine.linkSide = s.linkSide := by
  refine (State.when_linkSide _ (fun u => u.sendStopState_linkSide) _).trans ?_
  refine (State.when_linkSide _ (fun u => u.emit_linkSide _) _).trans ((State.setCause_linkSide _ _).trans ?_)
  refine (State.put_linkSide _ rfl _ _).trans ((State.put_linkSide _ rfl _ _).trans ?_)
  refine (State.put_linkSide _ rfl _ _).trans ((State.put_linkSide _ rfl _ _).trans ?_)
  exact (State.wr_linkSide _ rfl _ _).trans ((State.wr_linkSide _ rfl _ _).trans (State.onKerb_linkSide _ _))

@[simp] theorem State.kerbUpdate_linkSide : s.kerbUpdate.linkSide = s.linkSide := by
  simp [State.kerbUpdate, State.refreshLoss, State.silentNow, State.aggRefresh]

end

/-! #### Carding and its queues -/

section
variable (s : State)

@[simp] theorem State.segmentDue_linkSide (q : Nat) : (s.segmentDue q).linkSide = s.linkSide := by
  simp [State.segmentDue, State.formSegment, State.onEq]

@[simp] theorem State.slotControl_linkSide (slot sub param : Nat) (unf : Bool) :
    (s.slotControl slot sub param unf).linkSide = s.linkSide := by
  unfold State.slotControl
  split <;> simp [State.formControl, State.onCard]

@[simp] theorem State.startRun_linkSide (slot interval : Nat) : (s.startRun slot interval).linkSide = s.linkSide := by
  simp [State.startRun, State.egoZero, State.onEgo, State.onSlot, State.onCard]

@[simp] theorem State.eqReset_linkSide (q reason : Nat) : (s.eqReset q reason).linkSide = s.linkSide := by
  simp [State.eqReset, State.onEq, State.record2]

@[simp] theorem State.eqPut_linkSide (q r pkt : Nat) (quiet : Bool) : (s.eqPut q r pkt quiet).linkSide = s.linkSide := by
  simp [State.eqPut, State.watermark, State.signal, State.onEq]

@[simp] theorem State.offerGap_linkSide (q slot src count first : Nat) :
    (s.offerGap q slot src count first).linkSide = s.linkSide := by
  simp [State.offerGap, State.onEq]

@[simp] theorem State.flushStopped_linkSide (slot : Nat) : (s.flushStopped slot).linkSide = s.linkSide := by
  unfold State.flushStopped
  split <;> simp

@[simp] theorem State.leaveSlot_linkSide (slot : Nat) (lost : Bool) : (s.leaveSlot slot lost).linkSide = s.linkSide := by
  unfold State.leaveSlot State.endRun
  dsimp only
  split <;> simp [State.onSlot]

/-- Each word that carding takes in. -/
@[simp] theorem State.cardOther_linkSide (c : CardWord) : (s.cardOther c).linkSide = s.linkSide := by
  cases c with
  | pixel => rfl
  | opened => simp [State.cardOther, State.resumeSlot, State.onSlot]
  | left => simp [State.cardOther]
  | loss slot =>
    simp only [State.cardOther]
    split <;> simp

@[simp] theorem State.cardEnter_linkSide (u : Nat) (c : CardWord) : (s.cardEnter u c).linkSide = s.linkSide := by
  simp [State.cardEnter, State.cardDrain, State.onCard]

end

/-! ### The head table -/

@[simp] theorem State.wr_port (s : State) (r : Reg) (i v q : Nat) : (s.wr r i v).port q = s.port q := rfl

/-- A register that follows when the head of a position changes: the summaries of the head table and of its
unit's carding tables (R145), and what the head table holds of a head beyond its state. -/
@[simp] def Reg.headFollows (r : Reg) : Bool := List.contains
  [.WL_STAT_HEADS, .WL_LIVE, .WL_QUOTA_SUM, .CARD_TBL_USED, .HT_SERIAL_LO, .HT_SERIAL_HI, .HT_WMDLY] r

theorem State.rd_wr_headFollows (s : State) {r q : Reg} (hr : r.headFollows = false) (hq : q.headFollows = true) (i v j : Nat) :
    (s.wr q i v).rd r j = s.rd r j := s.rd_wr_other i v j fun e => by rw [e, hq] at hr; cases hr

/-- A field that reads 0 still does so after a write of 0 at any index. -/
theorem State.rd_wr_zero {s : State} {r : Reg} {j : Nat} (h : s.rd r j = 0) (i : Nat) : (s.wr r i 0).rd r j = 0 := by
  by_cases hk : i % 2 ^ 24 = j % 2 ^ 24
  · rw [s.rd_wr_mod r i j 0 hk, Nat.zero_mod]
  · have hkey : r.key j ≠ r.key i := fun e => hk (Reg.key_inj e).2.symm
    exact (Table.get_set_other _ _ _ _ hkey).trans h

section
variable (s : State) (p slot : Nat)

@[simp] theorem State.headsRefresh_mem : (s.headsRefresh p).mem = s.mem := by
  simp only [State.headsRefresh, State.tblRefresh, State.wr_mem]

@[simp] theorem State.headsRefresh_port (q : Nat) : (s.headsRefresh p).port q = s.port q := by
  simp only [State.headsRefresh, State.tblRefresh, State.wr_port]

theorem State.rd_headsRefresh {r : Reg} (hr : r.headFollows = false) (i : Nat) : (s.headsRefresh p).rd r i = s.rd r i := by
  simp only [State.headsRefresh, State.tblRefresh]
  rw [State.rd_wr_headFollows _ hr rfl, State.rd_wr_headFollows _ hr rfl, State.rd_wr_headFollows _ hr rfl,
    State.rd_wr_headFollows _ hr rfl]

/-- A head table with no numbered head counts none. -/
theorem State.heads_headsRefresh (h : ∀ i ∈ slotsOf p, s.rd .HT_STATE i = 0) : (s.headsRefresh p).rd .WL_STAT_HEADS p = 0 := by
  have hn : s.numbered p = [] := List.filter_eq_nil_iff.2 fun i hi => by simp [h i hi]
  simp only [State.headsRefresh, State.tblRefresh, hn]
  rw [State.rd_wr_other _ _ _ _ (by simp), State.rd_wr_other _ _ _ _ (by simp), State.rd_wr_other _ _ _ _ (by simp),
    State.rd_wr_same, List.length_nil, Nat.zero_mod]

@[simp] theorem State.freeHead_mem : (s.freeHead slot).mem = s.mem := by
  simp only [State.freeHead, State.setHead]
  split
  · simp [State.onPort]
  · refine (State.mem_of_linkSide (State.cardEnter_linkSide ..)).trans ?_
    simp [State.onPort]

/-- Of the registers that neither carding nor the head table's followers are, a freed position changes its HT_STATE alone. -/
theorem State.rd_freeHead {r : Reg} (hr : r.reported = false) (hs : r.headFollows = false) (i : Nat) :
    (s.freeHead slot).rd r i = (s.wr .HT_STATE slot 0).rd r i := by
  have hfree (f : PortSt → PortSt) : (((((s.setHead slot 0).onPort (slot / 32) f).wr .HT_SERIAL_LO slot 0).wr .HT_SERIAL_HI slot
      0).wr .HT_WMDLY slot 0).rd r i = (s.wr .HT_STATE slot 0).rd r i := by
    rw [State.rd_wr_headFollows _ hs rfl, State.rd_wr_headFollows _ hs rfl, State.rd_wr_headFollows _ hs rfl, State.rd_onPort,
      State.setHead, State.rd_headsRefresh _ _ hs]
  simp only [State.freeHead]
  split
  · exact hfree _
  · exact (State.rd_of_linkSide (State.cardEnter_linkSide ..) hr i).trans (hfree _)

end

/-- A run of changes that each empty one position leaves every position empty that was so, or that it came to. -/
theorem State.each_empties {f : State → Nat → State}
    (hf : ∀ s i j, (f s i).rd .HT_STATE j = (s.wr .HT_STATE i 0).rd .HT_STATE j) (l : List Nat) :
    ∀ (s : State) (j : Nat), s.rd .HT_STATE j = 0 ∨ j ∈ l → (s.each l f).rd .HT_STATE j = 0 := by
  induction l with
  | nil => exact fun s j h => h.resolve_right (List.not_mem_nil)
  | cons i l ih =>
    refine fun s j h => ih (f s i) j ?_
    rcases h with h | h
    · exact .inl ((hf s i j).trans (State.rd_wr_zero h i))
    · rcases List.mem_cons.1 h with rfl | h
      · exact .inl ((hf s j j).trans (by rw [State.rd_wr_same, Nat.zero_mod]))
      · exact .inr h

/-! ### WL_CTRL (R587) -/

/-- The firmware's word of RW fields, none of which it gives a reserved encoding, takes effect in each field that has no row of
its own (R3, R5 to R11). -/
theorem State.applyWord_fw_rw (s : State) (c : Fin 16) {off w : Nat} {h : Hit} {l : List Hit} (hl : hitsAt off = h :: l)
    (hrw : ∀ k ∈ h :: l, k.reg.spec.acc = .rw) (hok : ∀ k ∈ h :: l, k.reg.reserved k.idx (k.value w) = false)
    (hword : wordReserved (h :: l) w = false) (hchain : ∀ k ∈ h :: l, k.reg ≠ .CH_CFG_SRC) :
    s.applyWord (.fw c) off w =
      (true, s.each ((h :: l).filter fun k => !k.reg.spec.ownRow) fun s k => s.writeField k (k.value w)) := by
  have hfree : ∀ k ∈ h :: l, s.locked k.reg k.idx = false := fun k hk => by simp [State.locked, hrw k hk]
  have hmine : ((h :: l).filter fun k => mayWrite (.fw c) k.reg) = h :: l :=
    List.filter_eq_self.2 fun k hk => by simp [mayWrite, hrw k hk]
  have hbad : ((h :: l).filter fun k => !s.locked k.reg k.idx && k.reg.reserved k.idx (k.value w)) = [] :=
    List.filter_eq_nil_iff.2 fun k hk => by simp [hok k hk]
  have hany : ((h :: l).any fun k => s.chainRsv k w) = false :=
    List.any_eq_false.2 fun k hk => by simp [State.chainRsv, hchain k hk]
  have hviol : ((h :: l).filter fun k => s.violates (h :: l) w k && !k.reg.spec.ownRow) = [] :=
    List.filter_eq_nil_iff.2 fun k hk => by simp [State.violates, hfree k hk]
  have hwrite : ((h :: l).filter fun k => !s.locked k.reg k.idx && !k.reg.spec.ownRow) =
      (h :: l).filter fun k => !k.reg.spec.ownRow := List.filter_congr fun k hk => by simp [hfree k hk]
  simp only [State.applyWord, hl, hmine, hbad, hword, hany, hviol, hwrite]
  rfl

/-- An RW field takes the value, where no bit of it reads 1 whatever is written. -/
theorem State.writeField_rw (s : State) {k : Hit} (ha : k.reg.spec.acc = .rw) (hf : forcedBits k.reg = 0) (v : Nat) :
    s.writeField k v = s.wr k.reg k.idx v := by
  rw [State.writeField, ha]
  simp only [hf, Nat.or_zero]

/-- The fields of the word of WL_CTRL. -/
def wlCtrlHits (p : Nat) : List Hit :=
  [⟨.WL_CTRL_EN, p, 0⟩, ⟨.WL_CTRL_POS_MODE, p, 1⟩, ⟨.WL_CTRL_AUTO_SPLICE, p, 2⟩, ⟨.WL_CTRL_SPLICE_PERIOD, p, 8⟩]

theorem hitsAt_wlCtrl (p : Fin 8) : hitsAt (Reg.WL_CTRL_EN.offset p.val) = wlCtrlHits p.val := by
  revert p
  decide +kernel

theorem wlCtrlHits_rw : ∀ p : Fin 8, ∀ k ∈ wlCtrlHits p.val, k.reg.spec.acc = .rw ∧ k.reg ≠ .CH_CFG_SRC := by
  decide +kernel

theorem wlCtrlHits_rows : ∀ p : Fin 8, ((wlCtrlHits p.val).filter fun k => !k.reg.spec.ownRow) =
    [⟨.WL_CTRL_POS_MODE, p.val, 1⟩, ⟨.WL_CTRL_AUTO_SPLICE, p.val, 2⟩, ⟨.WL_CTRL_SPLICE_PERIOD, p.val, 8⟩] := by
  decide +kernel

theorem wlCtrl_rsv : Reg.WL_CTRL_EN.spec.rsv = .ranges [] ∧ Reg.WL_CTRL_POS_MODE.spec.rsv = .ranges [] ∧
    Reg.WL_CTRL_AUTO_SPLICE.spec.rsv = .ranges [] ∧ Reg.WL_CTRL_SPLICE_PERIOD.spec.rsv = .ranges [(0, 0)] := by
  decide +kernel

/-- Of the encodings of WL_CTRL's fields, SPLICE_PERIOD 0 alone is reserved. -/
theorem wlCtrlHits_legal (p : Nat) {w : Nat} (hw : bits w 8 8 ≠ 0) :
    ∀ k ∈ wlCtrlHits p, k.reg.reserved k.idx (k.value w) = false := by
  obtain ⟨hen, hpos, hauto, hper⟩ := wlCtrl_rsv
  have hval : Hit.value ⟨.WL_CTRL_SPLICE_PERIOD, p, 8⟩ w = bits w 8 8 := rfl
  simp [wlCtrlHits, Reg.reserved, hen, hpos, hauto, hper, hval, hw]

/-- The fields of WL_CTRL beside EN take the values that a word carries. -/
def State.wlFields (s : State) (p w : Nat) : State :=
  ((s.wr .WL_CTRL_POS_MODE p (bits w 1 1)).wr .WL_CTRL_AUTO_SPLICE p (bits w 2 1)).wr .WL_CTRL_SPLICE_PERIOD p (bits w 8 8)

/-- The firmware's word with a legal SPLICE_PERIOD is taken; EN has a row of its own. -/
theorem State.applyWord_wlCtrl (s : State) (c : Fin 16) (p : Fin 8) {w : Nat} (hw : bits w 8 8 ≠ 0) :
    s.applyWord (.fw c) (Reg.WL_CTRL_EN.offset p.val) w = (true, s.wlFields p.val w) := by
  have hrw := wlCtrlHits_rw p
  rw [s.applyWord_fw_rw c (hitsAt_wlCtrl p) (fun k hk => (hrw k hk).1) (wlCtrlHits_legal p hw) rfl fun k hk => (hrw k hk).2,
    ← wlCtrlHits, wlCtrlHits_rows]
  simp only [State.each, List.foldl_cons, List.foldl_nil]
  rw [State.writeField_rw _ rfl rfl, State.writeField_rw _ rfl rfl, State.writeField_rw _ rfl rfl]
  rfl

/-- The state with a word of WL_CTRL taken whole. -/
def State.wlTaken (s : State) (p w : Nat) (en : Bool) : State := (s.wlFields p w).put .WL_CTRL_EN p en

/-- The firmware's write to WL_CTRL of a powered, ungated port: the word is taken, and a change of EN starts or stops the port. -/
theorem State.wlCtrl_fw {s : State} {c : Fin 16} {p : Fin 8} {w : Word} (en : Bool) (hl : s.letIn (.fw c) .WL_CTRL_EN p.val = .ok s)
    (hd : s.domOn (wlDomain p.val) = true) (hg : s.portGated p.val = false) (hw : bits w.toNat 8 8 ≠ 0)
    (hen : s.flag .WL_CTRL_EN p.val = !en) :
    s.wlCtrl (.fw c) p.val w en =
      if en then (s.wlTaken p.val w.toNat en).portStart p.val else (s.wlTaken p.val w.toNat en).portStop p.val := by
  have hwas : (s.wlFields p.val w.toNat).flag .WL_CTRL_EN p.val = !en := by
    rw [← hen]
    simp only [State.flag, State.wlFields]
    rw [State.rd_wr_other _ _ _ _ (by simp), State.rd_wr_other _ _ _ _ (by simp), State.rd_wr_other _ _ _ _ (by simp)]
  simp [State.wlCtrl, hl, hd, hg, s.applyWord_wlCtrl c p hw, hwas, State.wlTaken]

/-! ### A port starts and stops (R103, R587) -/

theorem mem_slotsOf {p i : Nat} (hi : i < 32) : 32 * p + i ∈ slotsOf p := List.mem_map.2 ⟨i, List.mem_range.2 hi, rfl⟩

section
variable (s : State) (p : Nat)

/-- TRAINING with nothing known of the ring (R587). -/
def State.training : State := (s.wr .WL_STAT_STATE p 1).onPorts fun t => Table.set {} t p { probing := true }

/-- The port's head table is emptied without a word to carding. -/
def State.clearHeads : State := s.each (slotsOf p) fun s i => s.wr .HT_STATE i 0

theorem State.portStart_eq : s.portStart p = ((s.training p).clearHeads p).headsRefresh p := rfl

@[simp] theorem State.training_port : (s.training p).port p = { probing := true } :=
  Table.get_set_same ({} : PortSt) s.ports p { probing := true }

@[simp] theorem State.training_state : (s.training p).rd .WL_STAT_STATE p = 1 := s.rd_wr_same .WL_STAT_STATE p 1

theorem State.rd_training {r : Reg} (hr : r ≠ .WL_STAT_STATE) (i : Nat) : (s.training p).rd r i = s.rd r i :=
  s.rd_wr_other p 1 i hr

@[simp] theorem State.clearHeads_mem : (s.clearHeads p).mem = s.mem := by
  unfold State.clearHeads
  exact State.each_same State.mem _ (fun t i => t.wr_mem .HT_STATE i 0) _ s

@[simp] theorem State.clearHeads_port (q : Nat) : (s.clearHeads p).port q = s.port q := by
  unfold State.clearHeads
  exact State.each_same (State.port · q) _ (fun t i => t.wr_port .HT_STATE i 0 q) _ s

theorem State.rd_clearHeads {r : Reg} (hr : r ≠ .HT_STATE) (i : Nat) : (s.clearHeads p).rd r i = s.rd r i :=
  State.each_same (State.rd · r i) _ (fun t a => t.rd_wr_other a 0 i hr) _ _

theorem State.clearHeads_empty : ∀ i ∈ slotsOf p, (s.clearHeads p).rd .HT_STATE i = 0 := fun i hi =>
  State.each_empties (fun _ _ _ => rfl) _ _ i (.inr hi)

/-- The numbered heads of the port leave, one after another; carding is told of each. -/
def State.freeHeads : State := s.each (s.numbered p) State.freeHead

/-- The port is off, and nothing is held of it. -/
def State.portOff : State := (s.wr .WL_STAT_STATE p 0).onPorts fun t => Table.erase t p

theorem State.portStop_eq : s.portStop p = (((s.freeHeads p).portOff p).headsRefresh p).kerbUpdate := rfl

@[simp] theorem State.freeHeads_mem : (s.freeHeads p).mem = s.mem :=
  State.each_same State.mem _ (fun t i => t.freeHead_mem i) _ _

theorem State.rd_freeHeads {r : Reg} (hr : r.reported = false) (hs : r.headFollows = false) (hh : r ≠ .HT_STATE) (i : Nat) :
    (s.freeHeads p).rd r i = s.rd r i :=
  State.each_same (State.rd · r i) _ (fun t a => (t.rd_freeHead a hr hs i).trans (t.rd_wr_other a 0 i hh)) _ _

theorem State.freeHeads_empty : ∀ i ∈ slotsOf p, (s.freeHeads p).rd .HT_STATE i = 0 := fun i hi => by
  refine State.each_empties (fun t j k => t.rd_freeHead j rfl rfl k) _ s i ?_
  by_cases h0 : s.rd .HT_STATE i = 0
  · exact .inl h0
  · exact .inr (List.mem_filter.2 ⟨hi, by simpa using h0⟩)

@[simp] theorem State.portOff_port : (s.portOff p).port p = {} := Table.get_erase_same ..

@[simp] theorem State.portOff_state : (s.portOff p).rd .WL_STAT_STATE p = 0 := s.rd_wr_same .WL_STAT_STATE p 0

theorem State.rd_portOff {r : Reg} (hr : r ≠ .WL_STAT_STATE) (i : Nat) : (s.portOff p).rd r i = s.rd r i :=
  s.rd_wr_other p 0 i hr

end

section
variable {s : State} {c : Fin 16} {p : Fin 8} {w : Word}

theorem State.wlTaken_en (en : Bool) : (s.wlTaken p.val w.toNat en).flag .WL_CTRL_EN p.val = en := by
  have hrd : (s.wlTaken p.val w.toNat en).rd .WL_CTRL_EN p.val = (if en then 1 else 0) % 2 := State.rd_wr_same ..
  cases en <;> simp [State.flag, hrd]

theorem State.wlTaken_mem (en : Bool) : (s.wlTaken p.val w.toNat en).mem = s.mem := rfl

variable (hl : s.letIn (.fw c) .WL_CTRL_EN p.val = .ok s) (hd : s.domOn (wlDomain p.val) = true)
  (hg : s.portGated p.val = false) (hw : bits w.toNat 8 8 ≠ 0)
include hl hd hg hw

/-- EN from 0 to 1 (R587). -/
theorem exec_wlPortEnable (hen : s.flag .WL_CTRL_EN p.val = false) :
    exec (.wlPortEnable (.fw c) p w) s = .next ((s.wlTaken p.val w.toNat true).portStart p.val) := by
  change Host.Outcome.next (s.wlCtrl (.fw c) p.val w true) = _
  rw [State.wlCtrl_fw true hl hd hg hw hen, if_pos rfl]

/-- EN from 1 to 0. -/
theorem exec_wlPortDisable (hen : s.flag .WL_CTRL_EN p.val = true) :
    exec (.wlPortDisable (.fw c) p w) s = .next ((s.wlTaken p.val w.toNat false).portStop p.val) := by
  change Host.Outcome.next (s.wlCtrl (.fw c) p.val w false) = _
  rw [State.wlCtrl_fw false hl hd hg hw hen, if_neg Bool.false_ne_true]

end

/-- What a port that starts looks like. -/
theorem State.portStart_spec (s : State) (p : Nat) :
    let t := s.portStart p
    t.flag .WL_CTRL_EN p = s.flag .WL_CTRL_EN p ∧ t.rd .WL_STAT_STATE p = 1 ∧ t.port p = { probing := true } ∧
      t.rd .WL_STAT_HEADS p = 0 ∧ (∀ i, i < 32 → t.rd .HT_STATE (32 * p + i) = 0) ∧ t.mem = s.mem := by
  have hempty := (s.training p).clearHeads_empty p
  rw [State.portStart_eq]
  refine ⟨?_, ?_, ?_, State.heads_headsRefresh _ _ hempty, fun i hi => ?_, ?_⟩
  · simp [State.flag, State.rd_headsRefresh, State.rd_clearHeads, State.rd_training]
  · simp [State.rd_headsRefresh, State.rd_clearHeads]
  · simp
  · rw [State.rd_headsRefresh _ _ rfl]
    exact hempty _ (mem_slotsOf hi)
  · rw [State.headsRefresh_mem, State.clearHeads_mem]
    rfl

/-- What a port that stops leaves. -/
theorem State.portStop_spec (s : State) (p : Nat) :
    let t := s.portStop p
    t.flag .WL_CTRL_EN p = s.flag .WL_CTRL_EN p ∧ t.rd .WL_STAT_STATE p = 0 ∧ t.port p = {} ∧ t.rd .WL_STAT_HEADS p = 0 ∧
      t.mem = s.mem := by
  have hempty : ∀ i ∈ slotsOf p, ((s.freeHeads p).portOff p).rd .HT_STATE i = 0 := fun i hi =>
    (State.rd_portOff _ _ (by simp) i).trans (s.freeHeads_empty p i hi)
  have hkerb := (((s.freeHeads p).portOff p).headsRefresh p).kerbUpdate_linkSide
  rw [State.portStop_eq]
  refine ⟨?_, ?_, ?_, ?_, ?_⟩
  · simp [State.flag, State.rd_of_linkSide hkerb, State.rd_headsRefresh, State.rd_portOff, State.rd_freeHeads]
  · simp [State.rd_of_linkSide hkerb, State.rd_headsRefresh]
  · simp [State.port_of_linkSide hkerb]
  · rw [State.rd_of_linkSide hkerb rfl]
    exact State.heads_headsRefresh _ _ hempty
  · rw [State.mem_of_linkSide hkerb, State.headsRefresh_mem]
    exact s.freeHeads_mem p

/-! ### Lanes and blocks (R76, R77, R95, R105, R109) -/

section
variable {s : State} {p : Fin 8}

theorem State.splicing_iff {q : Nat} :
    s.splicing q = true ↔ ∃ b ∈ (s.port q).splice, b * 256000 ≤ s.now ∧ s.now < b * 256000 + 300000 := by
  simp [State.splicing]

/-- Whether a splice window is open does not depend on the lanes. -/
theorem State.splicing_onLocked (q : Nat) (b : Bool) : (s.onPort q fun x => { x with locked := b }).splicing q = s.splicing q := by
  simp only [State.splicing, State.port_onPort_same]
  rfl

/-- A port that runs enters RETRAIN: the ring is broken, and one more entry is counted. -/
theorem State.enterRetrain_running {q : Nat} (h : s.rd .WL_STAT_STATE q = 4) :
    s.enterRetrain q = ((((s.put .WL_STAT_RING_BREAK q true).count .WL_CNT (14 * q + 13)).wr .WL_STAT_STATE q 5).onPort q fun x =>
      { x with runFrom := none, back := false }).kerbUpdate := by
  simp [State.enterRetrain, State.wlCount, h]

/-- Counting an event cuts no burst short. -/
theorem State.cutBurst_wlCount {q : Nat} (hb : (s.port q).burst = none) (i : Nat) :
    (s.wlCount q i).cutBurst q = s.count .WL_CNT (14 * q + i) := State.cutBurst_none hb

variable (hup : s.portUp p.val = true)
include hup

theorem exec_wlInlanesLock_training (h : s.rd .WL_STAT_STATE p.val = 1) :
    exec (.wlInlanesLock p) s = .next ((s.onPort p.val fun x => { x with locked := true }).wr .WL_STAT_STATE p.val 2) := by
  change execWlInlanesLock p s = _
  simp [execWlInlanesLock, hup, h, done]

theorem exec_wlInlanesLock_retrain (h : s.rd .WL_STAT_STATE p.val = 5) (hback : (s.port p.val).back = true) :
    exec (.wlInlanesLock p) s =
      .next (((s.onPort p.val fun x => { x with locked := true }).wr .WL_STAT_STATE p.val 4).kerbUpdate) := by
  change execWlInlanesLock p s = _
  simp [execWlInlanesLock, hup, h, hback, done, State.leaveRetrain]

/-- The oldest Waymark in flight is lost when its time has passed (R95). -/
theorem exec_waymarkReturnTimeout {i : Nat} {rest : List Nat} (hf : (s.port p.val).inFlight = i :: rest)
    (hlate : i * 256000 + (s.port p.val).returnLimit < s.now) :
    exec (.waymarkReturnTimeout p) s =
      .next (if (s.port p.val).locked then
          ((s.onPort p.val fun x => { x with inFlight := rest }).count .WL_CNT (14 * p.val + 10)).enterRetrain p.val
        else (s.onPort p.val fun x => { x with inFlight := rest }).count .WL_CNT (14 * p.val + 10)) := by
  change execWaymarkReturnTimeout p s = _
  simp [execWaymarkReturnTimeout, hf, hup, hlate, done, State.wlCount]

variable (hb : (s.port p.val).burst = none)
include hb

/-- Lanes are lost with no burst in progress (R76, R105). -/
theorem exec_wlLaneLoss :
    exec (.wlLaneLoss p) s =
      .next (if s.splicing p.val then s.onPort p.val fun x => { x with locked := false }
        else (s.onPort p.val fun x => { x with locked := false }).enterRetrain p.val) := by
  change execWlLaneLoss p s = _
  simp [execWlLaneLoss, hup, done, State.cutBurst_none hb, State.splicing_onLocked]

theorem exec_blockDiscard_syncHeader : exec (.blockDiscard p .syncHeader) s = .next (s.count .WL_CNT (14 * p.val)) := by
  change execBlockDiscard p .syncHeader s = _
  simp [execBlockDiscard, hup, done, State.cutBurst_wlCount hb]

theorem exec_blockDiscard_blockType : exec (.blockDiscard p .blockType) s = .next (s.count .WL_CNT (14 * p.val + 1)) := by
  change execBlockDiscard p .blockType s = _
  simp [execBlockDiscard, hup, done, State.cutBurst_wlCount hb]

theorem exec_laneAlignRx (aligned : Bool) :
    exec (.laneAlignRx p aligned) s = .next (if aligned then s else s.count .WL_CNT (14 * p.val + 2)) := by
  change execLaneAlignRx p aligned s = _
  cases aligned with
  | true => simp [execLaneAlignRx, hup, done, State.cutBurst_none hb]
  | false => simp [execLaneAlignRx, hup, done, State.cutBurst_wlCount hb]

end

/-- Settles O16: WL_CTRL by what a port that starts or stops comes to, the events of lanes, blocks and Waymarks each by its own
rule. -/
theorem waylinePortControl : Obligations.WaylinePortControl := by
  unfold Obligations.WaylinePortControl
  refine fun s c p w => ⟨fun hl hd hg hw hen => ?_, fun hl hd hg hw hen => ?_, fun hup hb =>
    ⟨exec_wlInlanesLock_training hup, exec_wlInlanesLock_retrain hup, fun hrun hout => ?_, fun hin => ?_,
      exec_blockDiscard_syncHeader hup hb, exec_blockDiscard_blockType hup hb, exec_laneAlignRx hup hb true,
      exec_laneAlignRx hup hb false, fun i rest hf hlate => exec_waymarkReturnTimeout hup hf hlate⟩⟩
  · have hspec := (s.wlTaken p.val w.toNat true).portStart_spec p.val
    rw [State.wlTaken_en, State.wlTaken_mem] at hspec
    exact ⟨_, exec_wlPortEnable hl hd hg hw hen, hspec⟩
  · have hspec := (s.wlTaken p.val w.toNat false).portStop_spec p.val
    rw [State.wlTaken_en, State.wlTaken_mem] at hspec
    exact ⟨_, exec_wlPortDisable hl hd hg hw hen, hspec⟩
  · have hns : s.splicing p.val = false := by
      rw [Bool.eq_false_iff, ne_eq, State.splicing_iff]
      exact fun ⟨b, hm, hw⟩ => hout b hm hw
    rw [exec_wlLaneLoss hup hb, hns, if_neg Bool.false_ne_true, State.enterRetrain_running (by simpa using hrun)]
  · rw [exec_wlLaneLoss hup hb, if_pos (State.splicing_iff.2 hin)]

/-! ### Words and bursts (R79 to R86, R528) -/

section
variable {s : State} {p : Fin 8} {w : Word} (hup : s.portUp p.val = true)
include hup

theorem exec_reservedWordRx (hbad : wordBad (s.port p.val).burst.isSome w.toNat = true) :
    exec (.reservedWordRx p w) s = .next ((s.count .WL_CNT (14 * p.val + 3)).takePlace p.val false) := by
  change execReservedWordRx p w s = _
  simp [execReservedWordRx, hup, hbad, done, State.wordRsvd, State.wlCount]

/-- An OPEN out of a burst: the tests of R83 and R84 in their order. -/
theorem exec_openRx (ht : wordType w.toNat = 2) (hs : wordSub w.toNat = 0) (hb : (s.port p.val).burst = none) :
    let slot := 32 * p.val + bits w.toNat 23 5
    let i := extendIdx (s.port p.val).lastW (bits w.toNat 0 12)
    let len := bits w.toNat 12 8
    let pos := bits w.toNat 23 5
    exec (.openRx p w) s = .next (
      if s.rd .HT_STATE slot = 0 then s.dropBurst p.val pos len 8 (if (s.port p.val).returned then some i else none)
      else if (s.port p.val).returned = false then s.dropBurst p.val pos len 3 none
      else if i + 7 < (s.port p.val).lastW then s.dropBurst p.val pos len 5 (some i)
      else if (s.port p.val).lastW < i then s.dropBurst p.val pos len 3 (some i)
      else if ((s.head slot).lastOpen.any fun k => decide (i < k)) = true then s.dropBurst p.val pos len 6 (some i)
      else s.takeOpen p.val pos len i) := by
  intro slot i len pos
  change execOpenRx p w s = _
  simp only [execOpenRx, hup, ht, hs, hb, done, apply_ite Host.Outcome.next]
  simp [slot, i, len, pos]

/-- A word of an accepted burst has its effect. -/
theorem burstWord_accepted {types : Nat → Bool} {b : Burst} (ht : types (wordType w.toNat) = true)
    (hb : (s.port p.val).burst = some b) (ha : b.accepted = true) (f : State → Burst → State) :
    burstWord p w types s f = .next (f s b) := by
  simp [burstWord, hup, ht, hb, ha, done]

/-- A status word of a numbered head, out of a burst, has its effect. -/
theorem statusWord_numbered {sub : Nat} (ht : wordType w.toNat = 2) (hs : wordSub w.toNat = sub)
    (hb : (s.port p.val).burst = none) (hn : s.rd .HT_STATE (32 * p.val + bits w.toNat 23 5) ≠ 0) (f : State → Nat → State) :
    statusWord p w sub s f = .next (f s (32 * p.val + bits w.toNat 23 5)) := by
  simp [statusWord, hup, ht, hs, hb, hn, done]

end

/-! #### The words of an accepted burst -/

/-- An entry that finds room in the AUXEV FIFO of its port is its last. -/
theorem State.auxevPush_room {s : State} {p : Nat} (h : (Table.get [] s.aux.auxev p).length < 64) (e : AuxEv) :
    s.auxevPush p e = s.onAux fun a => { a with auxev := Table.upd [] a.auxev p (· ++ [e]) } := by
  rw [State.auxevPush, if_neg (by omega)]

section
variable {s : State} {p : Fin 8} {w : Word} {b : Burst} (hup : s.portUp p.val = true) (hb : (s.port p.val).burst = some b)
  (ha : b.accepted = true)
include hup hb ha

theorem exec_pixelEventRx (ht : 8 ≤ wordType w.toNat) :
    exec (.pixelEventRx p w) s = .next (
      if s.headW (32 * p.val + b.pos) ≤ bits w.toNat 19 11 ∨ s.headH (32 * p.val + b.pos) ≤ bits w.toNat 8 11 then
        (s.count .WL_CNT (14 * p.val + 4)).takePlace p.val false
      else (s.cardEnter p.val (.pixel (32 * p.val + b.pos) b.interval w)).takePlace p.val true) := by
  change execPixelEventRx p w s = _
  exact burstWord_accepted (types := fun t => 8 ≤ t) hup (decide_eq_true ht) hb ha _

theorem exec_gapMarkerWordRx (ht : wordType w.toNat = 3) :
    exec (.gapMarkerWordRx p w) s = .next ((s.cardEnter p.val (.loss (32 * p.val + b.pos) 0 (bits w.toNat 8 20)
      (s.stampOf (32 * p.val + b.pos) b.interval (bits w.toNat 0 8)))).takePlace p.val true) := by
  change execGapMarkerWordRx p w s = _
  exact burstWord_accepted (types := fun t => t == 3) hup (beq_iff_eq.2 ht) hb ha _

/-- The word takes its place; a live carding unit with PD_AUX on stamps it for the FIFO (R528). -/
theorem exec_trigAuxWordRx (ht : wordType w.toNat = 4) :
    exec (.trigAuxWordRx p w) s = .next (
      if (s.cardLive p.val && s.domOn pdAux) = true then
        (s.takePlace p.val true).auxevPush p.val ⟨32 * p.val + b.pos, bits w.toNat 24 3, bits w.toNat 27 1, bits w.toNat 8 16,
          time64 (s.eventTime (32 * p.val + b.pos) b.interval (bits w.toNat 0 8))⟩
      else s.takePlace p.val true) := by
  change execTrigAuxWordRx p w s = _
  exact burstWord_accepted (types := fun t => t == 4) hup (beq_iff_eq.2 ht) hb ha _

end

/-! #### Status words -/

section
variable {s : State} {p : Fin 8} {w : Word} (hup : s.portUp p.val = true) (ht : wordType w.toNat = 2)
  (hb : (s.port p.val).burst = none) (hn : s.rd .HT_STATE (32 * p.val + bits w.toNat 23 5) ≠ 0)
include hup ht hb hn

theorem exec_healthRx (hs : wordSub w.toNat = 1) :
    exec (.healthRx p w) s = .next (s.onHead (32 * p.val + bits w.toNat 23 5) fun h =>
      { h with healthState := bits w.toNat 16 4, healthFill := bits w.toNat 8 8, healthTemp := bits w.toNat 0 8 }) := by
  change execHealthRx p w s = _
  exact statusWord_numbered hup ht hs hb hn _

theorem exec_leaveReqRx (hs : wordSub w.toNat = 2) :
    exec (.leaveReqRx p w) s = .next ((s.setHead (32 * p.val + bits w.toNat 23 5) 4).onHead (32 * p.val + bits w.toNat 23 5)
      fun h => { h with leaveReq := some s.now }) := by
  change execLeaveReqRx p w s = _
  exact statusWord_numbered hup ht hs hb hn _

theorem exec_wmMissRx (hs : wordSub w.toNat = 3) : exec (.wmMissRx p w) s = .next s := by
  change execWmMissRx p w s = _
  exact statusWord_numbered hup ht hs hb hn _

end

/-- Settles O17: a word by its type, each by what its command does in the case that the port is in; an OPEN by the tests of R83
in their order. -/
theorem waylineWordsAndBursts : Obligations.WaylineWordsAndBursts := by
  unfold Obligations.WaylineWordsAndBursts
  intro s p w hup slot i len pos
  refine ⟨exec_reservedWordRx hup, fun ht hs hb => ?_, fun b hb ha => ?_, fun ht hb hn => ?_⟩
  · have hopen := exec_openRx hup ht hs hb
    refine ⟨fun h0 => by rw [hopen, if_pos h0], fun hn => ⟨fun hr => by rw [hopen, if_neg hn, if_pos hr], fun hr => ?_⟩⟩
    have hret : ¬ (s.port p.val).returned = false := by simp [hr]
    dsimp only at hopen
    rw [if_neg hn, if_neg hret] at hopen
    refine ⟨fun hstale => ?_, fun hlate => ?_, fun hle hwin hback => ?_, fun hle hwin hback => ?_⟩
    · rw [hopen, if_pos hstale]
    · rw [hopen, if_neg (by omega), if_pos hlate]
    · rw [hopen, if_neg (by omega), if_neg (by omega), if_pos hback]
    · rw [hopen, if_neg (by omega), if_neg (by omega), if_neg (by rw [hback]; exact Bool.false_ne_true)]
  · intro slot
    refine ⟨fun ht hout => ?_, fun ht hx hy => ?_, exec_gapMarkerWordRx hup hb ha, fun ht hno => ?_,
      fun ht hlive haux hroom => ?_⟩
    · rw [exec_pixelEventRx hup hb ha ht, if_pos hout]
    · rw [exec_pixelEventRx hup hb ha ht, if_neg (not_or.2 ⟨Nat.not_le.2 hx, Nat.not_le.2 hy⟩)]
    · rw [exec_trigAuxWordRx hup hb ha ht, if_neg]
      rcases hno with h | h <;> simp [h]
    · have hroom' : (Table.get [] (s.takePlace p.val true).aux.auxev p.val).length < 64 := hroom
      rw [exec_trigAuxWordRx hup hb ha ht, if_pos (by rw [hlive, haux, Bool.and_self]), State.auxevPush_room hroom']
  · exact ⟨exec_healthRx hup ht hb hn, exec_leaveReqRx hup ht hb hn, exec_wmMissRx hup ht hb hn⟩

/-! ### Management frames (R96 to R98, R101, R102) -/

section
variable {s : State} {p : Fin 8} (hup : s.portUp p.val = true) (hb : (s.port p.val).burst = none)
include hup hb

theorem exec_mgmtResponseRx_badCrc {f : List Byte} (hf : frameOk f = false) :
    exec (.mgmtResponseRx p f) s = .next (s.count .WL_CNT (14 * p.val + 11)) := by
  change execMgmtResponseRx p f s = _
  simp [execMgmtResponseRx, hup, State.cutBurst_none hb, hf, done, State.wlCount]

theorem exec_enumReturn_badCrc {f : List Byte} (hf : frameOk f = false) :
    exec (.enumReturn p f) s = .next (s.count .WL_CNT (14 * p.val + 11)) := by
  change execEnumReturn p f s = _
  simp [execEnumReturn, hup, State.cutBurst_none hb, hf, done, State.wlCount]

/-- A response is matched by SEQ and type. -/
theorem exec_mgmtResponseRx_unmatched {f : List Byte} (hf : frameOk f = true)
    (hout : ∀ o ∈ (s.port p.val).out, ¬ (o.seq = byteAt f 3 ∧ byteAt f 2 = o.req.typ + 0x80)) :
    exec (.mgmtResponseRx p f) s = .next s := by
  have hfind : ((s.port p.val).out.find? fun o => o.seq == byteAt f 3 && byteAt f 2 == o.req.typ + 0x80) = none :=
    List.find?_eq_none.2 fun o ho => by simpa using hout o ho
  change execMgmtResponseRx p f s = _
  simp [execMgmtResponseRx, hup, State.cutBurst_none hb, hf, hfind, done]

/-- A response OK to the IDRD of a store's start: its bytes are taken (R101, R116). -/
theorem exec_mgmtResponseRx_ident {f : List Byte} {o : MgmtOut} (hf : frameOk f = true) (ho : (s.port p.val).out = [o])
    (huse : o.req.use = .ident 0) (hseq : o.seq = byteAt f 3) (htyp : byteAt f 2 = o.req.typ + 0x80) (hlen : 2 ≤ byteAt f 4)
    (hok : byteAt ((f.drop 7).take (byteAt f 4)) 0 = 0) :
    exec (.mgmtResponseRx p f) s =
      .next ((s.mgmtDone p.val o.seq).identData p.val 0 (((f.drop 7).take (byteAt f 4)).drop 1)) := by
  have hpay : ((f.drop 7).take (byteAt f 4)).isEmpty = false := by
    have hl : f.length = 7 + byteAt f 4 + 4 := by
      simp only [frameOk, Bool.and_eq_true, beq_iff_eq] at hf
      obtain ⟨⟨hlength, -⟩, -⟩ := hf
      exact hlength
    rw [List.isEmpty_eq_false_iff, ← List.length_pos_iff]
    simp only [List.length_take, List.length_drop]
    omega
  have hfind : ((s.port p.val).out.find? fun o => o.seq == byteAt f 3 && byteAt f 2 == o.req.typ + 0x80) = some o := by
    simp [ho, hseq, htyp]
  change execMgmtResponseRx p f s = _
  simp only [execMgmtResponseRx, hup, State.cutBurst_none hb, hf, hfind, done, hpay, hok]
  simp [State.mgmtResult, huse]

/-- An ENUM that returns with OVER clear: the temporary IDs below its counter are to be read (R101, R102). -/
theorem exec_enumReturn_whole {f : List Byte} {o : MgmtOut} (hf : frameOk f = true) (ho : (s.port p.val).out = [o])
    (huse : o.req.use = .enum) (htyp : byteAt f 2 = 1) (hseq : o.seq = byteAt f 3) (hover : bit (byteAt f 8) 0 = false) :
    exec (.enumReturn p f) s =
      .next ((((s.mgmtDone p.val o.seq).placeTemps p.val ((List.range (byteAt f 7 - 32)).map (32 + ·))).onPort p.val fun x =>
        { x with temps := x.temps ++ (List.range (byteAt f 7 - 32)).map (32 + ·) }).nextIdent p.val) := by
  have hfind : ((s.port p.val).out.find? fun o => o.req.use == .enum && byteAt f 2 == 0x01 && o.seq == byteAt f 3) = some o := by
    simp [ho, hseq, htyp, huse]
  change execEnumReturn p f s = _
  simp [execEnumReturn, hup, State.cutBurst_none hb, hf, hfind, done, hover]

end

/-! #### Requests that have no response (R98) -/

section
variable {s : State} {p : Fin 8} {o : MgmtOut} (hup : s.portUp p.val = true) (ho : (s.port p.val).out = [o]) (hq : o.seq < 256)
include hup ho hq

theorem exec_mgmtRequestTimeout_again (hs : o.sends < 3) :
    exec (.mgmtRequestTimeout p (BitVec.ofNat 8 o.seq)) s =
      .next ((s.onPort p.val fun x => { x with out := [{ o with sends := o.sends + 1 }] }).emit
        (.mgmtFrame p.val (mgmtWire o.req.dest o.req.typ o.seq o.req.payload))) := by
  have hseq : (BitVec.ofNat 8 o.seq).toNat = o.seq := by simp [Nat.mod_eq_of_lt hq]
  change execMgmtRequestTimeout p (BitVec.ofNat 8 o.seq) s = _
  simp only [execMgmtRequestTimeout, ho, hseq, List.find?_cons, beq_self_eq_true, hup, hs, done]
  refine congrArg Host.Outcome.next (congrArg (State.emit · _) (State.onPort_congr ?_))
  simp [ho]

theorem exec_mgmtRequestTimeout_givenUp (hs : 3 ≤ o.sends) (huse : o.req.use = .cfg) (hw : (s.port p.val).waiting = []) :
    exec (.mgmtRequestTimeout p (BitVec.ofNat 8 o.seq)) s =
      .next (((s.count .WL_CNT (14 * p.val + 12)).emit (.frameTimeout p.val o.req.dest)).onPort p.val fun x =>
        { x with out := [] }) := by
  have hseq : (BitVec.ofNat 8 o.seq).toNat = o.seq := by simp [Nat.mod_eq_of_lt hq]
  have hdone : ((s.wlCount p.val 12).emit (.frameTimeout p.val o.req.dest)).mgmtDone p.val o.seq =
      ((s.count .WL_CNT (14 * p.val + 12)).emit (.frameTimeout p.val o.req.dest)).onPort p.val fun x => { x with out := [] } := by
    have hport : ((s.wlCount p.val 12).emit (.frameTimeout p.val o.req.dest)).port p.val = s.port p.val := rfl
    simp only [State.mgmtDone, State.port_onPort_same, hport, hw]
    refine State.onPort_congr (s := (s.wlCount p.val 12).emit (.frameTimeout p.val o.req.dest)) ?_
    simp [hport, ho]
  change execMgmtRequestTimeout p (BitVec.ofNat 8 o.seq) s = _
  have hnot : ¬ o.sends < 3 := by omega
  have hcfg : (MgmtUse.cfg == MgmtUse.idWrite) = false := rfl
  simp [execMgmtRequestTimeout, ho, hseq, hup, hnot, done, hdone, huse, hcfg, State.mgmtResult]

end

/-! ### Waymarks (R57, R95, R581) -/

theorem exec_waymarkBoundary_served {s : State} (h : s.nowUs % 256 ≠ 0 ∨ s.time.lastMark = some s.nowUs) :
    exec .waymarkBoundary s = .next s := by
  change execWaymarkBoundary s = _
  rw [execWaymarkBoundary, if_pos h]
  rfl

/-- Of the eight ports the one that satisfies a test. -/
theorem filter_ports_eq_singleton {f : Nat → Bool} (p : Fin 8) (hp : f p.val = true)
    (h : ∀ q, q < 8 → q ≠ p.val → f q = false) :
    (List.range 8).filter f = [p.val] := by
  have heq : ∀ q ∈ List.range 8, f q = (q == p.val) := fun q hq => by
    by_cases hqp : q = p.val
    · simp [hqp, hp]
    · simp [hqp, h q (List.mem_range.1 hq) hqp]
  rw [List.filter_congr heq, List.filter_beq, List.count_eq_one_of_mem List.nodup_range (List.mem_range.2 p.isLt)]
  rfl

/-- A device outside a ring of devices sends no TIME, and one that is no Brim waits for none (R409). -/
theorem State.time_alone {s : State} (hbrim : s.isBrim = false) (hring : s.inRing = false) : s.sendTime.awaitTime = s := by
  have hsend : s.sendTime = s := by simp [State.sendTime, hring]
  rw [hsend, State.awaitTime, hbrim, if_neg Bool.false_ne_true]

/-- A boundary that has not been served, on a device with one enabled port (R57, R581). -/
theorem exec_waymarkBoundary_single {s : State} {p : Fin 8} (hup : s.portUp p.val = true) (hmark : s.nowUs % 256 = 0)
    (hnew : s.time.lastMark ≠ some s.nowUs) (hbrim : s.isBrim = false) (hring : s.inRing = false)
    (halone : ∀ q, q < 8 → q ≠ p.val → s.portUp q = false) :
    exec .waymarkBoundary s = .next ((s.onTime fun t => { t with lastMark := some s.nowUs }).sendWaymark p.val) := by
  have hports : (List.range 8).filter (s.onTime fun t => { t with lastMark := some s.nowUs }).portUp = [p.val] :=
    filter_ports_eq_singleton p hup halone
  change execWaymarkBoundary s = _
  rw [execWaymarkBoundary, if_neg (by simp [hmark, hnew])]
  simp only [hports, done, State.each, List.foldl_cons, List.foldl_nil]
  exact congrArg Host.Outcome.next (State.time_alone hbrim hring)

/-- The Waymark of the only interval in flight has returned: none is lost. -/
theorem State.landed_single {s : State} {p i : Nat} (hf : (s.port p).inFlight = [i]) :
    s.landed p i = s.onPort p fun x => { x with inFlight := [] } := by
  simp [State.landed, hf, State.each]

/-- A WT that names the only interval in flight. -/
theorem find_inFlight_same {x : PortSt} {i k : Nat} (hf : x.inFlight = [i]) (hi : i % 2 ^ 28 = k) :
    (x.inFlight.find? fun i => i % 2 ^ 28 == k) = some i := by
  rw [hf]
  exact List.find?_cons_of_pos (beq_iff_eq.2 hi)

section
variable {s : State} {p : Fin 8} (hup : s.portUp p.val = true) (hb : (s.port p.val).burst = none)
include hup hb

/-- A bad CRC is counted, and the Waymark in flight has returned all the same (R95). -/
theorem exec_waymarkReturn_badCrc {w0 w1 : Word} (d : Nat) {i : Nat} (hcrc : waymarkCrc w0.toNat w1.toNat ≠ bits w1.toNat 0 8)
    (hf : (s.port p.val).inFlight = [i]) :
    exec (.waymarkReturn p w0 w1 d) s =
      .next ((s.count .WL_CNT (14 * p.val + 9)).onPort p.val fun x => { x with inFlight := [] }) := by
  have hland : (s.wlCount p.val 9).landed p.val i =
      (s.count .WL_CNT (14 * p.val + 9)).onPort p.val fun x => { x with inFlight := [] } := State.landed_single hf
  have hlast : ((s.wlCount p.val 9).port p.val).inFlight.getLast? = some i := congrArg List.getLast? hf
  change execWaymarkReturn p w0 w1 d s = _
  by_cases hi : i % 2 ^ 28 = bits w0.toNat 0 28
  · simp only [execWaymarkReturn, hup, State.cutBurst_none hb, find_inFlight_same hf hi, done]
    simp [hcrc, hland]
  · have hfind : ((s.port p.val).inFlight.find? fun i => i % 2 ^ 28 == bits w0.toNat 0 28) = none := by
      rw [hf]
      exact List.find?_eq_none.2 fun j hj => by rw [List.mem_singleton.1 hj, beq_iff_eq]; exact hi
    simp only [execWaymarkReturn, hup, State.cutBurst_none hb, hfind, hlast, hland, done]
    rfl

theorem exec_waymarkReturn_none {w0 w1 : Word} (d : Nat) (hf : (s.port p.val).inFlight = []) :
    exec (.waymarkReturn p w0 w1 d) s = .next (s.count .WL_CNT (14 * p.val + 9)) := by
  have hlast : ((s.wlCount p.val 9).port p.val).inFlight.getLast? = none := congrArg List.getLast? hf
  have hfind : ((s.port p.val).inFlight.find? fun i => i % 2 ^ 28 == bits w0.toNat 0 28) = none := by rw [hf]; rfl
  change execWaymarkReturn p w0 w1 d s = _
  simp only [execWaymarkReturn, hup, State.cutBurst_none hb, hfind, hlast, done]
  rfl

theorem exec_waymarkReturn_good {w0 w1 : Word} (d : Nat) {i : Nat} (hcrc : waymarkCrc w0.toNat w1.toNat = bits w1.toNat 0 8)
    (ht : wordType w0.toNat = 1) (hf : (s.port p.val).inFlight = [i]) (hi : i % 2 ^ 28 = bits w0.toNat 0 28) :
    exec (.waymarkReturn p w0 w1 d) s = .next (s.waymarkBack p.val i d (bits w1.toNat 16 14)) := by
  change execWaymarkReturn p w0 w1 d s = _
  simp only [execWaymarkReturn, hup, State.cutBurst_none hb, find_inFlight_same hf hi, done]
  simp [hcrc, ht]

end

/-! ### Splices (R105, R106) -/

section
variable {s : State} {p : Fin 8} (hup : s.portUp p.val = true)
include hup

/-- With AUTO_SPLICE a boundary 4 intervals ahead is named (R105). -/
theorem exec_splicePeriodExpiry (hauto : s.flag .WL_CTRL_AUTO_SPLICE p.val = true) :
    exec (.splicePeriodExpiry p) s =
      .next ((s.onPort p.val fun x => { x with splice := x.splice ++ [ceilDiv s.now 256000 + 4] }).mgmtCast p.val
        ⟨0x7F, 0x30, leBytes 2 ((ceilDiv s.now 256000 + 4) % 4096), .splice⟩) := by
  change execSplicePeriodExpiry p s = _
  simp [execSplicePeriodExpiry, hup, hauto, done, State.boundaryAhead]

/-- At the end of a splice window those that leave are gone; the splice has succeeded where the lanes are locked and a Waymark of
its boundary or a later one has returned (R106). -/
theorem exec_spliceWindowEnd {b : Nat} {rest : List Nat} (hs : (s.port p.val).splice = b :: rest)
    (hend : b * 256000 + 300000 ≤ s.now) :
    let x := s.port p.val
    let u := (s.onPort p.val fun x => { x with splice := rest }).spliceOut p.val b
    exec (.spliceWindowEnd p) s = .next (
      if (x.locked && x.returned && decide (b ≤ x.lastW)) = true then (if x.probing then u else u.sendEnum p.val).kerbUpdate
      else (((u.put .WL_STAT_SPLICE_FAIL p.val true).put .WL_STAT_RING_BREAK p.val true).enterRetrain p.val).kerbUpdate) := by
  have hnow : ¬ s.now < b * 256000 + 300000 := by omega
  change execSpliceWindowEnd p s = _
  simp [execSpliceWindowEnd, hs, hup, hnow, done, apply_ite Host.Outcome.next]

end

/-- Settles O18: each event of management frames, Waymarks and splices by what its command does in the case that the port is in. -/
theorem waylineManagementAndMarks : Obligations.WaylineManagementAndMarks := by
  unfold Obligations.WaylineManagementAndMarks
  intro s p hup hb
  refine ⟨fun f hf => ⟨exec_mgmtResponseRx_badCrc hup hb hf, exec_enumReturn_badCrc hup hb hf⟩,
    fun f hf hout => exec_mgmtResponseRx_unmatched hup hb hf hout,
    fun f o hf ho huse hseq htyp hlen hok => exec_mgmtResponseRx_ident hup hb hf ho huse hseq htyp hlen hok,
    fun f o hf ho huse htyp hseq hover => exec_enumReturn_whole hup hb hf ho huse htyp hseq hover,
    fun o ho hq => ⟨exec_mgmtRequestTimeout_again hup ho hq, exec_mgmtRequestTimeout_givenUp hup ho hq⟩,
    exec_waymarkBoundary_served, exec_waymarkBoundary_single hup,
    fun w0 w1 d i hcrc hf => exec_waymarkReturn_badCrc hup hb d hcrc hf, fun w0 w1 d hf => exec_waymarkReturn_none hup hb d hf,
    fun w0 w1 d i hcrc ht hf hi => exec_waymarkReturn_good hup hb d hcrc ht hf hi,
    exec_splicePeriodExpiry hup, fun b rest hs hend => ⟨fun hgood => ?_, fun hbad => ?_⟩⟩
  · exact (exec_spliceWindowEnd hup hs hend).trans (congrArg Host.Outcome.next (if_pos hgood))
  · exact (exec_spliceWindowEnd hup hs hend).trans (congrArg Host.Outcome.next (if_neg (Bool.eq_false_iff.1 hbad)))

end Sys2Proof.Machine
end

section
/-!
PROOFS of the statement of identity writes (O20) of `spec/04_module_identity.md` in this row.
-/
namespace Sys2Proof.Machine

/-! ### Registers and the reader beside each other -/

section
variable (s : State)

@[simp] theorem State.wr_hat (r : Reg) (i v : Nat) : (s.wr r i v).hat = s.hat := rfl
@[simp] theorem State.put_hat (r : Reg) (i : Nat) (b : Bool) : (s.put r i b).hat = s.hat := rfl
@[simp] theorem State.count_hat (r : Reg) (i n : Nat) : (s.count r i n).hat = s.hat := rfl
@[simp] theorem State.emit_hat (x : Tx) : (s.emit x).hat = s.hat := rfl
@[simp] theorem State.rd_emit (x : Tx) (r : Reg) (i : Nat) : (s.emit x).rd r i = s.rd r i := State.rd_congr rfl r i
@[simp] theorem State.rd_onHat (f : HatSt → HatSt) (r : Reg) (i : Nat) : (s.onHat f).rd r i = s.rd r i := State.rd_congr rfl r i

theorem State.each_hat {α : Type} {f : State → α → State} (hf : ∀ s a, (f s a).hat = s.hat) (l : List α) :
    (s.each l f).hat = s.hat := State.each_same State.hat f hf l s

theorem State.when_hat {f : State → State} (hf : ∀ s, (f s).hat = s.hat) (c : Bool) : (s.when c f).hat = s.hat := by
  cases c
  · rfl
  · exact hf s

end

/-! ### Reading a store counts, and a command to a tag is sent -/

section
variable (s : State)

@[simp] theorem State.countStore_hat (x : Option IdStore) : (s.countStore x).hat = s.hat := by
  cases x with
  | none => rfl
  | some d => exact (State.when_hat _ (fun u => u.count_hat ..) _).trans (State.when_hat _ (fun u => u.count_hat ..) _)

theorem State.rd_countStore {r : Reg} (h : r ≠ .ID_CNT) (x : Option IdStore) (i : Nat) : (s.countStore x).rd r i = s.rd r i := by
  have hc (t : State) (k : Nat) : (t.idCount k).rd r i = t.rd r i := t.rd_wr_other _ _ _ h
  have hw (t : State) (b : Bool) (k : Nat) : (t.when b fun u => u.idCount k).rd r i = t.rd r i := by cases b <;> simp [hc]
  cases x <;> simp [State.countStore, hc, hw]

/-- Whether a medium is there, what identifies it and the unit it is written in do not depend on the counters. -/
@[simp] theorem State.countStore_mediumBad (x : Option IdStore) (m : Medium) : (s.countStore x).mediumBad m = s.mediumBad m := by
  cases m <;> simp [State.mediumBad, State.hbOn, State.domOn, State.flag, State.rd_countStore]

@[simp] theorem State.countStore_mediumIdent (x : Option IdStore) (m : Medium) :
    (s.countStore x).mediumIdent m = s.mediumIdent m := by
  cases m <;> simp [State.mediumIdent, State.rd64, State.rd_countStore]

@[simp] theorem State.countStore_writeUnit (x : Option IdStore) (m : Medium) (d : IdStore) :
    (s.countStore x).writeUnit m d = s.writeUnit m d := by
  simp [State.writeUnit]

@[simp] theorem State.tagSend_hat (uid code arg : Nat) : (s.tagSend uid code arg).hat = s.hat :=
  (State.emit_hat ..).trans (s.when_hat (fun u => u.emit_hat _) _)

/-- Commands to the tag that is present all go to it, since none changes which tag that is. -/
theorem State.each_tagSend_present (code : Nat) {u : Nat} (h : s.mediumIdent .tag = u) (l : List Nat) :
    (s.each l fun t i => t.tagSend (t.mediumIdent .tag) code i) = s.each l fun t i => t.tagSend u code i := by
  induction l generalizing s with
  | nil => rfl
  | cons i l ih =>
    have hi : (s.tagSend u code i).mediumIdent .tag = u := by rw [← h]; simp [State.mediumIdent]
    simp only [State.each, List.foldl_cons, h] at ih ⊢
    exact ih _ hi

end

/-! ### Whether a medium is there (R128) -/

theorem Medium.head_beq_tag (slot : Fin 256) : (Medium.head slot == .tag) = false := rfl

section
variable {s : State}

theorem State.mediumBad_numbered {slot : Fin 256} (h : s.rd .HT_STATE slot.val = 1) : s.mediumBad (.head slot) = none := by
  simp [State.mediumBad, h]

theorem State.mediumBad_empty {slot : Fin 256} (h : s.rd .HT_STATE slot.val = 0) :
    s.mediumBad (.head slot) = some idNoMedium := by
  simp [State.mediumBad, h]

/-- With no tag in the field there is no medium, whatever the reader does. -/
theorem State.mediumBad_noTag (hp : s.hat.present = []) (hm : s.hat.multi = false) : s.mediumBad .tag = some idNoMedium := by
  simp [State.mediumBad, hp, hm]

theorem State.mediumBad_oneTag {u : Nat} (hon : s.hbOn = true) (hf : s.hat.fault = false) (hp : s.hat.present = [u])
    (hm : s.hat.multi = false) : s.mediumBad .tag = none := by
  simp [State.mediumBad, hon, hf, hp, hm]

end

/-! ### ID_WRITE, ID_LOCKDIR and ID_READ -/

section
variable {s : State} {mb : Fin 64} {tag : BitVec 16} {c : Cmd} {slot : Fin 256} {payload store : List Byte} {l : List Nat}

/-- Nothing is refused of a numbered head with a good store, a SEQ left and a payload that fits (R128). -/
theorem State.idWriteBad_numbered {x : IdStore} {len : Nat} (h : s.rd .HT_STATE slot.val = 1) (hseq : x.act.2 ≠ 0xFFFFFFFE)
    (hlen : len ≤ x.dir.size - 24) : s.idWriteBad (.head slot) (some x) len l = none := by
  simp [State.idWriteBad, State.mediumBad_numbered h, hseq, Nat.not_lt.2 hlen]

theorem exec_idWrite_empty (hw : s.hat.write = none) (h : s.runs mb tag 0x58 true c) (hop : opMedium (c.opw 0) = .head slot)
    (hst : s.rd .HT_STATE slot.val = 0) :
    exec (.idWrite mb tag (.head slot) payload store l) s = .next (s.idRefuse mb.val c 0x0B (storeOf store store.length)) := by
  have hbad := State.mediumBad_empty hst
  change execIdWrite mb tag (.head slot) payload store l s = _
  simp [execIdWrite, hw, State.runCmd_runs h, hop, State.readForWrite, State.idWriteBad, hbad, idNoMedium]

theorem exec_idWrite_numbered {x : IdStore} (hw : s.hat.write = none) (h : s.runs mb tag 0x58 true c)
    (hop : opMedium (c.opw 0) = .head slot) (hst : s.rd .HT_STATE slot.val = 1) (hx : storeOf store store.length = some x)
    (hseq : x.act.2 ≠ 0xFFFFFFFE) (hlen : c.opw 2 ≤ x.dir.size - 24) (hpay : payload.length = c.opw 2) :
    exec (.idWrite mb tag (.head slot) payload store l) s =
      .next (((s.countStore (some x)).begin_ mb.val c).idStep
        { mb := mb.val, id := c.id, medium := .head slot, ident := s.rd64 .HT_SERIAL_LO .HT_SERIAL_HI slot.val
          slotB := x.inactive, base := if x.inactive then x.dir.slotB else x.dir.slotA, size := x.dir.size, unit := 32
          seq := x.act.2 + 1, payload := payload, rtype := 1, step := 1, todo := [], restarts := 0, collapsed := false
          retries := 0 } 1) := by
  have hread : s.readForWrite (.head slot) (some x) = s.countStore (some x) := by
    simp [State.readForWrite, State.mediumBad_numbered hst]
  have hgood : (s.countStore (some x)).idWriteBad (.head slot) (some x) (c.opw 2) l = none :=
    State.idWriteBad_numbered ((s.rd_countStore (by simp) _ _).trans hst) hseq hlen
  have hid : (s.countStore (some x)).rd64 .HT_SERIAL_LO .HT_SERIAL_HI slot.val = s.rd64 .HT_SERIAL_LO .HT_SERIAL_HI slot.val :=
    s.countStore_mediumIdent (some x) (.head slot)
  change execIdWrite mb tag (.head slot) payload store l s = _
  simp [execIdWrite, hw, State.runCmd_runs h, hop, hx, hread, hgood, hpay, hid, State.writeUnit, State.mediumIdent,
    Medium.head_beq_tag]

theorem exec_idLockdir_noTag (hw : s.hat.write = none) (hr : s.hat.reading = none) (h : s.runs mb tag 0x59 false c)
    (hp : s.hat.present = []) (hm : s.hat.multi = false) (answers : List IdAnswer) :
    exec (.idLockdir mb tag store answers) s = .next (s.idRefuse mb.val c 0x0B none) := by
  change execIdLockdir mb tag store answers s = _
  simp [execIdLockdir, hw, hr, State.runCmd_runs h, State.mediumBad_noTag hp hm, idNoMedium]

/-- Answers that are all good are good as far as they are looked at. -/
theorem takeWhile_ok {n : Nat} {answers : List IdAnswer} (ha : ∀ a ∈ answers, a = .ok) :
    ((answers.take n).takeWhile fun a => a == .ok) = answers.take n :=
  List.takeWhile_eq_self_iff.2 fun a h => by simp [ha a (List.mem_of_mem_take h)]

theorem exec_idLockdir_locked {u : Nat} {d : IdStore} {answers : List IdAnswer} (hw : s.hat.write = none)
    (hr : s.hat.reading = none) (h : s.runs mb tag 0x59 false c) (hon : s.hbOn = true) (hf : s.hat.fault = false)
    (hp : s.hat.present = [u]) (hm : s.hat.multi = false) (hd : storeOf store store.length = some d)
    (hlen : ceilDiv 32 (s.writeUnit .tag d) ≤ answers.length) (ha : ∀ a ∈ answers, a = .ok) :
    exec (.idLockdir mb tag store answers) s =
      .next ((((s.countStore (some d)).each (List.range (ceilDiv 32 (s.writeUnit .tag d))) fun s i =>
        s.tagSend u 0x22 i).idOp 0x00 false 0 (some d.act)).finish mb.val c 0 0 0) := by
  have hu : (s.countStore (some d)).mediumIdent .tag = u := by simp [State.mediumIdent, hp]
  change execIdLockdir mb tag store answers s = _
  simp [execIdLockdir, hw, hr, State.runCmd_runs h, State.mediumBad_oneTag hon hf hp hm, hd, takeWhile_ok ha, hlen,
    State.each_tagSend_present _ _ hu, idDone]

theorem exec_idRead_numbered (h : s.runs mb tag 0x5A true c) (hop : opMedium (c.opw 0) = .head slot)
    (hst : s.rd .HT_STATE slot.val = 1) :
    exec (.idRead mb tag (.head slot) store) s =
      .next (((s.countStore (storeOf store store.length)).post (mb.val / 8) (.write (c.opw 1) store)).finish mb.val c 0 0
        store.length) := by
  change execIdRead mb tag (.head slot) store s = _
  simp [execIdRead, State.runCmd_runs h, hop, State.mediumBad_numbered hst]

end

/-! ### The steps of a write (R127, R131) -/

section
variable {s : State} {w : IdWriteSt} (hw : s.hat.write = some w)
include hw

section
variable (ha : s.hat.awaiting = false)
include ha

theorem exec_idWriteBlockDone_lastWrite {a : Nat} {d : List Byte} (store : List Byte) (htodo : w.todo = [(a, d)])
    (hstep : w.step ≤ 3) : exec (.idWriteBlockDone w.medium .ok store) s = .next (s.idStep w (w.step + 1)) := by
  have h4 : w.step ≠ 4 := by omega
  have h6 : w.step ≠ 6 := by omega
  change execIdWriteBlockDone w.medium .ok store s = _
  simp [execIdWriteBlockDone, hw, ha, h4, h6, htodo, done]

theorem exec_idWriteBlockDone_committed {store : List Byte} (hstep : w.step = 6) (hback : w.matches store = true)
    (hc : w.collapsed = false) : exec (.idWriteBlockDone w.medium .ok store) s = .next (s.idEnd w 0x00 true) := by
  change execIdWriteBlockDone w.medium .ok store s = _
  simp [execIdWriteBlockDone, hw, ha, hstep, hback, hc, done, idDone]

/-- Up to step 5 the new record is not valid (Table ID-6). -/
theorem exec_idWriteBlockDone_writeProtect (store : List Byte) (hstep : w.step ≤ 5) :
    exec (.idWriteBlockDone w.medium .writeProtect store) s = .next (s.idEnd w 0x07 false) := by
  have hnew : w.newValid = false := by simp [IdWriteSt.newValid]; omega
  change execIdWriteBlockDone w.medium .writeProtect store s = _
  simp [execIdWriteBlockDone, hw, ha, hnew, done, idAnswerResult, idWriteProtect]

/-! ### The loss of the medium (R129) -/

theorem exec_idWriteCollapse_tag (hm : w.medium = .tag) (hdead : w.dead = true) (hgone : w.ident ∉ s.hat.present) :
    exec (.idWriteCollapse .tag) s = .next ((s.idCount 4).onHat fun h =>
      { h with write := some { w with collapsed := true }, awaiting := true, since := s.raw }) := by
  have hcol : s.collapsed w = true := by simp [State.collapsed, hm, hdead, hgone]
  change execIdWriteCollapse .tag s = _
  simp [execIdWriteCollapse, hw, ha, hm, hcol, done, State.idCount]

theorem exec_idWriteCollapse_head {slot : Fin 256} (hm : w.medium = .head slot)
    (hlost : w.dead = true ∨ s.rd .HT_STATE slot.val = 0 ∨ s.rd .HT_STATE slot.val = 3) :
    exec (.idWriteCollapse (.head slot)) s = .next (s.onHat fun h =>
      { h with write := some { w with collapsed := true }, awaiting := true, since := s.raw }) := by
  have hcol : s.collapsed w = true := by simpa [State.collapsed, hm, or_assoc] using hlost
  change execIdWriteCollapse (.head slot) s = _
  simp [execIdWriteCollapse, hw, ha, hm, hcol, done, Medium.head_beq_tag]

end

/-! ### The return of the medium (R130) -/

section
variable (ha : s.hat.awaiting = true)
include ha

theorem exec_idWriteResume_other (ho : s.resumeOver = false) {ident : DWord} (store : List Byte) (hid : ident.toNat ≠ w.ident) :
    exec (.idWriteResume w.medium ident store) s = .next (s.idEnd w 0x03 w.newValid) := by
  change execIdWriteResume w.medium ident store s = _
  simp [execIdWriteResume, hw, ha, ho, hid, done, idTagChanged]

/-- The same medium back in time: the write has ended where the new record is valid, else it restarts while it may. -/
theorem exec_idWriteResume_same (ho : s.resumeOver = false) {ident : DWord} (store : List Byte) (hid : ident.toNat = w.ident) :
    let u := s.countStore (storeOf store store.length)
    exec (.idWriteResume w.medium ident store) s = .next (
      if (slotAt store w.base w.size).any (fun x => x.seq == w.seq) = true then u.idEnd w 0x01 true
      else if 2 ≤ w.restarts then u.idEnd w 0x02 false
      else (u.onHat fun h => { h with awaiting := false }).idStep { w with restarts := w.restarts + 1 } 1) := by
  change execIdWriteResume w.medium ident store s = _
  cases hslot : slotAt store w.base w.size <;>
    simp [execIdWriteResume, hw, ha, ho, hid, hslot, done, idDoneAfterResume, idAborted, apply_ite Host.Outcome.next]

theorem exec_idWriteResumeTimeout (ho : s.resumeOver = true) :
    exec (.idWriteResumeTimeout w.medium) s = .next (s.idEnd w 0x02 w.newValid) := by
  change execIdWriteResumeTimeout w.medium s = _
  simp [execIdWriteResumeTimeout, hw, ha, ho, done, idAborted]

end

end

/-- Settles O20: the commands by whether their medium is there, and an event of the write in progress by the case that the write
is in. -/
theorem identityWrites : Obligations.IdentityWrites := by
  unfold Obligations.IdentityWrites
  refine ⟨fun s mb tag c slot payload store l hw hr => ⟨exec_idWrite_empty hw, fun x => exec_idWrite_numbered hw,
    exec_idLockdir_noTag hw hr, fun u d answers => exec_idLockdir_locked hw hr, exec_idRead_numbered⟩, ?_⟩
  rintro s w m hw rfl
  refine ⟨fun ha => ⟨fun a d => exec_idWriteBlockDone_lastWrite hw ha, fun store => exec_idWriteBlockDone_committed hw ha,
    exec_idWriteBlockDone_writeProtect hw ha, fun hm => hm ▸ exec_idWriteCollapse_tag hw ha hm,
    fun slot hm => hm ▸ exec_idWriteCollapse_head hw ha hm⟩, fun ha => ⟨fun ho ident => exec_idWriteResume_other hw ha ho,
    fun ho ident store hid => ?_, exec_idWriteResumeTimeout hw ha⟩⟩
  have hend := exec_idWriteResume_same hw ha ho store hid
  exact ⟨fun hnew => hend.trans (congrArg Host.Outcome.next (if_pos hnew)), fun hold =>
    ⟨fun hfew => hend.trans (congrArg Host.Outcome.next ((if_neg (Bool.eq_false_iff.1 hold)).trans (if_neg (Nat.not_le.2 hfew)))),
    fun hmany => hend.trans (congrArg Host.Outcome.next ((if_neg (Bool.eq_false_iff.1 hold)).trans (if_pos hmany)))⟩⟩

end Sys2Proof.Machine
end

section
/-!
PROOFS of the statement of the Hatband reader (O19) of `spec/04_module_identity.md` in this row.
-/
namespace Sys2Proof.Machine

/-! ### The Kerb hub changes nothing of the reader

The reader tells the Kerb hub of a mask and of its withdrawal (R133, R134); the hub's evaluation leaves the reader as it is. -/

section
variable (s : State)

theorem State.post_hat (f : Nat) (p : HostPost) : (s.post f p).hat = s.hat := by
  unfold State.post
  split
  · rfl
  · split <;> rfl

theorem State.irq_hat (f v : Nat) : (s.irq f v).hat = s.hat := by
  unfold State.irq
  dsimp only
  split
  · rfl
  · split
    · rfl
    · exact s.post_hat ..

theorem State.sendStopState_hat : s.sendStopState.hat = s.hat := by
  unfold State.sendStopState
  split
  · split
    · rfl
    · simp only [State.cwEmit, State.cwPut]
      split
      · rfl
      · split <;> rfl
  · rfl

theorem State.refreshLoss_hat : s.refreshLoss.hat = s.hat := by
  refine (State.each_hat _ (fun u z => ?_) _).trans (State.each_hat _ (fun u k => u.onKerb_hat _) _)
  dsimp only
  split <;> rfl

theorem State.aggRefresh_hat : s.aggRefresh.hat = s.hat := by
  unfold State.aggRefresh
  split
  · rfl
  · exact State.each_hat _ (fun u d => u.wr_hat ..) _

theorem State.setCause_hat (c : Nat) : (s.setCause c).hat = s.hat := by
  unfold State.setCause
  split
  · rfl
  · exact State.irq_hat ..

theorem State.combine_hat : s.combine.hat = s.hat :=
  (State.when_hat _ (fun u => u.sendStopState_hat) _).trans
    ((State.when_hat _ (fun u => u.emit_hat _) _).trans (State.setCause_hat ..))

@[simp] theorem State.kerbUpdate_hat : s.kerbUpdate.hat = s.hat :=
  (State.combine_hat _).trans ((State.aggRefresh_hat _).trans s.refreshLoss_hat)

@[simp] theorem State.kerbUpdate_mem : s.kerbUpdate.mem = s.mem := State.mem_of_linkSide s.kerbUpdate_linkSide

theorem State.rd_kerbUpdate {r : Reg} (hr : r.reported = false) (i : Nat) : s.kerbUpdate.rd r i = s.rd r i :=
  State.rd_of_linkSide s.kerbUpdate_linkSide hr i

end

/-! ### The tool mask (R133, R134) -/

/-- A register that shows the mask. -/
@[simp] def Reg.showsMask (r : Reg) : Bool := List.contains [.HB_STAT_MASK_LIVE, .HB_TOOL_CLASS, .HB_TOOL_VARIANT] r

section
variable (s : State)

@[simp] theorem State.rd_onKerb (f : KerbSt → KerbSt) (r : Reg) (i : Nat) : (s.onKerb f).rd r i = s.rd r i :=
  State.rd_congr rfl r i

@[simp] theorem State.maskWithdraw_hat : s.maskWithdraw.hat = { s.hat with boxes := [], tool := none } := State.kerbUpdate_hat _

@[simp] theorem State.maskWithdraw_mem : s.maskWithdraw.mem = s.mem := State.kerbUpdate_mem _

@[simp] theorem State.maskWithdraw_live : s.maskWithdraw.rd .HB_STAT_MASK_LIVE = 0 := by
  refine (State.rd_kerbUpdate _ rfl _).trans (Eq.trans ?_ (s.rd_wr_same .HB_STAT_MASK_LIVE 0 0))
  simp [State.rd_wr_other, State.put]

theorem State.rd_maskWithdraw {r : Reg} (hr : r.reported = false) (hm : r.showsMask = false) (i : Nat) :
    s.maskWithdraw.rd r i = s.rd r i := by
  simp only [Reg.showsMask, List.contains_cons, List.contains_nil, Bool.or_eq_false_iff, beq_eq_false_iff_ne] at hm
  obtain ⟨hl, hc, hv, -⟩ := hm
  refine (State.rd_kerbUpdate _ hr _).trans ?_
  simp [State.rd_wr_other, State.put, hl, hc, hv]

/-- What the allow list says depends on the armed configuration alone. -/
theorem State.toolListed_congr {s t : State} (ha : t.rd .KRB_STAT_ARMED = s.rd .KRB_STAT_ARMED)
    (hc : ∀ i, t.rd .KRB_TOOL_CLASS i = s.rd .KRB_TOOL_CLASS i) (hv : ∀ i, t.rd .KRB_TOOL_VARIANT i = s.rd .KRB_TOOL_VARIANT i)
    (cls var : Nat) : t.toolListed cls var = s.toolListed cls var := by
  simp only [State.toolListed, State.armed, State.flag, ha, hc, hv]

end

/-! ### The reader's state (Table ID-8) -/

section
variable (s : State)

@[simp] theorem State.hbState_hat : s.hbState.hat = s.hat := rfl
@[simp] theorem State.hbState_mem : s.hbState.mem = s.mem := rfl
@[simp] theorem State.hbState_tx : s.hbState.tx = s.tx := rfl

theorem State.rd_hbState {r : Reg} (h : r ≠ .HB_STAT_STATE) (i : Nat) : s.hbState.rd r i = s.rd r i := s.rd_wr_other _ _ _ h

/-- The reader is on where its domain and its EN are. -/
theorem State.hbOn_congr {s t : State} (hd : t.rd .PM_STATUS_DOM_ON = s.rd .PM_STATUS_DOM_ON)
    (he : t.rd .HB_CFG_EN = s.rd .HB_CFG_EN) : t.hbOn = s.hbOn := by
  simp only [State.hbOn, State.domOn, State.flag, hd, he]

variable {s : State}

theorem State.hbState_fault (hf : s.hat.fault = true) : s.hbState.rd .HB_STAT_STATE = 6 := by
  rw [State.hbState, State.rd_wr_same, if_pos hf]
  rfl

section
variable (hf : s.hat.fault = false) (hon : s.hbOn = true)
include hf hon

theorem State.hbState_multi (hm : s.hat.multi = true) : s.hbState.rd .HB_STAT_STATE = 4 := by
  simp only [State.hbState, State.rd_wr_same, hf, hon, hm]
  rfl

theorem State.hbState_reading (hm : s.hat.multi = false) (hr : s.hat.reading.isSome = true) :
    s.hbState.rd .HB_STAT_STATE = 2 := by
  simp only [State.hbState, State.rd_wr_same, hf, hon, hm, hr]
  rfl

theorem State.hbState_polling (hm : s.hat.multi = false) (hr : s.hat.reading = none) (hw : s.hat.write = none)
    (hp : s.hat.present = []) : s.hbState.rd .HB_STAT_STATE = 1 := by
  simp only [State.hbState, State.rd_wr_same, hf, hon, hm, hr, hw, hp]
  rfl

end

end

/-! ### The amplitude of the carrier (R123) -/

section
variable {s : State} {amp : Nat}

theorem State.antCheck_within (hlo : 0x200 ≤ amp) (hhi : amp ≤ 0xE00) : s.antCheck amp = s.wr .HB_ANT 0 amp :=
  if_pos ⟨hlo, hhi⟩

theorem State.antCheck_outside (h : amp < 0x200 ∨ 0xE00 < amp) :
    s.antCheck amp = (((s.wr .HB_ANT 0 amp).put .HB_STAT_ANT_FAULT 0 true).onHat fun h =>
      { h.forget with fault := true }).maskWithdraw := if_neg (by omega)

theorem State.antCheck_outside_hat (h : amp < 0x200 ∨ 0xE00 < amp) :
    (s.antCheck amp).hat = { s.hat.forget with fault := true, boxes := [], tool := none } := by
  rw [State.antCheck_outside h, State.maskWithdraw_hat]
  rfl

/-- An amplitude out of range puts the reader in FAULT, with no tag present and no mask. -/
theorem State.antCheck_fault (h : amp < 0x200 ∨ 0xE00 < amp) :
    (s.antCheck amp).hbState.rd .HB_STAT_STATE = 6 ∧ (s.antCheck amp).hbState.rd .HB_STAT_ANT_FAULT = 1 ∧
      (s.antCheck amp).hbState.rd .HB_STAT_MASK_LIVE = 0 ∧ (s.antCheck amp).hbState.hat.present = [] ∧
      (s.antCheck amp).hbState.mem = s.mem := by
  have hhat := s.antCheck_outside_hat h
  refine ⟨State.hbState_fault (by rw [hhat]), ?_, ?_, by rw [State.hbState_hat, hhat]; rfl, ?_⟩
  · rw [State.rd_hbState _ (by simp), State.antCheck_outside h, State.rd_maskWithdraw _ rfl rfl, State.rd_onHat]
    exact State.rd_wr_same _ .HB_STAT_ANT_FAULT 0 1
  · rw [State.rd_hbState _ (by simp), State.antCheck_outside h, State.maskWithdraw_live]
  · rw [State.hbState_mem, State.antCheck_outside h, State.maskWithdraw_mem]
    rfl

end

/-! ### HB_CFG (R123, R124) -/

/-- The fields of the word of HB_CFG. -/
def hbCfgHits : List Hit :=
  [⟨.HB_CFG_EN, 0, 0⟩, ⟨.HB_CFG_MOD, 0, 1⟩, ⟨.HB_CFG_OPT, 0, 2⟩, ⟨.HB_CFG_SEL, 0, 3⟩, ⟨.HB_CFG_POLL, 0, 8⟩,
    ⟨.HB_CFG_TXLVL, 0, 16⟩, ⟨.HB_CFG_RESUME, 0, 24⟩]

theorem hitsAt_hbCfg : hitsAt (Reg.HB_CFG_EN.offset 0) = hbCfgHits := by
  decide +kernel

theorem hbCfgHits_rw : ∀ k ∈ hbCfgHits, k.reg.spec.acc = .rw ∧ k.reg ≠ .CH_CFG_SRC := by
  decide +kernel

theorem hbCfg_rsv : Reg.HB_CFG_POLL.spec.rsv = .ranges [(0, 4)] ∧ Reg.HB_CFG_RESUME.spec.rsv = .ranges [(0, 0)] ∧
    ∀ r ∈ [Reg.HB_CFG_EN, .HB_CFG_MOD, .HB_CFG_OPT, .HB_CFG_SEL, .HB_CFG_TXLVL], r.spec.rsv = .ranges [] := by
  decide +kernel

/-- Of the encodings of HB_CFG's fields, POLL below 5 and RESUME 0 alone are reserved. -/
theorem hbCfgHits_legal {w : Nat} (hp : 5 ≤ bits w 8 8) (hr : bits w 24 4 ≠ 0) :
    ∀ k ∈ hbCfgHits, k.reg.reserved k.idx (k.value w) = false := by
  obtain ⟨hpoll, hres, hfree⟩ := hbCfg_rsv
  simp only [List.forall_mem_cons, List.not_mem_nil, false_imp_iff, implies_true, and_true] at hfree
  obtain ⟨hen, hmod, hopt, hsel, htx⟩ := hfree
  have hpv : Hit.value ⟨.HB_CFG_POLL, 0, 8⟩ w = bits w 8 8 := rfl
  have hrv : Hit.value ⟨.HB_CFG_RESUME, 0, 24⟩ w = bits w 24 4 := rfl
  simp [hbCfgHits, Reg.reserved, hen, hmod, hopt, hsel, htx, hpoll, hres, hpv, hrv, hr]
  omega

/-- The fields of HB_CFG beside EN take the values that a word carries. -/
def State.hbSettings (s : State) (w : Nat) : State :=
  (((((s.wr .HB_CFG_MOD 0 (bits w 1 1)).wr .HB_CFG_OPT 0 (bits w 2 1)).wr .HB_CFG_SEL 0 (bits w 3 1)).wr .HB_CFG_POLL 0
    (bits w 8 8)).wr .HB_CFG_TXLVL 0 (bits w 16 3)).wr .HB_CFG_RESUME 0 (bits w 24 4)

section
variable {s : State} {c : Fin 16}

/-- The firmware's word with no reserved encoding is taken; EN has a row of its own. -/
theorem State.applyWord_hbCfg (s : State) (c : Fin 16) {w : Nat} (hp : 5 ≤ bits w 8 8) (hr : bits w 24 4 ≠ 0) :
    s.applyWord (.fw c) (Reg.HB_CFG_EN.offset 0) w = (true, s.hbSettings w) := by
  rw [s.applyWord_fw_rw c hitsAt_hbCfg (fun k hk => (hbCfgHits_rw k hk).1) (hbCfgHits_legal hp hr) rfl
    fun k hk => (hbCfgHits_rw k hk).2]
  have hrows : (hbCfgHits.filter fun k => !k.reg.spec.ownRow) = hbCfgHits.tail := by decide +kernel
  rw [← hbCfgHits, hrows]
  simp only [hbCfgHits, List.tail_cons, State.each, List.foldl_cons, List.foldl_nil]
  iterate 6 rw [State.writeField_rw _ rfl rfl]
  rfl

/-- The reader with a word of HB_CFG taken whole and the carrier on: it knows of no tag. -/
def State.hbStart (s : State) (w : Nat) : State :=
  (((s.hbSettings w).put .HB_CFG_EN 0 true).onHat fun h => { h.forget with fault := false }).emit (.carrier true)

theorem State.hbStart_en (w : Nat) : (s.hbStart w).rd .HB_CFG_EN = 1 := State.rd_wr_same _ .HB_CFG_EN 0 1

theorem State.hbStart_dom (w : Nat) : (s.hbStart w).rd .PM_STATUS_DOM_ON = s.rd .PM_STATUS_DOM_ON := by
  simp [State.hbStart, State.hbSettings, State.put, State.rd_wr_other]

theorem exec_hbEnable_fw {w : Word} (amp : BitVec 12) (hl : s.letIn (.fw c) .HB_CFG_EN 0 = .ok s) (hp : 5 ≤ bits w.toNat 8 8)
    (hr : bits w.toNat 24 4 ≠ 0) (hen : s.flag .HB_CFG_EN = false) :
    exec (.hbEnable (.fw c) w amp) s = .next (((s.hbStart w.toNat).antCheck amp.toNat).hbState) := by
  have hoff : (s.hbSettings w.toNat).flag .HB_CFG_EN = false := by
    rw [← hen]
    simp only [State.flag, State.hbSettings]
    simp [State.rd_wr_other]
  change execHbEnable (.fw c) w amp s = _
  simp [execHbEnable, hl, s.applyWord_hbCfg c hp hr, hoff, done, State.hbStart]

/-- A reader that is enabled with its carrier in range polls. -/
theorem State.hbStart_polls {w : Nat} {amp : BitVec 12} (hd : s.domOn pdAux = true) (hw : s.hat.write = none)
    (hlo : 0x200 ≤ amp.toNat) (hhi : amp.toNat ≤ 0xE00) :
    let t := ((s.hbStart w).antCheck amp.toNat).hbState
    t.flag .HB_CFG_EN = true ∧ t.rd .HB_STAT_STATE = 1 ∧ t.rd .HB_ANT = amp.toNat ∧ t.hat.present = [] ∧
      t.hat.reading = none ∧ t.tx = .carrier true :: s.tx ∧ t.mem = s.mem := by
  have hen (r : Reg) (h : r ≠ .HB_ANT) : ((s.hbStart w).wr .HB_ANT 0 amp.toNat).rd r = (s.hbStart w).rd r :=
    State.rd_wr_other _ _ _ _ h
  have hon : ((s.hbStart w).wr .HB_ANT 0 amp.toNat).hbOn = true := by
    simp only [State.domOn] at hd
    simp [State.hbOn, State.domOn, State.flag, hen, State.hbStart_en, State.hbStart_dom, hd]
  have hamp : amp.toNat % 2 ^ Reg.HB_ANT.spec.width = amp.toNat := Nat.mod_eq_of_lt amp.isLt
  simp only [State.antCheck_within hlo hhi]
  refine ⟨State.flag_eq_true ?_, State.hbState_polling rfl hon rfl rfl hw rfl, ?_, rfl, rfl, rfl, rfl⟩
  · rw [State.rd_hbState _ (by simp), hen _ (by simp), State.hbStart_en]
  · rw [State.rd_hbState _ (by simp), State.rd_wr_same, hamp]

end

/-! ### What a poll makes of the tags it has seen (R124, R125) -/

/-- Two UIDs or more in one poll: MULTI, and nothing is being read. -/
theorem HatSt.settle_poll_multi (h : HatSt) {uids : List Nat} (was : List Nat) (hu : 2 ≤ uids.length) :
    ((h.poll uids).settle was).multi = true ∧ ((h.poll uids).settle was).reading = none ∧
      ((h.poll uids).settle was).fault = h.fault := by
  have hm : (h.poll uids).multi = true := by simp [HatSt.poll, hu]
  rw [HatSt.settle, if_pos hm]
  exact ⟨hm, rfl, rfl⟩

/-- A UID seen for the first time is not present yet. -/
theorem HatSt.settle_poll_first (u : Nat) : (({} : HatSt).poll [u]).settle [] = { seen := [(u, 1)] } := by
  have hseen : Table.get 0 [(u, 1)] u = 1 := if_pos rfl
  simp [HatSt.settle, HatSt.poll, hseen, Table.set, Table.erase, Table.insert]

/-- Seen a second time it is. -/
theorem HatSt.settle_poll_second (u : Nat) :
    (({ seen := [(u, 1)] } : HatSt).poll [u]).settle [] = { seen := [(u, 2)], present := [u] } := by
  simp [HatSt.settle, HatSt.poll, Table.set, Table.erase, Table.insert, Table.get_cons]

/-! ### HB_POLL -/

/-- An Inventory with the amplitude in range: its command, and what it has met. -/
def State.inventory (s : State) (air : PollAir) : State :=
  (((s.wr .HB_ANT 0 air.amplitude.toNat).emit (.tagCommand 0 0x01 16)).idCount 2 air.collisions.val).idCount 1 air.badCrcs.val

/-- The Inventory has left the reader `h` of its tags; MULTI is recorded (R125). -/
def State.polled (s : State) (air : PollAir) (h : HatSt) : State :=
  ((s.inventory air).onHat fun _ => h).when h.multi fun s => s.put .HB_STAT_MULTI 0 true

/-- HB_UID shows the tag that is present alone. -/
def State.showUid (s : State) : State :=
  match s.hat.present with
  | [u] => s.wr64 .HB_UID_LO .HB_UID_HI 0 u
  | [] => s.wr64 .HB_UID_LO .HB_UID_HI 0 0
  | _ => s

section
variable (s : State)

theorem State.rd_inventory {r : Reg} (ha : r ≠ .HB_ANT) (hc : r ≠ .ID_CNT) (air : PollAir) (i : Nat) :
    (s.inventory air).rd r i = s.rd r i := by
  simp [State.inventory, State.idCount, State.count, State.rd_wr_other, ha, hc]

@[simp] theorem State.inventory_tx (air : PollAir) : (s.inventory air).tx = .tagCommand 0 0x01 16 :: s.tx := rfl

theorem State.polled_one {h : HatSt} (hm : h.multi = false) (air : PollAir) :
    s.polled air h = (s.inventory air).onHat fun _ => h := by
  rw [State.polled, hm]
  rfl

theorem State.polled_many {h : HatSt} (hm : h.multi = true) (air : PollAir) :
    s.polled air h = ((s.inventory air).onHat fun _ => h).put .HB_STAT_MULTI 0 true := by
  rw [State.polled, hm]
  rfl

theorem State.polled_hat (air : PollAir) (h : HatSt) : (s.polled air h).hat = h :=
  State.when_hat _ (fun u => u.put_hat ..) _

theorem State.rd_polled {r : Reg} (ha : r ≠ .HB_ANT) (hc : r ≠ .ID_CNT) (hm : r ≠ .HB_STAT_MULTI) (air : PollAir) (h : HatSt)
    (i : Nat) : (s.polled air h).rd r i = s.rd r i := by
  refine Eq.trans ?_ (s.rd_inventory ha hc air i)
  cases hmulti : h.multi
  · rw [s.polled_one hmulti, State.rd_onHat]
  · rw [s.polled_many hmulti]
    exact State.rd_wr_other _ _ _ _ hm

theorem State.polled_hbOn (air : PollAir) (h : HatSt) : (s.polled air h).hbOn = s.hbOn :=
  State.hbOn_congr (s.rd_polled (by simp) (by simp) (by simp) air h 0) (s.rd_polled (by simp) (by simp) (by simp) air h 0)

theorem State.rd_wr64 {r lo hi : Reg} (hl : r ≠ lo) (hh : r ≠ hi) (i v j : Nat) : (s.wr64 lo hi i v).rd r j = s.rd r j :=
  (State.rd_wr_other _ _ _ _ hh).trans (State.rd_wr_other _ _ _ _ hl)

/-- HB_UID holds a UID whole. -/
theorem State.rd64_hbUid (u : DWord) : (s.wr64 .HB_UID_LO .HB_UID_HI 0 u.toNat).rd64 .HB_UID_LO .HB_UID_HI = u.toNat := by
  have hlo : (s.wr64 .HB_UID_LO .HB_UID_HI 0 u.toNat).rd .HB_UID_LO = u.toNat % 2 ^ 32 :=
    (State.rd_wr_other _ _ _ _ (by simp)).trans (s.rd_wr_same .HB_UID_LO 0 u.toNat)
  have hhi : (s.wr64 .HB_UID_LO .HB_UID_HI 0 u.toNat).rd .HB_UID_HI = u.toNat / 2 ^ 32 % 2 ^ 32 :=
    State.rd_wr_same _ .HB_UID_HI 0 _
  have hu := u.isLt
  rw [State.rd64, hlo, hhi]
  omega

@[simp] theorem State.showUid_hat : s.showUid.hat = s.hat := by
  unfold State.showUid
  split <;> rfl

theorem State.rd_showUid {r : Reg} (hl : r ≠ .HB_UID_LO) (hh : r ≠ .HB_UID_HI) (i : Nat) : s.showUid.rd r i = s.rd r i := by
  unfold State.showUid
  split
  · exact s.rd_wr64 hl hh ..
  · exact s.rd_wr64 hl hh ..
  · rfl

theorem State.showUid_alone {s : State} {u : Nat} (h : s.hat.present = [u]) : s.showUid = s.wr64 .HB_UID_LO .HB_UID_HI 0 u := by
  unfold State.showUid
  rw [h]

/-- The reading of a tag that has come alone into the field begins with Get System Information (R124). -/
theorem State.tagReadStart_new {s : State} {u : Nat} (hp : s.hat.present = [u]) (hh : s.hat.handled = [])
    (hm : s.hat.multi = false) (hr : s.hat.reading = none) (hsel : s.flag .HB_CFG_SEL = false) :
    s.tagReadStart =
      (s.onHat fun h => { h with reading := some u, retried := none, handled := u :: h.handled }).emit (.tagCommand u 0x2B 0) := by
  have hsel' (f : HatSt → HatSt) : (s.onHat f).flag .HB_CFG_SEL = false := hsel
  simp [State.tagReadStart, hp, hh, hm, hr, State.tagSend, hsel']

/-- A tag that has become present, alone and for the first time, is shown and read. -/
theorem State.newTag_shown {s : State} {u : DWord} (hs : s.hat = { seen := [(u.toNat, 2)], present := [u.toNat] })
    (hon : s.hbOn = true) (hsel : s.flag .HB_CFG_SEL = false) :
    let t := s.showUid.tagReadStart.hbState
    t.hat.present = [u.toNat] ∧ t.hat.reading = some u.toNat ∧ t.rd64 .HB_UID_LO .HB_UID_HI = u.toNat ∧
      t.rd .HB_STAT_STATE = 2 ∧ t.tx = .tagCommand u.toNat 0x2B 0 :: s.tx := by
  have hsel' : s.showUid.flag .HB_CFG_SEL = false := by rw [← hsel, State.flag, s.rd_showUid (by simp) (by simp), State.flag]
  have hstart := State.tagReadStart_new (s := s.showUid) (u := u.toNat) (by rw [State.showUid_hat, hs])
    (by rw [State.showUid_hat, hs]) (by rw [State.showUid_hat, hs]) (by rw [State.showUid_hat, hs]) hsel'
  have hhat : s.showUid.tagReadStart.hat = { s.hat with reading := some u.toNat, retried := none, handled := [u.toNat] } := by
    rw [hstart, State.emit_hat, State.onHat_hat, State.showUid_hat, hs]
  have hrd (r : Reg) : s.showUid.tagReadStart.rd r = s.showUid.rd r := by rw [hstart, State.rd_emit, State.rd_onHat]
  have hshow := State.showUid_alone (s := s) (u := u.toNat) (by rw [hs])
  have hon' : s.showUid.tagReadStart.hbOn = true := hon ▸ State.hbOn_congr
    ((hrd _).trans (s.rd_showUid (by simp) (by simp) 0)) ((hrd _).trans (s.rd_showUid (by simp) (by simp) 0))
  refine ⟨by rw [State.hbState_hat, hhat, hs], by rw [State.hbState_hat, hhat], ?_,
    State.hbState_reading (by rw [hhat, hs]) hon' (by rw [hhat, hs]) (by rw [hhat]; rfl), ?_⟩
  · rw [State.rd64, State.rd_hbState _ (by simp), State.rd_hbState _ (by simp), hrd, hrd, hshow]
    exact s.rd64_hbUid u
  · rw [State.hbState_tx, hstart, hshow]
    rfl

/-- Nothing is read in MULTI. -/
theorem State.tagReadStart_multi (h : s.hat.multi = true) : s.tagReadStart = s := by
  unfold State.tagReadStart
  split
  · rw [h]; rfl
  · rfl

end

/-! #### Where a mask that is live goes -/

section
variable (s : State)

/-- With the mask that was live withdrawn none is live. -/
theorem State.maskGone_live {s : State} {b : Bool} (hb : s.flag .HB_STAT_MASK_LIVE = b) :
    (s.when b State.maskWithdraw).rd .HB_STAT_MASK_LIVE = 0 := by
  cases b
  · simpa [State.flag] using hb
  · rw [State.when_true, State.maskWithdraw_live]

theorem State.maskGone_hat (b : Bool) : (s.when b State.maskWithdraw).hat.multi = s.hat.multi ∧
    (s.when b State.maskWithdraw).hat.reading = s.hat.reading ∧ (s.when b State.maskWithdraw).hat.fault = s.hat.fault := by
  cases b
  · exact ⟨rfl, rfl, rfl⟩
  · rw [State.when_true, State.maskWithdraw_hat]
    exact ⟨rfl, rfl, rfl⟩

theorem State.rd_maskGone {r : Reg} (hr : r.reported = false) (hm : r.showsMask = false) (b : Bool) (i : Nat) :
    (s.when b State.maskWithdraw).rd r i = s.rd r i := by
  cases b
  · rfl
  · rw [State.when_true, s.rd_maskWithdraw hr hm]

end

section
variable {s : State} {uids : List DWord} {air : PollAir} (hon : s.hbOn = true) (hf : s.hat.fault = false)
include hon

theorem exec_hbPoll_outside (h : air.amplitude.toNat < 0x200 ∨ 0xE00 < air.amplitude.toNat) :
    exec (.hbPoll uids air) s = .next ((s.antCheck air.amplitude.toNat).hbState) := by
  have hfault : (s.antCheck air.amplitude.toNat).hat.fault = true := by rw [State.antCheck_outside_hat h]
  change execHbPoll uids air s = _
  simp [execHbPoll, hon, hfault, done]

variable (hlo : 0x200 ≤ air.amplitude.toNat) (hhi : air.amplitude.toNat ≤ 0xE00)
include hf hlo hhi

/-- The tags are counted and MULTI is recorded; the mask goes where the tag is not the one it was; HB_UID follows, and the reading
of a new tag starts. -/
theorem exec_hbPoll_within {h : HatSt} (hh : (s.hat.poll (uids.map BitVec.toNat).dedup).settle s.hat.present = h) :
    exec (.hbPoll uids air) s = .next (((s.polled air h).when
      ((h.multi || h.present != s.hat.present) && s.flag .HB_STAT_MASK_LIVE) State.maskWithdraw).showUid.tagReadStart.hbState) := by
  have hlive : (s.polled air h).flag .HB_STAT_MASK_LIVE = s.flag .HB_STAT_MASK_LIVE := by
    simp only [State.flag, s.rd_polled (r := .HB_STAT_MASK_LIVE) (by simp) (by simp) (by simp)]
  have htags : (h.multi || h.present != s.hat.present) =
      ((s.polled air h).hat.multi || (s.polled air h).hat.present != s.hat.present) := by rw [s.polled_hat]
  rw [← hlive, htags]
  subst hh
  change execHbPoll uids air s = _
  rw [execHbPoll, hon, State.antCheck_within hlo hhi]
  exact (if_neg (by simp)).trans (if_neg (by simp [hf]))

theorem hbPoll_multi (hu : 2 ≤ (uids.map BitVec.toNat).dedup.length) :
    ∃ t, exec (.hbPoll uids air) s = .next t ∧ t.rd .HB_STAT_STATE = 4 ∧ t.rd .HB_STAT_MULTI = 1 ∧
      t.rd .HB_STAT_MASK_LIVE = 0 ∧ t.hat.reading = none := by
  obtain ⟨hm, hr, hfault⟩ := s.hat.settle_poll_multi s.hat.present hu
  refine ⟨_, exec_hbPoll_within hon hf hlo hhi rfl, ?_⟩
  generalize (s.hat.poll (uids.map BitVec.toNat).dedup).settle s.hat.present = h at hm hr hfault
  set live := s.flag .HB_STAT_MASK_LIVE with hlive
  simp only [hm, Bool.true_or, Bool.true_and]
  obtain ⟨hgm, hgr, hgf⟩ := (s.polled air h).maskGone_hat live
  rw [s.polled_hat] at hgm hgr hgf
  have hgone : ((s.polled air h).when live State.maskWithdraw).rd .HB_STAT_MASK_LIVE = 0 :=
    State.maskGone_live (by rw [hlive]; simp only [State.flag, s.rd_polled (r := .HB_STAT_MASK_LIVE) (by simp) (by simp) (by simp)])
  have hgon : ((s.polled air h).when live State.maskWithdraw).showUid.hbOn = true := by
    rw [← hon, ← s.polled_hbOn air h]
    refine State.hbOn_congr ?_ ?_ <;> rw [State.rd_showUid _ (by simp) (by simp), State.rd_maskGone _ rfl rfl]
  rw [State.tagReadStart_multi _ (by rw [State.showUid_hat, hgm, hm])]
  refine ⟨State.hbState_multi ?_ hgon ?_, ?_, ?_, ?_⟩
  · rw [State.showUid_hat, hgf, hfault, hf]
  · rw [State.showUid_hat, hgm, hm]
  · rw [State.rd_hbState _ (by simp), State.rd_showUid _ (by simp) (by simp), State.rd_maskGone _ rfl rfl, s.polled_many hm]
    exact State.rd_wr_same _ .HB_STAT_MULTI 0 1
  · rw [State.rd_hbState _ (by simp), State.rd_showUid _ (by simp) (by simp), hgone]
  · rw [State.hbState_hat, State.showUid_hat, hgr, hr]

/-- Without a mask that is live a poll that sees one tag withdraws none. -/
theorem exec_hbPoll_noMask {h : HatSt} (hh : (s.hat.poll (uids.map BitVec.toNat).dedup).settle s.hat.present = h)
    (hlive : s.rd .HB_STAT_MASK_LIVE = 0) :
    exec (.hbPoll uids air) s = .next ((s.polled air h).showUid.tagReadStart.hbState) := by
  have hout := exec_hbPoll_within hon hf hlo hhi hh
  rwa [State.flag_eq_false hlive, Bool.and_false, State.when_false] at hout

theorem hbPoll_first {u : DWord} (hu : uids = [u]) (hs : s.hat = {}) (hlive : s.rd .HB_STAT_MASK_LIVE = 0) :
    ∃ t, exec (.hbPoll uids air) s = .next t ∧ t.hat.present = [] ∧ t.hat.reading = none ∧ t.rd .HB_STAT_STATE = 1 ∧
      t.tx = .tagCommand 0 0x01 16 :: s.tx := by
  have hh : (s.hat.poll (uids.map BitVec.toNat).dedup).settle s.hat.present = { seen := [(u.toNat, 1)] } := by
    rw [hs, hu]
    exact HatSt.settle_poll_first u.toNat
  refine ⟨_, exec_hbPoll_noMask hon hf hlo hhi hh hlive, rfl, rfl, State.hbState_polling rfl ?_ rfl rfl rfl rfl, rfl⟩
  exact (State.hbOn_congr (State.rd_showUid _ (by simp) (by simp) 0) (State.rd_showUid _ (by simp) (by simp) 0)).trans
    ((s.polled_hbOn air _).trans hon)

theorem hbPoll_second {u : DWord} (hu : uids = [u]) (hs : s.hat = { seen := [(u.toNat, 1)] })
    (hlive : s.rd .HB_STAT_MASK_LIVE = 0) (hsel : s.flag .HB_CFG_SEL = false) :
    ∃ t, exec (.hbPoll uids air) s = .next t ∧ t.hat.present = [u.toNat] ∧ t.hat.reading = some u.toNat ∧
      t.rd64 .HB_UID_LO .HB_UID_HI = u.toNat ∧ t.rd .HB_STAT_STATE = 2 ∧
      t.tx = .tagCommand u.toNat 0x2B 0 :: .tagCommand 0 0x01 16 :: s.tx := by
  have hh : (s.hat.poll (uids.map BitVec.toNat).dedup).settle s.hat.present = { seen := [(u.toNat, 2)], present := [u.toNat] } := by
    rw [hs, hu]
    exact HatSt.settle_poll_second u.toNat
  have hhat := s.polled_hat air { seen := [(u.toNat, 2)], present := [u.toNat] }
  have hshown := State.newTag_shown hhat ((s.polled_hbOn air _).trans hon)
    (hsel ▸ congrArg (· != 0) (s.rd_polled (by simp) (by simp) (by simp) air _ 0))
  rw [s.polled_one rfl, State.onHat_tx, State.inventory_tx] at hshown
  exact ⟨_, exec_hbPoll_noMask hon hf hlo hhi hh hlive, hshown⟩

end

/-! ### The read of a tag (R124, R133) -/

/-- What commands to a tag leave alone: registers, memory and the reader. -/
def State.tagSide (s : State) : Table Nat × List Host.Cell × HatSt := (s.regs, s.mem, s.hat)

section
variable (s : State)

theorem State.tagSend_tagSide (uid code arg : Nat) : (s.tagSend uid code arg).tagSide = s.tagSide := by
  unfold State.tagSend State.when
  split <;> rfl

theorem State.tagReadRange_tagSide (uid blk base size : Nat) : (s.tagReadRange uid blk base size).tagSide = s.tagSide :=
  State.each_same State.tagSide _ (fun u _ => u.tagSend_tagSide ..) _ s

theorem State.tagReadCmds_tagSide (uid blk : Nat) (x : Option IdStore) : (s.tagReadCmds uid blk x).tagSide = s.tagSide := by
  cases x with
  | none => exact s.tagReadRange_tagSide ..
  | some d =>
    exact (State.tagReadRange_tagSide ..).trans ((State.tagReadRange_tagSide ..).trans (s.tagReadRange_tagSide ..))

@[simp] theorem State.countStore_mem (x : Option IdStore) : (s.countStore x).mem = s.mem := by
  have hw (t : State) (b : Bool) (k : Nat) : (t.when b fun u => u.idCount k).mem = t.mem := by cases b <;> rfl
  cases x with
  | none => rfl
  | some d => exact (hw _ _ _).trans (hw _ _ _)

/-- The store of a tag has been read in blocks of `blk` bytes. -/
def State.storeRead (uid blk : Nat) (x : Option IdStore) : State :=
  ((s.onHat fun h => { h with reading := none, retried := none, blk := blk }).tagReadCmds uid blk x).countStore x

theorem State.storeRead_hat (uid blk : Nat) (x : Option IdStore) :
    (s.storeRead uid blk x).hat = { s.hat with reading := none, retried := none, blk := blk } :=
  (State.countStore_hat ..).trans (congrArg (fun v => v.2.2) (State.tagReadCmds_tagSide ..))

theorem State.storeRead_mem (uid blk : Nat) (x : Option IdStore) : (s.storeRead uid blk x).mem = s.mem :=
  (State.countStore_mem ..).trans (congrArg (fun v => v.2.1) (State.tagReadCmds_tagSide ..))

theorem State.rd_storeRead {r : Reg} (h : r ≠ .ID_CNT) (uid blk : Nat) (x : Option IdStore) (i : Nat) :
    (s.storeRead uid blk x).rd r i = s.rd r i :=
  (State.rd_countStore _ h ..).trans (State.rd_congr (congrArg Prod.fst (State.tagReadCmds_tagSide ..)) r i)

theorem State.storeRead_toolListed (uid blk : Nat) (x : Option IdStore) (cls var : Nat) :
    (s.storeRead uid blk x).toolListed cls var = s.toolListed cls var :=
  State.toolListed_congr (s.rd_storeRead (by simp) uid blk x 0) (s.rd_storeRead (by simp) uid blk x)
    (s.rd_storeRead (by simp) uid blk x) cls var

/-! #### The end of an operation (Table ID-8) -/

theorem State.idOp_none_hat (result : Nat) (b : Bool) (n : Nat) : (s.idOp result b n none).hat = s.hat := rfl
theorem State.idOp_none_mem (result : Nat) (b : Bool) (n : Nat) : (s.idOp result b n none).mem = s.mem := rfl

theorem State.rd_idOp_none {r : Reg} (hr : r ≠ .ID_OP_RESULT) (ho : r ≠ .ID_OP_OUTCOME) (hn : r ≠ .ID_OP_RESTARTS) (result : Nat)
    (b : Bool) (n i : Nat) : (s.idOp result b n none).rd r i = s.rd r i :=
  (State.rd_wr_other _ _ _ _ hn).trans ((State.rd_wr_other _ _ _ _ ho).trans (s.rd_wr_other _ _ _ hr))

theorem State.idOp_none_result (result : Nat) (b : Bool) (n : Nat) :
    (s.idOp result b n none).rd .ID_OP_RESULT = result % 2 ^ 8 :=
  (State.rd_wr_other _ _ _ _ (by simp)).trans ((State.rd_wr_other _ _ _ _ (by simp)).trans (s.rd_wr_same .ID_OP_RESULT 0 result))

theorem State.idOp_none_oldKept (result n : Nat) : (s.idOp result false n none).rd .ID_OP_OUTCOME = 0 :=
  (State.rd_wr_other _ _ _ _ (by simp)).trans (State.rd_wr_same _ .ID_OP_OUTCOME 0 0)

end

/-! #### A command of the read without an answer -/

section
variable {s : State} {uid : DWord} (hon : s.hbOn = true) (hr : s.hat.reading = some uid.toNat)

theorem State.domOn_of_hbOn {s : State} (hon : s.hbOn = true) : s.domOn pdAux = true := (Bool.and_eq_true_iff.1 hon).1

include hon hr

theorem exec_hbTagNoResponse_again {code : Byte} {arg : Nat} (why : TagFail) (hn : s.hat.retried ≠ some (code.toNat, arg)) :
    exec (.hbTagNoResponse ⟨uid, code, arg, why⟩) s =
      .next ((s.onHat fun h => { h with retried := some (code.toNat, arg) }).tagSend uid.toNat code.toNat arg) := by
  change execHbTagNoResponse ⟨uid, code, arg, why⟩ s = _
  simp [execHbTagNoResponse, State.domOn_of_hbOn hon, hr, hn, done]

/-- The read has failed: it counts, and ends with a free result and no new record. -/
theorem exec_hbTagNoResponse_failed {code : Byte} {arg : Nat} (why : TagFail) (hn : s.hat.retried = some (code.toNat, arg)) :
    let u := ((s.onHat fun h => { h with reading := none, retried := none }).idCount (tagFailCounter why)).fresh 8
    exec (.hbTagNoResponse ⟨uid, code, arg, why⟩) s = .next ((u.2.idOp u.1 false 0 none).hbState) := by
  change execHbTagNoResponse ⟨uid, code, arg, why⟩ s = _
  simp [execHbTagNoResponse, State.domOn_of_hbOn hon, hr, hn, done]

theorem hbTagNoResponse_failed {code : Byte} {arg : Nat} (why : TagFail) (hn : s.hat.retried = some (code.toNat, arg)) :
    ∃ t, exec (.hbTagNoResponse ⟨uid, code, arg, why⟩) s = .next t ∧ t.hat.reading = none ∧ t.hat.retried = none ∧
      t.rd .ID_CNT (tagFailCounter why) = (s.count .ID_CNT (tagFailCounter why)).rd .ID_CNT (tagFailCounter why) ∧
      t.rd .ID_OP_OUTCOME = 0 ∧ t.mem = s.mem := by
  refine ⟨_, exec_hbTagNoResponse_failed hon hr why hn, rfl, rfl, ?_, ?_, rfl⟩
  · rw [State.rd_hbState _ (by simp), State.rd_idOp_none _ (by simp) (by simp) (by simp), State.rd_congr (State.fresh_regs _ _)]
    exact State.rd_congr rfl _ _
  · rw [State.rd_hbState _ (by simp), State.idOp_none_oldKept]

/-! #### A store that has been read -/

theorem exec_hbTagReadDone_dirBad {block : Nat} {store : List Byte} (hb : block = 4 ∨ block = 8)
    (hx : storeOf store store.length = none) :
    exec (.hbTagReadDone uid block store) s =
      .next (((s.storeRead uid.toNat block none).idOp idDirBad false 0 none).hbState) := by
  change execHbTagReadDone uid block store s = _
  obtain rfl | rfl := hb <;> simp [execHbTagReadDone, hon, hr, hx, done, State.storeRead]

theorem exec_hbTagReadDone_tool {block : Nat} {store : List Byte} {x : IdStore} {b : Bool} {a : IdSlot} (hb : block = 4 ∨ block = 8)
    (hx : storeOf store store.length = some x) (ha : x.active = some (b, a)) (ht : a.rtype = 2) :
    exec (.hbTagReadDone uid block store) s =
      .next (((s.storeRead uid.toNat block (some x)).toolAccept a.ents).hbState) := by
  change execHbTagReadDone uid block store s = _
  obtain rfl | rfl := hb <;> simp [execHbTagReadDone, hon, hr, hx, ha, ht, done, State.storeRead]

theorem hbTagReadDone_dirBad {block : Nat} {store : List Byte} (hb : block = 4 ∨ block = 8)
    (hx : storeOf store store.length = none) :
    ∃ t, exec (.hbTagReadDone uid block store) s = .next t ∧ t.hat.reading = none ∧ t.hat.blk = block ∧
      t.rd .ID_OP_RESULT = 0x0D ∧ t.rd .HB_STAT_MASK_LIVE = s.rd .HB_STAT_MASK_LIVE ∧ t.mem = s.mem := by
  have hhat := s.storeRead_hat uid.toNat block none
  refine ⟨_, exec_hbTagReadDone_dirBad hon hr hb hx, ?_, ?_, ?_, ?_, ?_⟩
  · rw [State.hbState_hat, State.idOp_none_hat, hhat]
  · rw [State.hbState_hat, State.idOp_none_hat, hhat]
  · rw [State.rd_hbState _ (by simp), State.idOp_none_result]
    rfl
  · rw [State.rd_hbState _ (by simp), State.rd_idOp_none _ (by simp) (by simp) (by simp), State.rd_storeRead _ (by simp)]
  · rw [State.hbState_mem, State.idOp_none_mem, State.storeRead_mem]

end

/-! #### The judgement of a tool (R133) -/

theorem ofLe_lt (l : List Byte) : ofLe l < 256 ^ l.length := by
  induction l with
  | nil => exact Nat.one_pos
  | cons b l ih =>
    have hb := b.isLt
    rw [ofLe, List.length_cons, Nat.pow_succ]
    omega

/-- Two bytes fit a 16-bit field. -/
theorem leAt_two_lt (l : List Byte) (o : Nat) : leAt l o 2 < 2 ^ 16 :=
  (ofLe_lt _).trans_le (Nat.pow_le_pow_right (by decide) (List.length_take_le ..))

section
variable (s : State) (cls var : Nat) (boxes : List (List Int))

/-- A tool of this class and variant has been read and is held. -/
def State.toolHeld : State := s.onHat fun h => { h with tool := some (cls, var, boxes) }

/-- The tool's mask is live: class and variant are shown, and the boxes are the reader's and the Kerb hub's. -/
def State.toolMasked : State :=
  (((((s.wr .HB_TOOL_CLASS 0 cls).wr .HB_TOOL_VARIANT 0 var).put .HB_STAT_MASK_LIVE 0 true).onHat fun h =>
    { h with boxes := boxes }).onKerb fun k => { k with boxes := boxes }).kerbUpdate

theorem State.toolMasked_hat : (s.toolMasked cls var boxes).hat = { s.hat with boxes := boxes } := State.kerbUpdate_hat _

theorem State.toolMasked_mem : (s.toolMasked cls var boxes).mem = s.mem := State.kerbUpdate_mem _

theorem State.toolMasked_live : (s.toolMasked cls var boxes).rd .HB_STAT_MASK_LIVE = 1 := by
  refine (State.rd_kerbUpdate _ rfl _).trans ?_
  rw [State.rd_onKerb, State.rd_onHat]
  exact State.rd_wr_same _ .HB_STAT_MASK_LIVE 0 1

theorem State.toolMasked_variant (hv : var < 2 ^ 16) : (s.toolMasked cls var boxes).rd .HB_TOOL_VARIANT = var := by
  refine (State.rd_kerbUpdate _ rfl _).trans ?_
  rw [State.rd_onKerb, State.rd_onHat, State.put, State.rd_wr_other _ _ _ _ (by simp)]
  exact (State.rd_wr_same _ .HB_TOOL_VARIANT 0 var).trans (Nat.mod_eq_of_lt hv)

theorem State.toolMasked_class (hc : cls < 2 ^ 16) : (s.toolMasked cls var boxes).rd .HB_TOOL_CLASS = cls := by
  refine (State.rd_kerbUpdate _ rfl _).trans ?_
  rw [State.rd_onKerb, State.rd_onHat, State.put, State.rd_wr_other _ _ _ _ (by simp), State.rd_wr_other _ _ _ _ (by simp)]
  exact (State.rd_wr_same _ .HB_TOOL_CLASS 0 cls).trans (Nat.mod_eq_of_lt hc)

end

section
variable {s : State} {uid : DWord} {block : Nat} {store : List Byte} {x : IdStore} {b : Bool} {a : IdSlot}

/-- The valid record of a tool whose tag is alone in the field is judged by the allow list. -/
theorem State.toolAccept_alone {l : List (Nat × List Byte)} (hp : s.hat.present.length = 1) (hm : s.hat.multi = false) :
    let c := leAt (tlvVal l 0x21) 0 2
    let v := leAt (tlvVal l 0x21) 2 2
    let u := s.toolHeld c v (toolBoxes (tlvVal l 0x22))
    s.toolAccept l =
      if s.toolListed c v then u.toolMasked c v (toolBoxes (tlvVal l 0x22)) else u.put .HB_STAT_UNLISTED 0 true :=
  if_pos ⟨hp, by simp [hm]⟩

variable (hon : s.hbOn = true) (hr : s.hat.reading = some uid.toNat) (hb : block = 4 ∨ block = 8)
  (hx : storeOf store store.length = some x) (ha : x.active = some (b, a)) (ht : a.rtype = 2)
  (hp : s.hat.present = [uid.toNat]) (hm : s.hat.multi = false)
include hon hr hb hx ha ht hp hm

/-- A tool record has been read, its tag alone in the field. -/
theorem exec_hbTagReadDone_judged :
    let c := leAt (tlvVal a.ents 0x21) 0 2
    let v := leAt (tlvVal a.ents 0x21) 2 2
    let u := (s.storeRead uid.toNat block (some x)).toolHeld c v (toolBoxes (tlvVal a.ents 0x22))
    exec (.hbTagReadDone uid block store) s = .next (if s.toolListed c v then
      (u.toolMasked c v (toolBoxes (tlvVal a.ents 0x22))).hbState else (u.put .HB_STAT_UNLISTED 0 true).hbState) := by
  have hhat := s.storeRead_hat uid.toNat block (some x)
  dsimp only
  rw [exec_hbTagReadDone_tool hon hr hb hx ha ht, State.toolAccept_alone (by rw [hhat, hp]; rfl) (by rw [hhat, hm]),
    State.storeRead_toolListed, apply_ite State.hbState]

theorem hbTagReadDone_listed
    (hl : s.toolListed (leAt (tlvVal a.ents 0x21) 0 2) (leAt (tlvVal a.ents 0x21) 2 2) = true) :
    ∃ t, exec (.hbTagReadDone uid block store) s = .next t ∧ t.hat.reading = none ∧ t.rd .HB_STAT_MASK_LIVE = 1 ∧
      t.rd .HB_TOOL_CLASS = leAt (tlvVal a.ents 0x21) 0 2 ∧ t.rd .HB_TOOL_VARIANT = leAt (tlvVal a.ents 0x21) 2 2 ∧
      t.hat.boxes = toolBoxes (tlvVal a.ents 0x22) ∧ t.mem = s.mem := by
  refine ⟨_, (exec_hbTagReadDone_judged hon hr hb hx ha ht hp hm).trans (congrArg Host.Outcome.next (if_pos hl)), ?_, ?_, ?_, ?_,
    ?_, ?_⟩
  · rw [State.hbState_hat, State.toolMasked_hat, State.toolHeld, State.onHat_hat, State.storeRead_hat]
  · rw [State.rd_hbState _ (by simp), State.toolMasked_live]
  · rw [State.rd_hbState _ (by simp), State.toolMasked_class _ _ _ _ (leAt_two_lt ..)]
  · rw [State.rd_hbState _ (by simp), State.toolMasked_variant _ _ _ _ (leAt_two_lt ..)]
  · rw [State.hbState_hat, State.toolMasked_hat]
  · rw [State.hbState_mem, State.toolMasked_mem, State.toolHeld, State.onHat_mem, State.storeRead_mem]

theorem hbTagReadDone_unlisted
    (hl : s.toolListed (leAt (tlvVal a.ents 0x21) 0 2) (leAt (tlvVal a.ents 0x21) 2 2) = false) :
    ∃ t, exec (.hbTagReadDone uid block store) s = .next t ∧ t.hat.reading = none ∧ t.rd .HB_STAT_UNLISTED = 1 ∧
      t.rd .HB_STAT_MASK_LIVE = s.rd .HB_STAT_MASK_LIVE ∧ t.hat.boxes = s.hat.boxes ∧ t.mem = s.mem := by
  have hhat := s.storeRead_hat uid.toNat block (some x)
  refine ⟨_, (exec_hbTagReadDone_judged hon hr hb hx ha ht hp hm).trans
    (congrArg Host.Outcome.next (if_neg (Bool.eq_false_iff.1 hl))), ?_, ?_, ?_, ?_, ?_⟩
  · rw [State.hbState_hat, State.put_hat, State.toolHeld, State.onHat_hat, hhat]
  · rw [State.rd_hbState _ (by simp)]
    exact State.rd_wr_same _ .HB_STAT_UNLISTED 0 1
  · rw [State.rd_hbState _ (by simp), State.put, State.rd_wr_other _ _ _ _ (by simp), State.toolHeld, State.rd_onHat,
      State.rd_storeRead _ (by simp)]
  · rw [State.hbState_hat, State.put_hat, State.toolHeld, State.onHat_hat, hhat]
  · rw [State.hbState_mem, State.put_mem, State.toolHeld, State.onHat_mem, State.storeRead_mem]

end

/-- Settles O19: HB_CFG by what its start and the amplitude come to, a poll by the UIDs it has seen, an answer of the tag being
read by whether its command has failed before and by the store that has been read. -/
theorem hatbandReader : Obligations.HatbandReader := by
  unfold Obligations.HatbandReader
  refine ⟨fun s c w amp hl hp hr hen hd hw => ⟨fun hlo hhi =>
      ⟨_, exec_hbEnable_fw amp hl hp hr hen, State.hbStart_polls hd hw hlo hhi⟩, fun hout => ?_⟩,
    fun s uids amp col bad hon hf => ⟨fun hout => ?_, hbPoll_multi (air := ⟨amp, col, bad⟩) hon hf,
      fun u hlo hhi => hbPoll_first hon hf hlo hhi, fun u hlo hhi => hbPoll_second hon hf hlo hhi⟩,
    fun s uid hon hr => ⟨fun code arg why => ⟨exec_hbTagNoResponse_again hon hr why, hbTagNoResponse_failed hon hr why⟩,
      fun block store hb => ⟨hbTagReadDone_dirBad hon hr hb, fun x b a hx ha ht hp hm =>
        ⟨hbTagReadDone_listed hon hr hb hx ha ht hp hm, hbTagReadDone_unlisted hon hr hb hx ha ht hp hm⟩⟩⟩⟩
  · exact ⟨_, exec_hbEnable_fw amp hl hp hr hen, State.antCheck_fault hout⟩
  · obtain ⟨hstate, hant, hlive, -⟩ := s.antCheck_fault hout
    exact ⟨_, exec_hbPoll_outside hon hout, hstate, hant, hlive⟩

end Sys2Proof.Machine
end

section
/-!
PROOFS of the statements of `spec/05_carding_and_queues.md` in this row: reads of a queue (O21), its control (O22), the
acceptance of event records (O23) and the stages of carding (O24).
-/
namespace Sys2Proof.Machine

/-! ### Queues, carding units and slots -/

section
variable (s : State) (q : Nat)

@[simp] theorem State.eq_onEq_same (f : EqSt → EqSt) : (s.onEq q f).eq q = f (s.eq q) := Table.get_upd_same ..
@[simp] theorem State.card_onCard_same (f : CardSt → CardSt) : (s.onCard q f).card q = f (s.card q) := Table.get_upd_same ..
@[simp] theorem State.card_onCard_other (f : CardSt → CardSt) {u : Nat} (h : u ≠ q) : (s.onCard q f).card u = s.card u :=
  Table.get_upd_other _ _ _ _ h

@[simp] theorem State.wr_eq (r : Reg) (i v : Nat) : (s.wr r i v).eq q = s.eq q := rfl
@[simp] theorem State.onMs_eq (f : MsSt → MsSt) : (s.onMs f).eq q = s.eq q := rfl
@[simp] theorem State.emit_eq (x : Tx) : (s.emit x).eq q = s.eq q := rfl

@[simp] theorem State.count_card (r : Reg) (i n : Nat) : (s.count r i n).card q = s.card q := rfl

@[simp] theorem State.rd_onEq (f : EqSt → EqSt) (r : Reg) (i : Nat) : (s.onEq q f).rd r i = s.rd r i := State.rd_congr rfl r i
@[simp] theorem State.rd_onCard (f : CardSt → CardSt) (r : Reg) (i : Nat) : (s.onCard q f).rd r i = s.rd r i :=
  State.rd_congr rfl r i

end

theorem State.flag_congr {s t : State} {r : Reg} {i : Nat} (h : t.rd r i = s.rd r i) : t.flag r i = s.flag r i := by
  simp only [State.flag, h]

@[simp] theorem State.flag_onCard (s : State) (u : Nat) (f : CardSt → CardSt) (r : Reg) (i : Nat) :
    (s.onCard u f).flag r i = s.flag r i := State.flag_congr (s.rd_onCard ..)

/-- A change of a slot is a matter of what it makes of that slot as it stands. -/
theorem State.onSlot_congr {s : State} {i : Nat} {f g : SlotSt → SlotSt} (h : f (s.slot i) = g (s.slot i)) :
    s.onSlot i f = s.onSlot i g := by
  have ht : Table.upd {} s.slots i f = Table.upd {} s.slots i g := congrArg (Table.set ({} : SlotSt) s.slots i) h
  simp [State.onSlot, State.onSlots, ht]

/-! ### Reads of a queue (R158 to R161) -/

/-- With no mask set no record is masked, and none sets a mask. -/
theorem skipStep_unmasked (last : Option (Nat × Nat)) (r : QRec) : ∃ last', skipStep none last r = (false, none, last') := by
  unfold skipStep
  dsimp only
  split <;> simp

/-- What the delivery of a queue's records leaves alone: the registers, memory, what has been sent, and the records. -/
def State.readSide (s : State) (q : Nat) : Table Nat × List Host.Cell × List Tx × List QRec :=
  (s.regs, s.mem, s.tx, (s.eq q).recs)

/-- Records without an ECC event, read with no mask set, are delivered as they are. -/
theorem State.readRecs_clean (q : Nat) (l : List (QRec × Nat)) : ∀ s : State, (s.eq q).mask = none →
    ∃ t, s.readRecs q 0 0 l = (l.map fun e => e.1.data, false, false, false, t) ∧ t.readSide q = s.readSide q := by
  induction l with
  | nil => exact fun s _ => ⟨s, rfl, rfl⟩
  | cons e l ih =>
    obtain ⟨r, i⟩ := e
    intro s hm
    obtain ⟨last, hstep⟩ := skipStep_unmasked (s.eq q).lastEv r
    obtain ⟨t, hread, hside⟩ := ih (s.onEq q fun e => { e with mask := none, lastEv := last }) (by simp)
    refine ⟨t, ?_, hside.trans ?_⟩
    · simp [State.readRecs, bit, hm, hstep, hread]
    · simp only [State.readSide, State.eq_onEq_same]
      rfl

/-- What the end of a read of `m` records leaves: RP and its copy have moved on; the occupancy may be below the watermark. -/
def State.popped (s : State) (q m : Nat) : State :=
  let rp := s.ptrAdd q (s.rd .EQ_RP q) m
  let s := (s.onEq q fun e => { e with recs := e.recs.drop m, rp2 := rp }).wr .EQ_RP q rp
  s.when (s.eqOcc q < s.eqWm q) fun s => s.onMs fun x => { x with belowWm := x.belowWm.filter (· != q) }

section
variable (s : State) (q m : Nat)

/-- Beside the queue and RP, the end of a read is a matter of the Milestone unit alone. -/
theorem State.popped_onMs :
    let rp := s.ptrAdd q (s.rd .EQ_RP q) m
    ∃ f, s.popped q m = ((s.onEq q fun e => { e with recs := e.recs.drop m, rp2 := rp }).wr .EQ_RP q rp).onMs f := by
  unfold State.popped State.when
  dsimp only
  split
  · exact ⟨_, rfl⟩
  · exact ⟨id, rfl⟩

theorem State.popped_recs : ((s.popped q m).eq q).recs = (s.eq q).recs.drop m := by
  obtain ⟨f, h⟩ := s.popped_onMs q m
  simp [h]

theorem State.popped_regs : (s.popped q m).regs = (s.wr .EQ_RP q (s.ptrAdd q (s.rd .EQ_RP q) m)).regs := by
  obtain ⟨f, h⟩ := s.popped_onMs q m
  rw [h]
  rfl

theorem State.popped_mem_tx : (s.popped q m).mem = s.mem ∧ (s.popped q m).tx = s.tx := by
  obtain ⟨f, h⟩ := s.popped_onMs q m
  rw [h]
  exact ⟨rfl, rfl⟩

end

section
variable {s : State}

/-- A read of an enabled queue with good pointers, no mask and no ECC event delivers its first records and takes them out. -/
theorem State.popLine_clean {q m : Nat} (hen : s.flag .EQ_CFG_EN q = true) (hptr : s.ptrFails q = false)
    (hmask : (s.eq q).mask = none) (hm : m = min 8 (s.eq q).recs.length) :
    ∃ t : State, s.popLine q 0 0 false = (8 * m, ((s.eq q).recs.take 8).map QRec.data ++ List.replicate (8 - m) 0, t) ∧
      (t.eq q).recs = (s.eq q).recs.drop 8 ∧ t.regs = (s.wr .EQ_RP q (s.ptrAdd q (s.rd .EQ_RP q) m)).regs ∧ t.mem = s.mem ∧
      t.tx = s.tx := by
  obtain ⟨u, hread, hside⟩ := State.readRecs_clean q ((s.eq q).recs.take 8).zipIdx s hmask
  simp only [State.readSide, Prod.mk.injEq] at hside
  obtain ⟨hregs, hmem, htx, hrecs⟩ := hside
  have hdata : (((s.eq q).recs.take 8).zipIdx.map fun e => e.1.data) = ((s.eq q).recs.take 8).map QRec.data := by
    conv_rhs => rw [← List.zipIdx_map_fst 0 ((s.eq q).recs.take 8), List.map_map]
    rfl
  have hrp : u.ptrAdd q (u.rd .EQ_RP q) m = s.ptrAdd q (s.rd .EQ_RP q) m := by
    simp only [State.ptrAdd, State.eqN, State.rd_congr hregs]
  obtain ⟨hmem', htx'⟩ := u.popped_mem_tx q m
  refine ⟨u.popped q m, ?_, ?_, ?_, hmem'.trans hmem, htx'.trans htx⟩
  · simp [State.popLine, State.popped, State.upset, hen, hptr, hread, hdata, hm]
  · rw [State.popped_recs, hrecs, hm, ← List.drop_eq_drop_min]
  · rw [State.popped_regs, hrp]
    simp only [State.wr, State.onRegs_regs, hregs]

variable {who : Agent} {q : Fin 512}

theorem exec_eqPop_fullerBound (hl : s.admitRead who .EQ_WP q.val = .ok s) (hful : s.fullerBound q.val = true)
    (ce ue : BitVec 8) (bad : Bool) :
    exec (.eqPop who q ce ue bad) s =
      .next (((s.put .FUL_STAT_FOREIGN_READ 0 true).onEq q.val fun e => { e with line := List.replicate 8 0 }).emit
        (.eqLine who q.val (List.replicate 8 0) 0)) := by
  change execEqPop who q ce ue bad s = _
  rw [execEqPop, hl]
  simp only [hful, if_true]
  rfl

theorem exec_eqPop_line (hl : s.admitRead who .EQ_WP q.val = .ok s) (hful : s.fullerBound q.val = false) {tag : Nat}
    {line : List DWord} {t : State} (hpop : s.popLine q.val 0 0 false = (tag, line, t)) :
    exec (.eqPop who q 0 0 false) s =
      .next ((t.onEq q.val fun e => { e with line := line }).emit (.eqLine who q.val line tag)) := by
  have hzero : (0 : BitVec 8).toNat = 0 := rfl
  change execEqPop who q 0 0 false s = _
  rw [execEqPop, hl]
  simp only [hful, hzero, hpop]
  rfl

theorem exec_eqSkipGo (hl : s.letIn who .EQ_SKIP_GO q.val = .ok s) :
    exec (.eqSkipGo who q) s =
      .next (((s.eq q.val).lastEv.map fun e => s.onEq q.val fun x => { x with mask := some e }).getD s) := by
  change execEqSkipGo who q s = _
  rw [execEqSkipGo, hl]
  dsimp only
  split <;> next h => rw [h]; rfl

end

/-- Settles O21: a read by whether the Fuller reads the queue; what an ordinary one delivers and leaves is
`State.popLine_clean`. -/
theorem eventQueueReads : Obligations.EventQueueReads := by
  unfold Obligations.EventQueueReads
  refine fun s who q => ⟨fun hl => ⟨fun hful ce ue bad => exec_eqPop_fullerBound hl hful ce ue bad,
    fun hful hen hptr hmask => ?_⟩, fun hl => ⟨fun hlast => ?_, fun e hlast => ?_⟩⟩
  · obtain ⟨t, hpop, hrecs, hregs, hmem, htx⟩ := State.popLine_clean hen hptr hmask rfl
    refine ⟨_, exec_eqPop_line hl hful hpop, ?_, ?_, ?_, ?_, fun r i hne hi => ?_, hmem⟩
    · exact congrArg (_ :: ·) htx
    · simp
    · simpa using hrecs
    · rw [State.rd_emit, State.rd_onEq, State.rd_congr hregs, State.rd_wr_same]
      rfl
    · rw [State.rd_emit, State.rd_onEq, State.rd_congr hregs]
      by_cases hr : r = .EQ_RP
      · subst hr
        exact State.rd_wr_index _ _ _ (by omega) hi fun h => hne (by rw [h])
      · exact State.rd_wr_other _ _ _ _ hr
  · rw [exec_eqSkipGo hl, hlast]
    rfl
  · rw [exec_eqSkipGo hl, hlast]
    rfl

/-! ### EQ_CFG (R585) -/

/-- The fields of the word of EQ_CFG. -/
def eqCfgHits (q : Nat) : List Hit :=
  [⟨.EQ_CFG_EN, q, 0⟩, ⟨.EQ_CFG_CLASS, q, 1⟩, ⟨.EQ_CFG_LOG2N, q, 2⟩, ⟨.EQ_CFG_BASE, q, 8⟩]

/-- The field starts nowhere in the word of EQ_CFG of a queue: it lies below the queues' registers or above them,
or in another word of a queue's. -/
def Reg.offEqCfg (r : Reg) : Bool :=
  0x108000 ≤ r.spec.base ||
    match r.spec.dims with
    | [] => r.spec.base < 0x100000
    | (n, st) :: l => 0 < st && r.spec.base + n * st ≤ 0x100000 ||
        l.isEmpty && st == 0x40 && 0x100004 ≤ r.spec.base && r.spec.base < 0x100040

theorem Reg.hitAt_offEqCfg {r : Reg} (h : r.offEqCfg = true) {q k : Nat} (hq : q < 512) (hk : k < 4) :
    r.hitAt (0x100000 + 0x40 * q) k = none := by
  unfold Reg.offEqCfg at h
  unfold Reg.hitAt
  split
  · rfl
  · next hlow =>
    rw [Option.map_eq_none_iff]
    cases hd : r.spec.dims with
    | nil =>
      simp only [hd] at h
      have : ¬ 0x100000 + 0x40 * q + k - r.spec.base = 0 := by simp at h; omega
      simp [dimIndex, this]
    | cons d l =>
      obtain ⟨n, st⟩ := d
      simp only [hd, Bool.or_eq_true, Bool.and_eq_true, decide_eq_true_eq, beq_iff_eq, List.isEmpty_iff] at h
      obtain h | ⟨hst, hlt⟩ | ⟨⟨⟨rfl, rfl⟩, hlo⟩, hhi⟩ := h
      · omega
      · have : n ≤ (0x100000 + 0x40 * q + k - r.spec.base) / st :=
          (Nat.le_div_iff_mul_le hst).2 (by omega)
        simp [dimIndex, Nat.not_lt.2 this]
      · have : ¬ (0x100000 + 0x40 * q + k - r.spec.base) % 0x40 = 0 := by omega
        simp [dimIndex, this]

theorem Reg.offEqCfg_all :
    (Reg.all.filter fun r => !r.offEqCfg) = [.EQ_CFG_EN, .EQ_CFG_CLASS, .EQ_CFG_LOG2N, .EQ_CFG_BASE] := by
  decide +kernel

/-- Elements for which a function gives nothing may be left out. -/
theorem flatMap_filter_of_nil {α β : Type} {f : α → List β} {p : α → Bool} (l : List α)
    (h : ∀ a ∈ l, p a = false → f a = []) :
    (l.filter p).flatMap f = l.flatMap f := by
  induction l with
  | nil => rfl
  | cons a l ih =>
    have hl := ih fun b hb => h b (List.mem_cons_of_mem _ hb)
    cases hp : p a with
    | true => simp [hp, hl]
    | false => simp [hp, hl, h a List.mem_cons_self hp]

theorem hitsAt_eqCfg (q : Fin 512) : hitsAt (Reg.EQ_CFG_EN.offset q.val) = eqCfgHits q.val := by
  have hq := q.isLt
  have hoff : Reg.EQ_CFG_EN.offset q.val = 0x100000 + 0x40 * q.val := by
    simp [Reg.offset, show Reg.EQ_CFG_EN.spec.dims = [(512, 0x40)] from rfl, show Reg.EQ_CFG_EN.spec.base = 0x100000 from rfl]
    omega
  have hhit : ∀ r : Reg, r.spec.base = 0x100000 → r.spec.dims = [(512, 0x40)] →
      [r.hitAt (0x100000 + 0x40 * q.val) 0, r.hitAt (0x100000 + 0x40 * q.val) 2].filterMap id =
        [⟨r, q.val, r.spec.lsb⟩] := fun r hb hd => by
    have h0 : (0x40 * q.val) / 0x40 = q.val := by omega
    simp [Reg.hitAt, hb, hd, dimIndex, h0, hq, Nat.add_assoc]
  have hother : ∀ r ∈ Reg.all, (!r.offEqCfg) = false →
      [r.hitAt (0x100000 + 0x40 * q.val) 0, r.hitAt (0x100000 + 0x40 * q.val) 2].filterMap id = [] := fun r _ hr => by
    simp [Reg.hitAt_offEqCfg (by simpa using hr) hq]
  rw [hoff, hitsAt, ← flatMap_filter_of_nil _ hother, Reg.offEqCfg_all]
  simp only [List.flatMap_cons, List.flatMap_nil]
  rw [hhit _ rfl rfl, hhit _ rfl rfl, hhit _ rfl rfl, hhit _ rfl rfl]
  rfl

theorem eqCfgHits_rw (q : Nat) : ∀ k ∈ eqCfgHits q, k.reg.spec.acc = .rw ∧ k.reg ≠ .CH_CFG_SRC := by
  simp only [eqCfgHits, List.forall_mem_cons]
  exact ⟨⟨rfl, by decide⟩, ⟨rfl, by decide⟩, ⟨rfl, by decide⟩, ⟨rfl, by decide⟩, by simp⟩

theorem eqCfg_rsv : Reg.EQ_CFG_LOG2N.spec.rsv = .ranges [(0, 5), (19, 31)] ∧
    ∀ r ∈ [Reg.EQ_CFG_EN, .EQ_CFG_CLASS, .EQ_CFG_BASE], r.spec.rsv = .ranges [] := by
  decide +kernel

/-- Of the encodings of EQ_CFG's fields, a LOG2N below 6 or above 18 alone is reserved. -/
theorem eqCfgHits_legal (q : Nat) {w : Nat} (hlo : 6 ≤ bits w 2 5) (hhi : bits w 2 5 ≤ 18) :
    ∀ k ∈ eqCfgHits q, k.reg.reserved k.idx (k.value w) = false := by
  obtain ⟨hlog, hfree⟩ := eqCfg_rsv
  simp only [List.forall_mem_cons, List.not_mem_nil, false_imp_iff, implies_true, and_true] at hfree
  obtain ⟨hen, hcls, hbase⟩ := hfree
  have hval : Hit.value ⟨.EQ_CFG_LOG2N, q, 2⟩ w = bits w 2 5 := rfl
  simp [eqCfgHits, Reg.reserved, hen, hcls, hbase, hlog, hval]
  omega

/-- The fields of EQ_CFG beside EN take the values that a word carries. -/
def State.eqFields (s : State) (q w : Nat) : State :=
  ((s.wr .EQ_CFG_CLASS q (bits w 1 1)).wr .EQ_CFG_LOG2N q (bits w 2 5)).wr .EQ_CFG_BASE q (bits w 8 17)

/-- The firmware's word with a legal LOG2N is taken; EN has a row of its own. -/
theorem State.applyWord_eqCfg (s : State) (c : Fin 16) (q : Fin 512) {w : Nat} (hlo : 6 ≤ bits w 2 5) (hhi : bits w 2 5 ≤ 18) :
    s.applyWord (.fw c) (Reg.EQ_CFG_EN.offset q.val) w = (true, s.eqFields q.val w) := by
  have hrw := eqCfgHits_rw q.val
  have hrows : ((eqCfgHits q.val).filter fun k => !k.reg.spec.ownRow) = (eqCfgHits q.val).tail := rfl
  rw [s.applyWord_fw_rw c (hitsAt_eqCfg q) (fun k hk => (hrw k hk).1) (eqCfgHits_legal q.val hlo hhi) rfl
    fun k hk => (hrw k hk).2, ← eqCfgHits, hrows]
  simp only [eqCfgHits, List.tail_cons, State.each, List.foldl_cons, List.foldl_nil]
  iterate 3 rw [State.writeField_rw _ rfl rfl]
  rfl

/-- The state with a word of EQ_CFG taken whole. -/
def State.eqTaken (s : State) (q w : Nat) (en : Bool) : State := (s.eqFields q w).put .EQ_CFG_EN q en

@[simp] theorem State.eqTaken_en (s : State) (q w : Nat) (en : Bool) : (s.eqTaken q w en).flag .EQ_CFG_EN q = en := by
  cases en
  · exact State.flag_eq_false (State.rd_wr_same _ .EQ_CFG_EN q 0)
  · exact State.flag_eq_true (State.rd_wr_same _ .EQ_CFG_EN q 1)

/-- The firmware's word that changes EN is taken, and the queue starts or loses what it holds. -/
theorem State.eqCfgWrite_fw {s : State} {c : Fin 16} {q : Fin 512} {w : Nat} (en : Bool)
    (hl : s.letIn (.fw c) .EQ_CFG_EN q.val = .ok s) (hlo : 6 ≤ bits w 2 5) (hhi : bits w 2 5 ≤ 18)
    (hen : s.flag .EQ_CFG_EN q.val = !en) :
    s.eqCfgWrite (.fw c) q.val w en =
      if en then (s.eqTaken q.val w en).eqStart q.val else (s.eqTaken q.val w en).eqDiscard q.val := by
  have hwas : (s.eqFields q.val w).flag .EQ_CFG_EN q.val = !en := by
    rw [← hen]
    refine State.flag_congr ?_
    simp only [State.eqFields]
    rw [State.rd_wr_other _ _ _ _ (by decide), State.rd_wr_other _ _ _ _ (by decide), State.rd_wr_other _ _ _ _ (by decide)]
  cases en <;> simp [State.eqCfgWrite, hl, s.applyWord_eqCfg c q hlo hhi, hwas, State.eqTaken]

/-! ### A queue starts, loses what it holds, and is reset (R151, R162, R163, R585) -/

/-- With a queue's pointers put to 0 every other register stays. -/
theorem State.rd_pointers (s : State) {r : Reg} (hw : r ≠ .EQ_WP) (hr : r ≠ .EQ_RP) (q i : Nat) :
    ((s.wr .EQ_WP q 0).wr .EQ_RP q 0).rd r i = s.rd r i :=
  (State.rd_wr_other _ _ _ _ hr).trans (State.rd_wr_other _ _ _ _ hw)

section
variable (s : State) (q : Nat)

theorem State.pointers_wp : ((s.wr .EQ_WP q 0).wr .EQ_RP q 0).rd .EQ_WP q = 0 :=
  (State.rd_wr_other _ _ _ _ (by decide)).trans (State.rd_wr_same _ .EQ_WP q 0)

theorem State.pointers_rp : ((s.wr .EQ_WP q 0).wr .EQ_RP q 0).rd .EQ_RP q = 0 := State.rd_wr_same _ .EQ_RP q 0

/-- What a state whose registers differ by the pointers' reset alone shows of the queue. -/
theorem State.pointers_of_regs {s t : State} {q : Nat} (hr : t.regs = ((s.wr .EQ_WP q 0).wr .EQ_RP q 0).regs) :
    t.flag .EQ_CFG_EN q = s.flag .EQ_CFG_EN q ∧ t.rd .EQ_WP q = 0 ∧ t.rd .EQ_RP q = 0 := by
  have h := State.rd_congr hr
  exact ⟨State.flag_congr ((h ..).trans (s.rd_pointers (by decide) (by decide) ..)), (h ..).trans (s.pointers_wp q),
    (h ..).trans (s.pointers_rp q)⟩

theorem State.eqStart_regs : (s.eqStart q).regs = ((s.wr .EQ_WP q 0).wr .EQ_RP q 0).regs := rfl

theorem State.eqStart_eq : (s.eqStart q).eq q = { s.eq q with
    recs := [], wp2 := 0, rp2 := 0, seg := s.nowUs / 2 ^ 28, marker := none, mask := none, lastEv := none
    wide := [pendRec 0 q 0 1 s.segParam false] } := by
  rw [State.eqStart, State.onMs_eq, State.eq_onEq_same]
  rfl

/-- A reset on command (reason 2) makes no error record. -/
theorem State.eqReset_regs : (s.eqReset q 2).regs = (((s.wr .EQ_WP q 0).wr .EQ_RP q 0).count .EQ_RESETS q).regs := rfl

theorem State.eqReset_eq : (s.eqReset q 2).eq q = { s.eq q with
    recs := [], wp2 := 0, rp2 := 0, seg := s.nowUs / 2 ^ 28, marker := none, mask := none, lastEv := none
    wide := [pendRec 0 q 0 2 (2 * 2 ^ 24 + min (s.eq q).recs.length 0xFFFFFF) false, pendRec 0 q 0 1 s.segParam false] } := by
  change (State.onMs (State.onEq _ q _) _).eq q = _
  rw [State.onMs_eq, State.eq_onEq_same]
  rfl

end

/-! #### What is pending in the carding units for a queue -/

/-- A carding unit loses what is pending in it for a queue. -/
def State.unitDiscard (q : Nat) (s : State) (u : Nat) : State :=
  if (s.card u).pend.any fun p => p.q == q then s.onCard u fun c => { c with pend := c.pend.filter fun p => p.q != q } else s

/-- A queue's own records, marker and mask are gone, and its pointers are 0. -/
def State.bankDiscard (s : State) (q : Nat) : State :=
  (((s.wr .EQ_WP q 0).wr .EQ_RP q 0).onEq q fun e => { line := e.line }).onMs fun m =>
    { m with belowWm := m.belowWm.filter (· != q) }

theorem State.eqDiscard_eq (s : State) (q : Nat) :
    s.eqDiscard q = (s.bankDiscard q).each (List.range 8) (State.unitDiscard q) := rfl

/-- The units change nothing of a state but themselves. -/
theorem State.eqDiscard_cards (s : State) (q : Nat) : ∃ f, s.eqDiscard q = (s.bankDiscard q).onCards f := by
  rw [State.eqDiscard_eq]
  refine State.each_keeps (fun t => ∃ f, t = (s.bankDiscard q).onCards f) (State.unitDiscard q) ?_ _ _ ⟨id, rfl⟩
  rintro _ u ⟨f, rfl⟩
  unfold State.unitDiscard
  split
  · exact ⟨fun t => Table.upd {} (f t) u fun c => { c with pend := c.pend.filter fun p => p.q != q }, rfl⟩
  · exact ⟨f, rfl⟩

theorem State.unitDiscard_pend_same (q : Nat) (s : State) (u : Nat) :
    ∀ p ∈ ((s.unitDiscard q u).card u).pend, p.q ≠ q := by
  unfold State.unitDiscard
  split
  · intro p hp
    rw [State.card_onCard_same] at hp
    simpa using (List.mem_filter.1 hp).2
  · next h => simpa using h

theorem State.unitDiscard_pend_sub (q : Nat) (s : State) (u v : Nat) :
    ∀ p ∈ ((s.unitDiscard q u).card v).pend, p ∈ (s.card v).pend := by
  unfold State.unitDiscard
  split
  · intro p hp
    by_cases hv : v = u
    · subst hv
      rw [State.card_onCard_same] at hp
      exact List.mem_of_mem_filter hp
    · rwa [State.card_onCard_other _ _ _ hv] at hp
  · exact fun p hp => hp

/-- A run over units leaves nothing pending for the queue in those it came to, or that held nothing for it. -/
theorem State.each_unitDiscard_pend (q v : Nat) (l : List Nat) :
    ∀ s : State, (v ∈ l ∨ ∀ p ∈ (s.card v).pend, p.q ≠ q) →
      ∀ p ∈ ((s.each l (State.unitDiscard q)).card v).pend, p.q ≠ q := by
  induction l with
  | nil => exact fun s h => h.resolve_left List.not_mem_nil
  | cons u l ih =>
    refine fun s h => ih (s.unitDiscard q u) ?_
    rcases h with h | h
    · rcases List.mem_cons.1 h with rfl | h
      · exact .inr (State.unitDiscard_pend_same q s v)
      · exact .inl h
    · exact .inr fun p hp => h p (State.unitDiscard_pend_sub q s u v p hp)

theorem State.eqDiscard_pend (s : State) (q : Nat) {v : Nat} (hv : v < 8) : ∀ p ∈ ((s.eqDiscard q).card v).pend, p.q ≠ q :=
  State.each_unitDiscard_pend q v _ _ (.inl (List.mem_range.2 hv))

/-! ### The SEGMENT boundary (R151) -/

section
variable {s : State} {q : Nat}

theorem State.segmentDue_off (h : s.flag .EQ_CFG_EN q = false) : s.segmentDue q = s := by
  simp [State.segmentDue, State.eqRuns, h]

theorem State.segmentDue_current (h : (s.eq q).seg = s.nowUs / 2 ^ 28) : s.segmentDue q = s := by
  simp [State.segmentDue, h]

/-- A running queue whose last SEGMENT is of another multiple gains one, where none is pending. -/
theorem State.segmentDue_crossed (hen : s.flag .EQ_CFG_EN q = true) (hd : s.domOn pdCtrl = true)
    (hseg : (s.eq q).seg ≠ s.nowUs / 2 ^ 28) (hwide : ((s.eq q).wide.any fun p => p.sub == 1) = false) :
    s.segmentDue q = ((s.onEq q fun e => { e with seg := s.nowUs / 2 ^ 28 }).onEq q fun e =>
      { e with wide := e.wide ++ [pendRec s.recSeq q 0 1 s.segParam false] }).onRecSeq (· + 1) := by
  have hnone : (((s.onEq q fun e => { e with seg := s.nowUs / 2 ^ 28 }).eq q).wide.any fun p => p.sub == subSegment) = false := by
    rw [State.eq_onEq_same]
    exact hwide
  have hdue : (s.eqRuns q && (s.eq q).seg != s.nowUs / 2 ^ 28) = true := by
    simpa [State.eqRuns, hen, hd] using hseg
  rw [State.segmentDue, if_pos hdue, State.formSegment, hnone]
  rfl

/-- A run of changes that have no effect. -/
theorem State.each_idle {α : Type} {f : State → α → State} {l : List α} (h : ∀ a ∈ l, f s a = s) : s.each l f = s := by
  induction l with
  | nil => rfl
  | cons a l ih =>
    change (f s a).each l f = s
    rw [h a List.mem_cons_self]
    exact ih fun b hb => h b (List.mem_cons_of_mem _ hb)

/-- A run of changes of which one alone has an effect. -/
theorem State.each_single {α : Type} {f : State → α → State} {l : List α} {a : α} (ha : a ∈ l) (hn : l.Nodup)
    (hbefore : ∀ b ∈ l, b ≠ a → f s b = s) (hafter : ∀ b ∈ l, b ≠ a → f (f s a) b = f s a) : s.each l f = f s a := by
  induction l with
  | nil => exact absurd ha List.not_mem_nil
  | cons b l ih =>
    obtain ⟨hb, hn⟩ := List.nodup_cons.1 hn
    rcases List.mem_cons.1 ha with rfl | ha
    · exact State.each_idle fun c hc => hafter c (List.mem_cons_of_mem _ hc) fun e => hb (e ▸ hc)
    · change (f s b).each l f = _
      rw [hbefore b List.mem_cons_self fun e => hb (e ▸ ha)]
      exact ih ha hn (fun c hc => hbefore c (List.mem_cons_of_mem _ hc)) fun c hc => hafter c (List.mem_cons_of_mem _ hc)

end

theorem exec_segmentBoundary (s : State) : exec .segmentBoundary s = .next (s.each (List.range 512) State.segmentDue) := rfl

/-! ### The write of a pending record (R154, R162) -/

/-- The queue has written a pending record in this cycle. -/
def State.markWrote (s : State) (q : Nat) : State := s.onEq q fun e => { e with wrote := some s.raw }

section
variable {s : State} {q : Nat}

theorem State.eqBusy_iff : s.eqBusy q = true ↔ (s.eq q).wrote = some s.raw := by simp [State.eqBusy]

theorem State.eqBusy_eq_false (h : (s.eq q).wrote ≠ some s.raw) : s.eqBusy q = false :=
  Bool.eq_false_iff.2 fun hb => h (State.eqBusy_iff.1 hb)

variable (hen : s.flag .EQ_CFG_EN q = true) (hd : s.domOn pdCtrl = true) (hseg : (s.eq q).seg = s.nowUs / 2 ^ 28)
include hen hd hseg

theorem State.eqWritePending_busy (hw : (s.eq q).wrote = some s.raw) : s.eqWritePending q = s := by
  simp [State.eqWritePending, State.segmentDue_current hseg, State.eqRuns, hen, hd, State.eqBusy_iff.2 hw]

variable (hw : (s.eq q).wrote ≠ some s.raw)
include hw

theorem State.eqWritePending_control {p : PendRec} {rest : List PendRec} (hp : s.eqPending q = p :: rest) :
    s.eqWritePending q = if 2 ^ s.rd .EQ_CFG_LOG2N q ≤ (s.eq q).recs.length then s
      else if s.ptrFails q then s.eqReset q 1 else
        State.markWrote ((s.dropPend p).eqPut q (p.data.toNat + s.rd .ERR_EPOCH (s.eqOwner q) * 2 ^ 32) 0 (p.seq == 0)) q := by
  simp [State.eqWritePending, State.segmentDue_current hseg, State.eqRuns, hen, hd, State.eqBusy_eq_false hw, hp, State.eqN,
    State.eqOcc, State.markWrote]

theorem State.eqWritePending_marker {m : QFull} (hp : s.eqPending q = []) (hm : (s.eq q).marker = some m) :
    s.eqWritePending q = if 2 ^ s.rd .EQ_CFG_LOG2N q ≤ (s.eq q).recs.length + 1 then s
      else if s.ptrFails q then s.eqReset q 1 else
        State.markWrote ((s.onEq q fun e => { e with marker := none }).eqPut q (qfullRecord m) 0 false) q := by
  simp [State.eqWritePending, State.segmentDue_current hseg, State.eqRuns, hen, hd, State.eqBusy_eq_false hw, hp, hm, State.eqN,
    State.eqOcc, State.markWrote]

end

theorem exec_eqPendingWrite (s : State) (q : Fin 512) : exec (.eqPendingWrite q false) s = .next (s.eqWritePending q.val) := rfl

/-! ### The commands of a queue -/

section
variable {s : State} {q : Fin 512}

theorem exec_eqReset {who : Agent} (hl : s.letIn who .EQ_CTRL_RESET q.val = .ok s) :
    exec (.eqReset who q) s = .next (if s.flag .EQ_CFG_EN q.val then s.eqReset q.val 2 else s) := by
  change execEqReset who q s = _
  rw [execEqReset, hl]
  exact (apply_ite Host.Outcome.next ..).symm

variable {c : Fin 16} {w : Word} (hl : s.letIn (.fw c) .EQ_CFG_EN q.val = .ok s) (hlo : 6 ≤ bits w.toNat 2 5)
  (hhi : bits w.toNat 2 5 ≤ 18)
include hl hlo hhi

theorem exec_eqEnable_fw (hen : s.flag .EQ_CFG_EN q.val = false) :
    exec (.eqEnable (.fw c) q w) s = .next ((s.eqTaken q.val w.toNat true).eqStart q.val) :=
  congrArg Host.Outcome.next (State.eqCfgWrite_fw true hl hlo hhi hen)

theorem exec_eqDisable_fw (hen : s.flag .EQ_CFG_EN q.val = true) :
    exec (.eqDisable (.fw c) q w) s = .next ((s.eqTaken q.val w.toNat false).eqDiscard q.val) :=
  congrArg Host.Outcome.next (State.eqCfgWrite_fw false hl hlo hhi hen)

end

section
variable (s : State) (q : Nat)

theorem State.eqDiscard_regs : (s.eqDiscard q).regs = ((s.wr .EQ_WP q 0).wr .EQ_RP q 0).regs := by
  obtain ⟨f, h⟩ := s.eqDiscard_cards q
  rw [h]
  rfl

theorem State.eqDiscard_eq_same : (s.eqDiscard q).eq q = { line := (s.eq q).line } := by
  obtain ⟨f, h⟩ := s.eqDiscard_cards q
  rw [h]
  change (s.bankDiscard q).eq q = _
  rw [State.bankDiscard, State.onMs_eq, State.eq_onEq_same]
  rfl

theorem State.eqDiscard_mem_tx : (s.eqDiscard q).mem = s.mem ∧ (s.eqDiscard q).tx = s.tx := by
  obtain ⟨f, h⟩ := s.eqDiscard_cards q
  rw [h]
  exact ⟨rfl, rfl⟩

theorem State.eqReset_pointers : (s.eqReset q 2).rd .EQ_WP q = 0 ∧ (s.eqReset q 2).rd .EQ_RP q = 0 ∧
    (s.eqReset q 2).rd .EQ_RESETS q = min (s.rd .EQ_RESETS q + 1) (2 ^ 16 - 1) := by
  have h := State.rd_congr (s.eqReset_regs q)
  have hwidth : Reg.EQ_RESETS.spec.width = 16 := rfl
  refine ⟨?_, ?_, ?_⟩
  · rw [h, State.count, State.rd_wr_other _ _ _ _ (by decide), s.pointers_wp q]
  · rw [h, State.count, State.rd_wr_other _ _ _ _ (by decide), s.pointers_rp q]
  · rw [h, State.count, State.rd_wr_same, s.rd_pointers (by decide) (by decide), satAdd, hwidth]
    omega

end

/-- Settles O22: a write of EQ_CFG or EQ_CTRL by what the start, the loss and the reset of a queue leave; the boundary by the one
queue that runs (`State.each_single`); a pending write by what comes first in the queue's order. -/
theorem eventQueueControl : Obligations.EventQueueControl := by
  unfold Obligations.EventQueueControl
  refine fun s c q => ⟨fun w hl hlo hhi => ⟨fun hen => ?enable, fun hen => ?disable⟩,
    fun who hl => ⟨fun hen => ?resetOff, fun hen => ?reset⟩,
    fun hothers hen hd => ⟨fun hseg => ?current, fun hseg hwide => ?crossed⟩, fun hen hd hseg => ⟨fun hw => ?busy,
      fun p rest hw hp => ⟨fun hfull => ?full, fun hroom => ⟨fun hptr => ?torn, fun hptr => ?control⟩⟩,
      fun m hw hp hm => ⟨fun hfull => ?markerFull, fun hroom hptr => ?marker⟩⟩⟩
  case enable =>
    obtain ⟨hflag, hwp, hrp⟩ := State.pointers_of_regs ((s.eqTaken q.val w.toNat true).eqStart_regs q.val)
    have heq := (s.eqTaken q.val w.toNat true).eqStart_eq q.val
    exact ⟨_, exec_eqEnable_fw hl hlo hhi hen, hflag.trans (s.eqTaken_en ..), hwp, hrp, by rw [heq], by rw [heq], by rw [heq],
      by rw [heq]; rfl, rfl, rfl⟩
  case disable =>
    obtain ⟨hflag, hwp, hrp⟩ := State.pointers_of_regs ((s.eqTaken q.val w.toNat false).eqDiscard_regs q.val)
    obtain ⟨hmem, htx⟩ := (s.eqTaken q.val w.toNat false).eqDiscard_mem_tx q.val
    exact ⟨_, exec_eqDisable_fw hl hlo hhi hen, hflag.trans (s.eqTaken_en ..), hwp, hrp, State.eqDiscard_eq_same ..,
      fun u hu => State.eqDiscard_pend _ _ hu, hmem, htx⟩
  case resetOff => rw [exec_eqReset hl, hen]; rfl
  case reset =>
    obtain ⟨hwp, hrp, hcount⟩ := s.eqReset_pointers q.val
    have heq := s.eqReset_eq q.val
    exact ⟨_, by rw [exec_eqReset hl, if_pos hen], hwp, hrp, hcount, by rw [heq], by rw [heq], by rw [heq], by rw [heq],
      rfl, rfl⟩
  case current =>
    rw [exec_segmentBoundary, State.each_idle fun i hi => ?_]
    by_cases hiq : i = q.val
    · exact hiq ▸ State.segmentDue_current hseg
    · exact State.segmentDue_off (hothers i (List.mem_range.1 hi) hiq)
  case crossed =>
    have hstep := State.segmentDue_crossed hen hd hseg hwide
    have hoff : ∀ i ∈ List.range 512, i ≠ q.val → s.flag .EQ_CFG_EN i = false := fun i hi => hothers i (List.mem_range.1 hi)
    rw [exec_segmentBoundary, State.each_single (List.mem_range.2 q.isLt) List.nodup_range
      (fun i hi hne => State.segmentDue_off (hoff i hi hne)) fun i hi hne => State.segmentDue_off ?_, hstep]
    rw [hstep]
    exact hoff i hi hne
  case busy => rw [exec_eqPendingWrite, State.eqWritePending_busy hen hd hseg hw]
  case full => rw [exec_eqPendingWrite, State.eqWritePending_control hen hd hseg hw hp, if_pos hfull]
  case torn => rw [exec_eqPendingWrite, State.eqWritePending_control hen hd hseg hw hp, if_neg (Nat.not_le.2 hroom), if_pos hptr]
  case control =>
    rw [exec_eqPendingWrite, State.eqWritePending_control hen hd hseg hw hp, if_neg (Nat.not_le.2 hroom), hptr]
    rfl
  case markerFull => rw [exec_eqPendingWrite, State.eqWritePending_marker hen hd hseg hw hp hm, if_pos hfull]
  case marker =>
    rw [exec_eqPendingWrite, State.eqWritePending_marker hen hd hseg hw hp hm, if_neg (Nat.not_le.2 hroom), hptr]
    rfl

/-! ### A record is written at WP (R152, R162, R266) -/

section
variable (s : State) (q : Nat)

theorem State.watermark_regs (pre : Nat) (quiet : Bool) : (s.watermark q pre quiet).regs = s.regs := by
  unfold State.watermark State.when State.signal
  dsimp only
  split_ifs <;> rfl

@[simp] theorem State.watermark_eq (p pre : Nat) (quiet : Bool) : (s.watermark q pre quiet).eq p = s.eq p := by
  unfold State.watermark State.when State.signal
  dsimp only
  split_ifs <;> rfl

theorem State.eqPut_regs (r pkt : Nat) (quiet : Bool) :
    (s.eqPut q r pkt quiet).regs = (s.wr .EQ_WP q (s.ptrAdd q (s.rd .EQ_WP q) 1)).regs := by
  rw [State.eqPut, State.watermark_regs]
  rfl

theorem State.eqPut_recs (r pkt : Nat) (quiet : Bool) :
    ((s.eqPut q r pkt quiet).eq q).recs = (s.eq q).recs ++ [⟨BitVec.ofNat 64 r, pkt⟩] := by
  simp [State.eqPut]

end

/-! ### An event record is offered (R154, R155, R585) -/

section
variable {s : State} {q : Nat}

theorem State.eqOpen_iff : s.eqOpen q = true ↔ s.eqPending q = [] ∧ (s.eq q).marker = none ∧ (s.eq q).wrote ≠ some s.raw ∧
    (s.eq q).recs.length + 1 < 2 ^ s.rd .EQ_CFG_LOG2N q := by
  simp only [State.eqOpen, State.eqBusy, Bool.and_eq_true, decide_eq_true_eq, List.isEmpty_iff, Option.isNone_iff_eq_none,
    Bool.not_eq_true', beq_eq_false_iff_ne, and_assoc]
  rfl

variable (hd : s.domOn pdCtrl = true) (hseg : (s.eq q).seg = s.nowUs / 2 ^ 28)
include hd hseg

theorem State.offerEvent_off (hen : s.flag .EQ_CFG_EN q = false) (r : Nat) (t : Int) (pkt : Nat) :
    s.offerEvent q r t pkt = (false, s.count .EQ_DROPS q) := by
  simp [State.offerEvent, State.segmentDue_current hseg, hd, hen]

variable (hen : s.flag .EQ_CFG_EN q = true)
include hen

theorem State.offerEvent_open (ho : s.eqOpen q = true) (r : Nat) (t : Int) (pkt : Nat) :
    s.offerEvent q r t pkt = if s.ptrFails q then (false, s.eqReset q 1) else (true, s.eqPut q r pkt false) := by
  simp [State.offerEvent, State.segmentDue_current hseg, hd, hen, ho]

theorem State.offerEvent_dropped (ho : s.eqOpen q = false) (r : Nat) (t : Int) (pkt : Nat) :
    s.offerEvent q r t pkt =
      (false, (s.onEq q fun e => { e with marker := some (QFull.drop e.marker t) }).count .EQ_DROPS q) := by
  simp [State.offerEvent, State.segmentDue_current hseg, hd, hen, ho]

end

theorem QFull.drop_some {m : QFull} {b : Int} (h : m.firstT = some b) (t : Int) :
    QFull.drop (some m) t = { m with count := min (m.count + 1) 0xFFFF, span := max m.span (min (t - b).toNat 0x3FFF) } := by
  simp [QFull.drop, h]

/-- Settles O23: an offered record by whether its queue is enabled and may write it; one that is written moves WP alone. -/
theorem eventRecordAcceptance : Obligations.EventRecordAcceptance := by
  unfold Obligations.EventRecordAcceptance
  refine fun s q r t pkt hd hseg => ⟨fun hen => State.offerEvent_off hd hseg hen r t pkt,
    fun hen hp hm hw hroom hptr => ?torn, fun hen hp hm hw hroom hptr _ => ?written, fun hen hc => ?dropped, rfl,
    fun m b hb => ?later⟩
  case torn => rw [State.offerEvent_open hd hseg hen (State.eqOpen_iff.2 ⟨hp, hm, hw, hroom⟩), if_pos hptr]
  case written =>
    have hother : ∀ k, k ≠ .EQ_WP → (s.eqPut q r pkt false).rd k q = s.rd k q := fun k hk => by
      rw [State.rd_congr (s.eqPut_regs ..), State.rd_wr_other _ _ _ _ hk]
    refine ⟨s.eqPut q r pkt false, ?_, s.eqPut_recs .., ?_, hother _ (by decide), hother _ (by decide),
      State.mem_of_linkSide (s.eqPut_linkSide ..)⟩
    · rw [State.offerEvent_open hd hseg hen (State.eqOpen_iff.2 ⟨hp, hm, hw, hroom⟩), hptr]
      rfl
    · rw [State.rd_congr (s.eqPut_regs ..), State.rd_wr_same]
      rfl
  case dropped =>
    refine State.offerEvent_dropped hd hseg hen (Bool.eq_false_iff.2 fun ho => ?_) r t pkt
    obtain ⟨hp, hm, hw, hroom⟩ := State.eqOpen_iff.1 ho
    rcases hc with h | h | h | h
    · exact h hp
    · exact h hm
    · exact hw h
    · omega
  case later =>
    rw [QFull.drop_some hb]
    exact ⟨rfl, rfl, rfl⟩

/-! ### The next pixel event (R137, R140, R141, R144) -/

section
variable {s : State}

/-- No word waits before the next pixel event. -/
theorem State.cardDrain_idle {u : Nat} (h : (s.card u).inbox.takeWhile CardWord.other = []) : s.cardDrain u = s := by
  simp [State.cardDrain, h]

/-- A pixel of a slot that runs past its warm-up is masked as a hot one or filtered. -/
theorem State.cardPixel_running {slot : Nat} {r : RunSt} (hs : (s.slot slot).stopped = none) (hr : (s.slot slot).run = some r)
    (hw : r.warmEnd = none) (i w : Nat) (b : Bool) :
    s.cardPixel slot i w .clean b =
      if (s.card (unitOfSlot slot)).hot.contains (slot, bits w 19 11, bits w 8 11) then s.cardCount (unitOfSlot slot) 0
      else s.cardFilter slot i (bits w 19 11) (bits w 8 11) (bit w 30) (s.eventTime slot i (bits w 0 8)) b := by
  have hclean : (EccResult.clean == .corrected) = false := rfl
  simp [State.cardPixel, hclean, hs, hr, hw]

/-- The unit takes the one word in its inbox, a pixel event of a slot that runs past its warm-up. -/
theorem exec_cardEvent_running {u : Fin 8} {slot i : Nat} {w : Word} {r : RunSt} (hl : s.cardLive u.val = true)
    (hin : (s.card u.val).inbox = [.pixel slot i w]) (hu : unitOfSlot slot = u.val) (hs : (s.slot slot).stopped = none)
    (hr : (s.slot slot).run = some r) (hw : r.warmEnd = none) (b : Bool) :
    let s0 := s.onCard u.val fun c => { c with inbox := [] }
    exec (.cardEvent u .clean b) s = .next (State.cardDrain (
      if (s.card u.val).hot.contains (slot, bits w.toNat 19 11, bits w.toNat 8 11) then s0.cardCount u.val 0
      else s0.cardFilter slot i (bits w.toNat 19 11) (bits w.toNat 8 11) (bit w.toNat 30)
        (s.eventTime slot i (bits w.toNat 0 8)) b) u.val) := by
  have hidle : s.cardDrain u.val = s := State.cardDrain_idle (by rw [hin]; rfl)
  have hpix := State.cardPixel_running (s := s.onCard u.val fun c => { c with inbox := [] }) hs hr hw i w.toNat b
  rw [hu, State.card_onCard_same] at hpix
  change execCardEvent u .clean b s = _
  simp only [execCardEvent, hl, hidle, hin, hpix]
  rfl

/-- With the filter and rectification off and the Kerb copy taken after stage 4, an event goes on at its raw place. -/
theorem State.cardFilter_off {slot : Nat} (hbaf : s.flag .SLOT_BAF_EN slot = false) (hrect : s.flag .SLOT_RECT_EN slot = false)
    (hraw : s.flag .CARD_CTRL_KCOPY_RAW (unitOfSlot slot) = false) (i x y : Nat) (pol : Bool) (t : Int) (b : Bool) :
    s.cardFilter slot i x y pol t b =
      ((s.touch slot x y t).kerbCopy slot x y pol t).cardOffer slot i x y pol t b := by
  have hrect' : (s.touch slot x y t).rectify slot x y = some (x, y) := by
    simp [State.rectify, State.touch, hrect]
  simp [State.cardFilter, hraw, hbaf, hrect']

/-! ### The end of warm-up (R143) -/

theorem exec_warmupEndTimeout {slot : Fin 256} {r : RunSt} {e : Nat} (hr : (s.slot slot.val).run = some r)
    (hw : r.warmEnd = some e) (hl : s.cardLive (unitOfSlot slot.val) = true) (he : e + 2500 ≤ s.nowUs) :
    exec (.warmupEndTimeout slot) s = .next (s.formFilter slot.val e) := by
  change execWarmupEndTimeout slot s = _
  simp [execWarmupEndTimeout, hr, hw, hl, he, done]

end

/-! ### The scrub of the activity words (R142) -/

/-- A table lists each key once, so an entry is what its key reads as. -/
theorem Table.get_of_mem {α : Type} (d : α) {t : Table α} (hn : (t.map Prod.fst).Nodup) {e : Nat × α} (he : e ∈ t) :
    Table.get d t e.1 = e.2 := by
  induction t with
  | nil => exact absurd he List.not_mem_nil
  | cons f t ih =>
    obtain ⟨hf, hn⟩ := List.nodup_cons.1 hn
    rw [Table.get_cons]
    rcases List.mem_cons.1 he with rfl | he
    · exact if_pos rfl
    · rw [if_neg fun h : f.1 = e.1 => hf (h ▸ List.mem_map_of_mem he)]
      exact ih hn he

theorem Table.get_of_not_mem {α : Type} (d : α) {t : Table α} {k : Nat} (h : k ∉ t.map Prod.fst) : Table.get d t k = d := by
  induction t with
  | nil => rfl
  | cons f t ih =>
    simp only [List.map_cons, List.mem_cons, not_or] at h
    rw [Table.get_cons, if_neg (Ne.symm h.1)]
    exact ih h.2

/-- What the scrub makes of an activity word at microsecond time `us`: VALID is cleared where it has aged past the limit and is
no word a little ahead of time. -/
def scrubWord (us v : Nat) : Nat :=
  if bit v 15 = true ∧ 16384 < (us / 4 + 2 ^ 15 - v % 2 ^ 15) % 2 ^ 15 ∧
      (us / 4 + 2 ^ 15 - v % 2 ^ 15) % 2 ^ 15 < 2 ^ 15 - 256 then v % 2 ^ 15 else v

/-- One entry's turn in the scrub. -/
def scrubEntry (us : Nat) (t : Table Nat) (e : Nat × Nat) : Table Nat :=
  if bit e.2 15 && 16384 < (us / 4 + 2 ^ 15 - e.2 % 2 ^ 15) % 2 ^ 15 &&
      (us / 4 + 2 ^ 15 - e.2 % 2 ^ 15) % 2 ^ 15 < 2 ^ 15 - 256 then
    Table.set 0 t e.1 (e.2 % 2 ^ 15)
  else t

theorem exec_bafScrub (s : State) (u : Fin 8) :
    exec (.bafScrub u) s = .next (s.onCard u.val fun c => { c with act := c.act.foldl (scrubEntry s.nowUs) c.act }) := rfl

@[simp] theorem scrubWord_zero (us : Nat) : scrubWord us 0 = 0 := by simp [scrubWord]

theorem get_scrubEntry_same {us : Nat} {t : Table Nat} {e : Nat × Nat} (h : Table.get 0 t e.1 = e.2) :
    Table.get 0 (scrubEntry us t e) e.1 = scrubWord us e.2 := by
  simp only [scrubEntry, scrubWord, Bool.and_eq_true, decide_eq_true_eq, and_assoc]
  split
  · exact Table.get_set_same ..
  · exact h

theorem get_scrubEntry_other (us : Nat) (t : Table Nat) {e : Nat × Nat} {k : Nat} (h : k ≠ e.1) :
    Table.get 0 (scrubEntry us t e) k = Table.get 0 t k := by
  unfold scrubEntry
  split
  · exact Table.get_set_other _ _ _ _ h
  · rfl

/-- The scrub of a list of entries, each as it stands in the table, comes to every key it lists once and to no other. -/
theorem get_scrub (us : Nat) (l : List (Nat × Nat)) (k : Nat) : ∀ t : Table Nat, (l.map Prod.fst).Nodup →
    (∀ e ∈ l, Table.get 0 t e.1 = e.2) →
      Table.get 0 (l.foldl (scrubEntry us) t) k =
        if k ∈ l.map Prod.fst then scrubWord us (Table.get 0 t k) else Table.get 0 t k := by
  induction l with
  | nil => intro t _ _; simp
  | cons e l ih =>
    intro t hn hl
    obtain ⟨he, hn⟩ := List.nodup_cons.1 hn
    have hrest : ∀ f ∈ l, Table.get 0 (scrubEntry us t e) f.1 = f.2 := fun f hf => by
      rw [get_scrubEntry_other us t fun h => he (h ▸ List.mem_map_of_mem hf)]
      exact hl f (List.mem_cons_of_mem _ hf)
    rw [List.foldl_cons, ih _ hn hrest]
    by_cases hk : k = e.1
    · subst hk
      simp [he, get_scrubEntry_same (hl e List.mem_cons_self), hl e List.mem_cons_self]
    · have hmem : k ∈ (e :: l).map Prod.fst ↔ k ∈ l.map Prod.fst := by simp [hk]
      rw [get_scrubEntry_other us t hk, if_congr hmem rfl rfl]

theorem get_scrub_table (us : Nat) {t : Table Nat} (h : Table.wf 0 t) (k : Nat) :
    Table.get 0 (t.foldl (scrubEntry us) t) k = scrubWord us (Table.get 0 t k) := by
  have hn : (t.map Prod.fst).Nodup := h.1.imp fun hlt => Nat.ne_of_lt hlt
  rw [get_scrub us t k t hn fun e he => Table.get_of_mem 0 hn he]
  split
  · rfl
  · next hk => rw [Table.get_of_not_mem 0 hk, scrubWord_zero]

/-- Settles O24: a pixel event by the stages it comes to, the end of warm-up as it forms FILTER, the scrub entry by entry
(`get_scrub`). -/
theorem cardingStages : Obligations.CardingStages := by
  unfold Obligations.CardingStages
  refine fun s u => ⟨fun slot i w r b hl hin hu hs hr hw => ⟨fun hhot => ?hot, fun hhot hbaf hrect hraw => ?passed⟩,
    fun slot r e hr hw hl he => ?warm, fun hwf => ⟨_, exec_bafScrub s u, rfl, rfl, fun k => ?scrub⟩⟩
  case hot =>
    rw [exec_cardEvent_running hl hin hu hs hr hw, if_pos hhot, State.cardDrain_idle]
    · rfl
    · rw [State.cardCount, State.count_card, State.card_onCard_same]
      rfl
  case passed =>
    rw [exec_cardEvent_running hl hin hu hs hr hw, if_neg (Bool.eq_false_iff.1 hhot),
      State.cardFilter_off (by simpa using hbaf) (by simpa using hrect) (by simpa [hu] using hraw)]
  case warm =>
    rw [exec_warmupEndTimeout hr hw hl he, State.formFilter,
      State.onSlot_congr (g := fun x => { x with run := some { r with warmEnd := none } }) (by rw [hr]; rfl)]
    rfl
  case scrub =>
    rw [State.card_onCard_same]
    exact get_scrub_table s.nowUs hwf k

end Sys2Proof.Machine
end

section
/-!
PROOFS of the statements of `spec/06_fuller_surfaces.md` in this row: the Fuller at work (O25).
-/
namespace Sys2Proof.Machine

/-! ### Nap words (R168, R172) -/

/-- A Nap word as its two bytes. -/
theorem State.ldNap_eq (s : State) (w : Nat) :
    s.ldNap w = (s.ldByte .nap (2 * w)).toNat + 256 * (s.ldByte .nap (2 * w + 1)).toNat := by
  simp [State.ldNap, State.ldLe, State.ldBytes, List.range_succ, ofLe]

/-- A store of a Nap word as that of its two bytes. -/
theorem State.stNap_eq (s : State) (w v : Nat) :
    s.stNap w v = (s.stByte .nap (2 * w) (BitVec.ofNat 8 v)).stByte .nap (2 * w + 1) (BitVec.ofNat 8 (v / 256)) := rfl

theorem State.ldNap_stNap_same (s : State) (w : Nat) {v : Nat} (hv : v < 2 ^ 16) : (s.stNap w v).ldNap w = v := by
  rw [State.ldNap_eq, State.stNap_eq, State.ldByte_stByte_same, State.ldByte_stByte_other _ _ _ _ _ _ (by omega),
    State.ldByte_stByte_same, BitVec.toNat_ofNat, BitVec.toNat_ofNat]
  omega

theorem State.ldNap_stNap_other (s : State) {w b : Nat} (v : Nat) (h : b ≠ w) : (s.stNap w v).ldNap b = s.ldNap b := by
  simp only [State.ldNap_eq, State.stNap_eq]
  rw [State.ldByte_stByte_other _ _ _ _ _ _ (by omega), State.ldByte_stByte_other _ _ _ _ _ _ (by omega),
    State.ldByte_stByte_other _ _ _ _ _ _ (by omega), State.ldByte_stByte_other _ _ _ _ _ _ (by omega)]

/-- A stamp that needs neither a new base nor a rebase, and is not below the code held, is stored as its code (R172). -/
theorem State.writeStamp_stored {s : State} {i t px time : Nat} {pol : Bool} (hf : (s.tile i t).fresh = false)
    (hb : (s.tile i t).base ≤ time) (hc : (time - (s.tile i t).base) / s.subQ i ≤ 0xFFFE)
    (hh : s.ldNap (s.napAddr i t px (s.planeOf i pol)) = never ∨
      s.ldNap (s.napAddr i t px (s.planeOf i pol)) ≤ (time - (s.tile i t).base) / s.subQ i) :
    s.writeStamp i t px pol time =
      s.stNap (s.napAddr i t px (s.planeOf i pol)) ((time - (s.tile i t).base) / s.subQ i) := by
  simp only [State.writeStamp, hf, Bool.false_eq_true, if_false, if_neg (Nat.not_lt.2 hc), if_pos (And.intro hb hh)]

/-- Every pixel of a FRESH tile reads as 0, and none counts FUT_READ (R171). -/
theorem State.readPlane_fresh {s : State} {i t : Nat} (hf : (s.tile i t).fresh = true) (k ref fmt : Nat) :
    s.readPlane i t k ref fmt = (List.replicate 256 (elementOf fmt 0), 0) := by
  simp only [State.readPlane, hf, Bool.true_or, if_true, List.map_map, Function.comp_def, List.map_const', List.length_range]
  rw [List.filter_replicate_of_neg (by simp), List.map_replicate, List.length_nil]

/-! ### Feature batts (R267) -/

section
variable (s : State)

@[simp] theorem State.sub_onSub_same (i : Nat) (f : SubSt → SubSt) : (s.onSub i f).sub i = f (s.sub i) := Table.get_upd_same ..

theorem State.batt_onBatt_same (i : Nat) (f : BattSt → BattSt) : (s.onBatt false i f).batt false i = f (s.batt false i) :=
  Table.get_upd_same ..

variable {s}

theorem exec_featPop_null {core : Fin 16} {sub : Fin 64} (hl : s.fulLive = true)
    (h : core.val / 2 ≠ (s.sub sub.val).spur ∨ (s.sub sub.val).fifo = []) :
    exec (.featPop core sub) s = .next (s.emit (.featHandle core.val sub.val 0)) := by
  have hnone : (if core.val / 2 = (s.sub sub.val).spur then (s.sub sub.val).fifo else []) = [] := by
    split
    · exact h.resolve_left (not_not_intro ‹_›)
    · rfl
  change execFeatPop core sub s = _
  simp only [execFeatPop, hl, hnone, Bool.not_true, Bool.false_eq_true, if_false]
  rfl

theorem exec_featPop_head {core : Fin 16} {sub : Fin 64} {h : Nat} {rest : List Nat} (hl : s.fulLive = true)
    (hsp : core.val / 2 = (s.sub sub.val).spur) (hf : (s.sub sub.val).fifo = h :: rest) :
    exec (.featPop core sub) s =
      .next (((s.onSub sub.val fun x => { x with fifo := rest }).onBatt false (hIndex h) fun b =>
        { b with owner := some (core.val, (s.sub sub.val).spur) }).emit (.featHandle core.val sub.val h)) := by
  change execFeatPop core sub s = _
  simp only [execFeatPop, hl, hsp, hf, Bool.not_true, Bool.false_eq_true, if_false, if_true]
  rfl

end

/-! ### Tile reads of the DMA (R176) -/

section
variable (s : State)

/-- A tile read changes no more than a counter. -/
theorem State.readTile_count (i t ref win fmt : Nat) :
    (s.readTile i t ref win fmt).2.2 = s ∨ ∃ n, (s.readTile i t ref win fmt).2.2 = s.count .FUL_CNT 2 n := by
  unfold State.readTile
  dsimp only
  split
  · exact .inr ⟨_, rfl⟩
  · exact .inl rfl

theorem State.readTile_mem (i t ref win fmt : Nat) : (s.readTile i t ref win fmt).2.2.mem = s.mem := by
  obtain h | ⟨n, h⟩ := s.readTile_count i t ref win fmt <;> rw [h]
  rfl

theorem State.readTile_xfers (i t ref win fmt m ch : Nat) : (s.readTile i t ref win fmt).2.2.xfers m ch = s.xfers m ch := by
  obtain h | ⟨n, h⟩ := s.readTile_count i t ref win fmt <;> rw [h]
  rfl

theorem State.xfers_onXfers_same (m ch : Nat) (f : List Xfer → List Xfer) : (s.onXfers m ch f).xfers m ch =
    f (s.xfers m ch) := by
  simp only [State.xfers, State.onXfers, State.onMill, State.mill, State.onMills_mills, Table.get_upd_same]

variable {s}

/-- The one transfer of a channel takes its next tile. -/
theorem State.readDmaTile_next {m ch u : Nat} {x : Xfer} {rest : List Nat} (hx : s.xfers m ch = [x]) (ht : x.todo = u :: rest) :
    let r := s.readTile (ddSub x.desc) u (extendRef s.nowUs (bits (ddSrc x.desc) 24 40)) (ddLen x.desc) (ddFmt x.desc)
    s.readDmaTile m ch = r.2.2.onXfers m ch fun l =>
      l.set 0 { x with todo := rest, got := x.got ++ [(u, r.1)], tag := x.tag ||| r.2.1 } := by
  have hi : [x].findIdx? (fun x => !x.todo.isEmpty) = some 0 := by simp [ht]
  simp only [State.readDmaTile, hx, hi, List.getElem?_cons_zero, ht]

theorem exec_tileRead_dma {m : Fin 128} (hf : s.fulLive = true) (hm : s.millLive m.val = true) (ch : Fin 4) :
    exec (.tileRead m (.dma ch) []) s = .next (s.readDmaTile m.val ch.val) := by
  change execTileRead m (.dma ch) [] s = _
  simp only [execTileRead, hf, hm, Bool.not_true, Bool.or_self, Bool.false_eq_true, if_false]
  rfl

end

/-! ### What the work of the Fuller leaves alone

What the Fuller asks of the buffer pools, of the Milestone unit and of the Ego unit comes back neither to it nor to the event
queues (`fullerSide`). What it does itself to its subscriptions leaves the queues, the rotation and WIN_NUM (`lineSide`). -/

/-- The queues, the Fuller, the read pointers of the queues and the window numbers of the subscriptions. -/
def State.fullerSide (s : State) : Table EqSt × FulSt × (Nat → Nat) × (Nat → Nat) :=
  (s.eqs, s.ful, fun q => s.rd .EQ_RP q, fun i => s.rd .SUB_WIN_NUM i)

theorem State.fullerSide_of {s t : State} (he : t.eqs = s.eqs) (hf : t.ful = s.ful) (hr : t.regs = s.regs) :
    t.fullerSide = s.fullerSide := by
  simp only [State.fullerSide, he, hf, State.rd_congr hr]

section
variable (s : State)

@[simp] theorem State.wr_fullerSide {r : Reg} (hp : r ≠ .EQ_RP) (hn : r ≠ .SUB_WIN_NUM) (i v : Nat) :
    (s.wr r i v).fullerSide = s.fullerSide := by
  simp only [State.fullerSide, State.rd_wr_other _ _ _ _ hp.symm, State.rd_wr_other _ _ _ _ hn.symm]
  rfl

@[simp] theorem State.put_fullerSide {r : Reg} (hp : r ≠ .EQ_RP) (hn : r ≠ .SUB_WIN_NUM) (i : Nat) (b : Bool) :
    (s.put r i b).fullerSide = s.fullerSide := s.wr_fullerSide hp hn i _

@[simp] theorem State.count_fullerSide {r : Reg} (hp : r ≠ .EQ_RP) (hn : r ≠ .SUB_WIN_NUM) (i n : Nat) :
    (s.count r i n).fullerSide = s.fullerSide := s.wr_fullerSide hp hn i _

@[simp] theorem State.onMem_fullerSide (f : List Host.Cell → List Host.Cell) : (s.onMem f).fullerSide = s.fullerSide :=
  State.fullerSide_of rfl rfl rfl
@[simp] theorem State.onFree_fullerSide (f : Nat → Nat) : (s.onFree f).fullerSide = s.fullerSide :=
  State.fullerSide_of rfl rfl rfl
@[simp] theorem State.onTx_fullerSide (f : List Tx → List Tx) : (s.onTx f).fullerSide = s.fullerSide :=
  State.fullerSide_of rfl rfl rfl
@[simp] theorem State.onFns_fullerSide (f : Table FnSt → Table FnSt) : (s.onFns f).fullerSide = s.fullerSide :=
  State.fullerSide_of rfl rfl rfl
@[simp] theorem State.onErrs_fullerSide (f : Table ErrRing → Table ErrRing) : (s.onErrs f).fullerSide = s.fullerSide :=
  State.fullerSide_of rfl rfl rfl
@[simp] theorem State.onMs_fullerSide (f : MsSt → MsSt) : (s.onMs f).fullerSide = s.fullerSide :=
  State.fullerSide_of rfl rfl rfl
@[simp] theorem State.onMail_fullerSide (f : MailSt → MailSt) : (s.onMail f).fullerSide = s.fullerSide :=
  State.fullerSide_of rfl rfl rfl
@[simp] theorem State.onFt_fullerSide (f : FtSt → FtSt) : (s.onFt f).fullerSide = s.fullerSide :=
  State.fullerSide_of rfl rfl rfl

@[simp] theorem State.ite_fullerSide (p : Prop) [Decidable p] (t : State) :
    (if p then s else t).fullerSide = if p then s.fullerSide else t.fullerSide := apply_ite _ _ _ _

@[simp] theorem State.each_fullerSide {α : Type} {f : State → α → State} (hf : ∀ s a, (f s a).fullerSide = s.fullerSide)
    (l : List α) : (s.each l f).fullerSide = s.fullerSide := State.each_same State.fullerSide f hf l s

@[simp] theorem State.when_fullerSide {f : State → State} (hf : ∀ s, (f s).fullerSide = s.fullerSide) (c : Bool) :
    (s.when c f).fullerSide = s.fullerSide := by
  cases c
  · rfl
  · exact hf s

@[simp] theorem State.stBytes_fullerSide (p : Space) (a : Nat) (l : List Byte) : (s.stBytes p a l).fullerSide = s.fullerSide := by
  induction l generalizing s a with
  | nil => rfl
  | cons b l ih => exact (ih _ _).trans (s.onMem_fullerSide _)

@[simp] theorem State.stLe_fullerSide (p : Space) (a n v : Nat) : (s.stLe p a n v).fullerSide = s.fullerSide :=
  s.stBytes_fullerSide ..

@[simp] theorem State.stSpur_fullerSide (sp a : Nat) (l : List Byte) : (s.stSpur sp a l).fullerSide = s.fullerSide := by
  induction l generalizing s a with
  | nil => rfl
  | cons b l ih =>
    refine (ih _ _).trans ?_
    split
    · exact s.onMem_fullerSide _
    · rfl

end

/-! #### Reports and commands in flight -/

section
variable (s : State)

@[simp] theorem State.post_fullerSide (f : Nat) (p : HostPost) : (s.post f p).fullerSide = s.fullerSide := by
  simp [State.post, State.request, State.emit, State.onFn]

@[simp] theorem State.irq_fullerSide (f v : Nat) : (s.irq f v).fullerSide = s.fullerSide := by
  simp [State.irq, State.onFn]

@[simp] theorem State.recordTo_fullerSide (dst owner : Nat) (t : ErrType) (unit : Nat) (detail : List Nat) :
    (s.recordTo dst owner t unit detail).fullerSide = s.fullerSide := by
  simp [State.recordTo]

@[simp] theorem State.record2_fullerSide (owner : Nat) (t : ErrType) (unit : Nat) (detail : List Nat) :
    (s.record2 owner t unit detail).fullerSide = s.fullerSide := by
  simp [State.record2]

@[simp] theorem State.signal_fullerSide (ms sp n : Nat) (src : SigSrc) : (s.signal ms sp n src).fullerSide = s.fullerSide :=
  s.onMs_fullerSide _

@[simp] theorem State.onBatt_fullerSide (long : Bool) (i : Nat) (f : BattSt → BattSt) :
    (s.onBatt long i f).fullerSide = s.fullerSide := s.onMs_fullerSide _

@[simp] theorem State.freeBatt_fullerSide (long : Bool) (i : Nat) : (s.freeBatt long i).fullerSide = s.fullerSide := by
  unfold State.freeBatt
  split
  · rfl
  · simp

@[simp] theorem State.freeHandle_fullerSide (h : Nat) : (s.freeHandle h).fullerSide = s.fullerSide := by
  simp [State.freeHandle]

@[simp] theorem State.drain_fullerSide (mb : Nat) : (s.drain mb).fullerSide = s.fullerSide := by
  simp [State.drain, State.setMbState]

@[simp] theorem State.complete_fullerSide (mb : Nat) (c : Cmd) (st detail result stamp : Nat) :
    (s.complete mb c st detail result stamp).fullerSide = s.fullerSide := by
  unfold State.complete
  extract_lets s₁ s₂ s₃ s₄ s₅ b u₁ u₂ u₃ u₄
  have h : s₅.fullerSide = s.fullerSide := by simp [s₅, s₄, s₃, s₂, s₁, State.onCmds]
  split
  · simp [h]
  · have hu : u₁.fullerSide = s₅.fullerSide := by simp [u₁]
    have hk : u₄.fullerSide = u₁.fullerSide := by simp [u₄, u₃, u₂]
    simp [hk, hu, h]

@[simp] theorem State.finish_fullerSide (mb : Nat) (c : Cmd) (st detail result : Nat) :
    (s.finish mb c st detail result).fullerSide = s.fullerSide := by
  simp [State.finish, State.claimTimeout]

end

/-! #### The buffer pools -/

section
variable (s : State)

@[simp] theorem State.dropPoolWaiter_fullerSide (long : Bool) (w : BWaiter) : (s.dropPoolWaiter long w).fullerSide =
    s.fullerSide := by
  simp [State.dropPoolWaiter, State.onWaitq, State.waitqRegs]

@[simp] theorem State.grant_fullerSide (long : Bool) (agent sp : Nat) : (s.grant long agent sp).2.fullerSide = s.fullerSide := by
  unfold State.grant
  dsimp only
  split <;> simp [State.fresh, State.noteGrant]

@[simp] theorem State.battReply_fullerSide (dst : BTo) (code h : Nat) : (s.battReply dst code h).fullerSide = s.fullerSide := by
  unfold State.battReply
  split
  · exact s.onTx_fullerSide _
  · split <;> simp

@[simp] theorem State.serveWaiters_fullerSide (long : Bool) : (s.serveWaiters long).fullerSide = s.fullerSide := by
  simp [State.serveWaiters]

@[simp] theorem State.battTake_fullerSide (sp : Nat) : (s.battTake sp).2.fullerSide = s.fullerSide := by
  unfold State.battTake
  dsimp only
  split <;> simp

end

/-! #### The Ego unit -/

section
variable (s : State)

@[simp] theorem State.onEgo_fullerSide (i : Nat) (f : EgoSt → EgoSt) : (s.onEgo i f).fullerSide = s.fullerSide :=
  s.onFt_fullerSide _

@[simp] theorem State.egoZero_fullerSide (slot : Nat) : (s.egoZero slot).fullerSide = s.fullerSide := by
  simp [State.egoZero]

@[simp] theorem State.suspend_fullerSide (slot st : Nat) : (s.suspend slot st).fullerSide = s.fullerSide := by
  simp [State.suspend]

@[simp] theorem State.egoUpdate_fullerSide (slot len : Nat) (x : List FVal) (sigma : FVal) :
    (s.egoUpdate slot len x sigma).fullerSide = s.fullerSide := by
  simp [State.egoUpdate]

@[simp] theorem State.egoSolve_fullerSide (slot win a b : Nat) : (s.egoSolve slot win a b).fullerSide = s.fullerSide := by
  unfold State.egoSolve
  dsimp only
  split
  · rfl
  · split
    · simp
    · split <;> simp
    · simp

end

/-! #### Subscriptions -/

/-- The queues, where the rotation of R165 stands, the read pointers and the window numbers: what the Fuller's work on its
subscriptions leaves alone. -/
def State.lineSide (s : State) : Table EqSt × Nat × (Nat → Nat) × (Nat → Nat) :=
  (s.eqs, s.ful.turn, fun q => s.rd .EQ_RP q, fun i => s.rd .SUB_WIN_NUM i)

theorem State.lineSide_congr {s t : State} (h : t.fullerSide = s.fullerSide) : t.lineSide = s.lineSide :=
  congrArg (fun p => (p.1, p.2.1.turn, p.2.2)) h

theorem State.lineSide_of {s t : State} (he : t.eqs = s.eqs) (hf : t.ful.turn = s.ful.turn) (hr : t.regs = s.regs) :
    t.lineSide = s.lineSide := by
  simp only [State.lineSide, he, hf, State.rd_congr hr]

theorem State.sub_congr {s t : State} (h : t.fullerSide = s.fullerSide) (i : Nat) : t.sub i = s.sub i := by
  have hf : t.ful = s.ful := congrArg (fun p => p.2.1) h
  simp only [State.sub, hf]

section
variable (s : State)

@[simp] theorem State.onSub_lineSide (i : Nat) (f : SubSt → SubSt) : (s.onSub i f).lineSide = s.lineSide :=
  State.lineSide_of rfl rfl rfl
@[simp] theorem State.onTile_lineSide (i t : Nat) (f : TileSt → TileSt) : (s.onTile i t f).lineSide = s.lineSide :=
  State.lineSide_of rfl rfl rfl

@[simp] theorem State.count_lineSide {r : Reg} (hp : r ≠ .EQ_RP) (hn : r ≠ .SUB_WIN_NUM) (i n : Nat) :
    (s.count r i n).lineSide = s.lineSide := State.lineSide_congr (s.count_fullerSide hp hn i n)

@[simp] theorem State.stLe_lineSide (p : Space) (a n v : Nat) : (s.stLe p a n v).lineSide = s.lineSide :=
  State.lineSide_congr (s.stLe_fullerSide p a n v)

@[simp] theorem State.stNap_lineSide (w v : Nat) : (s.stNap w v).lineSide = s.lineSide := State.lineSide_of rfl rfl rfl
@[simp] theorem State.zero_lineSide (p : Space) (a n : Nat) : (s.zero p a n).lineSide = s.lineSide :=
  State.lineSide_of rfl rfl rfl
@[simp] theorem State.onBatt_lineSide (long : Bool) (i : Nat) (f : BattSt → BattSt) : (s.onBatt long i f).lineSide = s.lineSide :=
  State.lineSide_of rfl rfl rfl
@[simp] theorem State.signal_lineSide (ms sp n : Nat) (src : SigSrc) : (s.signal ms sp n src).lineSide = s.lineSide :=
  State.lineSide_of rfl rfl rfl
@[simp] theorem State.onEgo_lineSide (i : Nat) (f : EgoSt → EgoSt) : (s.onEgo i f).lineSide = s.lineSide :=
  State.lineSide_of rfl rfl rfl

@[simp] theorem State.egoZero_lineSide (slot : Nat) : (s.egoZero slot).lineSide = s.lineSide :=
  State.lineSide_congr (s.egoZero_fullerSide slot)

@[simp] theorem State.freeHandle_lineSide (h : Nat) : (s.freeHandle h).lineSide = s.lineSide :=
  State.lineSide_congr (s.freeHandle_fullerSide h)

@[simp] theorem State.ite_lineSide (p : Prop) [Decidable p] (t : State) :
    (if p then s else t).lineSide = if p then s.lineSide else t.lineSide := apply_ite _ _ _ _

@[simp] theorem State.each_lineSide {α : Type} {f : State → α → State} (hf : ∀ s a, (f s a).lineSide = s.lineSide)
    (l : List α) : (s.each l f).lineSide = s.lineSide := State.each_same State.lineSide f hf l s

@[simp] theorem State.when_lineSide {f : State → State} (hf : ∀ s, (f s).lineSide = s.lineSide) (c : Bool) :
    (s.when c f).lineSide = s.lineSide := by
  cases c
  · rfl
  · exact hf s

end

/-! #### Marks, flags and stamps -/

section
variable (s : State)

@[simp] theorem State.fillTile_lineSide (i t k v : Nat) : (s.fillTile i t k v).lineSide = s.lineSide := by simp [State.fillTile]

@[simp] theorem State.winFlag_lineSide (i b w : Nat) : (s.winFlag i b w).lineSide = s.lineSide := by simp [State.winFlag]

@[simp] theorem State.openFlag_lineSide (i b : Nat) : (s.openFlag i b).lineSide = s.lineSide := by simp [State.openFlag]

@[simp] theorem State.markEvent_lineSide (i w t : Nat) : (s.markEvent i w t).lineSide = s.lineSide := by
  simp [State.markEvent, State.mark]

@[simp] theorem State.rebase_lineSide (i t time : Nat) : (s.rebase i t time).lineSide = s.lineSide := by simp [State.rebase]

@[simp] theorem State.writeStamp_lineSide (i t px : Nat) (pol : Bool) (time : Nat) :
    (s.writeStamp i t px pol time).lineSide = s.lineSide := by simp [State.writeStamp]

@[simp] theorem State.writeCount_lineSide (i t px : Nat) (pol : Bool) (time : Nat) :
    (s.writeCount i t px pol time).lineSide = s.lineSide := by simp [State.writeCount]

@[simp] theorem State.writeEvent_lineSide (i x y : Nat) (pol : Bool) (time : Nat) :
    (s.writeEvent i x y pol time).lineSide = s.lineSide := by simp [State.writeEvent]

end

/-! #### Features -/

section
variable (s : State)

@[simp] theorem State.featDrop_lineSide (i : Nat) (flow : Bool) (n : Nat) : (s.featDrop i flow n).lineSide = s.lineSide := by
  simp [State.featDrop]

@[simp] theorem State.featClose_lineSide (i : Nat) (flow : Bool) : (s.featClose i flow).lineSide = s.lineSide := by
  unfold State.featClose
  split
  · rfl
  · simp

@[simp] theorem State.featPut_lineSide (i : Nat) (flow : Bool) (win rec' : Nat) :
    (s.featPut i flow win rec').lineSide = s.lineSide := by
  have ht := State.lineSide_congr (s.battTake_fullerSide (s.sub i).spur)
  unfold State.featPut
  extract_lets size opened
  have ho : opened.lineSide = s.lineSide := by
    unfold opened
    split
    · rfl
    · split <;> next hb => rw [hb] at ht; exact ht
  split <;> simp [ho]

@[simp] theorem State.cornerTest_lineSide (i slot x y : Nat) (pol : Bool) (t stamp : Nat) (skip : Bool) :
    (s.cornerTest i slot x y pol t stamp skip).lineSide = s.lineSide := by simp [State.cornerTest]

theorem State.flowFit_lineSide (i k x y t : Nat) : (s.flowFit i k x y t).2.lineSide = s.lineSide := by
  unfold State.flowFit
  dsimp only
  split
  · rfl
  · split
    · split <;> rfl
    · rfl

@[simp] theorem State.flowTest_lineSide (i slot x y : Nat) (pol : Bool) (t stamp : Nat) (skip : Bool) :
    (s.flowTest i slot x y pol t stamp skip).lineSide = s.lineSide := by
  have hf := s.flowFit_lineSide i (s.planeOf i pol) x y t
  unfold State.flowTest
  split
  · rfl
  · split
    · simp
    · split
      · next h => rw [h] at hf; exact hf
      · next h =>
        rw [h] at hf
        exact (State.when_lineSide _ (fun u => u.onEgo_lineSide ..) _).trans ((State.featPut_lineSide ..).trans hf)

end

/-! #### Records -/

section
variable (s : State)

@[simp] theorem State.fullerEvent_lineSide (i r t : Nat) (skipC skipF : Bool) :
    (s.fullerEvent i r t skipC skipF).lineSide = s.lineSide := by simp [State.fullerEvent]

@[simp] theorem State.warmOff_lineSide (i e : Nat) : (s.warmOff i e).lineSide = s.lineSide := by
  unfold State.warmOff
  split
  · rfl
  · simp

@[simp] theorem State.onSegBase_lineSide (g : Table Nat → Table Nat) :
    (s.onFul fun f => { f with segBase := g f.segBase }).lineSide = s.lineSide := State.lineSide_of rfl rfl rfl

@[simp] theorem State.fullerControl_lineSide (q r : Nat) : (s.fullerControl q r).lineSide = s.lineSide := by
  unfold State.fullerControl
  dsimp only
  split
  case h_1 => exact s.onSegBase_lineSide fun t => Table.set 0 t q (bits r 0 32 * 2 ^ 28)
  all_goals simp [State.freshen]

/-- A record that the Fuller has read, whatever it is (R165). -/
@[simp] theorem State.fullerRecord_lineSide (q r : Nat) (skipC skipF : Bool) :
    (s.fullerRecord q r skipC skipF).lineSide = s.lineSide := by
  unfold State.fullerRecord
  split <;> simp [State.fullerGap]

end

/-! ### Queue reads of the Fuller (R165) -/

section
variable (s : State) (q : Nat)

/-- What the delivery of a queue's records leaves alone, whatever the skip mask: the records, RP and the capacity. -/
def State.popSide : List QRec × Nat × Nat := ((s.eq q).recs, s.rd .EQ_RP q, s.rd .EQ_CFG_LOG2N q)

/-- Records without an ECC event are delivered or skipped; where they lie and where RP stands stays. -/
theorem State.readRecs_popSide (l : List (QRec × Nat)) : ∀ s : State,
    (s.readRecs q 0 0 l).2.2.2.2.popSide q = s.popSide q := by
  induction l with
  | nil => exact fun _ => rfl
  | cons e l ih =>
    intro s
    refine (ih _).trans ?_
    have hmark : ∀ (m : Bool) (f g : Option (Nat × Nat)),
        ((s.onEq q fun e => { e with mask := f, lastEv := g }).when m fun s => s.count .EQ_SKIPPED q).popSide q =
          s.popSide q := by
      intro m f g
      cases m
      · simp [State.popSide]
      · simp [State.popSide, State.count, State.rd_wr_other]
    simpa [bit] using hmark _ _ _

/-- A read of an enabled queue with good pointers and no ECC event takes out its first records and moves RP past them. -/
theorem State.popLine_popped (hen : s.flag .EQ_CFG_EN q = true) (hptr : s.ptrFails q = false) :
    let t := (s.popLine q 0 0 false).2.2
    (t.eq q).recs = (s.eq q).recs.drop 8 ∧
      t.rd .EQ_RP q = s.ptrAdd q (s.rd .EQ_RP q) (min 8 (s.eq q).recs.length) % 2 ^ 19 := by
  have hside := State.readRecs_popSide q ((s.eq q).recs.take 8).zipIdx s
  set u := (s.readRecs q 0 0 ((s.eq q).recs.take 8).zipIdx).2.2.2.2 with hu
  simp only [State.popSide, Prod.mk.injEq] at hside
  obtain ⟨hrecs, hrp, hlog⟩ := hside
  have hpop : (s.popLine q 0 0 false).2.2 = u.popped q (min 8 (s.eq q).recs.length) := by
    simp [State.popLine, State.popped, State.upset, hen, hptr, hu]
  have hadd : u.ptrAdd q (u.rd .EQ_RP q) = s.ptrAdd q (s.rd .EQ_RP q) := by
    funext k
    simp only [State.ptrAdd, State.eqN, hrp, hlog]
  refine ⟨?_, ?_⟩
  · rw [hpop, State.popped_recs, hrecs, ← List.drop_eq_drop_min]
  · rw [hpop, State.rd_congr (u.popped_regs ..), State.rd_wr_same, hadd]
    rfl

end

/-- The rotation begins with the queue it stands at. -/
theorem find?_rotation {p : Nat → Bool} (q : Fin 512) (hp : p q.val = true) :
    ((List.range 512).map fun j => (q.val + j) % 512).find? p = some q.val := by
  have hq : (q.val + 0) % 512 = q.val := Nat.mod_eq_of_lt q.isLt
  have hr : List.range 512 = 0 :: (List.range 511).map Nat.succ := List.range_succ_eq_map
  rw [hr, List.map_cons, hq]
  exact List.find?_cons_of_pos hp

/-- The state after a line that the Fuller has taken, its records still to come: the rotation has turned, and the snapshots of the
queue's subscriptions are nearer by the records of the line. -/
def State.lineTaken (s : State) (q : Nat) : State :=
  let n := bits (s.popLine q 0 0 false).1 0 7 / 8
  ((s.popLine q 0 0 false).2.2.onFul fun f => { f with turn := (q + 1) % 512 }).each
    ((s.popLine q 0 0 false).2.2.subsOn q) fun s i => s.onSub i fun x => { x with snaps := x.snaps.map fun e => (e.1, e.2 - n) }

theorem exec_fullerQueueRead {s : State} {q : Fin 512} (hl : s.fulLive = true) (hen : s.flag .FUL_CTRL_EN = true)
    (ht : s.ful.turn = q.val) (hb : s.fullerBound q.val = true) (hrecs : (s.eq q.val).recs ≠ []) (c f : BitVec 8) :
    ∃ l : List (DWord × Nat), exec (.fullerQueueRead 0 0 false [] c f) s = .next ((s.lineTaken q.val).each l fun s p =>
      s.fullerRecord q.val p.1.toNat (bit c.toNat p.2) (bit f.toNat p.2)) := by
  have hp : (s.fullerBound q.val && s.eqOcc q.val != 0) = true := by simp [hb, State.eqOcc, hrecs]
  have hfind := find?_rotation (p := fun q => s.fullerBound q && s.eqOcc q != 0) q hp
  refine ⟨((s.popLine q.val 0 0 false).2.1.take (bits (s.popLine q.val 0 0 false).1 0 7 / 8)).zipIdx, ?_⟩
  change execFullerQueueRead 0 0 false [] c f s = _
  simp only [execFullerQueueRead, hl, hen, ht, hfind, Bool.not_true, Bool.or_self, Bool.false_eq_true, if_false]
  rfl

theorem State.lineTaken_lineSide (s : State) (q : Nat) : (s.lineTaken q).lineSide =
    ((s.popLine q 0 0 false).2.2.onFul fun f => { f with turn := (q + 1) % 512 }).lineSide :=
  State.each_lineSide _ (fun u i => u.onSub_lineSide i _) _

/-- The Fuller's read of the queue its rotation stands at (R165). -/
theorem fullerQueueRead_line {s : State} {q : Fin 512} (hl : s.fulLive = true) (hen : s.flag .FUL_CTRL_EN = true)
    (ht : s.ful.turn = q.val) (hb : s.fullerBound q.val = true) (hq : s.flag .EQ_CFG_EN q.val = true)
    (hptr : s.ptrFails q.val = false) (hrecs : (s.eq q.val).recs ≠ []) (c f : BitVec 8) :
    ∃ t, exec (.fullerQueueRead 0 0 false [] c f) s = .next t ∧ (t.eq q.val).recs = (s.eq q.val).recs.drop 8 ∧
      t.rd .EQ_RP q.val = s.ptrAdd q.val (s.rd .EQ_RP q.val) (min 8 (s.eq q.val).recs.length) % 2 ^ 19 ∧
      t.ful.turn = (q.val + 1) % 512 := by
  obtain ⟨l, hexec⟩ := exec_fullerQueueRead hl hen ht hb hrecs c f
  obtain ⟨hpopped, hrp⟩ := s.popLine_popped q.val hq hptr
  refine ⟨_, hexec, ?_⟩
  generalize hu : (s.lineTaken q.val).each l _ = u
  have hside : u.lineSide = ((s.popLine q.val 0 0 false).2.2.onFul fun f => { f with turn := (q.val + 1) % 512 }).lineSide := by
    rw [← hu, ← s.lineTaken_lineSide]
    exact State.each_lineSide _ (fun v p => v.fullerRecord_lineSide ..) l
  simp only [State.lineSide, Prod.mk.injEq] at hside
  obtain ⟨heqs, hturn, hreads, -⟩ := hside
  refine ⟨?_, (congrFun hreads q.val).trans hrp, hturn⟩
  rw [← hpopped, State.eq, heqs]
  rfl

/-! ### The close of a window (R177, R180) -/

/-- What of a subscription the close of a window sets: the open window, the closed map, the snapshots and the feature batts. -/
def SubSt.winSide (x : SubSt) : Nat × Nat × List (Nat × Nat) × Option FeatBatt × Option FeatBatt :=
  (x.cur, x.closed, x.snaps, x.corner, x.flow)

theorem SubSt.fifo_winSide (x : SubSt) (l : List Nat) : { x with fifo := l }.winSide = x.winSide := rfl

theorem SubSt.setGap_winSide (x : SubSt) (flow g : Bool) : (x.setGap flow g).winSide = x.winSide := by cases flow <;> rfl

theorem SubSt.setFeat_winSide {x : SubSt} {flow : Bool} (h : x.feat flow = none) : (x.setFeat flow none).winSide = x.winSide := by
  cases flow <;> simp_all [SubSt.feat, SubSt.setFeat, SubSt.winSide]

section
variable (s : State) (i : Nat)

/-- The tiles marked in the oldest open window and the last TAIL windows before it (R180). -/
def State.dirtyMap : Nat :=
  ((s.sub i).hist.take (s.rd .SUB_TAIL i)).foldl (· ||| ·) (Table.get 0 (s.sub i).marks (s.sub i).cur)

theorem State.featDrop_winSide (flow : Bool) (n : Nat) : ((s.featDrop i flow n).sub i).winSide = (s.sub i).winSide := by
  have hsub : (s.count .FUL_CNT 4 n).sub i = s.sub i := rfl
  rw [State.featDrop, State.sub_onSub_same, hsub, SubSt.setGap_winSide]

/-- No feature batt of a kind is open after its close; the windows stay. -/
theorem State.featClose_winSide (flow : Bool) :
    ((s.featClose i flow).sub i).winSide = ((s.sub i).setFeat flow none).winSide := by
  unfold State.featClose
  split
  · next hn => exact (SubSt.setFeat_winSide hn).symm
  · next b hb =>
    have hset : (s.onSub i fun x => x.setFeat flow none).sub i = (s.sub i).setFeat flow none := s.sub_onSub_same ..
    have hfifo : ∀ (u : State) (h : Nat), ((u.onSub i fun x => { x with fifo := x.fifo ++ [h] }).sub i).winSide =
        (u.sub i).winSide := fun u h => by
      rw [State.sub_onSub_same, SubSt.fifo_winSide]
    dsimp only
    split
    · rw [State.featDrop_winSide, State.sub_congr (State.freeHandle_fullerSide ..), hset]
    · rw [State.sub_congr (State.signal_fullerSide ..), hfifo, State.sub_congr (State.onBatt_fullerSide ..),
        State.sub_congr (State.stLe_fullerSide ..), hset]

/-- The end of the close of window `k`, which ends at time `b`: the feature batts, SUB_MS and the Ego unit (R177). -/
def State.closeReported (k b : Nat) : State :=
  let s := (s.featClose i false).featClose i true
  let s := s.signal (s.rd .SUB_MS i) (s.sub i).spur 1 .fuller
  s.when (s.flag .SUB_FLOW_EGO i) fun s => s.egoSolve (s.rd .SUB_SLOT i) k (k * s.winLen i) b

theorem State.closeReported_fullerSide (k b : Nat) :
    (s.closeReported i k b).fullerSide = ((s.featClose i false).featClose i true).fullerSide := by
  simp [State.closeReported]

theorem State.closeReported_winSide (k b : Nat) : ((s.closeReported i k b).sub i).winSide =
    ((s.sub i).cur, (s.sub i).closed, (s.sub i).snaps, none, none) := by
  have hc := s.featClose_winSide i false
  have hf := (s.featClose i false).featClose_winSide i true
  rw [State.sub_congr (s.closeReported_fullerSide ..), hf]
  simp only [SubSt.winSide, SubSt.setFeat, Prod.mk.injEq, if_true, Bool.false_eq_true, if_false] at hc ⊢
  tauto

theorem State.closeReported_lineSide (k b : Nat) : (s.closeReported i k b).lineSide = s.lineSide := by
  rw [State.lineSide_congr (s.closeReported_fullerSide ..)]
  simp

theorem State.winFlag_snaps (b w : Nat) : ((s.winFlag i b w).sub i).snaps = (s.sub i).snaps := by
  unfold State.winFlag
  split
  · rfl
  · rw [State.sub_onSub_same]

/-- Before that, the oldest open window goes to WIN_NUM with its map, and the next one is open (R177, R180). -/
theorem State.closeWindow_moved : ∃ u : State,
    s.closeWindow i = u.closeReported i (s.sub i).cur (((s.sub i).cur + 1) * s.winLen i) ∧
      (u.sub i).cur = (s.sub i).cur + 1 ∧ (u.sub i).closed = s.dirtyMap i ∧
      (u.sub i).snaps = (s.sub i).snaps.filter (fun e => decide ((s.sub i).cur < e.1)) ∧
      u.rd .SUB_WIN_NUM i = (s.sub i).cur % 2 ^ 32 := by
  unfold State.closeWindow
  extract_lets x k own map b flagged moved
  have hflag : (flagged.sub i).snaps = x.snaps := by
    unfold flagged
    split
    · split
      · exact s.winFlag_snaps ..
      · rfl
    · rfl
  split
  next tx ty _ =>
  refine ⟨_, rfl, ?_⟩
  have hsub : ∀ (u : State) (m n f : Nat),
      (((u.wr .SUB_WIN_NUM i m).wr .SUB_DIRTY_CNT i n).wr .SUB_FLAGS i f).sub i = u.sub i := fun _ _ _ _ => rfl
  rw [hsub, State.sub_onSub_same, State.rd_wr_other _ _ _ _ (by decide), State.rd_wr_other _ _ _ _ (by decide), State.rd_wr_same]
  exact ⟨rfl, rfl, congrArg (List.filter _) hflag, rfl⟩

/-- The close of the oldest open window (R177, R180). -/
theorem State.closeWindow_closed :
    ((s.closeWindow i).sub i).winSide = ((s.sub i).cur + 1, s.dirtyMap i,
      (s.sub i).snaps.filter (fun e => decide ((s.sub i).cur < e.1)), none, none) ∧
    (s.closeWindow i).rd .SUB_WIN_NUM i = (s.sub i).cur % 2 ^ 32 := by
  obtain ⟨u, hu, hcur, hclosed, hsnaps, hnum⟩ := s.closeWindow_moved i
  rw [hu]
  refine ⟨by rw [State.closeReported_winSide, hcur, hclosed, hsnaps], ?_⟩
  have hl := u.closeReported_lineSide i (s.sub i).cur (((s.sub i).cur + 1) * s.winLen i)
  simp only [State.lineSide, Prod.mk.injEq] at hl
  obtain ⟨-, -, -, hn⟩ := hl
  rw [← hnum]
  exact congrFun hn i

end

/-! #### Snapshots -/

section
variable {s : State} {i q : Nat}

/-- A window that is due lies at or before the last one due. -/
theorem State.le_lastDue (hd : s.closeDue i = true) (hw : 0 < s.winLen i) : (s.sub i).cur ≤ s.lastDue i := by
  have hend : ((s.sub i).cur + 1) * s.winLen i + s.rd .SUB_WCLOSE i ≤ s.nowUs := of_decide_eq_true hd
  have hk : (s.sub i).cur + 1 ≤ (s.nowUs - s.rd .SUB_WCLOSE i) / s.winLen i :=
    (Nat.le_div_iff_mul_le hw).2 (Nat.le_sub_of_add_le hend)
  exact Nat.le_sub_one_of_lt hk

/-- A due window that has no snapshot takes it, with those due after it. -/
theorem State.takeSnap_due (hq : s.subQueue i = some q) (hd : s.closeDue i = true) (ht : (s.sub i).snapTo ≤ (s.sub i).cur) :
    s.takeSnap i =
      s.onSub i fun x => { x with snaps := x.snaps ++ [(s.lastDue i, s.eqOcc q)], snapTo := s.lastDue i + 1 } := by
  have hw : s.winDue i (s.sub i).cur = true := hd
  rw [State.takeSnap]
  simp only [hq, Nat.max_eq_right ht, hw, if_true]

/-- A snapshot goes to the end of those that wait, and comes to nothing else but the window it was last taken for. -/
theorem State.takeSnap_eq (s : State) (i : Nat) : s.takeSnap i = s ∨
    ∃ e n, s.takeSnap i = s.onSub i fun x => { x with snaps := x.snaps ++ [e], snapTo := n } := by
  unfold State.takeSnap
  dsimp only
  split
  · split
    · exact .inr ⟨_, _, rfl⟩
    · exact .inl rfl
  · exact .inl rfl

theorem State.takeSnap_kept (s : State) (i : Nat) : ((s.takeSnap i).sub i).cur = (s.sub i).cur ∧
    (s.takeSnap i).dirtyMap i = s.dirtyMap i ∧ ∃ l, ((s.takeSnap i).sub i).snaps = (s.sub i).snaps ++ l := by
  obtain h | ⟨e, n, h⟩ := s.takeSnap_eq i <;> rw [h]
  · exact ⟨rfl, rfl, [], (List.append_nil _).symm⟩
  · have hr : (s.onSub i fun x => { x with snaps := x.snaps ++ [e], snapTo := n }).rd .SUB_TAIL i = s.rd .SUB_TAIL i :=
      State.rd_congr rfl _ _
    simp only [State.dirtyMap, State.sub_onSub_same, hr, true_and]
    exact ⟨_, rfl⟩

theorem State.snapReached_cons {e : Nat × Nat} {l : List (Nat × Nat)} (h : (s.sub i).snaps = e :: l) :
    s.snapReached i = (decide ((s.sub i).cur ≤ e.1) && e.2 == 0) := by
  rw [State.snapReached, h]

/-! #### WINDOW_CLOSE -/

variable {i : Fin 64}

theorem exec_windowClose_early (hd : s.closeDue i.val = false) : exec (.windowClose i) s = .next s := by
  change execWindowClose i s = _
  simp only [execWindowClose, hd, Bool.not_false, Bool.or_true, if_true]
  rfl

theorem exec_windowClose_due (hl : s.fulLive = true) (hq : s.subQueue i.val = some q) (hd : s.closeDue i.val = true) :
    exec (.windowClose i) s =
      .next (if (s.takeSnap i.val).snapReached i.val then (s.takeSnap i.val).closeWindow i.val else s.takeSnap i.val) := by
  change execWindowClose i s = _
  simp only [execWindowClose, hl, hq, hd, Option.isNone_some, Bool.not_true, Bool.or_self, Bool.false_eq_true, if_false]
  rfl

/-- A due window whose snapshot still has records before it stays open. -/
theorem exec_windowClose_waits (hl : s.fulLive = true) (hq : s.subQueue i.val = some q) (hd : s.closeDue i.val = true)
    (hn : (s.sub i.val).snaps = []) (ht : (s.sub i.val).snapTo ≤ (s.sub i.val).cur) (ho : s.eqOcc q ≠ 0) :
    exec (.windowClose i) s =
      .next (s.onSub i.val fun x =>
        { x with snaps := x.snaps ++ [(s.lastDue i.val, s.eqOcc q)], snapTo := s.lastDue i.val + 1 }) := by
  have hsnap := State.takeSnap_due hq hd ht
  have hsnaps : ((s.takeSnap i.val).sub i.val).snaps = [(s.lastDue i.val, s.eqOcc q)] := by
    rw [hsnap, State.sub_onSub_same, hn]
    rfl
  have hno : (s.takeSnap i.val).snapReached i.val = false := by simp [State.snapReached_cons hsnaps, ho]
  rw [exec_windowClose_due hl hq hd, hno, hsnap]
  rfl

/-- The snapshot of a due window has been passed: the one that waits at the head, or the one taken now of an empty queue. -/
theorem State.takeSnap_reached (hq : s.subQueue i.val = some q) (hd : s.closeDue i.val = true) (hw : 0 < s.winLen i.val)
    (h : (∃ e rest, (s.sub i.val).snaps = e :: rest ∧ (s.sub i.val).cur ≤ e.1 ∧ e.2 = 0) ∨
      ((s.sub i.val).snaps = [] ∧ (s.sub i.val).snapTo ≤ (s.sub i.val).cur ∧ s.eqOcc q = 0)) :
    (s.takeSnap i.val).snapReached i.val = true := by
  obtain ⟨hcur, -, l, hl⟩ := s.takeSnap_kept i.val
  obtain ⟨e, rest, hs, he, h0⟩ | ⟨hs, ht, ho⟩ := h
  · have hsnaps : ((s.takeSnap i.val).sub i.val).snaps = e :: (rest ++ l) := by rw [hl, hs]; rfl
    simp [State.snapReached_cons hsnaps, hcur, he, h0]
  · have hsnaps : ((s.takeSnap i.val).sub i.val).snaps = [(s.lastDue i.val, s.eqOcc q)] := by
      rw [State.takeSnap_due hq hd ht, State.sub_onSub_same, hs]
      rfl
    simp [State.snapReached_cons hsnaps, hcur, ho, State.le_lastDue hd hw]

theorem exec_windowClose_closes (hl : s.fulLive = true) (hq : s.subQueue i.val = some q) (hd : s.closeDue i.val = true)
    (hr : (s.takeSnap i.val).snapReached i.val = true) :
    ∃ t, exec (.windowClose i) s = .next t ∧ (t.sub i.val).cur = (s.sub i.val).cur + 1 ∧
      t.rd .SUB_WIN_NUM i.val = (s.sub i.val).cur % 2 ^ 32 ∧ (∀ e ∈ (t.sub i.val).snaps, (s.sub i.val).cur < e.1) ∧
      (t.sub i.val).closed = s.dirtyMap i.val ∧ (t.sub i.val).corner = none ∧ (t.sub i.val).flow = none := by
  obtain ⟨hcur, hmap, -⟩ := s.takeSnap_kept i.val
  obtain ⟨hside, hnum⟩ := (s.takeSnap i.val).closeWindow_closed i.val
  simp only [SubSt.winSide, Prod.mk.injEq, hcur, hmap] at hside
  obtain ⟨hnext, hclosed, hsnaps, hcorner, hflow⟩ := hside
  refine ⟨_, by rw [exec_windowClose_due hl hq hd, if_pos hr], hnext, by rw [hnum, hcur], fun e he => ?_, hclosed, hcorner,
    hflow⟩
  rw [hsnaps] at he
  simpa using (List.mem_filter.1 he).2

end

/-- Settles O25: a queue read by what its records leave alone (`State.fullerRecord_lineSide`), a stamp as the store of one Nap
word, a window by whether it is due and its snapshot passed, a tile read and FEAT_POP by what each runs. -/
theorem fullerAtWork : Obligations.FullerAtWork := by
  unfold Obligations.FullerAtWork
  refine ⟨fun s q c f hl hen ht hb hq hptr hrecs => ?queue, fun s i t px time pol _ hf hb => ?stamp,
    fun s i t k ref fmt hf => State.readPlane_fresh hf k ref fmt, fun s i q hl _ hq => ?window,
    fun s m ch x u rest hl hm hx ht => ?tile, fun s core sub hl => ⟨exec_featPop_null hl, fun h rest hsp hf => ?head⟩⟩
  case queue => exact fullerQueueRead_line hl hen ht hb hq hptr hrecs c f
  case stamp =>
    intro a code hc hh
    rw [State.writeStamp_stored hf hb hc hh]
    exact ⟨s.ldNap_stNap_same a (by omega), fun b hne => s.ldNap_stNap_other code hne⟩
  case window =>
    exact ⟨exec_windowClose_early, fun hd _ hn hto ho => exec_windowClose_waits hl hq hd hn hto ho,
      fun hd hw h => exec_windowClose_closes hl hq hd (State.takeSnap_reached hq hd hw h)⟩
  case tile =>
    refine ⟨_, exec_tileRead_dma hl hm ch, ?_, ?_⟩ <;> rw [State.readDmaTile_next hx ht]
    · exact s.readTile_mem ..
    · rw [State.xfers_onXfers_same, State.readTile_xfers, hx]
      rfl
  case head =>
    refine ⟨_, exec_featPop_head hl hsp hf, rfl, ?_, ?_, rfl, rfl⟩
    · exact congrArg SubSt.fifo (s.sub_onSub_same sub.val fun x => { x with fifo := rest })
    · exact congrArg BattSt.owner (State.batt_onBatt_same _ (hIndex h) fun b =>
        { b with owner := some (core.val, (s.sub sub.val).spur) })

end Sys2Proof.Machine
end

section
/-!
PROOFS for `spec/08_mills.md` in this row: the laws of bits, of the Mills' tables, and of what a report or the end of a command
leaves alone, which the statements of the chapter share.
-/
namespace Sys2Proof.Machine

/-! ### Bits of a number -/

theorem setBit_true (n i : Nat) : setBit n i true = if n.testBit i then n else n + 2 ^ i := rfl
theorem setBit_false (n i : Nat) : setBit n i false = if n.testBit i then n - 2 ^ i else n := rfl

theorem bit_setBit_same (n i : Nat) (b : Bool) : bit (setBit n i b) i = b := by
  unfold bit
  cases b with
  | false =>
    rw [setBit_false]
    split
    · next h =>
      have hflip := Nat.testBit_two_pow_add_eq (n - 2 ^ i) i
      rw [Nat.add_sub_of_le (Nat.ge_two_pow_of_testBit h), h] at hflip
      simpa using hflip.symm
    · next h => exact Bool.eq_false_iff.2 h
  | true =>
    rw [setBit_true]
    split
    · assumption
    · next h =>
      rw [Nat.add_comm, Nat.testBit_two_pow_add_eq]
      simpa using h

/-- Setting one bit moves no other: the number grows by the bit's weight only where the bit was clear. -/
theorem bit_setBit_true_other (n : Nat) {i j : Nat} (h : j ≠ i) : bit (setBit n i true) j = bit n j := by
  rw [setBit_true]
  unfold bit
  split
  · rfl
  · next hb =>
    rcases Nat.lt_or_gt_of_ne h with hlt | hgt
    · rw [Nat.add_comm, Nat.testBit_two_pow_add_gt hlt]
    · obtain ⟨k, rfl⟩ := Nat.exists_eq_add_of_le (Nat.succ_le_of_lt hgt)
      have heven : n / 2 ^ i % 2 ≠ 1 := by simpa [Nat.testBit_eq_decide_div_mod_eq] using hb
      have hdiv : (n + 2 ^ i) / 2 ^ (i + 1) = n / 2 ^ (i + 1) := by
        rw [Nat.pow_succ, ← Nat.div_div_eq_div_mul, ← Nat.div_div_eq_div_mul, Nat.add_div_right _ (Nat.two_pow_pos i)]
        omega
      rw [Nat.succ_eq_add_one, Nat.add_comm (i + 1) k, ← Nat.testBit_div_two_pow, ← Nat.testBit_div_two_pow, hdiv]

theorem bit_mod_two_pow (n : Nat) {i w : Nat} (h : i < w) : bit (n % 2 ^ w) i = bit n i := by
  simp [bit, Nat.testBit_mod_two_pow, h]

/-- The bits set by a run over a list. -/
theorem bit_setBits (p : Nat → Bool) (l : List Nat) (j : Nat) : ∀ n : Nat,
    bit (l.foldl (fun a t => if p t then a else setBit a t true) n) j = (bit n j || (l.contains j && !p j)) := by
  induction l with
  | nil => simp
  | cons t l ih =>
    intro n
    rw [List.foldl_cons, ih]
    by_cases hj : j = t
    · subst hj
      cases hp : p j <;> simp [bit_setBit_same]
    · cases hp : p t <;> simp [bit_setBit_true_other _ hj, hj]

theorem bitList_two_pow (t : Fin 16) : bitList 16 (2 ^ t.val) = [t.val] := by
  revert t
  decide

theorem toNat_bitMask (t : Fin 16) : (BitVec.ofNat 16 (2 ^ t.val)).toNat = 2 ^ t.val := by
  revert t
  decide

/-! ### Runs of changes -/

/-- What one change of a run brings about, and the others keep, holds after the run; `P` is what every change keeps. -/
theorem State.each_reaches {α : Type} {P Q : State → Prop} {f : State → α → State} {a : α} (hmake : ∀ s, P s → Q (f s a))
    (l : List α) : ∀ s : State, a ∈ l → P s → (∀ u, ∀ b ∈ l, P u → P (f u b)) → (∀ u, ∀ b ∈ l, P u → Q u → Q (f u b)) →
      Q (s.each l f) := by
  have hold : ∀ (l : List α) (s : State), P s → Q s → (∀ u, ∀ b ∈ l, P u → P (f u b)) →
      (∀ u, ∀ b ∈ l, P u → Q u → Q (f u b)) → Q (s.each l f) := by
    intro l
    induction l with
    | nil => exact fun s _ hq _ _ => hq
    | cons b l ih =>
      exact fun s hp hq hP hQ => ih _ (hP s b List.mem_cons_self hp) (hQ s b List.mem_cons_self hp hq)
        (fun u c hc => hP u c (List.mem_cons_of_mem _ hc)) fun u c hc => hQ u c (List.mem_cons_of_mem _ hc)
  induction l with
  | nil => exact fun s ha => absurd ha List.not_mem_nil
  | cons b l ih =>
    intro s ha hp hP hQ
    have hP' := fun u c hc => hP u c (List.mem_cons_of_mem b hc)
    have hQ' := fun u c hc => hQ u c (List.mem_cons_of_mem b hc)
    rcases List.mem_cons.1 ha with rfl | ha
    · exact hold l _ (hP s a List.mem_cons_self hp) (hmake s hp) hP' hQ'
    · exact ih _ ha (hP s b List.mem_cons_self hp) hP' hQ'

/-! ### What writes and reports leave alone

A change that does no more than write registers, record errors and send something (`Reports`) leaves every other part of the
state: memory, the Mills, the Milestone unit, the Fuller and the mailboxes. -/

/-- `t` is `s` but for registers and their write-once marks, error rings, PCIe functions and what is sent. -/
def State.Reports (s t : State) : Prop :=
  ∃ r w e f x, t = { s with regs := r, wl1 := w, errs := e, fns := f, tx := x }

namespace State.Reports

variable {s t u : State}

theorem rfl : s.Reports s := ⟨_, _, _, _, _, .refl _⟩

theorem trans (h : s.Reports t) (k : t.Reports u) : s.Reports u := by
  obtain ⟨_, _, _, _, _, rfl⟩ := h
  obtain ⟨_, _, _, _, _, rfl⟩ := k
  exact ⟨_, _, _, _, _, .refl _⟩

theorem mem (h : s.Reports t) : t.mem = s.mem := by obtain ⟨_, _, _, _, _, rfl⟩ := h; exact .refl _
theorem raw (h : s.Reports t) : t.raw = s.raw := by obtain ⟨_, _, _, _, _, rfl⟩ := h; exact .refl _
theorem mills (h : s.Reports t) : t.mills = s.mills := by obtain ⟨_, _, _, _, _, rfl⟩ := h; exact .refl _
theorem ms (h : s.Reports t) : t.ms = s.ms := by obtain ⟨_, _, _, _, _, rfl⟩ := h; exact .refl _
theorem ful (h : s.Reports t) : t.ful = s.ful := by obtain ⟨_, _, _, _, _, rfl⟩ := h; exact .refl _
theorem pm (h : s.Reports t) : t.pm = s.pm := by obtain ⟨_, _, _, _, _, rfl⟩ := h; exact .refl _

theorem mill (h : s.Reports t) (m : Nat) : t.mill m = s.mill m := by simp only [State.mill, h.mills]
theorem task (h : s.Reports t) (m e : Nat) : t.task m e = s.task m e := by simp only [State.task, h.mill]
theorem reruns (h : s.Reports t) (m q : Nat) : t.reruns m q = s.reruns m q := by simp only [State.reruns, h.mill]
theorem expanding (h : s.Reports t) (m q : Nat) : t.expanding m q = s.expanding m q := by simp only [State.expanding, h.mill]
theorem ldByte (h : s.Reports t) (p : Space) (a : Nat) : t.ldByte p a = s.ldByte p a := by simp only [State.ldByte, h.mem]

theorem each {α : Type} (h : s.Reports t) {f : State → α → State} (hf : ∀ (v : State) a, v.Reports (f v a)) (l : List α) :
    s.Reports (t.each l f) := State.each_keeps (fun v => s.Reports v) f (fun v a k => k.trans (hf v a)) l t h

theorem when (h : s.Reports t) {f : State → State} (hf : ∀ v : State, v.Reports (f v)) (c : Bool) : s.Reports (t.when c f) :=
  State.when_keeps (fun v => s.Reports v) c f (fun v k => k.trans (hf v)) t h

theorem ite {p : Prop} [Decidable p] (h : s.Reports t) (k : s.Reports u) : s.Reports (if p then t else u) := by
  split
  · exact h
  · exact k

end State.Reports

section
variable (s : State)

theorem State.reports_wr (r : Reg) (i v : Nat) : s.Reports (s.wr r i v) := ⟨_, _, _, _, _, rfl⟩
theorem State.reports_put (r : Reg) (i : Nat) (b : Bool) : s.Reports (s.put r i b) := s.reports_wr r i _
theorem State.reports_count (r : Reg) (i n : Nat) : s.Reports (s.count r i n) := s.reports_wr r i _

theorem State.reports_irq (f v : Nat) : s.Reports (s.irq f v) := by
  unfold State.irq State.post
  exact .ite .rfl (.ite ⟨_, _, _, _, _, rfl⟩ (.ite .rfl (.ite ⟨_, _, _, _, _, rfl⟩ ⟨_, _, _, _, _, rfl⟩)))

theorem State.reports_recordTo (dst owner : Nat) (t : ErrType) (unit : Nat) (detail : List Nat) :
    s.Reports (s.recordTo dst owner t unit detail) := by
  have hring : ∀ f, s.Reports (s.onErrs f) := fun f => ⟨_, _, _, _, _, rfl⟩
  unfold State.recordTo
  exact .ite (((hring _).trans (State.reports_count ..)).trans (State.reports_put ..)) ((hring _).trans (State.reports_irq ..))

theorem State.reports_record (owner : Nat) (t : ErrType) (unit : Nat) (detail : List Nat) :
    s.Reports (s.record owner t unit detail) := s.reports_recordTo ..

theorem State.reports_lockViolation (who : Agent) (off : Nat) : s.Reports (s.lockViolation who off) := by
  unfold State.lockViolation
  refine (State.Reports.when (s.reports_count ..) (fun v => ?_) _).trans (State.reports_recordTo ..)
  exact (((v.reports_wr ..).trans (State.reports_wr ..)).trans (State.reports_put ..)).trans (State.reports_irq ..)

theorem State.reports_writeField (h : Hit) (v : Nat) : s.Reports (s.writeField h v) := by
  unfold State.writeField
  split
  exacts [s.reports_wr .., s.reports_wr .., (s.reports_wr ..).trans ⟨_, _, _, _, _, rfl⟩, s.reports_wr .., s.reports_wr ..,
    .rfl, .rfl, .rfl]

/-- A word that the firmware writes takes its effect in registers, or is reported (R6, R11). -/
theorem State.reports_applyWord (c : Fin 16) (off w : Nat) : s.Reports (s.applyWord (.fw c) off w).2 := by
  unfold State.applyWord
  dsimp only
  split
  · exact s.reports_record ..
  · exact .rfl
  · split
    · exact s.reports_record ..
    · exact .when (.each .rfl (fun v h => v.reports_writeField ..) _) (fun v => v.reports_lockViolation ..) _

end

/-! ### What a record leaves in its ring (R537, R538) -/

section
variable (s : State)

theorem State.post_errs (f : Nat) (p : HostPost) : (s.post f p).errs = s.errs := by
  unfold State.post
  split
  · rfl
  · split <;> rfl

theorem State.irq_errs (f v : Nat) : (s.irq f v).errs = s.errs := by
  unfold State.irq
  dsimp only
  split
  · rfl
  · split
    · rfl
    · exact s.post_errs ..

/-- A record to a Spur whose ring has room stands in it. -/
theorem State.record_stands {owner : Nat} (h : (s.errRing owner).recs.length < 64) (t : ErrType) (unit : Nat)
    (detail : List Nat) : ∃ e ∈ ((s.record owner t unit detail).errRing owner).recs, e.typ = t := by
  unfold State.record State.recordTo
  rw [if_neg (Nat.not_le.2 h)]
  simp only [State.errRing, State.irq_errs, State.onErrs_errs, Table.get_upd_same]
  exact ⟨_, List.mem_append_right _ (List.mem_singleton.2 rfl), rfl⟩

theorem State.rd_record {r : Reg} (hc : r ≠ .ERR_OVF_CNT) (ho : r ≠ .ERR_STAT_OVF) (i owner : Nat) (t : ErrType) (unit : Nat)
    (detail : List Nat) : (s.record owner t unit detail).rd r i = s.rd r i := s.rd_recordTo hc ho ..

end

/-! ### The parts of a Mill beyond its registers -/

section
variable (s : State)

@[simp] theorem State.rd_onMill (m : Nat) (f : MillSt → MillSt) (r : Reg) (i : Nat) : (s.onMill m f).rd r i = s.rd r i :=
  State.rd_congr rfl r i

@[simp] theorem State.mem_onMill (m : Nat) (f : MillSt → MillSt) : (s.onMill m f).mem = s.mem := rfl
@[simp] theorem State.tx_onMill (m : Nat) (f : MillSt → MillSt) : (s.onMill m f).tx = s.tx := rfl
@[simp] theorem State.raw_onMill (m : Nat) (f : MillSt → MillSt) : (s.onMill m f).raw = s.raw := rfl
@[simp] theorem State.regs_onMill (m : Nat) (f : MillSt → MillSt) : (s.onMill m f).regs = s.regs := rfl

@[simp] theorem State.mill_onMill_same (m : Nat) (f : MillSt → MillSt) : (s.onMill m f).mill m = f (s.mill m) :=
  Table.get_upd_same ..

@[simp] theorem State.mill_onMill_other (m : Nat) (f : MillSt → MillSt) {n : Nat} (h : n ≠ m) :
    (s.onMill m f).mill n = s.mill n := Table.get_upd_other _ _ _ _ h

end

/-- An entry inserted after its key is erased is the one found. -/
theorem Table.find?_insert_same {α : Type} (t : Table α) (k : Nat) (v : α) :
    (Table.insert (Table.erase t k) k v).find? (fun e => e.1 == k) = some (k, v) := by
  have hgone : ∀ e ∈ Table.erase t k, e.1 ≠ k := fun e he => (Table.mem_erase he).2
  generalize Table.erase t k = l at hgone ⊢
  induction l with
  | nil => simp [Table.insert]
  | cons e l ih =>
    simp only [Table.insert]
    split
    · simp
    · rw [List.find?_cons_of_neg (by simpa using hgone e List.mem_cons_self)]
      exact ih fun f hf => hgone f (List.mem_cons_of_mem _ hf)

theorem Table.find?_insert_other {α : Type} (t : Table α) {k j : Nat} (v : α) (h : j ≠ k) :
    (Table.insert t k v).find? (fun e => e.1 == j) = t.find? fun e => e.1 == j := by
  induction t with
  | nil => simp [Table.insert, h.symm]
  | cons e l ih =>
    simp only [Table.insert]
    split
    · rw [List.find?_cons_of_neg (by simpa using h.symm)]
    · simp only [List.find?_cons, ih]

theorem Table.find?_erase_same {α : Type} (t : Table α) (k : Nat) : (Table.erase t k).find? (fun e => e.1 == k) = none :=
  List.find?_eq_none.2 fun e he => by simpa using (Table.mem_erase he).2

theorem Table.find?_erase_other {α : Type} (t : Table α) {k j : Nat} (h : j ≠ k) :
    (Table.erase t k).find? (fun e => e.1 == j) = t.find? fun e => e.1 == j := by
  induction t with
  | nil => rfl
  | cons e l ih =>
    by_cases hk : e.1 = k
    · rw [Table.erase, if_pos hk, ih, List.find?_cons_of_neg (by simpa [hk] using h.symm)]
    · simp only [Table.erase, if_neg hk, List.find?_cons, ih]

section
variable (s : State)

@[simp] theorem State.task_setTask_same (m t : Nat) (r : RunTask) : (s.setTask m t r).task m t = some r := by
  simp only [State.task, State.setTask, State.mill_onMill_same, Table.find?_insert_same, Option.map_some]

theorem State.task_setTask_other {m t n e : Nat} (r : RunTask) (h : ¬(n = m ∧ e = t)) :
    (s.setTask m t r).task n e = s.task n e := by
  by_cases hn : n = m
  · subst hn
    have he : e ≠ t := fun he => h ⟨rfl, he⟩
    simp only [State.task, State.setTask, State.mill_onMill_same, Table.find?_insert_other _ _ he, Table.find?_erase_other _ he]
  · simp only [State.task, State.setTask, State.mill_onMill_other _ _ _ hn]

@[simp] theorem State.task_clearTask_same (m t : Nat) : (s.clearTask m t).task m t = none := by
  simp only [State.task, State.clearTask, State.mill_onMill_same, Table.find?_erase_same, Option.map_none]

/-- A change of a Mill that keeps its tasks keeps the task of every TE. -/
theorem State.task_onMill {m : Nat} {f : MillSt → MillSt} (h : (f (s.mill m)).run = (s.mill m).run) (n e : Nat) :
    (s.onMill m f).task n e = s.task n e := by
  by_cases hn : n = m
  · subst hn
    simp only [State.task, State.mill_onMill_same, h]
  · simp only [State.task, State.mill_onMill_other _ _ _ hn]

end

/-! ### Token counters (R228) -/

section
variable (s : State)

theorem State.reports_consume (m : Nat) (ws : List (Nat × Nat)) : s.Reports (s.consume m ws) :=
  .each .rfl (fun v _ => v.reports_wr ..) ws

theorem State.rd_consume {r : Reg} (h : r ≠ .TKC) (m : Nat) (ws : List (Nat × Nat)) (i : Nat) :
    (s.consume m ws).rd r i = s.rd r i := State.each_same (fun v => v.rd r i) _ (fun v _ => v.rd_wr_other _ _ _ h) ws s

/-- A single wait's count is subtracted. -/
theorem State.consume_single {m : Nat} {w : Nat × Nat} : s.consume m [w] =
    s.wr .TKC (64 * m + w.1) (s.rd .TKC (64 * m + w.1) - w.2) := rfl

end

end Sys2Proof.Machine
end

section
/-!
PROOFS of the statement of the DMA channels (O28) of `spec/08_mills.md` in this row.
-/
namespace Sys2Proof.Machine

/-! ### What a descriptor's check and its tiles are read from (R224 to R226) -/

section
variable {s t : State}

theorem State.millOwner_congr (hq : ∀ i, t.rd .SPUR_QUADS i = s.rd .SPUR_QUADS i) : t.millOwner = s.millOwner := by
  funext m
  simp only [State.millOwner, State.millHolder, hq]

/-- Whose object a descriptor names depends on the batts, the subscriptions and what the Spurs hold. -/
theorem State.dmaForeign_congr (hms : t.ms = s.ms) (hful : t.ful = s.ful) (hq : ∀ i, t.rd .SPUR_QUADS i = s.rd .SPUR_QUADS i)
    (he : ∀ i, t.rd .SPUR_EQ i = s.rd .SPUR_EQ i) (hs : ∀ i, t.rd .SUB_EN i = s.rd .SUB_EN i) (m : Nat) (d : List Byte) :
    t.dmaForeign m d = s.dmaForeign m d := by
  have hbatt : t.batt = s.batt := by funext long i; simp only [State.batt, hms]
  have hlive : t.handleLive = s.handleLive := by unfold State.handleLive; rw [hbatt]
  have howner : t.handleOwner = s.handleOwner := by unfold State.handleOwner; rw [hbatt]
  have hspur : t.sameSpur = s.sameSpur := by
    funext a b
    simp only [State.sameSpur, State.millOwner_congr hq, State.millHolder, hq]
  have heq : t.eqOwner = s.eqOwner := by funext q; simp only [State.eqOwner, he]
  have hen : ∀ i, t.flag .SUB_EN i = s.flag .SUB_EN i := fun i => by simp only [State.flag, hs]
  have hsub : t.sub = s.sub := by funext i; simp only [State.sub, hful]
  unfold State.dmaForeign
  rw [hlive, howner, hspur, heq, hen, hsub, State.millOwner_congr hq]

/-- The tiles of a tile read depend on the subscription and the geometry of its head. -/
theorem State.haloRead_congr (hful : t.ful = s.ful) (hslot : ∀ i, t.rd .SUB_SLOT i = s.rd .SUB_SLOT i)
    (hw : ∀ i, t.rd .HT_GEOM_W i = s.rd .HT_GEOM_W i) (hh : ∀ i, t.rd .HT_GEOM_H i = s.rd .HT_GEOM_H i) (d : List Byte) :
    t.haloRead d = s.haloRead d := by
  have htiles : t.subTiles = s.subTiles := by
    funext i
    simp only [State.subTiles, State.subGrid, State.gridAt, State.headW, State.headH, State.sub, hful, hslot, hw, hh]
  unfold State.haloRead
  rw [htiles]

/-- A refused descriptor that names no other Spur's object is reported as an error of the channel alone (R226). -/
theorem State.dmaRefuse_own {m ch : Nat} {d : List Byte} (h : s.dmaForeign m d = none) :
    s.dmaRefuse m ch d = (s.put .DC_ERR (4 * m + ch) true).record (s.millOwner m) .dmaErr m [ch] := by
  set u := (s.put .DC_ERR (4 * m + ch) true).record (s.millOwner m) .dmaErr m [ch] with hu
  have hrep : s.Reports u := (s.reports_put ..).trans (State.reports_record ..)
  have hrd : ∀ {r : Reg}, r ≠ .ERR_OVF_CNT → r ≠ .ERR_STAT_OVF → r ≠ .DC_ERR → ∀ i, u.rd r i = s.rd r i :=
    fun hc ho hd i => (State.rd_record _ hc ho ..).trans (s.rd_wr_other _ _ _ hd)
  have hnone : u.dmaForeign m d = none := by
    rw [State.dmaForeign_congr hrep.ms hrep.ful (hrd (by decide) (by decide) (by decide))
      (hrd (by decide) (by decide) (by decide)) (hrd (by decide) (by decide) (by decide)), h]
  rw [State.dmaRefuse, ← hu, hnone]

end

/-! ### The commands of a channel -/

section
variable {s : State} {c : Fin 16} {m : Fin 128} {ch : Fin 4}

theorem exec_dmaTailWrite {v : BitVec 6} (h : s.letIn (.fw c) .DC_TAIL (4 * m.val + ch.val) = .ok s) :
    exec (.dmaTailWrite (.fw c) m ch v) s = .next (s.wr .DC_TAIL (4 * m.val + ch.val) v.toNat) := by
  change execDmaTailWrite (.fw c) m ch v s = _
  rw [execDmaTailWrite, h]
  rfl

/-- A channel with no descriptor, or one that is halted, fetches nothing. -/
theorem exec_dmaDescriptorFetch_idle (h : s.rd .DC_HEAD (4 * m.val + ch.val) = s.rd .DC_TAIL (4 * m.val + ch.val) ∨
    s.flag .DC_ERR (4 * m.val + ch.val) = true) (e : SramEcc) : exec (.dmaDescriptorFetch m ch e) s = .next s := by
  change execDmaDescriptorFetch m ch e s = _
  rcases h with h | h <;> simp [execDmaDescriptorFetch, h, done]

/-- A descriptor that may be fetched, with no SRAM error, is refused or taken by its check. -/
theorem exec_dmaDescriptorFetch_due (hl : s.millLive m.val = true) (hd : s.draining m.val = false)
    (he : s.flag .DC_ERR (4 * m.val + ch.val) = false)
    (hne : s.rd .DC_HEAD (4 * m.val + ch.val) ≠ s.rd .DC_TAIL (4 * m.val + ch.val))
    (hw : s.waitsMet m.val (ddWaits (s.dmaDesc m.val ch.val)) = true)
    (hr : s.dmaRoom m.val (s.dmaDesc m.val ch.val) = true) :
    let k := 4 * m.val + ch.val
    let d := s.dmaDesc m.val ch.val
    let u := (s.consume m.val (ddWaits d)).wr .DC_HEAD k (s.rd .DC_HEAD k + 1)
    exec (.dmaDescriptorFetch m ch ⟨0, none⟩) s = .next (if s.dmaShapeBad m.val d || s.dmaTargetBad m.val d
      then s.dmaRefuse m.val ch.val d
      else u.onXfers m.val ch.val fun l => l ++ [{ desc := d, todo := if ddKind d = 4 then u.haloRead d else [] }]) := by
  intro k d u
  change execDmaDescriptorFetch m ch ⟨0, none⟩ s = _
  have hgo : (!s.millLive m.val || s.draining m.val || s.flag .DC_ERR (4 * m.val + ch.val) ||
      s.rd .DC_HEAD (4 * m.val + ch.val) == s.rd .DC_TAIL (4 * m.val + ch.val) ||
      !s.waitsMet m.val (ddWaits (s.dmaDesc m.val ch.val)) || !s.dmaRoom m.val (s.dmaDesc m.val ch.val)) = false := by
    simp [hl, hd, he, hne, hw, hr]
  simp only [execDmaDescriptorFetch, hgo, State.sramCe, Bool.false_eq_true, if_false, if_true, done]
  split <;> rfl

/-- The fetch of a descriptor that passes its check (R226). -/
theorem dmaDescriptorFetch_taken (hl : s.millLive m.val = true) (hd : s.draining m.val = false)
    (he : s.flag .DC_ERR (4 * m.val + ch.val) = false)
    (hne : s.rd .DC_HEAD (4 * m.val + ch.val) ≠ s.rd .DC_TAIL (4 * m.val + ch.val))
    (hw : s.waitsMet m.val (ddWaits (s.dmaDesc m.val ch.val)) = true)
    (hr : s.dmaRoom m.val (s.dmaDesc m.val ch.val) = true)
    (hs : s.dmaShapeBad m.val (s.dmaDesc m.val ch.val) = false) (ht : s.dmaTargetBad m.val (s.dmaDesc m.val ch.val) = false) :
    let k := 4 * m.val + ch.val
    let d := s.dmaDesc m.val ch.val
    ∃ u, exec (.dmaDescriptorFetch m ch ⟨0, none⟩) s = .next u ∧
      u.xfers m.val ch.val = s.xfers m.val ch.val ++ [{ desc := d, todo := if ddKind d = 4 then s.haloRead d else [] }] ∧
      u.rd .DC_HEAD k = (s.rd .DC_HEAD k + 1) % 2 ^ 6 ∧ u.mem = s.mem ∧
      ∀ w, ddWaits d = [w] → u.rd .TKC (64 * m.val + w.1) = (s.rd .TKC (64 * m.val + w.1) - w.2) % 2 ^ 16 := by
  intro k d
  have hexec := exec_dmaDescriptorFetch_due hl hd he hne hw hr
  dsimp only at hexec
  rw [hs, ht, Bool.or_false, if_neg Bool.false_ne_true] at hexec
  set v := s.consume m.val (ddWaits (s.dmaDesc m.val ch.val)) with hv
  set u := v.wr .DC_HEAD (4 * m.val + ch.val) (s.rd .DC_HEAD (4 * m.val + ch.val) + 1) with hu
  have hrep : s.Reports u := (s.reports_consume ..).trans (State.reports_wr ..)
  have hrd : ∀ {r : Reg}, r ≠ .DC_HEAD → r ≠ .TKC → ∀ i, u.rd r i = s.rd r i :=
    fun hh ht i => (v.rd_wr_other _ _ _ hh).trans (s.rd_consume ht ..)
  have hhalo : u.haloRead d = s.haloRead d := State.haloRead_congr hrep.ful (hrd (by decide) (by decide))
    (hrd (by decide) (by decide)) (hrd (by decide) (by decide)) d
  refine ⟨_, hexec, ?_, ?_, hrep.mem, fun w hws => ?_⟩
  · rw [State.xfers_onXfers_same, hhalo, State.xfers, hrep.mill]
    rfl
  · rw [State.onXfers, State.rd_onMill, hu, State.rd_wr_same]
    rfl
  · rw [State.onXfers, State.rd_onMill, hu, State.rd_wr_other _ _ _ _ (by decide), hv, hws, State.consume_single, State.rd_wr_same]
    rfl

/-- A transfer that still reads tiles does not complete. -/
theorem exec_dmaTransferComplete_reading {x : Xfer} {rest : List Xfer} (hx : s.xfers m.val ch.val = x :: rest)
    (ht : x.todo ≠ []) : exec (.dmaTransferComplete m ch ⟨0, none⟩ .none []) s = .next s := by
  have hread : (!x.todo.isEmpty || !s.dmaTakes x.desc) = true := by simp [ht]
  change execDmaTransferComplete m ch ⟨0, none⟩ .none [] s = _
  simp only [execDmaTransferComplete, hx, hread, if_true, done, ite_self]

/-- A transfer of plain bytes stores them and makes its post. -/
theorem exec_dmaTransferComplete_plain {x : Xfer} {rest : List Xfer} (hl : s.millLive m.val = true)
    (hx : s.xfers m.val ch.val = x :: rest) (ht : x.todo = []) (hk : ddKind x.desc = 1 ∨ ddKind x.desc = 2) :
    let u := s.onXfers m.val ch.val fun _ => rest
    exec (.dmaTransferComplete m ch ⟨0, none⟩ .none []) s =
      .next ((u.each ((ddOffsets x.desc true).zip (u.dmaData m.val x.desc)) fun s p => s.dmaStore m.val x.desc p.1 p.2).doPost
        m.val (ddPost x.desc)) := by
  intro u
  have hgo : (!x.todo.isEmpty || !s.dmaTakes x.desc) = false := by rcases hk with hk | hk <;> simp [ht, State.dmaTakes, hk]
  have hbytes : u.dmaBytes m.val x [] = ((ddOffsets x.desc true).zip (u.dmaData m.val x.desc), u) := by
    rcases hk with hk | hk <;> simp only [State.dmaBytes, hk]
  change execDmaTransferComplete m ch ⟨0, none⟩ .none [] s = _
  simp only [execDmaTransferComplete, hl, hx, hgo, State.sramCe, Bool.not_true, Bool.false_eq_true, if_false, if_true, done]
  rw [hbytes]
  rfl

end

/-- Settles O28: a write of TAIL, a fetch by whether the channel may take a descriptor and by the descriptor's check, and the
completion of the oldest transfer by whether it still reads. -/
theorem dmaChannels : Obligations.DmaChannels := by
  unfold Obligations.DmaChannels
  refine fun s c m ch => ⟨fun v h => exec_dmaTailWrite h, exec_dmaDescriptorFetch_idle, fun hl hd he hne hw hr =>
    ⟨dmaDescriptorFetch_taken hl hd he hne hw hr, fun hbad hown => ?refused⟩,
    fun x rest hl hx => ⟨exec_dmaTransferComplete_reading hx, exec_dmaTransferComplete_plain hl hx⟩⟩
  case refused => rw [exec_dmaDescriptorFetch_due hl hd he hne hw hr, if_pos hbad, State.dmaRefuse_own hown]

end Sys2Proof.Machine
end

section
/-!
PROOFS of the statement of the task queues (O26) of `spec/08_mills.md` in this row.
-/
namespace Sys2Proof.Machine

/-! ### Invocations on a Mill (R355, R360) -/

/-- A field of the operation contexts that a read clears (R9). -/
@[simp] def Reg.opctx (r : Reg) : Bool :=
  List.contains [.OPCTX_SAT_CNT, .OPCTX_FLUSH_IN, .OPCTX_FLUSH_OUT, .OPCTX_NAN_TILES, .OPCTX_FLAGS] r

section
variable (s : State)

/-- What is noted of an invocation stands with the mailboxes. -/
theorem State.onInv_eq (m : Nat) (f : Machine.Inv → Machine.Inv) : ∃ g, s.onInv m f = s.onMail g := by
  unfold State.onInv
  split
  · exact ⟨_, rfl⟩
  · exact ⟨id, rfl⟩

/-- The context of one queue is cleared. -/
def State.clearOne (s : State) (k : Nat) : State :=
  ((((s.wr .OPCTX_SAT_CNT k 0).wr .OPCTX_FLUSH_IN k 0).wr .OPCTX_FLUSH_OUT k 0).wr .OPCTX_NAN_TILES k 0).wr .OPCTX_FLAGS k 0

theorem State.reports_clearCtx (m : Nat) : s.Reports (s.clearCtx m) := by
  refine .each .rfl (f := State.clearOne) (fun v k => ?_) _
  exact ((((v.reports_wr ..).trans (State.reports_wr ..)).trans (State.reports_wr ..)).trans (State.reports_wr ..)).trans
    (State.reports_wr ..)

theorem State.tx_clearCtx (m : Nat) : (s.clearCtx m).tx = s.tx :=
  State.each_same State.tx State.clearOne (fun _ _ => rfl) _ s

theorem State.rd_clearCtx {r : Reg} (h : r.opctx = false) (m i : Nat) : (s.clearCtx m).rd r i = s.rd r i := by
  have hne : ∀ q : Reg, q.opctx = true → r ≠ q := fun q hq e => by rw [e, hq] at h; cases h
  refine State.each_same (fun v => v.rd r i) State.clearOne (fun v k => ?_) _ s
  unfold State.clearOne
  rw [State.rd_wr_other _ _ _ _ (hne _ rfl), State.rd_wr_other _ _ _ _ (hne _ rfl), State.rd_wr_other _ _ _ _ (hne _ rfl),
    State.rd_wr_other _ _ _ _ (hne _ rfl), State.rd_wr_other _ _ _ _ (hne _ rfl)]

/-- Reading the contexts of a Mill goes to the mailboxes and clears the contexts. -/
theorem State.takeCtx_eq (m : Nat) : ∃ g, s.takeCtx m = (s.onMail g).clearCtx m := by
  obtain ⟨g, hg⟩ := s.onInv_eq m fun v => { v with sums := addSums v.sums (s.ctxSums m) }
  exact ⟨g, congrArg (fun v => State.clearCtx v m) hg⟩

/-- The next invocation of a Mill follows, or nothing happens. -/
theorem State.millNext_eq (m : Nat) : s.millNext m = s ∨
    ∃ g rest, s.millNext m = ((s.onMail g).clearCtx m).onMill m fun x => { x with jobs := rest } := by
  unfold State.millNext
  split
  · split
    · obtain ⟨g, hg⟩ := s.takeCtx_eq m
      exact .inr ⟨g, _, by rw [hg]⟩
    · exact .inl rfl
  · exact .inl rfl

theorem State.rd_millNext {r : Reg} (h : r.opctx = false) (m i : Nat) : (s.millNext m).rd r i = s.rd r i := by
  obtain hs | ⟨g, rest, hs⟩ := s.millNext_eq m <;> rw [hs]
  rw [State.rd_onMill, State.rd_clearCtx _ h]
  exact State.rd_congr rfl r i

theorem State.mem_millNext (m : Nat) : (s.millNext m).mem = s.mem := by
  obtain hs | ⟨g, rest, hs⟩ := s.millNext_eq m <;> rw [hs]
  rw [State.mem_onMill, (State.reports_clearCtx (s.onMail g) m).mem, State.onMail_mem]

theorem State.tx_millNext (m : Nat) : (s.millNext m).tx = s.tx := by
  obtain hs | ⟨g, rest, hs⟩ := s.millNext_eq m <;> rw [hs]
  rw [State.tx_onMill, State.tx_clearCtx, State.onMail_tx]

theorem State.reruns_millNext (m q : Nat) : (s.millNext m).reruns m q = s.reruns m q := by
  obtain hs | ⟨g, rest, hs⟩ := s.millNext_eq m <;> rw [hs]
  rw [State.reruns, State.mill_onMill_same]
  exact (State.reports_clearCtx (s.onMail g) m).reruns m q

theorem State.task_millNext (m n e : Nat) : (s.millNext m).task n e = s.task n e := by
  obtain hs | ⟨g, rest, hs⟩ := s.millNext_eq m <;> rw [hs]
  rw [State.task_onMill _ rfl]
  exact (State.reports_clearCtx (s.onMail g) m).task n e

end

/-! ### TAIL and CLR writes (R228, R233, R355) -/

section
variable {s : State} {c : Fin 16} {m : Fin 128} {q : Fin 8}

theorem exec_tqTailWrite {v : BitVec 9} (h : s.letIn (.fw c) .TQ_TAIL (8 * m.val + q.val) = .ok s) :
    exec (.tqTailWrite (.fw c) m q v) s = .next (s.addTasks m.val q.val v.toNat) := by
  change execTqTailWrite (.fw c) m q v s = _
  rw [execTqTailWrite, h]
  rfl

theorem State.addTasks_free {s : State} {m : Nat} (h : (s.mill m).jobs = []) (q v : Nat) :
    s.addTasks m q v = (s.wr .TQ_TAIL (8 * m + q) v).tqRefresh m q := by
  simp only [State.addTasks, h]

/-- With an invocation on the Mill a write that adds more than it has left is not made (R355). -/
theorem State.addTasks_held {s : State} {m : Nat} {j : MillJob} {rest : List MillJob} (h : (s.mill m).jobs = j :: rest)
    (q v : Nat) : s.addTasks m q v = if j.todo < s.tasksAdded (8 * m + q) v then s
      else ((s.onMill m fun x => { x with jobs := { j with todo := j.todo - s.tasksAdded (8 * m + q) v } :: rest }).wr .TQ_TAIL
        (8 * m + q) v).tqRefresh m q := by
  simp only [State.addTasks, h]

theorem exec_tqClr (h : s.letIn (.fw c) .TQ_CLR (8 * m.val + q.val) = .ok s) :
    exec (.tqClr (.fw c) m q) s =
      .next (if s.tqHalted (8 * m.val + q.val) then (s.tqClear m.val q.val).millNext m.val else s) := by
  change execTqClr (.fw c) m q s = _
  rw [execTqClr, h]
  dsimp only
  split <;> rfl

end

/-- Two changes of the Mills make one. -/
theorem State.onMills_trans {s t u : State} (h : ∃ g, t = s.onMills g) (k : ∃ g, u = t.onMills g) : ∃ g, u = s.onMills g := by
  obtain ⟨g, rfl⟩ := h
  obtain ⟨g', rfl⟩ := k
  exact ⟨g' ∘ g, rfl⟩

theorem State.setTask_eq (s : State) (m t : Nat) (r : RunTask) : ∃ g, s.setTask m t r = s.onMills g := by
  unfold State.setTask State.onMill
  exact ⟨_, rfl⟩

/-- The boundary of a TE that is not asked to leave changes the Mill alone, and neither its queues nor who is asked to leave. -/
theorem State.boundary_stays {s : State} {m t : Nat} (h : bit (s.mill m).offReq t = false) :
    (∃ g, s.boundary m t = s.onMills g) ∧ ((s.boundary m t).mill m).offReq = (s.mill m).offReq ∧
      (s.boundary m t).reruns m = s.reruns m := by
  unfold State.boundary
  rw [h, if_neg Bool.false_ne_true]
  split
  · refine ⟨State.onMills_trans ⟨_, rfl⟩ (State.setTask_eq ..), ?_, ?_⟩
    · simp only [State.setTask, State.mill_onMill_same]
    · funext q
      simp only [State.reruns, State.setTask, State.mill_onMill_same]
  · exact ⟨⟨id, rfl⟩, rfl, rfl⟩

/-- A queue of a Mill none of whose TEs is asked to leave is emptied (R233). -/
theorem State.tqClear_empties (s : State) {m : Nat} (q : Nat) (h : (s.mill m).offReq = 0) :
    let u := s.tqClear m q
    u.rd .TQ_STATE (8 * m + q) = 0 ∧ u.rd .TQ_HEAD (8 * m + q) = s.rd .TQ_TAIL (8 * m + q) % 2 ^ 9 ∧ u.reruns m q = [] ∧
      u.mem = s.mem ∧ u.tx = s.tx := by
  intro u
  set v := ((s.onMill m fun x =>
    { x with
      run := x.run.filter fun e => e.2.tq != q, rerun := Table.set [] x.rerun q []
      exp := x.exp.filter fun e => e.2.q != q }).wr .TQ_HEAD (8 * m + q) (s.rd .TQ_TAIL (8 * m + q))).wr .TQ_STATE
        (8 * m + q) 0 with hv
  have hmill := s.mill_onMill_same m fun x =>
    { x with
      run := x.run.filter fun e => e.2.tq != q, rerun := Table.set [] x.rerun q []
      exp := x.exp.filter fun e => e.2.q != q }
  change v.mill m = _ at hmill
  have hkept : (∃ g, u = v.onMills g) ∧ (u.mill m).offReq = 0 ∧ u.reruns m = v.reruns m := by
    refine State.each_keeps (fun w => (∃ g, w = v.onMills g) ∧ (w.mill m).offReq = 0 ∧ w.reruns m = v.reruns m) _
      (fun w t hw => ?_) _ v ⟨⟨id, rfl⟩, by rw [hmill]; exact h, rfl⟩
    obtain ⟨hg, hoff, hre⟩ := hw
    obtain ⟨hg', hoff', hre'⟩ := State.boundary_stays (s := w) (m := m) (t := t) (by rw [hoff]; simp [bit])
    exact ⟨State.onMills_trans hg hg', hoff'.trans hoff, hre'.trans hre⟩
  obtain ⟨⟨g, hu⟩, -, hre⟩ := hkept
  have hrd : ∀ (r : Reg) (i : Nat), u.rd r i = v.rd r i := fun r i => by rw [hu]; exact State.rd_congr rfl r i
  refine ⟨?_, ?_, ?_, by rw [hu]; rfl, by rw [hu]; rfl⟩
  · rw [hrd, hv, State.rd_wr_same]
    rfl
  · rw [hrd, hv, State.rd_wr_other _ _ _ _ (by decide), State.rd_wr_same]
    rfl
  · rw [hre, State.reruns, hmill]
    exact Table.get_set_same [] _ q []

/-! ### What IDLE and RUN follow from -/

section
variable (s : State)

theorem State.reports_tqRefresh (m q : Nat) : s.Reports (s.tqRefresh m q) := .ite .rfl (s.reports_wr ..)

theorem State.rd_tqRefresh {r : Reg} (h : r ≠ .TQ_STATE) (m q i : Nat) : (s.tqRefresh m q).rd r i = s.rd r i := by
  unfold State.tqRefresh
  dsimp only
  split
  · rfl
  · exact s.rd_wr_other _ _ _ h

variable {s}

/-- A queue of which a task runs, and that is not halted, is in RUN. -/
theorem State.tqRefresh_runs {m t q : Nat} {r : RunTask} (h : s.task m t = some r) (hq : r.tq = q)
    (hh : s.tqHalted (8 * m + q) = false) : (s.tqRefresh m q).rd .TQ_STATE (8 * m + q) = 1 := by
  subst hq
  have hany : ((s.mill m).run.any fun e => e.2.tq == r.tq) = true := by
    obtain ⟨e, he, hr⟩ := Option.map_eq_some_iff.1 h
    exact List.any_eq_true.2 ⟨e, List.mem_of_find?_eq_some he, by rw [hr]; exact beq_self_eq_true _⟩
  simp only [State.tqRefresh, hh, hany, Bool.or_true, Bool.false_eq_true, if_false, if_true, State.rd_wr_same]
  rfl

end

/-! ### Dispatch (R228, R229, R233) -/

/-- A test that one of the eight queues passes picks it out of their list. -/
theorem filter_queues {p : Nat → Bool} (q : Fin 8) (hq : p q.val = true) (ho : ∀ j, j < 8 → j ≠ q.val → p j = false) :
    (List.range 8).filter p = [q.val] := by
  have hp : ∀ j ∈ List.range 8, p j = (j == q.val) := fun j hj => by
    by_cases h : j = q.val
    · rw [h, hq, beq_self_eq_true]
    · rw [ho j (List.mem_range.1 hj) h, beq_eq_false_iff_ne.2 h]
  rw [List.filter_congr hp]
  clear hq ho hp
  revert q
  decide

/-- The rotation finds the one ready queue, wherever it stands (R229). -/
theorem find?_rotation_queues {p : Nat → Bool} (q : Fin 8) (hq : p q.val = true) (ho : ∀ j, j < 8 → j ≠ q.val → p j = false)
    (i : Nat) : ((List.range 8).map fun j => (i + j) % 8).find? p = some q.val := by
  have hlt : ∀ k ∈ (List.range 8).map fun j => (i + j) % 8, k < 8 := fun k hk => by
    obtain ⟨j, -, rfl⟩ := List.mem_map.1 hk
    exact Nat.mod_lt _ (by norm_num)
  have hmem : q.val ∈ (List.range 8).map fun j => (i + j) % 8 :=
    List.mem_map.2 ⟨(q.val + 8 - i % 8) % 8, List.mem_range.2 (Nat.mod_lt _ (by norm_num)), by omega⟩
  cases hf : ((List.range 8).map fun j => (i + j) % 8).find? p with
  | none => exact absurd hq (List.find?_eq_none.1 hf q.val hmem)
  | some k =>
    have hk : p k = true := List.find?_some hf
    by_contra hne
    rw [ho k (hlt k (List.mem_of_find?_eq_some hf)) fun e => hne (by rw [e])] at hk
    cases hk

section
variable {s : State} {m : Nat}

theorem State.headExposed_iff {q : Nat} : s.headExposed m q = true ↔
    s.tqHalted (8 * m + q) = false ∧ s.reruns m q = [] ∧ s.expanding m q = none ∧ s.tqEmpty (8 * m + q) = false := by
  simp [State.headExposed, and_assoc]

/-- A queue that holds nothing has no head to look at and no task to give. -/
theorem State.idle_queue {q : Nat} (h : s.tqEmpty (8 * m + q) = true ∧ s.reruns m q = [] ∧ s.expanding m q = none) :
    s.headExposed m q = false ∧ s.tqReady m q = false := by
  obtain ⟨he, hr, hx⟩ := h
  simp [State.headExposed, State.tqReady, he, hr, hx]

/-- The one head to look at is checked. -/
theorem State.checkHeads_single {q : Fin 8} (hq : s.headExposed m q.val = true)
    (ho : ∀ j, j < 8 → j ≠ q.val → s.tqEmpty (8 * m + j) = true ∧ s.reruns m j = [] ∧ s.expanding m j = none) :
    s.checkHeads m = if s.taskBad m (s.tqHeadDesc m q.val) then (s.tqHalt m q.val haltDesc).record (s.millOwner m) .descErr m [q.val]
      else if taskAlias (s.tqHeadDesc m q.val) then
        (s.tqHalt m q.val haltAlias).record (s.millOwner m) .descErr m [q.val + 256]
      else s := by
  rw [State.checkHeads, filter_queues q hq fun j hj hne => (State.idle_queue (ho j hj hne)).1]
  rfl

end

section
variable {s : State} {m : Fin 128}

/-- A dispatch cycle with no SRAM error: the heads are checked, and the first ready queue gives its task to the lowest idle TE. -/
theorem exec_taskDispatch (hl : s.millLive m.val = true) (hd : s.draining m.val = false) :
    exec (.taskDispatch m ⟨0, none⟩) s =
      let s := s.checkHeads m.val
      .next (match s.idleTe m.val,
          ((List.range 8).map fun j => ((s.mill m.val).ptr + j) % 8).find? fun q => s.tqReady m.val q with
        | some t, some q => s.dispatchTo m.val q t
        | _, _ => s) := by
  change execTaskDispatch m ⟨0, none⟩ s = _
  simp only [execTaskDispatch, hl, hd, State.sramCe, Bool.not_true, Bool.or_self, Bool.false_eq_true, if_false, if_true, done]
  split
  · rw [‹State.idleTe _ _ = none›]
  · rw [‹State.idleTe _ _ = some _›]
    split
    · rw [‹List.find? _ _ = none›]
    · rw [‹List.find? _ _ = some _›]

/-- With the one queue that held a task halted, none is ready. -/
theorem exec_taskDispatch_refused {q : Fin 8} (hl : s.millLive m.val = true) (hd : s.draining m.val = false)
    (hq : s.headExposed m.val q.val = true)
    (ho : ∀ j, j < 8 → j ≠ q.val → s.tqEmpty (8 * m.val + j) = true ∧ s.reruns m.val j = [] ∧ s.expanding m.val j = none)
    (hb : s.taskBad m.val (s.tqHeadDesc m.val q.val) = true) :
    exec (.taskDispatch m ⟨0, none⟩) s =
      .next ((s.tqHalt m.val q.val haltDesc).record (s.millOwner m.val) .descErr m.val [q.val]) := by
  rw [exec_taskDispatch hl hd, State.checkHeads_single hq ho, if_pos hb]
  set u := (s.tqHalt m.val q.val haltDesc).record (s.millOwner m.val) .descErr m.val [q.val] with hu
  have hrep : s.Reports u := (s.reports_wr ..).trans (State.reports_record ..)
  have hrd : ∀ {r : Reg}, r ≠ .ERR_OVF_CNT → r ≠ .ERR_STAT_OVF → r ≠ .TQ_STATE → ∀ i, u.rd r i = s.rd r i :=
    fun hc ho ht i => (State.rd_record _ hc ho ..).trans (s.rd_wr_other _ _ _ ht)
  have hhalt : u.tqHalted (8 * m.val + q.val) = true := by
    rw [State.tqHalted, hu, State.rd_record _ (by decide) (by decide), State.tqHalt, State.rd_wr_same]
    rfl
  have hready : ∀ j, j < 8 → u.tqReady m.val j = false := by
    intro j hj
    by_cases h : j = q.val
    · rw [h, State.tqReady, hhalt]
      rfl
    · obtain ⟨he, hr, hx⟩ := ho j hj h
      refine (State.idle_queue ⟨?_, (hrep.reruns ..).trans hr, (hrep.expanding ..).trans hx⟩).2
      rw [← he]
      simp only [State.tqEmpty, hrd (r := .TQ_HEAD) (by decide) (by decide) (by decide),
        hrd (r := .TQ_TAIL) (by decide) (by decide) (by decide), hrd (r := .TQ_SIZE) (by decide) (by decide) (by decide)]
  have hnone : ((List.range 8).map fun j => ((u.mill m.val).ptr + j) % 8).find? (fun q => u.tqReady m.val q) = none := by
    refine List.find?_eq_none.2 fun k hk => ?_
    obtain ⟨j, -, rfl⟩ := List.mem_map.1 hk
    rw [hready _ (Nat.mod_lt _ (by norm_num))]
    exact Bool.false_ne_true
  dsimp only
  rw [hnone]
  cases u.idleTe m.val <;> rfl

end

/-- The state in which the head's task stands on its TE, before the rotation turns. -/
def State.headGiven (s : State) (m q t : Nat) : State :=
  ((s.consume m (tdWaits (s.tqHeadDesc m q))).tqAdvance (8 * m + q)).startTask m t { tq := q, desc := s.tqHeadDesc m q }

section
variable {s : State} {m q t : Nat}

theorem State.dispatchTo_head (hr : s.reruns m q = []) (hx : s.expanding m q = none)
    (hs : tdSparse (s.tqHeadDesc m q) = false) :
    s.dispatchTo m q t = ((s.headGiven m q t).onMill m fun x => { x with ptr := (q + 1) % 8 }).tqRefresh m q := by
  have hstart : s.startHead m q t = s.headGiven m q t := by
    simp only [State.startHead, hs, Bool.not_false, if_true, State.headGiven]
  simp only [State.dispatchTo, hr, hx, hstart]

end

section
variable (s : State)

theorem State.startTask_eq (m t : Nat) (r : RunTask) :
    ∃ g, s.startTask m t r = (s.setTask m t { r with cyc := 0, start := s.raw }).onMail g := State.onInv_eq _ _ _

theorem State.task_startTask_same (m t : Nat) (r : RunTask) :
    (s.startTask m t r).task m t = some { r with cyc := 0, start := s.raw } := by
  obtain ⟨g, hg⟩ := s.startTask_eq m t r
  rw [hg]
  exact s.task_setTask_same m t _

theorem State.rd_startTask (m t : Nat) (r : RunTask) (q : Reg) (i : Nat) : (s.startTask m t r).rd q i = s.rd q i := by
  obtain ⟨g, hg⟩ := s.startTask_eq m t r
  rw [hg]
  exact State.rd_congr rfl q i

theorem State.mem_startTask (m t : Nat) (r : RunTask) : (s.startTask m t r).mem = s.mem := by
  obtain ⟨g, hg⟩ := s.startTask_eq m t r
  rw [hg]
  rfl

theorem State.reports_tqAdvance (k : Nat) : s.Reports (s.tqAdvance k) := s.reports_wr ..

theorem State.rd_tqAdvance {r : Reg} (h : r ≠ .TQ_HEAD) (k i : Nat) : (s.tqAdvance k).rd r i = s.rd r i :=
  s.rd_wr_other _ _ _ h

theorem State.tqAdvance_head (k : Nat) :
    (s.tqAdvance k).rd .TQ_HEAD k = (s.rd .TQ_HEAD k + 1) % max 1 (2 * s.rd .TQ_SIZE k) % 2 ^ 9 := s.rd_wr_same ..

end

/-- A good head that its counters allow goes to the TE (R228, R229). -/
theorem State.dispatchTo_given {s : State} {m q t : Nat} (hq : s.headExposed m q = true)
    (hs : tdSparse (s.tqHeadDesc m q) = false) :
    let k := 8 * m + q
    let d := s.tqHeadDesc m q
    let u := s.dispatchTo m q t
    u.task m t = some { tq := q, desc := d, start := s.raw } ∧ u.rd .TQ_STATE k = 1 ∧
      u.rd .TQ_HEAD k = (s.rd .TQ_HEAD k + 1) % max 1 (2 * s.rd .TQ_SIZE k) % 2 ^ 9 ∧ (u.mill m).ptr = (q + 1) % 8 ∧
      u.mem = s.mem ∧
      ∀ w, tdWaits d = [w] → u.rd .TKC (64 * m + w.1) = (s.rd .TKC (64 * m + w.1) - w.2) % 2 ^ 16 := by
  intro k d u
  obtain ⟨hhalt, hr, hx, -⟩ := State.headExposed_iff.1 hq
  set v := s.consume m (tdWaits d) with hv
  set x := (s.headGiven m q t).onMill m fun x => { x with ptr := (q + 1) % 8 } with hxdef
  have hu : u = x.tqRefresh m q := State.dispatchTo_head hr hx hs
  have hrep : x.Reports u := hu ▸ x.reports_tqRefresh m q
  have hadv : s.Reports (v.tqAdvance k) := (s.reports_consume m _).trans (v.reports_tqAdvance k)
  have hrd : ∀ (r : Reg) (i : Nat), x.rd r i = (v.tqAdvance k).rd r i := fun r i =>
    (State.rd_onMill ..).trans (State.rd_startTask ..)
  have htask : x.task m t = some { tq := q, desc := d, start := s.raw } := by
    rw [hxdef, State.task_onMill _ rfl, State.headGiven, State.task_startTask_same]
    exact congrArg (fun n => some ({ tq := q, desc := d, start := n } : RunTask)) hadv.raw
  have hlive : x.tqHalted k = false := by
    rw [← hhalt, State.tqHalted, State.tqHalted, hrd, State.rd_tqAdvance _ (by decide), hv, State.rd_consume _ (by decide)]
  refine ⟨(hrep.task m t).trans htask, ?_, ?_, ?_, ?_, fun w hw => ?_⟩
  · rw [hu]
    exact State.tqRefresh_runs htask rfl hlive
  · rw [hu, State.rd_tqRefresh _ (by decide), hrd, State.tqAdvance_head, hv, State.rd_consume _ (by decide),
      State.rd_consume _ (by decide)]
  · rw [hrep.mill, hxdef, State.mill_onMill_same]
  · rw [hrep.mem, hxdef, State.mem_onMill, State.headGiven, State.mem_startTask, hadv.mem]
  · rw [hu, State.rd_tqRefresh _ (by decide), hrd, State.rd_tqAdvance _ (by decide), hv, hw, State.consume_single,
      State.rd_wr_same]
    rfl

section
variable {s : State} {m : Fin 128} {q : Fin 8} {t : Nat}

/-- The dispatch of the one head there is, with a TE idle. -/
theorem exec_taskDispatch_given (hl : s.millLive m.val = true) (hd : s.draining m.val = false)
    (hq : s.headExposed m.val q.val = true)
    (ho : ∀ j, j < 8 → j ≠ q.val → s.tqEmpty (8 * m.val + j) = true ∧ s.reruns m.val j = [] ∧ s.expanding m.val j = none)
    (hb : s.taskBad m.val (s.tqHeadDesc m.val q.val) = false) (ha : taskAlias (s.tqHeadDesc m.val q.val) = false)
    (hw : s.waitsMet m.val (tdWaits (s.tqHeadDesc m.val q.val)) = true) (ht : s.idleTe m.val = some t) :
    exec (.taskDispatch m ⟨0, none⟩) s = .next (s.dispatchTo m.val q.val t) := by
  obtain ⟨hhalt, -, -, hfull⟩ := State.headExposed_iff.1 hq
  have hready : s.tqReady m.val q.val = true := by simp [State.tqReady, hhalt, hfull, hw]
  have hcheck : s.checkHeads m.val = s := by
    rw [State.checkHeads_single hq ho, hb, ha, if_neg Bool.false_ne_true, if_neg Bool.false_ne_true]
  rw [exec_taskDispatch hl hd, hcheck]
  dsimp only
  rw [ht, find?_rotation_queues q hready fun j hj hne => (State.idle_queue (ho j hj hne)).2]

end

/-! ### Posts (R231, R232) -/

section
variable (s : State)

theorem State.reports_applyPost (m c n : Nat) : s.Reports (s.applyPost m c n) := by
  unfold State.applyPost
  refine .ite .rfl (.ite (s.reports_count ..) (.ite (s.reports_wr ..) ?_))
  exact (State.Reports.each ((s.reports_wr ..).trans (State.reports_put ..)) (fun v q => v.reports_wr ..) _).trans
    (State.reports_record ..)

/-- A post leaves memory and the Mills beyond their registers as they are. -/
theorem State.doPost_mem_mills (m p : Nat) : (s.doPost m p).mem = s.mem ∧ (s.doPost m p).mills = s.mills := by
  unfold State.doPost
  dsimp only
  split
  · exact ⟨(s.reports_applyPost ..).mem, (s.reports_applyPost ..).mills⟩
  · exact ⟨rfl, rfl⟩
  · exact ⟨rfl, rfl⟩
  · exact ⟨rfl, rfl⟩

theorem State.doPosts_mem (m : Nat) (l : List Nat) : (s.each l fun s p => s.doPost m p).mem = s.mem :=
  State.each_same State.mem _ (fun v p => (v.doPost_mem_mills m p).1) l s

theorem State.doPosts_mills (m : Nat) (l : List Nat) : (s.each l fun s p => s.doPost m p).mills = s.mills :=
  State.each_same State.mills _ (fun v p => (v.doPost_mem_mills m p).2) l s

end

/-! ### Completion (R212 to R215, R231) -/

section
variable (s : State)

/-- A store in SRAM is one change of memory, whatever the state. -/
theorem stSram_eq (m : Nat) (l : List Byte) : ∀ a, ∃ f, ∀ s : State, s.stSram m a l = s.onMem f := by
  induction l with
  | nil => exact fun a => ⟨id, fun s => rfl⟩
  | cons b l ih =>
    intro a
    obtain ⟨f, hf⟩ := ih (a + 1)
    refine ⟨fun t => f (Table.set unwritten t ((Space.mill m).base + a % 2 ^ 20) b), fun s => ?_⟩
    rw [State.stSram, hf]
    rfl

theorem State.reports_takeCounts (m t : Nat) (r : RunTask) (o : TileOut) : s.Reports (s.takeCounts m t r o) := by
  have hput : ∀ (r : Reg) (i : Nat) (v : State), v.Reports (v.put r i true) := fun r i v => v.reports_put ..
  unfold State.takeCounts
  extract_lets te cx s₁ s₂ s₃
  have h₁ : s.Reports s₁ := (((State.Reports.rfl.when (hput _ _) _).when (hput _ _) _).when (hput _ _) _).when (hput _ _) _
  have h₃ : s.Reports s₃ := (((h₁.trans (State.reports_count ..)).trans (State.reports_count ..)).trans
    (State.reports_count ..)).trans (State.reports_wr ..)
  split
  · exact h₃
  · refine .ite (h₃.trans (State.reports_count ..)) ?_
    exact ((((((((h₃.trans (State.reports_count ..)).trans (State.reports_put ..)).trans (State.reports_wr ..)).trans
      (State.reports_wr ..)).trans (State.reports_wr ..)).trans (State.reports_put ..)).trans (State.reports_put ..)).trans
      (State.reports_wr ..))

end

section
variable {s : State} {m : Fin 128} {t : Fin 16} {r : RunTask}

/-- The state once the task has left its TE, with its output written and its counts taken, its posts still to come. -/
def State.taskWritten (s : State) (m t : Nat) (r : RunTask) (o : TileOut) : State :=
  ((((s.clearTask m t).writeBack m r o.codes).takeCounts m t r o).millCount m 5).onInv m fun v => { v with tasks := v.tasks + 1 }

theorem State.taskWritten_mem (s : State) (m t : Nat) (r : RunTask) (o : TileOut) :
    (s.taskWritten m t r o).mem = (s.writeBack m r o.codes).mem := by
  obtain ⟨f, hf⟩ := stSram_eq m (tileBytesOf r.desc o.codes) r.outAddr
  obtain ⟨g, hg⟩ := State.onInv_eq ((((s.clearTask m t).writeBack m r o.codes).takeCounts m t r o).millCount m 5) m
    fun v => { v with tasks := v.tasks + 1 }
  have hrep := (State.reports_takeCounts ((s.clearTask m t).writeBack m r o.codes) m t r o).trans
    (State.reports_count _ .MILL_CNT (6 * m + 5) 1)
  rw [State.taskWritten, hg, State.onMail_mem]
  refine hrep.mem.trans ?_
  rw [State.writeBack, State.writeBack, hf, hf]
  rfl

theorem State.taskWritten_mills (s : State) (m t : Nat) (r : RunTask) (o : TileOut) :
    (s.taskWritten m t r o).mills = (s.clearTask m t).mills := by
  obtain ⟨f, hf⟩ := stSram_eq m (tileBytesOf r.desc o.codes) r.outAddr
  obtain ⟨g, hg⟩ := State.onInv_eq ((((s.clearTask m t).writeBack m r o.codes).takeCounts m t r o).millCount m 5) m
    fun v => { v with tasks := v.tasks + 1 }
  have hrep := (State.reports_takeCounts ((s.clearTask m t).writeBack m r o.codes) m t r o).trans
    (State.reports_count _ .MILL_CNT (6 * m + 5) 1)
  rw [State.taskWritten, hg, State.onMail_mills]
  refine hrep.mills.trans ?_
  rw [State.writeBack, hf, State.onMem_mills]

/-- A task of a queue that belongs to no template and is no TEST task is written, counted and posted. -/
theorem State.taskDone_plain (s : State) (m t : Nat) {r : RunTask} (fn : TaskFn) (ht : r.tmpl = none) (hk : tdKind r.desc ≠ 15) :
    (s.clearTask m t).taskDone m t r fn = (s.taskWritten m t r (s.taskTile m r fn)).each (tdPosts r.desc) fun s p => s.doPost m p := by
  have htest : (tdKind r.desc == 15) = false := beq_eq_false_iff_ne.2 hk
  simp only [State.taskDone, htest, ht, State.endTask]
  rfl

/-- A boundary at which neither a removal nor a TEST task waits. -/
theorem State.boundary_idle {s : State} {m t : Nat} (ho : bit (s.mill m).offReq t = false) (ht : bit (s.mill m).testReq t = false) :
    s.boundary m t = s := by
  simp [State.boundary, ho, ht]

/-- A plain task that completes with no SRAM error (R231). -/
theorem exec_taskComplete_plain (hd : s.domOn (pdMq (quadOf m.val)) = true) (hr : s.task m.val t.val = some r)
    (hread : r.reading = false) (ht : r.tmpl = none) (hq : r.tq ≠ 8) (hk : tdKind r.desc ≠ 15)
    (ho : bit (s.mill m.val).offReq t.val = false) (htest : bit (s.mill m.val).testReq t.val = false) (fn : TaskFn) :
    exec (.taskComplete m t fn ⟨0, none⟩) s =
      .next ((((s.taskWritten m.val t.val r (s.taskTile m.val r fn)).each (tdPosts r.desc) fun s p =>
        s.doPost m.val p).tqRefresh m.val r.tq).millNext m.val) := by
  set u := (s.taskWritten m.val t.val r (s.taskTile m.val r fn)).each (tdPosts r.desc) fun s p => s.doPost m.val p with hu
  have hmill : u.mill m.val = { s.mill m.val with run := Table.erase (s.mill m.val).run t.val } := by
    rw [State.mill, hu, State.doPosts_mills, State.taskWritten_mills]
    exact s.mill_onMill_same m.val _
  have hstay : u.boundary m.val t.val = u := State.boundary_idle (by rw [hmill]; exact ho) (by rw [hmill]; exact htest)
  change execTaskComplete m t fn ⟨0, none⟩ s = _
  simp only [execTaskComplete, hd, hr, hread, hq, hk, State.sramCe, Bool.not_true, Bool.false_eq_true, if_false, if_true, false_and,
    done]
  rw [State.taskDone_plain s m.val t.val fn ht hk, ← hu, hstay]

/-- What a plain task's completion leaves. -/
theorem taskComplete_plain (hd : s.domOn (pdMq (quadOf m.val)) = true) (hr : s.task m.val t.val = some r)
    (hread : r.reading = false) (ht : r.tmpl = none) (hq : r.tq ≠ 8) (hk : tdKind r.desc ≠ 15)
    (ho : bit (s.mill m.val).offReq t.val = false) (htest : bit (s.mill m.val).testReq t.val = false) (fn : TaskFn) :
    ∃ u, exec (.taskComplete m t fn ⟨0, none⟩) s = .next u ∧ u.task m.val t.val = none ∧
      u.mem = (s.writeBack m.val r (s.taskTile m.val r fn).codes).mem ∧
      u = (((s.taskWritten m.val t.val r (s.taskTile m.val r fn)).each (tdPosts r.desc) fun s p =>
        s.doPost m.val p).tqRefresh m.val r.tq).millNext m.val := by
  refine ⟨_, exec_taskComplete_plain hd hr hread ht hq hk ho htest fn, ?_, ?_, rfl⟩
  · rw [State.task_millNext, (State.reports_tqRefresh ..).task, State.task, State.mill, State.doPosts_mills,
      State.taskWritten_mills]
    exact s.task_clearTask_same m.val t.val
  · rw [State.mem_millNext, (State.reports_tqRefresh ..).mem, State.doPosts_mem, State.taskWritten_mem]

end

/-! ### Posts on their way (R232) -/

/-- A value that a field holds stays when it is written again, wherever. -/
theorem State.rd_wr_kept {s : State} {r : Reg} {j v : Nat} (h : s.rd r j = v % 2 ^ r.spec.width) (i : Nat) :
    (s.wr r i v).rd r j = v % 2 ^ r.spec.width := by
  by_cases hk : r.key j = r.key i
  · rw [State.rd, hk]
    exact s.rd_wr_same r i v
  · exact (Table.get_set_other _ _ _ _ hk).trans h

section
variable (s : State)

theorem State.rd_tqHalts_other {r : Reg} (h : r ≠ .TQ_STATE) (m st : Nat) (l : List Nat) (i : Nat) :
    (s.each l fun s q => s.tqHalt m q st).rd r i = s.rd r i :=
  State.each_same (fun v => v.rd r i) _ (fun v _ => v.rd_wr_other _ _ _ h) l s

theorem State.rd_tqHalts (m st : Nat) {l : List Nat} {q : Nat} (h : q ∈ l) :
    (s.each l fun s q => s.tqHalt m q st).rd .TQ_STATE (8 * m + q) = st % 2 ^ Reg.TQ_STATE.spec.width :=
  State.each_reaches (P := fun _ => True) (f := fun s q => s.tqHalt m q st)
    (Q := fun v => v.rd .TQ_STATE (8 * m + q) = st % 2 ^ Reg.TQ_STATE.spec.width) (fun v _ => v.rd_wr_same ..) l s h trivial
    (fun _ _ _ _ => trivial) fun _ _ _ _ hv => State.rd_wr_kept hv _

end

section
variable {s : State} {p : Post}

/-- The one post on its way arrives. -/
theorem exec_tkcPostArrival_single (h : s.ms.posts = [p]) :
    exec (.tkcPostArrival 1) s = .next ((s.onMs fun x => { x with posts := [] }).applyPost p.mill p.tkc p.count) := by
  have hpick : pickBits s.ms.posts 1 = ([p], []) := by rw [h]; simp [pickBits, bit]
  change execTkcPostArrival 1 s = _
  simp only [execTkcPostArrival, hpick]
  rfl

variable {m c n : Nat}

theorem State.applyPost_adds (hd : s.domOn (pdMq (quadOf m)) = true) (hs : s.rd .MILL_STAT_STATE m = 0)
    (hv : s.rd .TKC (64 * m + c) + n ≤ 65535) :
    s.applyPost m c n = s.wr .TKC (64 * m + c) (s.rd .TKC (64 * m + c) + n) := by
  simp only [State.applyPost, hd, hs, hv, Bool.not_true, Bool.false_eq_true, if_false, if_true, ne_eq, not_true_eq_false]

theorem State.applyPost_dropped (hd : s.domOn (pdMq (quadOf m)) = true) (hs : s.rd .MILL_STAT_STATE m ≠ 0) :
    s.applyPost m c n = s.millCount m 4 := by
  simp only [State.applyPost, hd, hs, Bool.not_true, Bool.false_eq_true, if_false, if_true, ne_eq, not_false_eq_true]

/-- The counter of an overflowing post is full, and says so. -/
def State.tkcFull (s : State) (m c : Nat) : State := (s.wr .TKC (64 * m + c) 65535).put .TKC_OVF (64 * m + c) true

/-- The queues whose head waits on a counter. -/
def State.waitingOn (s : State) (m c : Nat) : List Nat := (List.range 8).filter fun q =>
  !s.tqHalted (8 * m + q) && !s.tqEmpty (8 * m + q) && (tdWaits (s.tqHeadDesc m q)).any fun w => w.1 == c

theorem State.applyPost_overflows (hd : s.domOn (pdMq (quadOf m)) = true) (hs : s.rd .MILL_STAT_STATE m = 0)
    (hv : 65535 < s.rd .TKC (64 * m + c) + n) : s.applyPost m c n =
      ((s.tkcFull m c).each ((s.tkcFull m c).waitingOn m c) fun s q => s.tqHalt m q haltOvf).record
        ((s.tkcFull m c).millOwner m) .tkcOvf m [c] := by
  simp only [State.applyPost, hd, hs, Nat.not_le.2 hv, Bool.not_true, Bool.false_eq_true, if_false, ne_eq, not_true_eq_false]
  rfl

/-- A post beyond 65,535 (R232). -/
theorem State.applyPost_overflow (hd : s.domOn (pdMq (quadOf m)) = true) (hs : s.rd .MILL_STAT_STATE m = 0)
    (hv : 65535 < s.rd .TKC (64 * m + c) + n) :
    let u := s.applyPost m c n
    u.rd .TKC (64 * m + c) = 65535 ∧ u.rd .TKC_OVF (64 * m + c) = 1 ∧
      (∀ q, q < 8 → s.tqHalted (8 * m + q) = false → s.tqEmpty (8 * m + q) = false →
        (tdWaits (s.tqHeadDesc m q)).any (fun w => w.1 == c) = true → u.rd .TQ_STATE (8 * m + q) = haltOvf) ∧
      ((s.errRing (s.millOwner m)).recs.length < 64 → ∃ e ∈ (u.errRing (s.millOwner m)).recs, e.typ = .tkcOvf) := by
  intro u
  set f := s.tkcFull m c with hf
  set v := f.each (f.waitingOn m c) fun s q => s.tqHalt m q haltOvf with hvdef
  have hu : u = v.record (f.millOwner m) .tkcOvf m [c] := State.applyPost_overflows hd hs hv
  have hrd : ∀ {r : Reg}, r ≠ .TKC → r ≠ .TKC_OVF → ∀ i, f.rd r i = s.rd r i := fun ht ho i =>
    (State.rd_wr_other _ _ _ _ ho).trans (s.rd_wr_other _ _ _ ht)
  refine ⟨?_, ?_, fun q hq hh he hw => ?_, fun hroom => ?_⟩
  · rw [hu, State.rd_record _ (by decide) (by decide), hvdef, State.rd_tqHalts_other _ (by decide), hf, State.tkcFull, State.put,
      State.rd_wr_other _ _ _ _ (by decide), State.rd_wr_same]
    rfl
  · rw [hu, State.rd_record _ (by decide) (by decide), hvdef, State.rd_tqHalts_other _ (by decide), hf, State.tkcFull, State.put,
      State.rd_wr_same]
    rfl
  · have hmem : q ∈ f.waitingOn m c := by
      refine List.mem_filter.2 ⟨List.mem_range.2 hq, ?_⟩
      have hdesc : f.tqHeadDesc m q = s.tqHeadDesc m q := by
        have hbyte : f.ldByte = s.ldByte := rfl
        simp only [State.tqHeadDesc, State.tqHeadAddr, State.ldBytes, hbyte, hrd (r := .TQ_BASE) (by decide) (by decide),
          hrd (r := .TQ_HEAD) (by decide) (by decide), hrd (r := .TQ_SIZE) (by decide) (by decide)]
      have hhalt : f.tqHalted (8 * m + q) = false := by
        rw [← hh, State.tqHalted, State.tqHalted, hrd (by decide) (by decide)]
      have hempty : f.tqEmpty (8 * m + q) = false := by
        rw [← he]
        simp only [State.tqEmpty, hrd (r := .TQ_TAIL) (by decide) (by decide), hrd (r := .TQ_HEAD) (by decide) (by decide),
          hrd (r := .TQ_SIZE) (by decide) (by decide)]
      rw [hdesc, hhalt, hempty, hw]
      rfl
    rw [hu, State.rd_record _ (by decide) (by decide), hvdef, State.rd_tqHalts _ _ _ hmem]
    rfl
  · have hown : f.millOwner m = s.millOwner m := congrFun (State.millOwner_congr (hrd (by decide) (by decide))) m
    have herrs : v.errs = s.errs :=
      State.each_same State.errs (fun (w : State) q => w.tqHalt m q haltOvf) (fun _ _ => rfl) _ f
    rw [hu, hown]
    exact State.record_stands v (by rw [State.errRing, herrs]; exact hroom) _ _ _

end

/-! ### The watchdog (R234) -/

theorem exec_taskWatchdog {s : State} {m : Fin 128} {t : Fin 16} {r : RunTask} (hr : s.task m.val t.val = some r)
    (hq : r.tq ≠ 8) (hk : tdKind r.desc ≠ 15) :
    exec (.taskWatchdog m t) s = .next (if decide (2 * denseCycles r.desc + 1024 <
      r.cyc + millCycles (s.rd .MQ_OP_CUR (quadOf m.val)) (s.raw - r.start)) then s.removeTe m.val t.val causeWatchdog else s) := by
  change execTaskWatchdog m t s = _
  simp only [execTaskWatchdog, hr, hq, hk, or_self, if_false, decide_eq_true_eq, done, RunTask.cycles]
  exact (apply_ite ..).symm

/-- Settles O26: a write of TAIL or CLR by what it adds and empties, a dispatch cycle by its one head and that head's check, a
completion by its posts, a post by the counter it comes to, and the watchdog by its bound. -/
theorem taskQueues : Obligations.TaskQueues := by
  unfold Obligations.TaskQueues
  refine ⟨fun s c m q v => ⟨fun h => ⟨fun hj => ?free, fun j rest hj => ⟨fun hn => ?held, fun hn => ?adds⟩⟩, fun h hh => ?keeps,
    fun h hh ho => ?clears⟩, fun s m q t hl hd hq ho => ⟨fun hb ha hs hw ht =>
      ⟨_, exec_taskDispatch_given hl hd hq ho hb ha hw ht, ?given⟩, exec_taskDispatch_refused hl hd hq ho⟩,
    fun s m t r fn hd hr hread ht hq hk ho htest => taskComplete_plain hd hr hread ht hq hk ho htest fn,
    fun s p hp hd _ _ => ?posts, fun s m t r hr hq hk => exec_taskWatchdog hr hq hk⟩
  case free => rw [exec_tqTailWrite h, State.addTasks_free hj]
  case held => rw [exec_tqTailWrite h, State.addTasks_held hj, if_pos hn]
  case adds => rw [exec_tqTailWrite h, State.addTasks_held hj, if_neg (Nat.not_lt.2 hn)]
  case keeps => rw [exec_tqClr h, hh, if_neg Bool.false_ne_true]
  case clears =>
    obtain ⟨hstate, hhead, hre, hmem, htx⟩ := s.tqClear_empties q.val ho
    refine ⟨_, by rw [exec_tqClr h, if_pos hh], ?_, ?_, ?_, ?_, ?_⟩
    · rw [State.rd_millNext _ rfl, hstate]
    · rw [State.rd_millNext _ rfl, hhead]
    · rw [State.reruns_millNext, hre]
    · rw [State.mem_millNext, hmem]
    · rw [State.tx_millNext, htx]
  case given =>
    obtain ⟨htask, hstate, hhead, hptr, hmem, htkc⟩ := State.dispatchTo_given (t := t) hq hs
    exact ⟨htask, hstate, hhead, hptr, hmem, fun w hw _ => htkc w hw⟩
  case posts =>
    rw [exec_tkcPostArrival_single hp]
    refine ⟨fun hs hv => ?_, fun hs hv => ?_, fun hs => ?_⟩
    · exact congrArg Host.Outcome.next (State.applyPost_adds (s := s.onMs fun x => { x with posts := [] }) hd hs hv)
    · obtain ⟨htkc, hovf, hhalt, hring⟩ := State.applyPost_overflow (s := s.onMs fun x => { x with posts := [] }) hd hs hv
      have hrep := State.reports_applyPost (s.onMs fun x => { x with posts := [] }) p.mill p.tkc p.count
      exact ⟨_, rfl, htkc, hovf, congrArg MsSt.posts hrep.ms, hrep.mem, hhalt, hring⟩
    · exact congrArg Host.Outcome.next (State.applyPost_dropped (s := s.onMs fun x => { x with posts := [] }) hd hs)

end Sys2Proof.Machine
end

section
/-!
PROOFS of the statement of the Mills' units (O27) of `spec/08_mills.md` in this row.
-/
namespace Sys2Proof.Machine

/-! ### What the end of a command leaves alone (R337, R341) -/

/-- A register that the end of a mailbox command may change: those of the mailbox and of the buffer pools. -/
@[simp] def Reg.endsCommand (r : Reg) : Bool := List.contains
  [.MB_CNT, .MB_CQ_TAIL, .MB_STAT_STATE, .BP_USED_LONG, .BP_USED_SHORT, .BP_FREE] r

/-- A part of the state that is none of those in which a mailbox command ends: its registers, memory, the batts and signals, the
mailboxes, and what goes to the host. -/
structure State.Apart {β : Type} (g : State → β) : Prop where
  wr : ∀ (s : State) (r : Reg) (i v : Nat), r.endsCommand = true → g (s.wr r i v) = g s
  mem : ∀ (s : State) f, g (s.onMem f) = g s
  ms : ∀ (s : State) f, g (s.onMs f) = g s
  mail : ∀ (s : State) f, g (s.onMail f) = g s
  fns : ∀ (s : State) f, g (s.onFns f) = g s
  tx : ∀ (s : State) f, g (s.onTx f) = g s

/-- A part of the state that a change leaves alone, made or not. -/
theorem State.when_same {β : Type} {g : State → β} {f : State → State} (hf : ∀ v, g (f v) = g v) (s : State) (c : Bool) :
    g (s.when c f) = g s := State.when_keeps (fun v => g v = g s) c f (fun v hv => (hf v).trans hv) s rfl

namespace State.Apart

/-- The Mills beyond their registers. -/
theorem of_mills : Apart State.mills where
  wr _ _ _ _ _ := rfl
  mem _ _ := rfl
  ms _ _ := rfl
  mail _ _ := rfl
  fns _ _ := rfl
  tx _ _ := rfl

/-- Every other register. -/
theorem of_rd {r : Reg} (h : r.endsCommand = false) (i : Nat) : Apart fun s => s.rd r i where
  wr s q j v hq := s.rd_wr_other j v i fun e => by rw [e, hq] at h; cases h
  mem _ _ := State.rd_congr rfl r i
  ms _ _ := State.rd_congr rfl r i
  mail _ _ := State.rd_congr rfl r i
  fns _ _ := State.rd_congr rfl r i
  tx _ _ := State.rd_congr rfl r i

section
variable {β : Type} {g : State → β} (h : Apart g) (s : State)
include h

theorem post (f : Nat) (p : HostPost) : g (s.post f p) = g s := by
  unfold State.post
  split
  · rfl
  · split
    · exact h.tx ..
    · exact h.fns ..

theorem irq (f v : Nat) : g (s.irq f v) = g s := by
  unfold State.irq
  dsimp only
  split
  · rfl
  · split
    · exact h.fns ..
    · exact h.post ..

theorem freeHandle (n : Nat) : g (s.freeHandle n) = g s := by
  unfold State.freeHandle State.freeBatt
  split
  · split
    · rfl
    · dsimp only
      split
      · exact (h.wr _ _ _ _ rfl).trans (h.ms ..)
      · exact (h.wr _ _ _ _ rfl).trans ((h.wr _ _ _ _ rfl).trans (h.ms ..))
  · rfl

theorem stSpur (sp a : Nat) (l : List Byte) : g (s.stSpur sp a l) = g s := by
  induction l generalizing s a with
  | nil => rfl
  | cons b l ih =>
    refine (ih _ _).trans ?_
    split
    · exact h.mem ..
    · rfl

theorem drain (mb : Nat) : g (s.drain mb) = g s := by
  unfold State.drain State.setMbState
  split
  · split
    · rfl
    · dsimp only
      split
      · exact (h.irq ..).trans (h.wr _ _ _ _ rfl)
      · exact h.wr _ _ _ _ rfl
  · rfl

theorem complete (mb : Nat) (c : Cmd) (st detail result stamp : Nat) : g (s.complete mb c st detail result stamp) = g s := by
  have hcount : ∀ (v : State) (i : Nat), g (v.count .MB_CNT i) = g v := fun v i => h.wr v _ _ _ rfl
  unfold State.complete
  extract_lets s₁ s₂ s₃ s₄ s₅ b u₁ u₂ u₃ u₄
  have hs : g s₅ = g s := by
    refine (State.when_same (fun v => hcount v _) _ _).trans ((State.when_same (fun v => hcount v _) _ _).trans
      ((State.when_same (fun v => hcount v _) _ _).trans ((State.when_same (fun v => ?_) _ _).trans (h.mail ..))))
    exact State.each_same g _ (fun w n => h.freeHandle w n) _ v
  split
  · exact (h.drain ..).trans ((hcount ..).trans hs)
  · have hu : g u₁ = g s₅ := by
      simp only [u₁]
      split
      · exact h.stSpur ..
      · exact h.post ..
    refine (h.drain ..).trans ((State.when_same (fun v => h.irq ..) _ _).trans ((State.when_same (fun v => h.ms ..) _ _).trans ?_))
    exact (h.wr _ _ _ _ rfl).trans (hu.trans hs)

theorem finishId (mb id st detail result : Nat) : g (s.finishId mb id st detail result) = g s := by
  unfold State.finishId State.finish State.claimTimeout
  split
  · split
    · exact (h.wr _ _ _ _ rfl).trans (h.complete ..)
    · exact h.complete ..
  · exact h.wr _ _ _ _ rfl

/-- A command that waited for a self-test ends. -/
theorem endUnitCmd (m t : Nat) : g (s.endUnitCmd m t) = g s := by
  unfold State.endUnitCmd
  split
  · rfl
  · exact (h.finishId ..).trans (h.mail ..)

end

end State.Apart

/-! ### Cause codes and live TEs (Table ML-7) -/

/-- A nibble of a word after it is put. -/
theorem bits_put_nibble (v c : Nat) {i : Nat} (hi : i < 8) (hc : c < 16) :
    bits ((v - bits v (4 * i) 4 * 2 ^ (4 * i) + c * 2 ^ (4 * i)) % 2 ^ 32) (4 * i) 4 = c := by
  unfold bits
  interval_cases i <;> norm_num <;> omega

section
variable (s : State)

theorem State.reports_setTeCause (m t c : Nat) : s.Reports (s.setTeCause m t c) := .ite (s.reports_wr ..) (s.reports_wr ..)

theorem State.rd_setTeCause {r : Reg} (hl : r ≠ .TE_CAUSE_LO) (hh : r ≠ .TE_CAUSE_HI) (m t c i : Nat) :
    (s.setTeCause m t c).rd r i = s.rd r i := by
  unfold State.setTeCause
  dsimp only
  split
  · exact s.rd_wr_other _ _ _ hl
  · exact s.rd_wr_other _ _ _ hh

theorem State.rd_setTeCauses {r : Reg} (hl : r ≠ .TE_CAUSE_LO) (hh : r ≠ .TE_CAUSE_HI) (m c i : Nat) (l : List Nat) :
    (s.each l fun s t => s.setTeCause m t c).rd r i = s.rd r i :=
  State.each_same (fun v => v.rd r i) _ (fun v t => v.rd_setTeCause hl hh m t c i) l s

theorem State.reports_setTeCauses (m c : Nat) (l : List Nat) : s.Reports (s.each l fun s t => s.setTeCause m t c) :=
  .each .rfl (fun v t => v.reports_setTeCause m t c) l

theorem State.teCause_setTeCause_same (m : Nat) {t c : Nat} (ht : t < 16) (hc : c < 16) :
    (s.setTeCause m t c).teCause m t = c := by
  unfold State.teCause State.setTeCause
  split
  · dsimp only
    rw [State.rd_wr_same]
    exact bits_put_nibble _ _ ‹_› hc
  · dsimp only
    rw [State.rd_wr_same]
    exact bits_put_nibble _ _ (by omega) hc

variable {s} in
theorem State.teCause_congr {u : State} {m : Nat} (hl : u.rd .TE_CAUSE_LO m = s.rd .TE_CAUSE_LO m)
    (hh : u.rd .TE_CAUSE_HI m = s.rd .TE_CAUSE_HI m) (t : Nat) : u.teCause m t = s.teCause m t := by
  simp only [State.teCause, hl, hh]

theorem State.teLive_setBitOf (m : Nat) {t : Nat} (ht : t < 16) (b : Bool) :
    (s.setBitOf .MILL_STAT_TE_LIVE m t b).teLive m t = b := by
  rw [State.teLive, State.setBitOf, State.rd_wr_same]
  exact (bit_mod_two_pow _ ht).trans (bit_setBit_same ..)

end

/-! ### The removal of a TE (R244, R245) -/

section
variable (s : State) {m t cause : Nat}

/-- A removed TE is struck from its Mill: its task gone, the removal counted, nothing asked of it, no retest passed. -/
def State.teStruck (s : State) (m t : Nat) : State :=
  (s.clearTask m t).onMill m fun x =>
    { x with
      removals := Table.set 0 x.removals t (Table.get 0 (s.mill m).removals t + 1), offReq := setBit x.offReq t false
      testReq := setBit x.testReq t false, passed := setBit x.passed t false }

/-- A TE as its removal leaves it, its task still to be dispatched again. -/
def State.teDown (s : State) (m t cause : Nat) : State :=
  let u := ((s.teStruck m t).setBitOf .MILL_STAT_TE_LIVE m t false).setBitOf .MILL_CTRL_TE_OFF m t false
  let u := u.wr .GLOBAL_AVAIL_TES_LIVE 0 (u.rd .GLOBAL_AVAIL_TES_LIVE - 1)
  let u := u.setTeCause m t (if 3 ≤ Table.get 0 (s.mill m).removals t + 1 then causeRetired else cause)
  u.record (u.millOwner m) .teRemoved m [t + cause * 2 ^ 4]

/-- The task that a removed TE held, if it held one, is to run again (R245). -/
def State.rerunHeld (s : State) (m : Nat) (r : Option RunTask) : State := match r with | some r => s.rerunTask m r | none => s

variable {s} in
theorem State.removeTe_eq (h : s.teLive m t = true) : s.removeTe m t cause =
    let u := (s.teDown m t cause).rerunHeld m (s.task m t)
    u.when (u.rd .MILL_STAT_TE_LIVE m == 0) fun s => s.removeMill m millLastTe := by
  unfold State.removeTe
  rw [if_neg (by simp [h])]
  rfl

theorem State.rd_rerunHeld {r : Reg} (ht : r ≠ .TQ_STATE) (hc : r ≠ .ERR_OVF_CNT) (ho : r ≠ .ERR_STAT_OVF)
    (k : Option RunTask) (i : Nat) : (s.rerunHeld m k).rd r i = s.rd r i := by
  unfold State.rerunHeld State.rerunTask
  split
  · split
    · rfl
    · split
      · exact (State.rd_record _ hc ho ..).trans (s.rd_wr_other _ _ _ ht)
      · exact State.rd_onMill ..
  · rfl

theorem State.task_rerunHeld (k : Option RunTask) (n e : Nat) : (s.rerunHeld m k).task n e = s.task n e := by
  unfold State.rerunHeld State.rerunTask
  split
  · split
    · rfl
    · split
      · exact ((s.reports_wr ..).trans (State.reports_record ..)).task n e
      · exact State.task_onMill s rfl n e
  · rfl

theorem State.mem_rerunHeld (k : Option RunTask) : (s.rerunHeld m k).mem = s.mem := by
  unfold State.rerunHeld State.rerunTask
  split
  · split
    · rfl
    · split
      · exact ((s.reports_wr ..).trans (State.reports_record ..)).mem
      · rfl
  · rfl

/-- What a removal leaves in the registers of the Mill and of the device. -/
theorem State.teDown_regs (ht : t < 16) (hc : cause < 16) :
    let u := s.teDown m t cause
    u.rd .MILL_STAT_TE_LIVE m = setBit (s.rd .MILL_STAT_TE_LIVE m) t false % 2 ^ 16 ∧
      u.teCause m t = (if 3 ≤ Table.get 0 (s.mill m).removals t + 1 then causeRetired else cause) ∧
      u.rd .GLOBAL_AVAIL_TES_LIVE = (s.rd .GLOBAL_AVAIL_TES_LIVE - 1) % 2 ^ 12 := by
  intro u
  set n := Table.get 0 (s.mill m).removals t + 1 with hn
  have hcode : (if 3 ≤ n then causeRetired else cause) < 16 := by
    split
    · decide
    · exact hc
  have hrec : ∀ {r : Reg}, r ≠ .ERR_OVF_CNT → r ≠ .ERR_STAT_OVF → ∀ i, u.rd r i = _ := fun hc ho i => State.rd_record _ hc ho ..
  refine ⟨?_, ?_, ?_⟩
  · rw [hrec (by decide) (by decide), State.rd_setTeCause _ (by decide) (by decide), State.rd_wr_other _ _ _ _ (by decide),
      State.setBitOf, State.rd_wr_other _ _ _ _ (by decide), State.setBitOf, State.rd_wr_same, State.teStruck, State.rd_onMill]
    rfl
  · rw [State.teCause_congr (hrec (by decide) (by decide) m) (hrec (by decide) (by decide) m)]
    exact State.teCause_setTeCause_same _ m ht hcode
  · rw [hrec (by decide) (by decide), State.rd_setTeCause _ (by decide) (by decide), State.rd_wr_same]
    rw [State.setBitOf, State.rd_wr_other _ _ _ _ (by decide), State.setBitOf, State.rd_wr_other _ _ _ _ (by decide),
      State.teStruck, State.rd_onMill]
    rfl

end

section
variable {s : State} {m t cause : Nat}

theorem State.reports_teDown : (s.teStruck m t).Reports (s.teDown m t cause) := by
  unfold State.teDown
  exact ((((State.reports_wr ..).trans (State.reports_wr ..)).trans (State.reports_wr ..)).trans
    (State.reports_setTeCause ..)).trans (State.reports_record ..)

theorem State.task_teDown : (s.teDown m t cause).task m t = none := by
  rw [State.reports_teDown.task, State.teStruck, State.task_onMill]
  · exact s.task_clearTask_same m t
  · rfl

theorem State.mem_teDown : (s.teDown m t cause).mem = s.mem := by
  rw [State.reports_teDown.mem]
  rfl

/-- The removal of a live TE that is neither its third nor that of the Mill's last one (R244). -/
theorem State.removeTe_removes (ht : t < 16) (hc : cause < 16) (hl : s.teLive m t = true)
    (hn : Table.get 0 (s.mill m).removals t < 2) (hrest : setBit (s.rd .MILL_STAT_TE_LIVE m) t false ≠ 0)
    (hw : s.rd .MILL_STAT_TE_LIVE m < 2 ^ 16) :
    let u := s.removeTe m t cause
    u.teLive m t = false ∧ u.teCause m t = cause ∧ u.task m t = none ∧
      u.rd .GLOBAL_AVAIL_TES_LIVE = (s.rd .GLOBAL_AVAIL_TES_LIVE - 1) % 2 ^ 12 ∧ u.mem = s.mem := by
  obtain ⟨hlive, hcause, htes⟩ := s.teDown_regs (m := m) ht hc
  rw [if_neg (by omega)] at hcause
  have hle : setBit (s.rd .MILL_STAT_TE_LIVE m) t false < 2 ^ 16 := by
    rw [setBit_false]
    split
    · exact (Nat.sub_le ..).trans_lt hw
    · exact hw
  rw [Nat.mod_eq_of_lt hle] at hlive
  set v := (s.teDown m t cause).rerunHeld m (s.task m t) with hv
  have hrd : ∀ {r : Reg}, r ≠ .TQ_STATE → r ≠ .ERR_OVF_CNT → r ≠ .ERR_STAT_OVF → ∀ i, v.rd r i = (s.teDown m t cause).rd r i :=
    fun ht hc ho i => State.rd_rerunHeld _ ht hc ho _ i
  have hu : s.removeTe m t cause = v := by
    rw [State.removeTe_eq hl]
    dsimp only
    rw [← hv, hrd (by decide) (by decide) (by decide), hlive, beq_eq_false_iff_ne.2 hrest, State.when_false]
  rw [hu]
  refine ⟨?_, ?_, ?_, ?_, ?_⟩
  · rw [State.teLive, hrd (by decide) (by decide) (by decide), hlive, bit_setBit_same]
  · rw [← hcause]
    exact State.teCause_congr (hrd (by decide) (by decide) (by decide) m) (hrd (by decide) (by decide) (by decide) m) t
  · rw [hv, State.task_rerunHeld, State.task_teDown]
  · rw [hrd (by decide) (by decide) (by decide), htes]
  · rw [hv, State.mem_rerunHeld, State.mem_teDown]

end

/-! ### The removal of a Mill (R247) -/

section
variable {s : State} {m : Nat}

theorem State.rd_takeCtx {r : Reg} (h : r.opctx = false) (i : Nat) : (s.takeCtx m).rd r i = s.rd r i := by
  obtain ⟨g, hg⟩ := s.takeCtx_eq m
  rw [hg, State.rd_clearCtx _ h]
  exact State.rd_congr rfl r i

theorem State.mem_takeCtx : (s.takeCtx m).mem = s.mem := by
  obtain ⟨g, hg⟩ := s.takeCtx_eq m
  rw [hg, (State.reports_clearCtx ..).mem, State.onMail_mem]

/-- A live Mill that is removed is fenced, or retired at its third removal; no TE of it is live and no task of it runs. -/
theorem State.removeMill_fences (h : s.rd .MILL_STAT_STATE m = 0) (cause : Nat) :
    let u := s.removeMill m cause
    u.rd .MILL_STAT_TE_LIVE m = 0 ∧ u.rd .MILL_STAT_STATE m = (if 2 ≤ s.rd .MILL_STAT_REMOVALS m then 3 else 1) ∧
      u.rd .GLOBAL_AVAIL_MILLS_LIVE = (s.rd .GLOBAL_AVAIL_MILLS_LIVE - 1) % 2 ^ 8 ∧ (u.mill m).run = [] ∧ u.mem = s.mem := by
  intro u
  have hu : u = s.removeMill m cause := rfl
  unfold State.removeMill at hu
  rw [if_neg (not_not_intro h)] at hu
  extract_lets s₁ live s₂ s₃ n s₄ s₅ at hu
  have hrec : ∀ {r : Reg}, r ≠ .ERR_OVF_CNT → r ≠ .ERR_STAT_OVF → r ≠ .MILL_CTRL_TE_OFF → ∀ i, u.rd r i = s₄.rd r i :=
    fun hc ho ht i => by rw [hu, State.rd_record _ hc ho, State.rd_wr_other _ _ _ _ ht]; exact State.rd_onMill ..
  have hrep : s₅.Reports u := hu ▸ (State.reports_wr ..).trans (State.reports_record ..)
  have hrep₄ : s₁.Reports s₄ := ((((State.reports_wr ..).trans (State.reports_wr ..)).trans
    (State.reports_setTeCauses ..)).trans (State.reports_wr ..)).trans ((State.reports_wr ..).trans (State.reports_wr ..))
  have hn : n = min 3 (s.rd .MILL_STAT_REMOVALS m + 1) := by
    simp only [n, s₃, s₂, s₁]
    rw [State.rd_setTeCauses _ (by decide) (by decide), State.rd_wr_other _ _ _ _ (by decide), State.rd_wr_other _ _ _ _ (by decide),
      State.rd_takeCtx rfl]
  refine ⟨?_, ?_, ?_, ?_, ?_⟩
  · rw [hrec (by decide) (by decide) (by decide), State.rd_wr_other _ _ _ _ (by decide), State.rd_wr_other _ _ _ _ (by decide),
      State.rd_wr_same]
    rfl
  · rw [hrec (by decide) (by decide) (by decide), State.rd_wr_same, hn]
    by_cases h2 : 2 ≤ s.rd .MILL_STAT_REMOVALS m
    · rw [if_pos h2, if_pos (by omega)]
      rfl
    · rw [if_neg h2, if_neg (by omega)]
      rfl
  · rw [hrec (by decide) (by decide) (by decide), State.rd_wr_other _ _ _ _ (by decide), State.rd_wr_other _ _ _ _ (by decide),
      State.rd_wr_other _ _ _ _ (by decide), State.rd_setTeCauses _ (by decide) (by decide), State.rd_wr_other _ _ _ _ (by decide),
      State.rd_wr_same, State.rd_takeCtx rfl]
    rfl
  · rw [hrep.mill, State.mill_onMill_same]
  · rw [hrep.mem, State.mem_onMill, hrep₄.mem, State.mem_takeCtx]

end

/-! ### Detectors and TE_OFF (R244, R246, R247) -/

section
variable {s : State} {c : Fin 16} {m : Fin 128} {t : Fin 16}

theorem State.millLive_state {m : Nat} (h : s.millLive m = true) : s.rd .MILL_STAT_STATE m = 0 := by
  simpa using (Bool.and_eq_true_iff.1 h).1

theorem exec_teFault (hl : s.millLive m.val = true) (ht : s.teLive m.val t.val = true) (cause : TeCause) :
    exec (.teFault m t cause) s = .next (match cause with
      | .residue => (s.millCount m.val 2).removeTe m.val t.val causeResidue
      | .accParity => s.removeTe m.val t.val causeAccPar) := by
  change execTeFault m t cause s = _
  simp only [execTeFault, hl, ht]
  cases cause <;> rfl

theorem exec_millFault (hl : s.millLive m.val = true) (clock : Bool) :
    exec (.millFault m clock) s = .next (s.removeMill m.val (if clock then millClock else millParity)) := by
  change execMillFault m clock s = _
  rw [execMillFault, hl]
  rfl

theorem exec_millCreditTimeout_pending (hl : s.millLive m.val = true)
    (hp : (s.mill m.val).chans.all (fun e => e.2.isEmpty) = false) :
    exec (.millCreditTimeout m) s = .next (s.removeMill m.val millCredit) := by
  change execMillCreditTimeout m s = _
  rw [execMillCreditTimeout, hl, hp]
  rfl

theorem exec_millCreditTimeout_none (hp : (s.mill m.val).chans.all (fun e => e.2.isEmpty) = true) :
    exec (.millCreditTimeout m) s = .next s := by
  change execMillCreditTimeout m s = _
  rw [execMillCreditTimeout, hp, Bool.or_true]
  rfl

/-- A TE is asked to leave. -/
def State.askOff (s : State) (m t : Nat) : State :=
  (s.setBitOf .MILL_CTRL_TE_OFF m t).onMill m fun x => { x with offReq := setBit x.offReq t true }

theorem exec_teOff (h : s.letIn (.fw c) .MILL_CTRL_TE_OFF m.val = .ok s) (hl : s.millLive m.val = true)
    (ht : s.teLive m.val t.val = true) :
    exec (.teOff (.fw c) m (BitVec.ofNat 16 (2 ^ t.val))) s =
      .next (if (s.task m.val t.val).isNone then (s.askOff m.val t.val).removeTe m.val t.val causeFwOff
        else s.askOff m.val t.val) := by
  have hone : (bitList 16 (2 ^ t.val)).filter (fun e => s.teLive m.val e) = [t.val] := by
    rw [bitList_two_pow, List.filter_cons_of_pos ht, List.filter_nil]
  have htask : (s.askOff m.val t.val).task m.val t.val = s.task m.val t.val := State.task_onMill _ rfl ..
  have hleave : (s.askOff m.val t.val).boundary m.val t.val = (s.askOff m.val t.val).removeTe m.val t.val causeFwOff := by
    rw [State.boundary, State.askOff, State.mill_onMill_same, if_pos (bit_setBit_same ..)]
  change execTeOff (.fw c) m _ s = _
  simp only [execTeOff, h, State.teOff, hl, toNat_bitMask, hone, Bool.not_true, Bool.false_eq_true, if_false]
  change done (if ((s.askOff m.val t.val).task m.val t.val).isNone then (s.askOff m.val t.val).boundary m.val t.val
    else s.askOff m.val t.val) = _
  rw [htask, hleave]
  rfl

end

/-! ### Readmission (R249) -/

section
variable {s : State} {m : Nat}

/-- The TEs that may return have passed and are not retired. -/
theorem State.bit_mayReturn (s : State) (m : Nat) {e : Nat} (he : e < 16) :
    bit (s.mayReturn m) e = (bit (s.mill m).passed e && s.teCause m e != causeRetired) := by
  have hfold := bit_setBits (fun t => s.teCause m t == causeRetired) (bitList 16 (s.mill m).passed) e 0
  simp only [beq_iff_eq] at hfold
  rw [State.mayReturn, hfold]
  simp [bit, bitList, he, bne]

theorem State.teReadmit_single {t : Fin 16} (hl : s.millLive m = true) (hp : bit (s.mill m).passed t.val = true)
    (hd : s.teLive m t.val = false) (hr : s.teCause m t.val ≠ causeRetired) :
    ∃ f, s.teReadmit m (2 ^ t.val) = ((((s.setBitOf .MILL_STAT_TE_LIVE m t.val).setTeCause m t.val 0).wr .GLOBAL_AVAIL_TES_LIVE 0
      (((s.setBitOf .MILL_STAT_TE_LIVE m t.val).setTeCause m t.val 0).rd .GLOBAL_AVAIL_TES_LIVE + 1)).onMill m f) := by
  have hmay : bit (s.mayReturn m) t.val = true := by
    rw [State.bit_mayReturn s m t.isLt, hp, Bool.true_and, bne_iff_ne]
    exact hr
  have hmask : 2 ^ t.val &&& s.mayReturn m = 2 ^ t.val := by
    rw [Nat.two_pow_and, show (s.mayReturn m).testBit t.val = true from hmay, Bool.toNat_true, Nat.mul_one]
  have hone : (bitList 16 (2 ^ t.val)).filter (fun e => !s.teLive m e) = [t.val] := by
    rw [bitList_two_pow, List.filter_cons_of_pos (by rw [hd]; rfl), List.filter_nil]
  refine ⟨fun x => { x with passed := [t.val].foldl (fun p t => setBit p t false) x.passed }, ?_⟩
  simp only [State.teReadmit, hl, hmask, hone, Bool.not_true, Bool.false_eq_true, if_false]
  rfl

/-- A TE that has passed its retest is live again, unless it is retired. -/
theorem State.teReadmit_returns {t : Fin 16} (hl : s.millLive m = true) (hp : bit (s.mill m).passed t.val = true)
    (hd : s.teLive m t.val = false) (hr : s.teCause m t.val ≠ causeRetired) :
    let u := s.teReadmit m (2 ^ t.val)
    u.teLive m t.val = true ∧ u.teCause m t.val = 0 ∧
      u.rd .GLOBAL_AVAIL_TES_LIVE = (s.rd .GLOBAL_AVAIL_TES_LIVE + 1) % 2 ^ 12 ∧ u.mem = s.mem := by
  obtain ⟨f, hf⟩ := State.teReadmit_single hl hp hd hr
  dsimp only
  rw [hf]
  set v := s.setBitOf .MILL_STAT_TE_LIVE m t.val with hv
  have hrd : ∀ {r : Reg}, r ≠ .GLOBAL_AVAIL_TES_LIVE → ∀ n i,
      (((v.setTeCause m t.val 0).wr .GLOBAL_AVAIL_TES_LIVE 0 n).onMill m f).rd r i = (v.setTeCause m t.val 0).rd r i :=
    fun hr n i => (State.rd_onMill ..).trans (State.rd_wr_other _ _ _ _ hr)
  refine ⟨?_, ?_, ?_, ?_⟩
  · rw [State.teLive, hrd (by decide), State.rd_setTeCause _ (by decide) (by decide)]
    exact s.teLive_setBitOf m t.isLt true
  · rw [State.teCause_congr (hrd (by decide) _ m) (hrd (by decide) _ m)]
    exact v.teCause_setTeCause_same m t.isLt (by norm_num)
  · rw [State.rd_onMill, State.rd_wr_same, State.rd_setTeCause _ (by decide) (by decide), hv, State.setBitOf,
      State.rd_wr_other _ _ _ _ (by decide)]
    rfl
  · rw [State.mem_onMill, State.wr_mem, (v.reports_setTeCause m t.val 0).mem, hv]
    rfl

/-- One that has not passed stays as it was. -/
theorem State.teReadmit_failed {t : Fin 16} (hp : bit (s.mill m).passed t.val = false) :
    (s.teReadmit m (2 ^ t.val)).rd .MILL_STAT_TE_LIVE m = s.rd .MILL_STAT_TE_LIVE m := by
  have hmay : (s.mayReturn m).testBit t.val = false := by
    have h := State.bit_mayReturn s m t.isLt
    rw [hp, Bool.false_and] at h
    exact h
  have hnone : bitList 16 (2 ^ t.val &&& s.mayReturn m) = [] := by
    rw [Nat.two_pow_and, hmay, Bool.toNat_false, Nat.mul_zero]
    decide
  unfold State.teReadmit
  split
  · rfl
  · simp only [hnone, List.filter_nil]
    exact (State.rd_onMill ..).trans (State.rd_wr_other _ _ _ _ (by decide))

theorem exec_teReadmit {c : Fin 16} {m : Fin 128} {t : Fin 16} (h : s.letIn (.fw c) .MILL_CTRL_TE_READMIT m.val = .ok s) :
    exec (.teReadmit (.fw c) m (BitVec.ofNat 16 (2 ^ t.val))) s = .next (s.teReadmit m.val (2 ^ t.val)) := by
  change execTeReadmit (.fw c) m _ s = _
  rw [execTeReadmit, h, toNat_bitMask]
  rfl

/-- Rewriting the images changes memory alone. -/
theorem State.hbRewrite_eq (s : State) (m : Nat) : ∃ f, s.hbRewrite m = s.onMem f := by
  refine State.each_keeps (fun v => ∃ f, v = s.onMem f) _ (fun v x hv => ?_) _ s ⟨id, rfl⟩
  obtain ⟨f, rfl⟩ := hv
  obtain ⟨g, hg⟩ := stSram_eq m x.2.2 x.2.1
  exact ⟨g ∘ f, hg _⟩

theorem State.rd_hbRewrite (s : State) (m : Nat) (r : Reg) (i : Nat) : (s.hbRewrite m).rd r i = s.rd r i := by
  obtain ⟨f, hf⟩ := s.hbRewrite_eq m
  rw [hf]
  exact State.rd_congr rfl r i

theorem State.pm_hbRewrite (s : State) (m : Nat) : (s.hbRewrite m).pm = s.pm := by
  obtain ⟨f, hf⟩ := s.hbRewrite_eq m
  rw [hf, State.onMem_pm]

/-- A fenced Mill that has passed is live with the TEs that may return. -/
theorem State.millReadmit_returns (hs : s.rd .MILL_STAT_STATE m = 1) (hp : (s.mill m).millPass = true) :
    let u := s.millReadmit m
    u.rd .MILL_STAT_STATE m = 0 ∧
      (∀ e, e < 16 → u.teLive m e = (bit (s.mill m).passed e && s.teCause m e != causeRetired)) ∧
      u.rd .GLOBAL_AVAIL_MILLS_LIVE = (s.rd .GLOBAL_AVAIL_MILLS_LIVE + 1) % 2 ^ 8 := by
  intro u
  have hu : u = s.millReadmit m := rfl
  unfold State.millReadmit at hu
  rw [if_pos ⟨hs, hp⟩] at hu
  extract_lets live s₁ s₂ s₃ at hu
  have hrd : ∀ {r : Reg}, r ≠ .TE_CAUSE_LO → r ≠ .TE_CAUSE_HI → r ≠ .GLOBAL_AVAIL_TES_LIVE → ∀ i, u.rd r i = s₁.rd r i :=
    fun hl hh ht i => by
      rw [hu, State.rd_hbRewrite, State.rd_onMill]
      exact (State.rd_setTeCauses _ hl hh ..).trans (State.rd_wr_other _ _ _ _ ht)
  refine ⟨?_, fun e he => ?_, ?_⟩
  · rw [hrd (by decide) (by decide) (by decide), State.rd_wr_other _ _ _ _ (by decide), State.rd_wr_other _ _ _ _ (by decide),
      State.rd_wr_same]
    rfl
  · rw [State.teLive, hrd (by decide) (by decide) (by decide), State.rd_wr_other _ _ _ _ (by decide), State.rd_wr_same,
      ← State.bit_mayReturn s m he]
    exact bit_mod_two_pow _ he
  · rw [hrd (by decide) (by decide) (by decide), State.rd_wr_same]
    rfl

theorem exec_millReadmit {c : Fin 16} {m : Fin 128} (h : s.letIn (.fw c) .MILL_CMD_READMIT m.val = .ok s) :
    exec (.millReadmit (.fw c) m) s = .next (s.askReadmit m.val) := by
  change execMillReadmit (.fw c) m s = _
  rw [execMillReadmit, h]
  rfl

theorem State.askReadmit_now (h : s.noInvs (s.millOwner m) = true) : s.askReadmit m = s.millReadmit m := by
  rw [State.askReadmit, if_pos h]

theorem State.askReadmit_waits (hn : s.noInvs (s.millOwner m) = false) (hs : s.rd .MILL_STAT_STATE m = 1)
    (hp : (s.mill m).millPass = true) : s.askReadmit m = s.onMill m fun x => { x with readmit := true } := by
  rw [State.askReadmit, hn, if_neg Bool.false_ne_true, if_pos ⟨hs, hp⟩]

theorem State.askReadmit_failed (hp : (s.mill m).millPass = false) : s.askReadmit m = s := by
  simp [State.askReadmit, State.millReadmit, hp]

end

/-! ### Self-test (R36, R241, R249) -/

section
variable {s : State}

theorem exec_millRetest {c : Fin 16} {m : Fin 128} (h : s.letIn (.fw c) .MILL_CMD_RETEST m.val = .ok s)
    (hs : s.rd .MILL_STAT_STATE m.val = 1) : exec (.millRetest (.fw c) m) s = .next (s.wr .MILL_STAT_STATE m.val 2) := by
  change execMillRetest (.fw c) m s = _
  rw [execMillRetest, h]
  simp only [State.startRetest, hs, if_true]
  rfl

/-- A Mill under retest whose self-test finds nothing has passed with all its TEs. -/
theorem bistComplete_mill {m : Fin 128} (hs : s.rd .MILL_STAT_STATE m.val = 2) (hb : bit s.pm.bist (quadOf m.val) = false) :
    ∃ u, exec (.bistComplete (.mill m) [] []) s = .next u ∧ u.rd .MILL_STAT_STATE m.val = 1 ∧
      (u.mill m.val).millPass = true ∧ (u.mill m.val).passed = 0xFFFF := by
  set v := (s.wr .MILL_STAT_STATE m.val 1).onMill m.val fun x => { x with millPass := true, passed := 0xFFFF } with hv
  have hexec : exec (.bistComplete (.mill m) [] []) s = .next (v.endUnitCmd m.val 16) := by
    have hfail : failMask [] m.val % 2 ^ 16 = 0 := rfl
    have hno : bitList 16 0 = [] := by decide
    change execBistComplete (.mill m) [] [] s = _
    simp only [execBistComplete, hs, hb, hfail, hno, List.filter_nil, ne_eq, not_true_eq_false, Bool.false_eq_true, or_self, if_false]
    rfl
  have hmill : (v.endUnitCmd m.val 16).mill m.val = v.mill m.val := by
    rw [State.mill, State.mill, State.Apart.of_mills.endUnitCmd]
  refine ⟨_, hexec, ?_, ?_, ?_⟩
  · rw [(State.Apart.of_rd (r := .MILL_STAT_STATE) rfl m.val).endUnitCmd, hv, State.rd_onMill, State.rd_wr_same]
    rfl
  · rw [hmill, hv, State.mill_onMill_same]
  · rw [hmill, hv, State.mill_onMill_same]

/-- A Mill without failures after the self-test of its quadrant. -/
def State.bistPassed (s : State) (m : Nat) : State :=
  ((s.wr .MILL_STAT_TE_LIVE m 0xFFFF).wr .MILL_STAT_STATE m 0).onMill m fun x => { x with removals := x.removals }

theorem State.bistMill_passed (s : State) (m : Nat) : s.bistMill 0 false m = s.bistPassed m := rfl

/-- After the self-test every Mill that it came to is live, with all its TEs. -/
theorem State.bistPassed_all (s : State) {l : List Nat} {n : Nat} (h : n ∈ l) :
    (s.each l State.bistPassed).rd .MILL_STAT_STATE n = 0 ∧ (s.each l State.bistPassed).rd .MILL_STAT_TE_LIVE n = 0xFFFF := by
  refine State.each_reaches (P := fun _ => True)
    (Q := fun v => v.rd .MILL_STAT_STATE n = 0 ∧ v.rd .MILL_STAT_TE_LIVE n = 0xFFFF) (fun v _ => ?_) l s h trivial
    (fun _ _ _ _ => trivial) fun v b _ _ hv => ?_
  · refine ⟨(State.rd_onMill ..).trans (State.rd_wr_same ..), (State.rd_onMill ..).trans ?_⟩
    exact (State.rd_wr_other _ _ _ _ (by decide)).trans (v.rd_wr_same ..)
  · obtain ⟨hstate, hlive⟩ := hv
    refine ⟨(State.rd_onMill ..).trans (State.rd_wr_kept ?_ b), (State.rd_onMill ..).trans ?_⟩
    · exact (v.rd_wr_other _ _ _ (by decide)).trans hstate
    · exact (State.rd_wr_other _ _ _ _ (by decide)).trans (State.rd_wr_kept hlive b)

/-- The counts of Mills all live with all their TEs. -/
theorem State.liveOf_all {l : List Nat} (h : ∀ n ∈ l, s.rd .MILL_STAT_STATE n = 0 ∧ s.rd .MILL_STAT_TE_LIVE n = 0xFFFF) :
    s.liveOf l = (l.length, l.length * 16) := by
  have hlive : l.filter (fun n => s.rd .MILL_STAT_STATE n == 0) = l :=
    List.filter_eq_self.2 fun n hn => beq_iff_eq.2 (h n hn).1
  have htes : l.map (fun n => popcount 16 (s.rd .MILL_STAT_TE_LIVE n)) = l.map fun _ => 16 :=
    List.map_congr_left fun n hn => by rw [(h n hn).2]; rfl
  simp only [State.liveOf, hlive, htes, List.map_const', List.sum_replicate, smul_eq_mul]

theorem mem_quadMills {q n : Nat} : n ∈ quadMills q ↔ n / 32 = q := by
  simp only [quadMills, List.mem_map, List.mem_range]
  constructor
  · rintro ⟨j, hj, rfl⟩
    omega
  · exact fun h => ⟨n % 32, Nat.mod_lt _ (by norm_num), by omega⟩

theorem State.pm_setAvail (s : State) (mills tes : Nat) : (s.setAvail mills tes).pm = s.pm := rfl

theorem State.rd_onPm (s : State) (f : PmSt → PmSt) (r : Reg) (i : Nat) : (s.onPm f).rd r i = s.rd r i := State.rd_congr rfl r i

theorem State.rd_setAvail (s : State) {r : Reg} (hm : r ≠ .GLOBAL_AVAIL_MILLS_LIVE) (ht : r ≠ .GLOBAL_AVAIL_TES_LIVE)
    (mills tes i : Nat) : (s.setAvail mills tes).rd r i = s.rd r i :=
  (State.rd_wr_other _ _ _ _ ht).trans (s.rd_wr_other _ _ _ hm)

/-- The self-test of a quadrant without failures. -/
theorem bistComplete_quadrant {q : Fin 4} (hb : bit s.pm.bist q.val = true) :
    ∃ u, exec (.bistComplete (.quadrant q) [] []) s = .next u ∧
      (∀ n, n / 32 = q.val → u.rd .MILL_STAT_STATE n = 0 ∧ u.rd .MILL_STAT_TE_LIVE n = 0xFFFF) ∧
      u.rd .GLOBAL_AVAIL_MILLS_LIVE = (s.rd .GLOBAL_AVAIL_MILLS_LIVE + 32 - (Table.get (0, 0) s.pm.counted q.val).1) % 2 ^ 8 ∧
      u.rd .GLOBAL_AVAIL_TES_LIVE = (s.rd .GLOBAL_AVAIL_TES_LIVE + 512 - (Table.get (0, 0) s.pm.counted q.val).2) % 2 ^ 12 ∧
      bit u.pm.bist q.val = false := by
  set v := s.each (quadMills q.val) State.bistPassed with hv
  set w := (v.onPm fun p => { p with bist := setBit p.bist q.val false, counted := Table.erase p.counted q.val }).setAvail
    (s.rd .GLOBAL_AVAIL_MILLS_LIVE + 32 - (Table.get (0, 0) s.pm.counted q.val).1)
    (s.rd .GLOBAL_AVAIL_TES_LIVE + 512 - (Table.get (0, 0) s.pm.counted q.val).2) with hw
  have hlive : ∀ n ∈ quadMills q.val, v.rd .MILL_STAT_STATE n = 0 ∧ v.rd .MILL_STAT_TE_LIVE n = 0xFFFF :=
    fun n hn => s.bistPassed_all hn
  have htested : s.quadTested q.val [] [] = w.each (quadMills q.val) State.hbRewrite := by
    have hrun : (s.each (quadMills q.val) fun s m =>
        s.bistMill (failMask [] m) (([] : List (Fin 128)).any fun x => x.val == m) m) = v :=
      congrArg (State.each s (quadMills q.val)) (funext₂ fun x m => x.bistMill_passed m)
    have hcount : v.liveOf (quadMills q.val) = (32, 512) := by
      rw [State.liveOf_all hlive, quadMills, List.length_map, List.length_range]
    unfold State.quadTested
    simp only [hrun, hcount]
    rfl
  have hrd : ∀ r i, (w.each (quadMills q.val) State.hbRewrite).rd r i = w.rd r i := fun r i =>
    State.each_same (fun x => x.rd r i) State.hbRewrite (fun x m => x.rd_hbRewrite m r i) _ w
  have hpm : (w.each (quadMills q.val) State.hbRewrite).pm = w.pm := State.each_same State.pm State.hbRewrite State.pm_hbRewrite _ w
  refine ⟨w.each (quadMills q.val) State.hbRewrite, ?_, fun n hn => ?_, ?_, ?_, ?_⟩
  · change execBistComplete (.quadrant q) [] [] s = _
    simp only [execBistComplete, hb, if_true, htested, done]
  · have hkept : ∀ r : Reg, r ≠ .GLOBAL_AVAIL_MILLS_LIVE → r ≠ .GLOBAL_AVAIL_TES_LIVE → w.rd r n = v.rd r n := fun r hm ht => by
      rw [hw, State.rd_setAvail _ hm ht, State.rd_onPm]
    rw [hrd, hrd, hkept _ (by decide) (by decide), hkept _ (by decide) (by decide)]
    exact hlive n (mem_quadMills.2 hn)
  · rw [hrd, hw, State.setAvail, State.rd_wr_other _ _ _ _ (by decide), State.rd_wr_same]
    rfl
  · rw [hrd, hw, State.setAvail, State.rd_wr_same]
    rfl
  · rw [hpm, hw, State.pm_setAvail, State.onPm_pm]
    exact bit_setBit_same _ q.val false

end

/-! ### TEST tasks of the period timer (R239, R243) -/

section
variable {s u : State} {m t : Nat}

/-- A change of a Mill that keeps which TEs are asked to leave keeps it for every Mill. -/
theorem State.offReq_onMill {f : MillSt → MillSt} (h : (f (s.mill m)).offReq = (s.mill m).offReq) (k : Nat) :
    ((s.onMill m f).mill k).offReq = (s.mill k).offReq := by
  by_cases hk : k = m
  · subst hk
    rw [State.mill_onMill_same, h]
  · rw [State.mill_onMill_other _ _ _ hk]

/-- The TEST task of the firmware, begun at a raw time. -/
def testTask (start : Nat) : RunTask := { tq := 8, desc := [], start := start }

/-- A TEST task asked for on a TE that stays begins at once where the TE is idle, and waits where it is not. -/
theorem State.askTest_eq (ho : bit (s.mill m).offReq t = false) (hd : s.draining m = false) :
    s.askTest m t =
      let v := s.onMill m fun x => { x with testReq := setBit x.testReq t true }
      if s.task m t = none then
        (v.onMill m fun x => { x with testReq := setBit x.testReq t false }).setTask m t (testTask s.raw)
      else v := by
  set v := s.onMill m fun x => { x with testReq := setBit x.testReq t true } with hv
  have hmill : v.mill m = { s.mill m with testReq := setBit (s.mill m).testReq t true } := s.mill_onMill_same m _
  have htask : v.task m t = s.task m t := State.task_onMill s rfl m t
  have hdrain : v.draining m = s.draining m := rfl
  have hbound : v.boundary m t = (v.onMill m fun x => { x with testReq := setBit x.testReq t false }).setTask m t
      (testTask s.raw) := by
    rw [State.boundary, hdrain, hd, hmill]
    simp only [ho, bit_setBit_same]
    rfl
  unfold State.askTest
  simp only [← hv, htask, hbound, Option.isNone_iff_eq_none]

theorem State.task_askTest (ho : bit (s.mill m).offReq t = false) (hd : s.draining m = false) (n e : Nat) :
    (s.askTest m t).task n e = if n = m ∧ e = t then some ((s.task n e).getD (testTask s.raw)) else s.task n e := by
  have hv : ∀ n e, (s.onMill m fun x => { x with testReq := setBit x.testReq t true }).task n e = s.task n e :=
    State.task_onMill s rfl
  rw [State.askTest_eq ho hd]
  dsimp only
  by_cases hn : n = m ∧ e = t
  · obtain ⟨rfl, rfl⟩ := hn
    rw [if_pos (⟨rfl, rfl⟩ : n = n ∧ e = e)]
    split
    · next h => rw [State.task_setTask_same, h, Option.getD_none]
    · next h =>
      obtain ⟨r, hr⟩ := Option.ne_none_iff_exists'.1 h
      rw [hv, hr, Option.getD_some]
  · rw [if_neg hn]
    split
    · rw [State.task_setTask_other _ _ hn, State.task_onMill _ rfl, hv]
    · exact hv n e

theorem State.askTest_keeps (ho : bit (s.mill m).offReq t = false) (hd : s.draining m = false) :
    (s.askTest m t).regs = s.regs ∧ (s.askTest m t).raw = s.raw ∧
      ∀ k, ((s.askTest m t).mill k).offReq = (s.mill k).offReq := by
  rw [State.askTest_eq ho hd]
  dsimp only
  split
  · simp only [State.setTask, State.regs_onMill, State.raw_onMill, true_and]
    intro k
    rw [State.offReq_onMill rfl, State.offReq_onMill rfl, State.offReq_onMill rfl]
  · exact ⟨rfl, rfl, State.offReq_onMill rfl⟩

/-- During a run of the timer on a quadrant: no register and no time has changed, no TE of the quadrant is asked to leave, and a
TE of it that was idle holds a TEST task or is idle still. -/
def State.testing (s : State) (q n e : Nat) (u : State) : Prop :=
  u.regs = s.regs ∧ u.raw = s.raw ∧ (∀ k, k / 32 = q → (u.mill k).offReq = 0) ∧
    (u.task n e = none ∨ u.task n e = some (testTask s.raw))

variable {q n e : Nat}

/-- One TE of the quadrant is asked for a TEST task. -/
theorem State.testing_askTest (h : s.testing q n e u) (hm : m / 32 = q) (hd : s.flag .MQ_OP_BUSY q = false) (t : Nat) :
    s.testing q n e (u.askTest m t) ∧
      (u.task n e = some (testTask s.raw) → (u.askTest m t).task n e = some (testTask s.raw)) ∧
      (n = m → e = t → (u.askTest m t).task n e = some (testTask s.raw)) := by
  obtain ⟨hregs, hraw, hoff, htask⟩ := h
  have ho : bit (u.mill m).offReq t = false := by rw [hoff m hm]; simp [bit]
  have hdrain : u.draining m = false := by
    rw [← hd, State.draining, quadOf, hm]
    exact congrArg (· != 0) (State.rd_congr hregs ..)
  obtain ⟨hregs', hraw', hoff'⟩ := State.askTest_keeps ho hdrain
  have heq := State.task_askTest ho hdrain n e
  rw [hraw] at heq
  refine ⟨⟨hregs'.trans hregs, hraw'.trans hraw, fun k hk => (hoff' k).trans (hoff k hk), ?_⟩, fun hdone => ?_, fun hn he => ?_⟩
  · rw [heq]
    rcases htask with h | h <;> rw [h] <;> split <;> simp
  · rw [heq, hdone]
    split <;> rfl
  · rw [heq, if_pos ⟨hn, he⟩]
    rcases htask with h | h <;> rw [h] <;> rfl

/-- Every live TE of a Mill is asked for a TEST task. -/
def State.testMill (s : State) (m : Nat) : State :=
  s.each ((List.range 16).filter fun t => s.millLive m && s.teLive m t) fun s t => s.askTest m t

theorem State.testing_testMill (h : s.testing q n e u) (hm : m / 32 = q) (hd : s.flag .MQ_OP_BUSY q = false) :
    s.testing q n e (u.testMill m) ∧
      (u.task n e = some (testTask s.raw) → (u.testMill m).task n e = some (testTask s.raw)) := by
  refine ⟨?_, fun hdone => ?_⟩
  · exact State.each_keeps (s.testing q n e) _ (fun v t hv => (State.testing_askTest hv hm hd t).1) _ u h
  · refine (State.each_keeps (fun v => s.testing q n e v ∧ v.task n e = some (testTask s.raw)) _ (fun v t hv => ?_) _ u
      ⟨h, hdone⟩).2
    obtain ⟨hkept, hstays, -⟩ := State.testing_askTest hv.1 hm hd t
    exact ⟨hkept, hstays hv.2⟩

theorem State.testMill_starts (h : s.testing (n / 32) n e u) (hd : s.flag .MQ_OP_BUSY (n / 32) = false) (he : e < 16)
    (hl : s.millLive n = true) (ht : s.teLive n e = true) : (u.testMill n).task n e = some (testTask s.raw) := by
  have hrd : ∀ r i, u.rd r i = s.rd r i := State.rd_congr h.1
  have hmem : e ∈ (List.range 16).filter fun t => u.millLive n && u.teLive n t := by
    refine List.mem_filter.2 ⟨List.mem_range.2 he, ?_⟩
    simp only [State.millLive, State.domOn, State.teLive, hrd]
    exact Bool.and_eq_true_iff.2 ⟨hl, ht⟩
  exact State.each_reaches (P := s.testing (n / 32) n e) (Q := fun v => v.task n e = some (testTask s.raw))
    (fun v hv => (State.testing_askTest hv rfl hd e).2.2 rfl rfl) _ u hmem h
    (fun v t _ hv => (State.testing_askTest hv rfl hd t).1) fun v t _ hv => (State.testing_askTest hv rfl hd t).2.1

theorem exec_testPeriodTimer {q : Fin 4} (hp : s.rd .MQ_TEST_PERIOD q.val ≠ 0) (hd : s.domOn (pdMq q.val) = true) :
    exec (.testPeriodTimer q) s = .next (s.each (quadMills q.val) State.testMill) := by
  change execTestPeriodTimer q s = _
  simp only [execTestPeriodTimer, hp, hd, Bool.not_true, Bool.false_eq_true, or_self, if_false]
  rfl

end

/-! ### NANTILE and UNIT_CTRL (R215, Table MB-4) -/

section
variable {s : State}

theorem teNantileClear_clears {c : Fin 16} {m : Fin 128} {t : Fin 16} {w : Word}
    (h : s.letIn (.fw c) .TE_FLAGS_NANTILE (16 * m.val + t.val) = .ok s) :
    ∃ u, exec (.teNantileClear (.fw c) m t w) s = .next u ∧ u.rd .TE_FLAGS_NANTILE (16 * m.val + t.val) = 0 ∧
      u.rd .TE_NANPOS_VALID (16 * m.val + t.val) = 0 ∧ u.mem = s.mem ∧ u.mills = s.mills := by
  set v := (s.applyWord (.fw c) (Reg.TE_FLAGS_NANTILE.offset (16 * m.val + t.val)) w.toNat).2 with hv
  have hrep : s.Reports ((v.put .TE_FLAGS_NANTILE (16 * m.val + t.val) false).put .TE_NANPOS_VALID (16 * m.val + t.val) false) :=
    ((s.reports_applyWord ..).trans (State.reports_put ..)).trans (State.reports_put ..)
  refine ⟨_, ?_, ?_, ?_, hrep.mem, hrep.mills⟩
  · change execTeNantileClear (.fw c) m t w s = _
    rw [execTeNantileClear, h]
    rfl
  · exact (State.rd_wr_other _ _ _ _ (by decide)).trans (State.rd_wr_same ..)
  · exact State.rd_wr_same ..

variable {mb : Fin 64} {tag : BitVec 16} {cmd : Cmd}

/-- What UNIT_CTRL comes to by its operation (Table MB-4). -/
theorem exec_unitCtrl (h : s.runs mb tag 0x68 false cmd) :
    let m := bits (cmd.opw 0) 0 7
    let t := bits (cmd.opw 0) 7 4
    (bits (cmd.opw 0) 11 2 = 0 → exec (.unitCtrl mb tag) s =
      let u := if s.millLive m && s.teLive m t then s.teOff m (2 ^ t) else s
      .next (u.finish mb.val cmd 0 0 (u.teCause m t))) ∧
    (2 ≤ bits (cmd.opw 0) 11 2 → s.rd .MILL_STAT_STATE m ≠ 0 → (s.mill m).millPass = true → exec (.unitCtrl mb tag) s =
      .next ((s.askReadmit m).finish mb.val cmd 0 0 ((s.askReadmit m).teCause m t))) ∧
    (bits (cmd.opw 0) 11 2 = 1 → s.rd .MILL_STAT_STATE m = 2 → exec (.unitCtrl mb tag) s =
      .next ((s.fresh 32).2.finish mb.val cmd 0x29 (s.fresh 32).1 0)) := by
  intro m t
  change (_ → execUnitCtrl mb tag s = _) ∧ (_ → _ → _ → execUnitCtrl mb tag s = _) ∧ (_ → _ → execUnitCtrl mb tag s = _)
  rw [execUnitCtrl, State.runCmd_runs h]
  refine ⟨fun hop => ?_, fun hop hs hp => ?_, fun hop hs => ?_⟩
  · simp only [hop]
    split <;> rfl
  · have hwhole : (s.rd .MILL_STAT_STATE (bits (cmd.opw 0) 0 7) != 0) = true := bne_iff_ne.2 hs
    have hpass : (s.mill (bits (cmd.opw 0) 0 7)).millPass = true := hp
    simp only [hwhole, hpass]
    split
    · omega
    · omega
    · rfl
  · simp only [hop, show s.rd .MILL_STAT_STATE (bits (cmd.opw 0) 0 7) = 2 from hs]
    rfl

end

/-- Settles O27: a removal by what the TE or the Mill leaves behind, a readmission by what has passed, the self-tests by what
they count, the period timer by the TEs it comes to, and UNIT_CTRL by its operation. -/
theorem millUnits : Obligations.MillUnits := by
  unfold Obligations.MillUnits
  refine fun s c m t => ⟨fun hl ht => ⟨exec_teFault hl ht .residue, exec_teFault hl ht .accParity⟩,
    fun cause hc ht hn hrest hw => State.removeTe_removes t.isLt (by omega) ht hn hrest hw,
    fun hl clock => ⟨_, exec_millFault hl clock, State.removeMill_fences (State.millLive_state hl) _⟩,
    exec_millCreditTimeout_pending, exec_millCreditTimeout_none, fun h hl ht hbusy => ?busy, fun h hl ht hidle => ?idle,
    fun h hl hp hd hr => ⟨_, exec_teReadmit h, State.teReadmit_returns hl hp hd hr⟩,
    fun h hp => ⟨_, exec_teReadmit h, State.teReadmit_failed hp⟩, exec_millRetest, bistComplete_mill,
    fun q hb => bistComplete_quadrant hb, fun h hs => ⟨fun hp hn => ?returns, fun hp hn => ?waits, fun hp => ?failed⟩,
    fun q hp hd hbusy hoff => ⟨_, exec_testPeriodTimer hp hd, fun n e hn he hl ht hnone => ?timer⟩,
    fun w h => teNantileClear_clears h, fun mb tag cmd h => ?unit⟩
  case busy =>
    obtain ⟨r, hr⟩ := Option.isSome_iff_exists.1 hbusy
    rw [exec_teOff h hl ht, hr]
    rfl
  case idle =>
    rw [exec_teOff h hl ht, hidle]
    rfl
  case returns =>
    exact ⟨_, by rw [exec_millReadmit h, State.askReadmit_now hn], State.millReadmit_returns hs hp⟩
  case waits => rw [exec_millReadmit h, State.askReadmit_waits hn hs hp]
  case failed => rw [exec_millReadmit h, State.askReadmit_failed hp]
  case timer =>
    rw [← hn] at hbusy hoff
    exact State.each_reaches (P := s.testing (n / 32) n e) (Q := fun v => v.task n e = some (testTask s.raw))
      (fun v hv => State.testMill_starts hv hbusy he hl ht) _ s (mem_quadMills.2 hn) ⟨rfl, rfl, hoff, .inl hnone⟩
      (fun v b hb hv => (State.testing_testMill hv ((mem_quadMills.1 hb).trans hn.symm) hbusy).1)
      fun v b hb hv => (State.testing_testMill hv ((mem_quadMills.1 hb).trans hn.symm) hbusy).2
  case unit =>
    obtain ⟨hremove, hreadmit, hretest⟩ := exec_unitCtrl h
    refine ⟨fun hop hno => ?_, fun hop hlive => ?_, hreadmit, fun hop hs => ⟨_, s.fresh_lt 32, hretest hop hs⟩⟩
    · rw [hremove hop, hno]
      rfl
    · rw [hremove hop, hlive]
      rfl

end Sys2Proof.Machine
end

section
/-!
PROOFS for `spec/09_milestones_and_buffers.md` in this row: what reports, isolation violations and the end of a mailbox command
leave of the Milestone unit and the buffer pools, which the statements of the chapter share.
-/
namespace Sys2Proof.Machine

section
variable (s : State)

@[simp] theorem State.rd_onMs (f : MsSt → MsSt) (r : Reg) (i : Nat) : (s.onMs f).rd r i = s.rd r i := State.rd_congr rfl r i

@[simp] theorem State.flag_onMs (f : MsSt → MsSt) (r : Reg) (i : Nat) : (s.onMs f).flag r i = s.flag r i :=
  State.flag_congr (s.rd_onMs f r i)

/-- A count that is made under a condition. -/
theorem State.ms_whenCount (p : Bool) (r : Reg) (i n : Nat) : (s.when p fun v => v.count r i n).ms = s.ms := by
  cases p <;> rfl

/-! ### Reports and isolation violations (R384) -/

theorem State.ms_post (f : Nat) (p : HostPost) : (s.post f p).ms = s.ms := by
  unfold State.post
  split
  · rfl
  · split <;> rfl

theorem State.ms_irq (f v : Nat) : (s.irq f v).ms = s.ms := (s.reports_irq f v).ms

theorem State.ms_spurTrigger (spur code : Nat) : (s.spurTrigger spur code).ms = s.ms := by
  unfold State.spurTrigger
  dsimp only
  split
  · rfl
  · split
    · rfl
    · split <;> rfl

theorem State.ms_isoViolation (spur cls obj : Nat) : (s.isoViolation spur cls obj).ms = s.ms := by
  unfold State.isoViolation
  extract_lets s₁ s₂ s₃ n
  have h₂ : s₂.ms = s.ms := by
    simp only [s₂]
    split
    · rfl
    · exact State.ms_irq ..
  have h₃ : s₃.ms = s.ms := (State.reports_recordTo ..).ms.trans h₂
  split
  · exact (State.ms_spurTrigger ..).trans h₃
  · exact h₃

/-! ### The end of a mailbox command (R335, R337, R341) -/

/-- Everyone who waits at the Milestone unit or at one of the pools. -/
def State.waitLists (s : State) : List Waiter × List BWaiter × List BWaiter := (s.ms.waiters, s.ms.shortQ, s.ms.longQ)

theorem State.waitLists_onBatt (long : Bool) (i : Nat) (f : BattSt → BattSt) : (s.onBatt long i f).waitLists = s.waitLists := by
  cases long <;> rfl

theorem State.waitLists_freeBatt (long : Bool) (i : Nat) : (s.freeBatt long i).waitLists = s.waitLists := by
  unfold State.freeBatt
  split
  · rfl
  · dsimp only
    split
    · exact s.waitLists_onBatt ..
    · exact s.waitLists_onBatt ..

/-- Freeing a batt removes nobody who waits. -/
theorem State.waitLists_freeHandle (h : Nat) : (s.freeHandle h).waitLists = s.waitLists := by
  unfold State.freeHandle
  split
  · exact s.waitLists_freeBatt ..
  · rfl

theorem State.ms_stSpur (sp a : Nat) (l : List Byte) : (s.stSpur sp a l).ms = s.ms := by
  induction l generalizing s a with
  | nil => rfl
  | cons b l ih =>
    refine (ih _ _).trans ?_
    split <;> rfl

theorem State.ms_drain (mb : Nat) : (s.drain mb).ms = s.ms := by
  unfold State.drain State.setMbState
  split
  · split
    · rfl
    · dsimp only
      split
      · exact State.ms_irq ..
      · rfl
  · rfl

/-- The batts of a command that ends with a status that frees them. -/
def State.releaseBatts (s : State) (c : Cmd) (st : Nat) : State :=
  s.when (st == 1 || st == 2 || st == 3 || st == 6) fun s => s.each c.batts fun s h => s.freeHandle h

/-- A completion releases the command's batts where its status says so and may send a signal: nothing else of the Milestone
unit or the pools changes. -/
theorem State.ms_complete (mb : Nat) (c : Cmd) (st detail result stamp : Nat) :
    ∃ f l, (s.complete mb c st detail result stamp).ms = { ((s.onCmds mb f).releaseBatts c st).ms with signals := l } := by
  unfold State.complete
  extract_lets s₁ s₂ s₃ s₄ s₅ b u₁ u₂ u₃ u₄
  have hs : s₅.ms = s₂.ms := (State.ms_whenCount ..).trans ((State.ms_whenCount ..).trans (State.ms_whenCount ..))
  refine ⟨fun l => l.filter fun x => x.id != c.id, ?_⟩
  change ∃ l, _ = { s₂.ms with signals := l }
  split
  · exact ⟨_, (State.ms_drain ..).trans hs⟩
  · have hu : u₂.ms = s₂.ms := by
      refine Eq.trans ?_ hs
      change u₁.ms = s₅.ms
      simp only [u₁]
      split
      · exact State.ms_stSpur ..
      · exact State.ms_post ..
    have hend : ∀ (v : State) (p : Bool), ((v.when p fun w => w.irq (mb / 8) (w.rd .MB_CFG_VEC mb)).drain mb).ms = v.ms :=
      fun v p => (State.ms_drain ..).trans (State.when_same (fun w => State.ms_irq ..) v p)
    refine (?_ : ∃ l, u₃.ms = _).imp fun l hl => (hend u₃ _).trans hl
    simp only [u₃]
    cases (st == 0 && c.flagBit 1) with
    | false => exact ⟨_, hu⟩
    | true =>
      rw [← hu]
      exact ⟨_, rfl⟩

theorem State.waitLists_complete (mb : Nat) (c : Cmd) (st detail result stamp : Nat) :
    (s.complete mb c st detail result stamp).waitLists = s.waitLists := by
  obtain ⟨f, l, h⟩ := s.ms_complete mb c st detail result stamp
  have hfree : ((s.onCmds mb f).releaseBatts c st).waitLists = (s.onCmds mb f).waitLists :=
    State.when_same (fun v => State.each_same State.waitLists _ (fun w n => w.waitLists_freeHandle n) _ v) _ _
  simp only [State.waitLists, h]
  exact hfree

theorem State.waitLists_finish (mb : Nat) (c : Cmd) (st detail result : Nat) :
    (s.finish mb c st detail result).waitLists = s.waitLists := by
  unfold State.finish State.claimTimeout
  split
  · exact s.waitLists_complete ..
  · exact s.waitLists_complete ..

end

end Sys2Proof.Machine
end

section
/-!
PROOFS of the statement of the Milestones (O29) of `spec/09_milestones_and_buffers.md` in this row.
-/
namespace Sys2Proof.Machine

/-! ### Admission (R261) -/

section
variable {s : State} {ms spur : Nat}

theorem State.msOwner_own (ho : s.rd .MS_CFG_OWNER ms = spur) : s.msOwner ms spur = .ok s := if_pos ho

theorem State.msOwner_foreign (ho : s.rd .MS_CFG_OWNER ms ≠ spur) :
    s.msOwner ms spur = .error ((s.count .MS_CNT 3).isoViolation spur isoMilestone ms) := if_neg ho

theorem State.msAdmit_own (ho : s.rd .MS_CFG_OWNER ms = spur) (he : s.flag .MS_CFG_EN ms = true) :
    s.msAdmit ms spur = .ok s := by
  rw [State.msAdmit, State.msOwner_own ho]
  exact if_pos he

theorem State.msAdmit_off (ho : s.rd .MS_CFG_OWNER ms = spur) (he : s.flag .MS_CFG_EN ms = false) :
    s.msAdmit ms spur = .error (msErrOff, s) := by
  rw [State.msAdmit, State.msOwner_own ho]
  exact if_neg (by simp [he])

theorem State.msAdmit_foreign (ho : s.rd .MS_CFG_OWNER ms ≠ spur) :
    s.msAdmit ms spur = .error (msErrSpur, (s.count .MS_CNT 3).isoViolation spur isoMilestone ms) := by
  rw [State.msAdmit, State.msOwner_foreign ho]

end

/-! ### A signal that reaches the unit (R252, R255, R262) -/

/-- What a source is told of a signal that passes: an MSIG of a core is answered with its code, OK. -/
def Signal.told (g : Signal) : List Tx :=
  match g.src with
  | .core c => [.msOutcome c g.ms 0 0 0]
  | _ => []

section
variable {s : State} {g : Signal}

theorem State.signalOutcome_passed (s : State) (g : Signal) : s.signalOutcome g 0 = s.onTx (g.told ++ ·) := by
  unfold State.signalOutcome Signal.told
  cases g.src <;> rfl

theorem State.ms_signalOutcome (s : State) (g : Signal) (code : Nat) : (s.signalOutcome g code).ms = s.ms := by
  unfold State.signalOutcome
  split
  · rfl
  · exact s.ms_whenCount ..
  · rfl

/-- The forwards of a Milestone only put posts on their way. -/
theorem State.forwards_posts (s : State) (ms n : Nat) : ∃ l, s.forwards ms n = s.onMs fun m => { m with posts := l } := by
  refine State.each_keeps (fun t => ∃ l, t = s.onMs fun m => { m with posts := l }) _ ?_ _ s ⟨s.ms.posts, rfl⟩
  rintro _ f ⟨l, rfl⟩
  split <;> exact ⟨_, rfl⟩

/-- The state that a signal that passes leaves before its count is in VALUE: it is counted, its forwards have posted `l`, its
source is told. -/
def State.signalTaken (s : State) (g : Signal) (l : List Post) : State :=
  ((s.count .MS_CNT 0).onMs fun m => { m with posts := l }).onTx (g.told ++ ·)

theorem State.rd_signalTaken {r : Reg} (h : r ≠ .MS_CNT) (l : List Post) (i : Nat) : (s.signalTaken g l).rd r i = s.rd r i :=
  (State.rd_congr rfl r i).trans (s.rd_wr_other _ _ _ h)

/-- A cycle's only signal, where it passes: its whole count rises in VALUE. -/
theorem State.msSignals_passes (h : s.msAdmit g.ms g.spur = .ok s) :
    ∃ l, s.msSignals [g] = (s.signalTaken g l).raiseValue g.ms g.count := by
  obtain ⟨l, hl⟩ := (s.count .MS_CNT 0).forwards_posts g.ms g.count
  refine ⟨l, ?_⟩
  have ht : s.takeSignal g = (true, s.signalTaken g l) := by
    rw [State.takeSignal, h]
    change (true, (State.forwards ..).signalOutcome g 0) = _
    rw [hl, State.signalOutcome_passed]
    rfl
  simp [State.msSignals, ht, State.each]

theorem State.msSignals_refused {code : Nat} {t : State} (h : s.msAdmit g.ms g.spur = .error (code, t)) :
    s.msSignals [g] = t.signalOutcome g code := by
  have ht : s.takeSignal g = (false, t.signalOutcome g code) := by rw [State.takeSignal, h]
  simp [State.msSignals, ht, State.each]

theorem State.raiseValue_fits {ms n : Nat} (h : s.rd .MS_VALUE ms + n < 2 ^ 32) :
    s.raiseValue ms n = s.wr .MS_VALUE ms (s.rd .MS_VALUE ms + n) := if_neg (Nat.not_le.2 h)

theorem State.raiseValue_saturates {ms n : Nat} (h : 2 ^ 32 ≤ s.rd .MS_VALUE ms + n) : s.raiseValue ms n =
    ((s.wr .MS_VALUE ms (2 ^ 32 - 1)).put .MS_CFG_SAT ms true).record (s.rd .MS_CFG_OWNER ms) .msSat ms [0] := if_pos h

variable (ho : s.rd .MS_CFG_OWNER g.ms = g.spur) (he : s.flag .MS_CFG_EN g.ms = true)
include ho he

theorem State.msSignals_adds (hv : s.rd .MS_VALUE g.ms + g.count < 2 ^ 32) :
    ∃ l, s.msSignals [g] = (s.signalTaken g l).wr .MS_VALUE g.ms (s.rd .MS_VALUE g.ms + g.count) := by
  obtain ⟨l, hl⟩ := State.msSignals_passes (State.msAdmit_own ho he)
  have hrd : (s.signalTaken g l).rd .MS_VALUE g.ms = s.rd .MS_VALUE g.ms := State.rd_signalTaken (by decide) ..
  exact ⟨l, by rw [hl, State.raiseValue_fits (hrd ▸ hv), hrd]⟩

theorem State.msSignals_saturates (hv : 2 ^ 32 ≤ s.rd .MS_VALUE g.ms + g.count) :
    ∃ l, s.msSignals [g] = (((s.signalTaken g l).wr .MS_VALUE g.ms (2 ^ 32 - 1)).put .MS_CFG_SAT g.ms true).record g.spur
      .msSat g.ms [0] := by
  obtain ⟨l, hl⟩ := State.msSignals_passes (State.msAdmit_own ho he)
  have hrd : (s.signalTaken g l).rd .MS_VALUE g.ms = s.rd .MS_VALUE g.ms := State.rd_signalTaken (by decide) ..
  have how : (s.signalTaken g l).rd .MS_CFG_OWNER g.ms = g.spur := (State.rd_signalTaken (by decide) ..).trans ho
  exact ⟨l, by rw [hl, State.raiseValue_saturates (hrd ▸ hv), how]⟩

end

/-- A record to a Spur whose ring has room stands in it with its type and its unit. -/
theorem State.record_unit {s : State} {owner : Nat} (h : (s.errRing owner).recs.length < 64) (t : ErrType) {unit : Nat}
    (hu : unit < 2 ^ 16) (detail : List Nat) :
    ∃ r ∈ ((s.record owner t unit detail).errRing owner).recs, r.typ = t ∧ r.unit = unit := by
  unfold State.record State.recordTo
  rw [if_neg (Nat.not_le.2 h)]
  simp only [State.errRing, State.irq_errs, State.onErrs_errs, Table.get_upd_same]
  exact ⟨_, List.mem_append_right _ (List.mem_singleton.2 rfl), rfl, Nat.mod_eq_of_lt hu⟩

/-! ### Waiters (R256, R258, R259) -/

section
variable {s : State} {w : Waiter} {o : WOut}

theorem State.waiterEnd_success (h : w.h ≤ s.rd .MS_VALUE w.ms) : s.waiterEnd w = some .success := if_pos h

theorem State.waiterEnd_timeout {t : Nat} (h : s.rd .MS_VALUE w.ms < w.h) (ht : w.timeout = some t) (hp : t < s.now) :
    s.waiterEnd w = some .timeout := by
  rw [State.waiterEnd, if_neg (Nat.not_le.2 h), ht]
  exact if_pos hp

theorem State.waiterEnd_none (h : s.rd .MS_VALUE w.ms < w.h) (ht : ∀ e, w.timeout = some e → s.now ≤ e) :
    s.waiterEnd w = none := by
  rw [State.waiterEnd, if_neg (Nat.not_le.2 h)]
  split
  · next e he => exact if_neg (Nat.not_lt.2 (ht e he))
  · rfl

theorem State.msEnds_empty (h : s.ms.waiters = []) : s.msEnds = s := by
  rw [State.msEnds, h]
  rfl

theorem State.msEnds_ends (h : s.ms.waiters = [w]) (ho : s.waiterEnd w = some o) : s.msEnds = s.endWaiter w o := by
  simp [State.msEnds, h, ho, State.each]

theorem State.msEnds_waits (h : s.ms.waiters = [w]) (ho : s.waiterEnd w = none) : s.msEnds = s := by
  simp [State.msEnds, h, ho, State.each]

theorem State.waiters_of_waitLists {s t : State} (h : t.waitLists = s.waitLists) : t.ms.waiters = s.ms.waiters :=
  congrArg Prod.fst h

/-- Whatever its action and its outcome, a waiter that ends leaves the table, and no other does. -/
theorem State.endWaiter_waiters (s : State) (w : Waiter) (o : WOut) : (s.endWaiter w o).ms.waiters = s.ms.waiters.erase w := by
  unfold State.endWaiter
  extract_lets s₁ s₂ s₃ s₄
  have h₄ : s₄.ms.waiters = s.ms.waiters.erase w := congrArg MsSt.waiters
    ((State.ms_whenCount ..).trans (s₂.ms_whenCount ..))
  refine Eq.trans ?_ h₄
  split
  · rfl
  · exact State.when_same (g := fun v => v.ms.waiters) (f := fun v => v.postTkc ..) (fun _ => rfl) _ _
  · split
    · rfl
    · split
      · rfl
      · exact State.waiters_of_waitLists (State.waitLists_complete ..)
      · exact State.waiters_of_waitLists (State.waitLists_complete ..)

/-- A waiting thread of a core is woken with its outcome. -/
theorem State.endWaiter_ncc {c : Nat} (ha : w.act = .ncc c) : (s.endWaiter w o).tx = .nccWoken c w.ms o :: s.tx := by
  unfold State.endWaiter
  rw [ha]
  cases o <;> rfl

theorem State.each_endWaiter (s : State) (o : WOut) (l : List Waiter) :
    (s.each l fun s w => s.endWaiter w o).ms.waiters = s.ms.waiters.diff l := by
  induction l generalizing s with
  | nil => rfl
  | cons w l ih => rw [List.diff_cons, ← s.endWaiter_waiters w o, ← ih]; rfl

/-- A re-arm leaves no waiter on its Milestone (R260). -/
theorem State.msRearm_waiters (s : State) (ms value target : Nat) :
    ∀ w ∈ (s.msRearm ms value target).ms.waiters, w.ms ≠ ms := by
  intro w hw hms
  have hdiff : w ∈ s.ms.waiters.diff (s.ms.waiters.filter fun w => w.ms == ms) := by
    rw [← State.each_endWaiter s .cancelled]
    exact hw
  have hcount := List.count_pos_iff.2 hdiff
  rw [List.count_diff, List.count_filter (by simpa using hms), Nat.sub_self] at hcount
  exact absurd hcount (Nat.lt_irrefl 0)

theorem State.msRearm_value (s : State) (ms value target : Nat) :
    (s.msRearm ms value target).rd .MS_VALUE ms = value % 2 ^ 32 :=
  (State.rd_wr_other _ _ _ _ (by decide)).trans (State.rd_wr_same ..)

theorem State.msRearm_target (s : State) (ms value target : Nat) :
    (s.msRearm ms value target).rd .MS_TARGET ms = target % 2 ^ 32 := State.rd_wr_same ..

end

/-! ### Registering a waiter (R251, R257) -/

section
variable {s : State} {ms spur h : Nat} {lim : Option Nat} {c : Nat}

theorem State.msWait_refused {act : WAct} {code : Nat} {t : State} (ha : s.msAdmit ms spur = .error (code, t)) :
    s.msWait ms spur h lim act = (code, t) := by rw [State.msWait, ha]

variable (ha : s.msAdmit ms spur = .ok s)
include ha

theorem State.msWait_foreignCore (hc : c / 2 ≠ spur) : s.msWait ms spur h lim (.ncc c) = (msBadwait, s) := by
  rw [State.msWait, ha]
  exact if_pos (bne_iff_ne.2 hc)

theorem State.msWait_quota (hc : c / 2 = spur) (hq : s.rd .MS_WQUOTA spur ≤ s.rd .MS_WUSED spur) :
    s.msWait ms spur h lim (.ncc c) = (msNowait, s.count .MS_CNT 4) := by
  rw [State.msWait, ha]
  exact (if_neg (by simp [hc])).trans (if_pos hq)

theorem State.msWait_registers (hc : c / 2 = spur) (hq : s.rd .MS_WUSED spur < s.rd .MS_WQUOTA spur) :
    ∃ t, s.msWait ms spur h lim (.ncc c) = (0, t) ∧ t.tx = s.tx ∧
      t.ms.waiters = s.ms.waiters ++ [⟨ms, if h = 0 then s.rd .MS_TARGET ms else h, lim, .ncc c, spur⟩] := by
  have hbad : ¬ (c / 2 != spur) = true := by simp [hc]
  have hquota := Nat.not_le.2 hq
  rw [State.msWait, ha]
  simp only [if_neg hbad, if_neg hquota]
  exact ⟨_, rfl, rfl, rfl⟩

end

/-! ### The commands -/

section
variable {s : State}

theorem exec_msSignalArrival_single {g : Signal} (h : s.ms.signals = [g]) :
    exec (.msSignalArrival 1) s = .next ((s.onMs fun m => { m with signals := [] }).msCycle [g]) := by
  have hpick : pickBits s.ms.signals 1 = ([g], []) := by rw [h]; simp [pickBits, bit]
  change execMsSignalArrival 1 s = _
  simp only [execMsSignalArrival, hpick]
  rfl

theorem exec_mwait_ncc (core c : Fin 16) (ms : Fin 1024) (h : Word) (lim : Option DWord) {code : Nat} {t : State}
    (hw : s.msWait ms.val (core.val / 2) h.toNat (lim.map BitVec.toNat) (.ncc c.val) = (code, t)) :
    exec (.mwait core ms h lim (.ncc c)) s = .next (t.emit (.msOutcome core.val ms.val code 0 0)) := by
  change execMwait core ms h lim (.ncc c) s = _
  simp only [execMwait, hw]
  rfl

theorem exec_mrearm_own {core : Fin 16} {ms : Fin 1024} (v g : Word) (h : s.msAdmit ms.val (core.val / 2) = .ok s) :
    exec (.mrearm core ms v g) s =
      .next ((s.msEnds.msRearm ms.val v.toNat g.toNat).emit (.msOutcome core.val ms.val 0 0 0)) := by
  change execMrearm core ms v g s = _
  rw [execMrearm, h]
  rfl

end

/-! ### A signal that arrives alone -/

section
variable {s : State} {g : Signal} (hs : s.ms.signals = [g])
include hs

/-- A signal that is refused changes no VALUE: its source is told, and with no waiter the cycle ends there. -/
theorem msSignalArrival_refused (hw : s.ms.waiters = []) {code : Nat} {t : State}
    (ha : (s.onMs fun m => { m with signals := [] }).msAdmit g.ms g.spur = .error (code, t))
    (ht : t.ms.waiters = s.ms.waiters) :
    exec (.msSignalArrival 1) s = .next (t.signalOutcome g code) := by
  have hnone : (t.signalOutcome g code).ms.waiters = [] := by rw [State.ms_signalOutcome, ht, hw]
  rw [exec_msSignalArrival_single hs, State.msCycle, State.msSignals_refused ha, State.msEnds_empty hnone]

variable (ho : s.rd .MS_CFG_OWNER g.ms = g.spur) (he : s.flag .MS_CFG_EN g.ms = true)
include ho he

/-- What the owner's signal to an enabled Milestone leaves before any waiter ends. -/
theorem exec_msSignalArrival_adds (hv : s.rd .MS_VALUE g.ms + g.count < 2 ^ 32) :
    ∃ u : State, exec (.msSignalArrival 1) s = .next u.msEnds ∧ u.rd .MS_VALUE g.ms = s.rd .MS_VALUE g.ms + g.count ∧
      u.ms.signals = [] ∧ u.ms.waiters = s.ms.waiters ∧ u.mem = s.mem ∧ u.tx = g.told ++ s.tx ∧ u.now = s.now := by
  obtain ⟨l, hl⟩ := State.msSignals_adds (s := s.onMs fun m => { m with signals := [] }) ((s.rd_onMs ..).trans ho)
    ((s.flag_onMs ..).trans he) ((congrArg (· + g.count) (s.rd_onMs ..)).trans_lt hv)
  rw [exec_msSignalArrival_single hs, State.msCycle, hl]
  exact ⟨_, rfl, (State.rd_wr_same ..).trans (Nat.mod_eq_of_lt hv), rfl, rfl, rfl, rfl, rfl⟩

theorem msSignalArrival_adds (hw : s.ms.waiters = []) (hv : s.rd .MS_VALUE g.ms + g.count < 2 ^ 32) :
    ∃ t, exec (.msSignalArrival 1) s = .next t ∧ t.rd .MS_VALUE g.ms = s.rd .MS_VALUE g.ms + g.count ∧
      t.ms.signals = [] ∧ t.mem = s.mem ∧ t.tx = g.told ++ s.tx := by
  obtain ⟨u, hu, hval, hsig, hwait, hmem, htx, -⟩ := exec_msSignalArrival_adds hs ho he hv
  rw [State.msEnds_empty (hwait.trans hw)] at hu
  exact ⟨u, hu, hval, hsig, hmem, htx⟩

theorem msSignalArrival_saturates (hw : s.ms.waiters = []) (hm : g.ms < 1024) (hv : 2 ^ 32 ≤ s.rd .MS_VALUE g.ms + g.count) :
    ∃ t, exec (.msSignalArrival 1) s = .next t ∧ t.rd .MS_VALUE g.ms = 0xFFFFFFFF ∧ t.rd .MS_CFG_SAT g.ms = 1 ∧
      ((s.errRing g.spur).recs.length < 64 → ∃ r ∈ (t.errRing g.spur).recs, r.typ = .msSat ∧ r.unit = g.ms) := by
  obtain ⟨l, hl⟩ := State.msSignals_saturates (s := s.onMs fun m => { m with signals := [] }) ((s.rd_onMs ..).trans ho)
    ((s.flag_onMs ..).trans he) (hv.trans_eq (congrArg (· + g.count) (s.rd_onMs ..)).symm)
  have hnone : (State.msSignals (s.onMs fun m => { m with signals := [] }) [g]).ms.waiters = [] := by
    rw [hl, (State.reports_record ..).ms]
    exact hw
  rw [exec_msSignalArrival_single hs, State.msCycle, State.msEnds_empty hnone, hl]
  refine ⟨_, rfl, ?_, ?_, fun hroom => State.record_unit ?_ _ (hm.trans (by decide)) _⟩
  · rw [State.rd_record _ (by decide) (by decide), State.put, State.rd_wr_other _ _ _ _ (by decide), State.rd_wr_same]
    rfl
  · rw [State.rd_record _ (by decide) (by decide), State.put, State.rd_wr_same]
    rfl
  · exact hroom

variable {w : Waiter} {c : Nat} (hw : s.ms.waiters = [w]) (hms : w.ms = g.ms) (hv : s.rd .MS_VALUE g.ms + g.count < 2 ^ 32)
include hw hms hv

theorem msSignalArrival_wakes (ha : w.act = .ncc c) (hh : w.h ≤ s.rd .MS_VALUE g.ms + g.count) :
    ∃ t, exec (.msSignalArrival 1) s = .next t ∧ t.ms.waiters = [] ∧ t.tx = .nccWoken c w.ms .success :: (g.told ++ s.tx) := by
  obtain ⟨u, hu, hval, -, hwait, -, htx, -⟩ := exec_msSignalArrival_adds hs ho he hv
  rw [State.msEnds_ends (hwait.trans hw) (State.waiterEnd_success (by rwa [hms, hval]))] at hu
  exact ⟨_, hu, by rw [State.endWaiter_waiters, hwait, hw, List.erase_cons_head], by rw [State.endWaiter_ncc ha, htx]⟩

theorem msSignalArrival_waits (hh : s.rd .MS_VALUE g.ms + g.count < w.h) (ht : ∀ e, w.timeout = some e → s.now ≤ e) :
    ∃ t, exec (.msSignalArrival 1) s = .next t ∧ t.ms.waiters = [w] ∧ t.tx = g.told ++ s.tx := by
  obtain ⟨u, hu, hval, -, hwait, -, htx, hnow⟩ := exec_msSignalArrival_adds hs ho he hv
  rw [State.msEnds_waits (hwait.trans hw) (State.waiterEnd_none (by rwa [hms, hval]) fun e h => hnow.trans_le (ht e h))] at hu
  exact ⟨u, hu, hwait.trans hw, htx⟩

end

/-! ### The mailbox commands (Table MB-4) -/

section
variable {s : State} {mb : Fin 64} {tag : BitVec 16} {c : Cmd}

theorem exec_msCfg_applied (h : s.runs mb tag 0x30 false c) (hr : s.msCfgReason c = 0) :
    exec (.msCfg mb tag) s = .next ((s.msCfgApply c).finish mb.val c 0 0 0) := by
  change execMsCfg mb tag s = _
  rw [execMsCfg, State.runCmd_runs h]
  simp only [hr]

theorem exec_msRearm_own (h : s.runs mb tag 0x31 false c) (ha : s.msAdmit (bits (c.opw 0) 0 10) (mb.val / 8) = .ok s) :
    exec (.msRearm mb tag) s =
      .next ((s.msEnds.msRearm (bits (c.opw 0) 0 10) (c.opw 1) (c.opw 2)).finish mb.val c 0 0 0) := by
  change execMsRearm mb tag s = _
  rw [execMsRearm, State.runCmd_runs h]
  simp only [ha]
  rfl

theorem exec_msRead_own (h : s.runs mb tag 0x32 false c) (ho : s.msOwner (bits (c.opw 0) 0 10) (mb.val / 8) = .ok s) :
    exec (.msRead mb tag) s = .next (s.finish mb.val c 0 0
      (s.rd .MS_VALUE (bits (c.opw 0) 0 10) + s.rd .MS_TARGET (bits (c.opw 0) 0 10) * 2 ^ 32)) := by
  change execMsRead mb tag s = _
  rw [execMsRead, State.runCmd_runs h]
  simp only [ho]
  rfl

theorem exec_msSignal_own (h : s.runs mb tag 0x33 false c) (ha : s.msAdmit (bits (c.opw 0) 0 10) (mb.val / 8) = .ok s) :
    exec (.msSignal mb tag) s = .next
      ((s.msCycle [⟨bits (c.opw 0) 0 10, mb.val / 8, c.opw 1, .mailbox mb.val⟩]).finish mb.val c 0 0 0) := by
  change execMsSignal mb tag s = _
  rw [execMsSignal, State.runCmd_runs h]
  simp only [ha]
  rfl

theorem exec_msSignal_off (h : s.runs mb tag 0x33 false c)
    (ha : s.msAdmit (bits (c.opw 0) 0 10) (mb.val / 8) = .error (msErrOff, s)) :
    exec (.msSignal mb tag) s = .next (s.finish mb.val c 0x14 msErrOff 0) := by
  change execMsSignal mb tag s = _
  rw [execMsSignal, State.runCmd_runs h]
  simp only [ha]
  rfl

end

/-- Settles O29: a signal by the owner and enable tests, then by whether its sum fits and whether a waiter ends; a wait by the
tests it meets in order; a re-arm as the removal of every waiter of its Milestone; the commands by the same operations. -/
theorem milestoneOperations : Obligations.MilestoneOperations := by
  unfold Obligations.MilestoneOperations
  refine ⟨fun s core ms n => rfl, fun s g hs hw hm => ⟨?adds, ?saturates, ?off, ?foreign⟩,
    fun s g w c hs hw ha hms _ ho he hv => ⟨?wakes, ?waits⟩,
    fun s core c ms h lim ho => ⟨?waitOff, ?waitBad, ?waitQuota, ?registers⟩,
    ?rearm, fun s core ms => ⟨?read, ?readForeign⟩, fun s w c t hw ha ht hh => ⟨?times, ?stays⟩,
    fun s mb tag c => ⟨exec_msCfg_applied, ?msRearm, ?msRead, ?msSignal, ?msSignalOff⟩⟩
  case adds => exact fun ho he hv => msSignalArrival_adds hs ho he hw hv
  case saturates => exact fun ho he hv => msSignalArrival_saturates hs ho he hw hm hv
  case off =>
    intro ho he
    exact msSignalArrival_refused hs hw (State.msAdmit_off ((s.rd_onMs ..).trans ho) ((s.flag_onMs ..).trans he)) rfl
  case foreign =>
    intro ho
    have hne : (s.onMs fun m => { m with signals := [] }).rd .MS_CFG_OWNER g.ms ≠ g.spur := by rwa [State.rd_onMs]
    exact msSignalArrival_refused hs hw (State.msAdmit_foreign hne) (by rw [State.ms_isoViolation]; rfl)
  case wakes => exact msSignalArrival_wakes hs ho he hw hms hv ha
  case waits => exact msSignalArrival_waits hs ho he hw hms hv
  case waitOff => exact fun he => exec_mwait_ncc _ _ _ _ _ (State.msWait_refused (State.msAdmit_off ho he))
  case waitBad => exact fun he hc => exec_mwait_ncc _ _ _ _ _ (State.msWait_foreignCore (State.msAdmit_own ho he) hc)
  case waitQuota => exact fun he hc hq => exec_mwait_ncc _ _ _ _ _ (State.msWait_quota (State.msAdmit_own ho he) hc hq)
  case registers =>
    intro he hc hq
    obtain ⟨t, ht, htx, hwait⟩ := State.msWait_registers (State.msAdmit_own ho he) hc hq
    exact ⟨_, exec_mwait_ncc core c ms h lim ht, congrArg (List.cons _) htx, hwait⟩
  case rearm =>
    intro s core ms v g ho he
    refine ⟨_, exec_mrearm_own v g (State.msAdmit_own ho he), ?_, ?_,
      State.msRearm_waiters s.msEnds _ v.toNat g.toNat, List.mem_cons_self⟩
    · rw [State.rd_emit, State.msRearm_value, Nat.mod_eq_of_lt v.isLt]
    · rw [State.rd_emit, State.msRearm_target, Nat.mod_eq_of_lt g.isLt]
  case read =>
    intro ho
    change execMsCoreRead core ms s = _
    rw [execMsCoreRead, State.msOwner_own ho]
    rfl
  case readForeign =>
    intro ho
    change execMsCoreRead core ms s = _
    rw [execMsCoreRead, State.msOwner_foreign ho]
    rfl
  case times =>
    intro hp
    refine ⟨_, congrArg Host.Outcome.next (State.msEnds_ends hw (State.waiterEnd_timeout hh ht hp)), ?_, State.endWaiter_ncc ha⟩
    rw [State.endWaiter_waiters, hw, List.erase_cons_head]
  case stays =>
    intro hp
    refine congrArg Host.Outcome.next (State.msEnds_waits hw (State.waiterEnd_none hh fun e he => ?_))
    exact Option.some.inj (ht.symm.trans he) ▸ hp
  case msRearm => exact fun h ho he => exec_msRearm_own h (State.msAdmit_own ho he)
  case msRead => exact fun h ho => exec_msRead_own h (State.msOwner_own ho)
  case msSignal => exact fun h ho he => exec_msSignal_own h (State.msAdmit_own ho he)
  case msSignalOff => exact fun h ho he => exec_msSignal_off h (State.msAdmit_off ho he)

end Sys2Proof.Machine
end

section
/-!
PROOFS of the statement of the Batt pools (O30) of `spec/09_milestones_and_buffers.md` in this row.
-/
namespace Sys2Proof.Machine

/-! ### Batts of a pool (R263) -/

section
variable (s : State) (long : Bool) {i j : Nat} (f : BattSt → BattSt)

theorem State.batt_onBatt : (s.onBatt long i f).batt long i = f (s.batt long i) := by
  cases long <;> exact Table.get_upd_same ..

theorem State.batt_onBatt_other (h : j ≠ i) : (s.onBatt long i f).batt long j = s.batt long j := by
  cases long <;> exact Table.get_upd_other _ _ _ _ h

/-- A batt in use that is freed becomes free, and its GEN rises. -/
theorem State.freeBatt_owned {o : Nat × Nat} (h : (s.batt long i).owner = some o) :
    (s.freeBatt long i).batt long i = ⟨nextGen (s.batt long i).gen, none⟩ ∧ (s.freeBatt long i).tx = s.tx ∧
      (s.freeBatt long i).mem = s.mem := by
  unfold State.freeBatt
  rw [h]
  dsimp only
  split
  · exact ⟨State.batt_onBatt .., rfl, rfl⟩
  · exact ⟨State.batt_onBatt .., rfl, rfl⟩

end

/-! ### The free batt that a grant takes (R270) -/

section
variable {s : State} {sp start i : Nat}

/-- The places of the short pool are searched, each of them, in an order that the starting point gives. -/
theorem State.pickFree_short (s : State) (sp start : Nat) : ∃ l : List Nat, (∀ i, i ∈ l ↔ i < 16384) ∧
    s.pickFree false sp start = l.find? fun i => (s.batt false i).owner.isNone := by
  refine ⟨(List.range 16384).map fun i => 0 + (start + i) % 16384, fun i => ?_, by simp [State.pickFree, State.battRange]⟩
  simp only [List.mem_map, List.mem_range]
  exact ⟨fun ⟨k, hk, h⟩ => by omega, fun h => ⟨(i + 16384 - start % 16384) % 16384, by omega, by omega⟩⟩

/-- The batt found is a free one of the pool. -/
theorem State.pickFree_short_free (h : s.pickFree false sp start = some i) : i < 16384 ∧ (s.batt false i).owner = none := by
  obtain ⟨l, hl, hpick⟩ := s.pickFree_short sp start
  rw [hpick] at h
  have hfree := List.find?_some h
  exact ⟨(hl i).1 (List.mem_of_find?_eq_some h), Option.isNone_iff_eq_none.1 hfree⟩

/-- Wherever the search starts, it finds a free batt where there is one. -/
theorem State.pickFree_short_finds (hi : i < 16384) (h : (s.batt false i).owner = none) (sp start : Nat) :
    ∃ k, s.pickFree false sp start = some k := by
  obtain ⟨l, hl, hpick⟩ := s.pickFree_short sp start
  rw [hpick, ← Option.isSome_iff_exists, List.find?_isSome]
  exact ⟨i, (hl i).2 hi, Option.isNone_iff_eq_none.2 h⟩

/-- An eligible ALLOC has a free batt. -/
theorem State.free_of_eligible (h : s.eligible false sp = true) : ∃ i < 16384, (s.batt false i).owner = none := by
  have hfree : (s.pickFree false sp 0).isSome = true := by
    simp only [State.eligible, Bool.false_eq_true, if_false, Bool.and_eq_true] at h
    exact h.1.1
  obtain ⟨i, hi⟩ := Option.isSome_iff_exists.1 hfree
  exact ⟨i, State.pickFree_short_free hi⟩

/-- The state after the grant of short batt `i`. -/
def State.granted (s : State) (agent sp i : Nat) : State :=
  ((((s.fresh 20).2.onBatt false i fun b => { b with owner := some (agent, sp) }).wr .BP_USED_SHORT sp
    (s.rd .BP_USED_SHORT sp + 1)).wr .BP_FREE 0 (s.rd .BP_FREE - 1)).noteGrant false

section
variable (s : State) (agent sp i : Nat)

/-- Of the batts a grant changes the one granted alone. -/
theorem State.batt_granted (j : Nat) : (s.granted agent sp i).batt false j =
    (s.onBatt false i fun b => { b with owner := some (agent, sp) }).batt false j := rfl

theorem State.batt_granted_same :
    (s.granted agent sp i).batt false i = { s.batt false i with owner := some (agent, sp) } :=
  (s.batt_granted ..).trans (s.batt_onBatt_same ..)

theorem State.batt_granted_other {j : Nat} (h : j ≠ i) : (s.granted agent sp i).batt false j = s.batt false j :=
  (s.batt_granted ..).trans (s.batt_onBatt_other false _ h)

theorem State.granted_free : (s.granted agent sp i).rd .BP_FREE = (s.rd .BP_FREE - 1) % 2 ^ 15 :=
  State.rd_wr_same _ .BP_FREE 0 _

end

/-- A grant takes a free batt, with its GEN as it stands in the handle. -/
theorem State.grant_short (hfree : ∃ i < 16384, (s.batt false i).owner = none) (agent sp : Nat) :
    ∃ i < 16384, (s.batt false i).owner = none ∧
      s.grant false agent sp = (mkHandle false (s.batt false i).gen i, s.granted agent sp i) := by
  obtain ⟨j, hj, hfree⟩ := hfree
  obtain ⟨i, hi⟩ := State.pickFree_short_finds (s := (s.fresh 20).2) hj hfree sp (s.fresh 20).1
  obtain ⟨hlt, hnone⟩ := State.pickFree_short_free hi
  refine ⟨i, hlt, hnone, ?_⟩
  have hgen : ((s.granted agent sp i).batt false i).gen = (s.batt false i).gen  := by
    rw [State.batt_granted_same]
  unfold State.grant
  dsimp only
  rw [hi, ← hgen]
  rfl

end

/-! ### A cycle of the manager (R271) -/

section
variable {s : State}

theorem State.serveWaiters_empty {long : Bool} (h : s.waitq long = []) : s.serveWaiters long = s := by
  rw [State.serveWaiters, h]
  rfl

/-- No waiter's time has passed. -/
def State.noneExpired (s : State) (long : Bool) : Prop := ∀ w ∈ s.waitq long, ∀ t, w.timeout = some t → s.now ≤ t

theorem State.waitersExpire_none {long : Bool} (h : s.noneExpired long) : s.waitersExpire long = s := by
  have hnone : (s.waitq long).filter (fun w => match w.timeout with | some t => decide (t < s.now) | none => false) = [] := by
    refine List.filter_eq_nil_iff.2 fun w hw => ?_
    split
    · next t ht => simpa using h w hw t ht
    · exact Bool.false_ne_true
  unfold State.waitersExpire
  exact congrArg (s.each · _) hnone

theorem State.noneExpired_empty {long : Bool} (h : s.waitq long = []) : s.noneExpired long := by
  intro w hw
  rw [h] at hw
  exact absurd hw List.not_mem_nil

theorem State.noneExpired_of_waitLists {t : State} (h : t.waitLists = s.waitLists) (hs : s.ms.shortQ = [])
    (hl : s.ms.longQ = []) (long : Bool) : t.noneExpired long := by
  have hq : (t.ms.shortQ, t.ms.longQ) = (s.ms.shortQ, s.ms.longQ) := congrArg Prod.snd h
  rw [hs, hl] at hq
  obtain ⟨hs', hl'⟩ := Prod.mk.inj hq
  cases long with
  | false => exact State.noneExpired_empty hs'
  | true => exact State.noneExpired_empty hl'

/-- With nobody waiting before and no waiter's time passed after, a cycle is what is presented in it. -/
theorem State.bpCycle_presented {step : State → State} {t : State} (hs : s.ms.shortQ = []) (hl : s.ms.longQ = [])
    (ht : step s = t) (he : ∀ long, t.noneExpired long) : s.bpCycle step = t := by
  rw [State.bpCycle, State.serveWaiters_empty (long := false) hs, State.serveWaiters_empty (long := true) hl, ht,
    State.waitersExpire_none (he false), State.waitersExpire_none (he true)]

theorem battPort_lt (id : Nat) : battPort id < 20 := by
  unfold battPort
  split <;> omega

/-- A list of which one element alone yields anything. -/
theorem flatMap_single {α β : Type} {f : α → List β} {l : List α} {a : α} (ha : a ∈ l) (hn : l.Nodup)
    (h : ∀ b ∈ l, b ≠ a → f b = []) : l.flatMap f = f a := by
  obtain ⟨l₁, l₂, rfl⟩ := List.append_of_mem ha
  have hnot := (List.nodup_middle.1 hn).notMem
  rw [List.flatMap_append, List.flatMap_cons,
    List.flatMap_eq_nil_iff.2 fun b hb => h b (by simp [hb]) fun e => hnot (by simp [← e, hb]),
    List.flatMap_eq_nil_iff.2 fun b hb => h b (by simp [hb]) fun e => hnot (by simp [← e, hb])]
  simp

/-- A port that presents alone has its turn, wherever the pointer stands. -/
theorem portOrder_single (ptr : Nat) (r : AllocReq) : portOrder ptr [r] = [r] := by
  have hport := battPort_lt r.agent.id.toNat
  unfold portOrder
  rw [flatMap_single (a := (battPort r.agent.id.toNat + 20 - ptr % 20) % 20) (List.mem_range.2 (Nat.mod_lt _ (by decide)))
    List.nodup_range]
  · refine List.filter_cons_of_pos ?_
    rw [beq_iff_eq]
    omega
  · intro b hb hne
    rw [List.mem_range] at hb
    refine List.filter_cons_of_neg ?_
    rw [beq_iff_eq]
    omega

end

/-! ### One ALLOC (R270, R272) -/

section
variable {s : State} {agent sp : Nat} {wait : Bool} {lim : Option Nat} {dst : BTo}

/-- The state after an ALLOC of the agent has been granted short batt `i`, its answer not yet sent. -/
def State.allocated (s : State) (agent sp i : Nat) : State :=
  (s.granted agent sp i).wr .BP_PTR 0 ((battPort agent + 1) % 20)

theorem State.allocated_ptr (s : State) (agent sp i : Nat) :
    (s.allocated agent sp i).rd .BP_PTR = (battPort agent + 1) % 20 :=
  (State.rd_wr_same _ .BP_PTR 0 _).trans
    (Nat.mod_eq_of_lt ((Nat.mod_lt _ (by decide)).trans (by decide : 20 < 2 ^ 5)))

theorem State.allocated_free (s : State) (agent sp i : Nat) :
    (s.allocated agent sp i).rd .BP_FREE = (s.rd .BP_FREE - 1) % 2 ^ 15 :=
  (State.rd_wr_other _ _ _ _ (by decide)).trans (s.granted_free ..)

theorem State.batt_allocated_same (s : State) (agent sp i : Nat) :
    (s.allocated agent sp i).batt false i = { s.batt false i with owner := some (agent, sp) } := s.batt_granted_same ..

theorem State.batt_allocated_other (s : State) (agent sp : Nat) {i j : Nat} (h : j ≠ i) :
    (s.allocated agent sp i).batt false j = s.batt false j := s.batt_granted_other agent sp i h

theorem State.allocated_waitLists (s : State) (agent sp i : Nat) : (s.allocated agent sp i).waitLists = s.waitLists := rfl

theorem State.allocOne_grants (hg : s.grantsNow false < 4) (he : s.eligible false sp = true) (agent : Nat) (wait : Bool)
    (lim : Option Nat) (dst : BTo) : ∃ i < 16384, (s.batt false i).owner = none ∧ s.allocOne false wait agent sp lim dst =
      (s.allocated agent sp i).battReply dst 0 (mkHandle false (s.batt false i).gen i) := by
  obtain ⟨i, hi, hnone, hgrant⟩ := State.grant_short (State.free_of_eligible he) agent sp
  refine ⟨i, hi, hnone, ?_⟩
  have hnow : (decide (s.grantsNow false < 4) && s.eligible false sp) = true := by simp [hg, he]
  rw [State.allocOne, if_pos hnow, hgrant]
  rfl

theorem State.allocOne_loses (he : s.eligible false sp = false) :
    s.allocOne false wait agent sp lim dst = s.loser false wait agent sp lim dst :=
  if_neg (by simp [he])

theorem State.loser_noWait : s.loser false false agent sp lim dst = (s.count .BP_CNT 0).battReply dst bpNobuf 0 := rfl

/-- With an empty list the loser is its only waiter and is told WAITING. -/
theorem State.loser_joins (hq : s.ms.shortQ = []) (agent sp : Nat) (lim : Option Nat) (id osp : Nat) :
    ∃ t, s.loser false true agent sp lim (.agent id osp) = t ∧ t.tx = .battAnswer id osp 3 0 :: s.tx ∧
      t.ms.shortQ = [⟨agent, sp, lim, .agent id osp⟩] ∧ t.ms.longQ = s.ms.longQ ∧ t.now = s.now := by
  have hroom : ¬ 64 ≤ (s.waitq false).length := by
    change ¬ 64 ≤ s.ms.shortQ.length
    simp [hq]
  have hnew : s.ms.shortQ ++ [⟨agent, sp, lim, .agent id osp⟩] = [⟨agent, sp, lim, .agent id osp⟩] := by rw [hq]; rfl
  unfold State.loser
  rw [if_neg (by decide), if_neg hroom]
  exact ⟨_, rfl, rfl, hnew, rfl, rfl⟩

end

/-! ### Waiters of a pool (R272) -/

section
variable {s : State} {w : BWaiter} {id sp : Nat} (hq : s.ms.shortQ = [w])
include hq

theorem State.dropPoolWaiter_shortQ : (s.dropPoolWaiter false w).ms.shortQ = [] := by
  change s.ms.shortQ.erase w = []
  rw [hq, List.erase_cons_head]

theorem State.serveWaiters_ineligible (he : s.eligible false w.spur = false) : s.serveWaiters false = s := by
  refine State.each_idle fun v hv => if_neg ?_
  have hvw : v = w := List.mem_singleton.1 (hq ▸ hv)
  rw [hvw, he, Bool.and_false]
  exact Bool.false_ne_true

theorem battWaiterGrant_grants (ha : w.answer = .agent id sp) (hg : s.grantsNow false < 4)
    (he : s.eligible false w.spur = true) :
    ∃ t i, exec (.battWaiterGrant false) s = .next t ∧ t.ms.shortQ = [] ∧ i < 16384 ∧ (s.batt false i).owner = none ∧
      (t.batt false i).owner = some (w.agent, w.spur) ∧
      t.tx = .battAnswer id sp 0 (mkHandle false (s.batt false i).gen i) :: s.tx := by
  obtain ⟨j, hj, hfree⟩ := State.free_of_eligible he
  obtain ⟨i, hi, hnone, hgrant⟩ := State.grant_short (s := s.dropPoolWaiter false w) ⟨j, hj, hfree⟩ w.agent w.spur
  have hnow : (decide (s.grantsNow false < 4) && s.eligible false w.spur) = true := by simp [hg, he]
  have hserve : s.serveWaiters false = ((s.dropPoolWaiter false w).granted w.agent w.spur i).emit
      (.battAnswer id sp 0 (mkHandle false (s.batt false i).gen i)) := by
    unfold State.serveWaiters
    rw [show s.waitq false = [w] from hq]
    simp only [State.each, List.foldl_cons, List.foldl_nil, if_pos hnow, hgrant, ha]
    rfl
  refine ⟨_, i, congrArg Host.Outcome.next hserve, State.dropPoolWaiter_shortQ hq, hi, hnone, ?_, rfl⟩
  exact congrArg BattSt.owner (State.batt_granted_same ..)

theorem battWaitTimeout_ends (ha : w.answer = .agent id sp) {e : Nat} (he : s.eligible false w.spur = false)
    (ht : w.timeout = some e) (hp : e < s.now) :
    ∃ t, exec (.battWaitTimeout false) s = .next t ∧ t.ms.shortQ = [] ∧ t.tx = .battAnswer id sp bpWaitTo 0 :: s.tx := by
  have hexp : (s.serveWaiters false).waitersExpire false =
      ((s.dropPoolWaiter false w).count .BP_CNT 6).emit (.battAnswer id sp bpWaitTo 0) := by
    rw [State.serveWaiters_ineligible hq he, State.waitersExpire, show s.waitq false = [w] from hq,
      List.filter_cons_of_pos (by simpa [ht] using hp)]
    change ((s.dropPoolWaiter false w).count .BP_CNT 6).battReply w.answer bpWaitTo 0 = _
    rw [ha]
    rfl
  exact ⟨_, congrArg Host.Outcome.next hexp, State.dropPoolWaiter_shortQ hq, rfl⟩

theorem battWaitTimeout_waits (he : s.eligible false w.spur = false) (ht : w.timeout = none) :
    exec (.battWaitTimeout false) s = .next s := by
  refine congrArg Host.Outcome.next ?_
  rw [State.serveWaiters_ineligible hq he]
  refine State.waitersExpire_none fun v hv t hvt => ?_
  have hvw : v = w := List.mem_singleton.1 (hq ▸ hv)
  rw [hvw, ht] at hvt
  cases hvt

end

/-! ### FREE and GIVE (R273) -/

section
variable {s : State} {agent sp h : Nat} {target : Option (Nat × Nat)}

/-- A handle that names a batt. -/
def handleNames (h : Nat) : Prop := hRsv h = 0 ∧ hGen h ≠ 0 ∧ hIndex h < (if hLong h then 2 ^ 20 else 16384)

theorem State.battCheck_handle (hg : ¬ handleNames h) : s.battCheck agent sp h target = some (bpErrHandle, false) := by
  refine if_pos ?_
  unfold handleNames at hg
  by_contra hno
  simp only [not_or, not_not, Nat.not_le] at hno
  exact hg hno

theorem State.battCheck_named (hg : handleNames h) : s.battCheck agent sp h target =
    match (s.batt (hLong h) (hIndex h)).owner with
    | none => some (bpErrDfree, false)
    | some (a, o) =>
      if (s.batt (hLong h) (hIndex h)).gen ≠ hGen h then some (bpErrDfree, false)
      else if o ≠ sp then some (bpErrOwner, true)
      else if a ≠ agent then some (bpErrOwner, false)
      else match target with
        | none => none
        | some (ta, tsp) =>
          if tsp ≠ sp then some (bpErrGive, true) else if 6 ≤ ta / 256 then some (bpErrGive, false) else none := by
  obtain ⟨hr, hn, hi⟩ := hg
  exact if_neg (by simp only [not_or, not_not, Nat.not_le]; exact ⟨hr, hn, hi⟩)

variable (hg : handleNames h)
include hg

theorem State.battCheck_dfree (hd : (s.batt (hLong h) (hIndex h)).owner = none ∨ (s.batt (hLong h) (hIndex h)).gen ≠ hGen h) :
    s.battCheck agent sp h target = some (bpErrDfree, false) := by
  rw [State.battCheck_named hg]
  split
  · rfl
  · next ho => exact if_pos (hd.resolve_left (by simp [ho]))

variable {a o : Nat} (ho : (s.batt (hLong h) (hIndex h)).owner = some (a, o))
  (hgen : (s.batt (hLong h) (hIndex h)).gen = hGen h)
include ho hgen

theorem State.battCheck_spur (hs : o ≠ sp) : s.battCheck agent sp h target = some (bpErrOwner, true) := by
  simp only [State.battCheck_named hg, ho, hgen, ne_eq, not_true_eq_false, if_false, if_pos hs]

theorem State.battCheck_agent (hs : o = sp) (ha : a ≠ agent) : s.battCheck agent sp h target = some (bpErrOwner, false) := by
  simp only [State.battCheck_named hg, ho, hgen, hs, ne_eq, not_true_eq_false, if_false, if_pos ha]

theorem State.battCheck_free (hs : o = sp) (ha : a = agent) : s.battCheck agent sp h none = none := by
  simp only [State.battCheck_named hg, ho, hgen, hs, ha, ne_eq, not_true_eq_false, if_false]

theorem State.battCheck_give (hs : o = sp) (ha : a = agent) {ta tsp : Nat} (ht : tsp = sp) (hta : ta < 0x600) :
    s.battCheck agent sp h (some (ta, tsp)) = none := by
  have hagent : ¬ 6 ≤ ta / 256 := by omega
  simp only [State.battCheck_named hg, ho, hgen, hs, ha, ht, hagent, ne_eq, not_true_eq_false, if_false]

theorem State.battCheck_giveAway (hs : o = sp) (ha : a = agent) {ta tsp : Nat} (ht : tsp ≠ sp) :
    s.battCheck agent sp h (some (ta, tsp)) = some (bpErrGive, true) := by
  simp only [State.battCheck_named hg, ho, hgen, hs, ha, ht, ne_eq, not_true_eq_false, not_false_eq_true, if_false, if_true]

end

section
variable {s : State} {ag tg : BattAgent} {h : Word} {e : Nat × Bool}

theorem exec_battFree_rejected (hc : s.battCheck ag.id.toNat ag.spur.val h.toNat none = some e) :
    exec (.battFree ag h) s = .next ((s.battReject 1 ag.id.toNat ag.spur.val h.toNat e).emit
      (.battAnswer ag.id.toNat ag.spur.val e.1 h.toNat)) := by
  change execBattFree ag h s = _
  simp only [execBattFree, State.battFreeOp, hc]
  rfl

theorem exec_battFree_frees (hc : s.battCheck ag.id.toNat ag.spur.val h.toNat none = none) :
    exec (.battFree ag h) s = .next ((s.freeBatt (hLong h.toNat) (hIndex h.toNat)).emit
      (.battAnswer ag.id.toNat ag.spur.val 0 h.toNat)) := by
  change execBattFree ag h s = _
  simp only [execBattFree, State.battFreeOp, hc]
  rfl

theorem exec_battGive_rejected
    (hc : s.battCheck ag.id.toNat ag.spur.val h.toNat (some (tg.id.toNat, tg.spur.val)) = some e) :
    exec (.battGive ag h tg) s = .next ((s.battReject 2 ag.id.toNat ag.spur.val h.toNat e).emit
      (.battAnswer ag.id.toNat ag.spur.val e.1 h.toNat)) := by
  change execBattGive ag h tg s = _
  simp only [execBattGive, State.battGiveOp, hc]
  rfl

theorem exec_battGive_gives (hc : s.battCheck ag.id.toNat ag.spur.val h.toNat (some (tg.id.toNat, tg.spur.val)) = none) :
    exec (.battGive ag h tg) s = .next ((s.onBatt (hLong h.toNat) (hIndex h.toNat) fun b =>
      { b with owner := some (tg.id.toNat, tg.spur.val) }).emit (.battAnswer ag.id.toNat ag.spur.val 0 h.toNat)) := by
  change execBattGive ag h tg s = _
  simp only [execBattGive, State.battGiveOp, hc]
  rfl

end

/-! ### The mailbox commands (Table MB-4) -/

section
variable {s : State} {mb : Nat} {c : Cmd}

theorem State.begin_waitLists (s : State) (mb : Nat) (c : Cmd) : (s.begin_ mb c).waitLists = s.waitLists := rfl

theorem State.batt_begin (s : State) (mb : Nat) (c : Cmd) (long : Bool) (i : Nat) :
    (s.begin_ mb c).batt long i = s.batt long i := rfl

theorem State.cmdById_begin (h : s.cmdById mb c.id = some c) :
    (s.begin_ mb c).cmdById mb c.id = some { c with stage := .begun } := by
  have hcmds : (s.begin_ mb c).cmds mb = (s.cmds mb).map fun d => if d.id = c.id then { d with stage := .begun } else d :=
    Table.get_upd_same ..
  have hid : (fun d : Cmd => (if d.id = c.id then { d with stage := .begun } else d).id == c.id) = fun d => d.id == c.id := by
    funext d
    split <;> rfl
  have hfind : (s.cmds mb).find? (fun d => d.id == c.id) = some c := h
  unfold State.cmdById
  rw [hcmds, List.find?_map]
  simp only [Function.comp_def, hid, hfind, Option.map_some, if_true]

theorem State.battReply_granted (hc : s.cmdById mb c.id = some { c with stage := .begun })
    (hl : s.late { c with stage := .begun } = false) (h : Nat) :
    s.battReply (.cmd mb c.id) 0 h = s.finish mb { c with stage := .begun } 0 0 h := by
  simp only [State.battReply, hc, hl, if_true, Bool.false_eq_true, if_false]

theorem State.battReply_refused (hc : s.cmdById mb c.id = some { c with stage := .begun }) {code : Nat} (h : code ≠ 0) :
    s.battReply (.cmd mb c.id) code 0 = s.finish mb { c with stage := .begun } 0x14 code 0 := by
  simp only [State.battReply, hc, if_neg h]
  rfl

/-- A command that ends with OK releases no batt. -/
theorem State.batt_finish_ok (hl : s.late c = false) (result : Nat) (long : Bool) (i : Nat) :
    (s.finish mb c 0 0 result).batt long i = s.batt long i := by
  obtain ⟨f, l, h⟩ := s.ms_complete mb c 0 0 result s.now
  rw [State.finish, if_neg (by simp [hl])]
  simp only [State.batt, h]
  rfl

theorem State.ptr_finish (st detail result : Nat) : (s.finish mb c st detail result).rd .BP_PTR = s.rd .BP_PTR := by
  have happ := State.Apart.of_rd (r := .BP_PTR) rfl 0
  unfold State.finish State.claimTimeout
  split
  · exact (happ.wr _ _ _ _ rfl).trans (happ.complete ..)
  · exact happ.complete ..

end

section
variable {s : State} {mb : Fin 64} {tag : BitVec 16} {c : Cmd}

theorem exec_bpFree_frees (h : s.runs mb tag 0x39 false c)
    (hc : s.battCheck (s.mbCore mb.val) (mb.val / 8) (c.opw 0) none = none) :
    exec (.bpFree mb tag) s = .next ((s.freeBatt (hLong (c.opw 0)) (hIndex (c.opw 0))).finish mb.val c 0 0 0) := by
  change execBpFree mb tag s = _
  rw [execBpFree, State.runCmd_runs h]
  simp only [State.battFreeOp, hc]
  rfl

theorem exec_bpGive_rejected (h : s.runs mb tag 0x3A false c) {code : Nat} {iso : Bool} (hne : code ≠ 0)
    (hc : s.battCheck (s.mbCore mb.val) (mb.val / 8) (c.opw 0) (some (c.opw 1, s.agentSpur (c.opw 1) (mb.val / 8))) =
      some (code, iso)) :
    exec (.bpGive mb tag) s =
      .next ((s.battReject 2 (s.mbCore mb.val) (mb.val / 8) (c.opw 0) (code, iso)).finish mb.val c 0x14 code 0) := by
  change execBpGive mb tag s = _
  rw [execBpGive, State.runCmd_runs h]
  simp only [State.battGiveOp, hc, State.endMs, if_neg hne]
  rfl

theorem exec_bpGive_gives (h : s.runs mb tag 0x3A false c)
    (hc : s.battCheck (s.mbCore mb.val) (mb.val / 8) (c.opw 0) (some (c.opw 1, s.agentSpur (c.opw 1) (mb.val / 8))) = none) :
    exec (.bpGive mb tag) s = .next ((s.onBatt (hLong (c.opw 0)) (hIndex (c.opw 0)) fun b =>
      { b with owner := some (c.opw 1, s.agentSpur (c.opw 1) (mb.val / 8)) }).finish mb.val c 0 0 0) := by
  change execBpGive mb tag s = _
  rw [execBpGive, State.runCmd_runs h]
  simp only [State.battGiveOp, hc]
  rfl

section
variable (h : s.runs mb tag 0x38 false c) (hs : s.ms.shortQ = []) (hl : s.ms.longQ = []) (hb : bits (c.opw 0) 0 2 = 0)
include h hs hl hb

/-- A BP_ALLOC of a short batt that does not wait is one ALLOC of the serving core, alone in its cycle. -/
theorem exec_bpAlloc_short {t : State} (ht : (s.begin_ mb.val c).allocOne false false (s.mbCore mb.val) (mb.val / 8)
      (if c.deadline = 0 then none else some c.deadline) (.cmd mb.val c.id) = t) (hw : t.waitLists = s.waitLists) :
    exec (.bpAlloc mb tag) s = .next t := by
  have hbits : c.opw 0 % 4 = 0 := by simpa [bits] using hb
  have hlong : bit (c.opw 0) 0 = false := by rw [bit, Nat.testBit_eq_decide_div_mod_eq, decide_eq_false_iff_not]; omega
  have hwait : bit (c.opw 0) 1 = false := by rw [bit, Nat.testBit_eq_decide_div_mod_eq, decide_eq_false_iff_not]; omega
  change execBpAlloc mb tag s = _
  rw [execBpAlloc, State.runCmd_runs h]
  simp only [hlong, hwait]
  rw [State.bpCycle_presented (s := s.begin_ mb.val c) hs hl ht (State.noneExpired_of_waitLists hw hs hl)]

variable (hc : s.cmdById mb.val c.id = some c)
include hc

theorem bpAlloc_grants (he : s.eligible false (mb.val / 8) = true) (hg : s.grantsNow false < 4) :
    ∃ t i, exec (.bpAlloc mb tag) s = .next t ∧ i < 16384 ∧ (s.batt false i).owner = none ∧
      t.batt false i = { s.batt false i with owner := some (s.mbCore mb.val, mb.val / 8) } ∧
      t.rd .BP_PTR = (battPort (s.mbCore mb.val) + 1) % 20 := by
  obtain ⟨i, hi, hnone, hone⟩ := State.allocOne_grants (s := s.begin_ mb.val c) hg he (s.mbCore mb.val) false
    (if c.deadline = 0 then none else some c.deadline) (.cmd mb.val c.id)
  have ⟨_, hintime, _⟩ := h
  have hlate : ((s.begin_ mb.val c).allocated (s.mbCore mb.val) (mb.val / 8) i).late { c with stage := .begun } = false :=
    hintime
  have hcmd : ((s.begin_ mb.val c).allocated (s.mbCore mb.val) (mb.val / 8) i).cmdById mb.val c.id =
    some { c with stage := .begun } := s.cmdById_begin hc
  rw [State.battReply_granted hcmd hlate] at hone
  refine ⟨_, i, exec_bpAlloc_short h hs hl hb hone
    (by rw [State.waitLists_finish, State.allocated_waitLists, State.begin_waitLists]), hi, hnone, ?_, ?_⟩
  · rw [State.batt_finish_ok hlate, State.batt_allocated_same, State.batt_begin]
  · rw [State.ptr_finish, State.allocated_ptr]

theorem bpAlloc_refused (he : s.eligible false (mb.val / 8) = false) :
    exec (.bpAlloc mb tag) s =
      .next (((s.begin_ mb.val c).count .BP_CNT 0).finish mb.val { c with stage := .begun } 0x14 bpNobuf 0) := by
  have hcmd : ((s.begin_ mb.val c).count .BP_CNT 0).cmdById mb.val c.id = some { c with stage := .begun } := s.cmdById_begin hc
  refine exec_bpAlloc_short h hs hl hb ?_ (by rw [State.waitLists_finish]; exact s.begin_waitLists mb.val c)
  rw [State.allocOne_loses (s := s.begin_ mb.val c) he, State.loser_noWait]
  exact State.battReply_refused hcmd (by decide)

end

end

/-! ### An ALLOC of an agent -/

/-- One port presents an ALLOC. -/
theorem exec_battAlloc_single (s : State) (r : AllocReq) : exec (.battAlloc [r]) s =
    .next (s.bpCycle fun u => u.allocOne r.long r.wait r.agent.id.toNat r.agent.spur.val (r.timeout.map BitVec.toNat)
      (.agent r.agent.id.toNat r.agent.spur.val)) := by
  change execBattAlloc [r] s = _
  simp only [execBattAlloc, portOrder_single]
  rfl

section
variable {s : State} {id : BitVec 12} {sp : Fin 8} {wait : Bool} {lim : Option DWord} (hs : s.ms.shortQ = [])
  (hl : s.ms.longQ = [])
include hs hl

theorem battAlloc_grants (hg : s.grantsNow false < 4) (he : s.eligible false sp.val = true) :
    ∃ t i, exec (.battAlloc [⟨⟨id, sp⟩, false, wait, lim⟩]) s = .next t ∧ i < 16384 ∧ (s.batt false i).owner = none ∧
      t.batt false i = { s.batt false i with owner := some (id.toNat, sp.val) } ∧
      (∀ j, j ≠ i → t.batt false j = s.batt false j) ∧
      t.tx = .battAnswer id.toNat sp.val 0 (mkHandle false (s.batt false i).gen i) :: s.tx ∧
      t.rd .BP_FREE = (s.rd .BP_FREE - 1) % 2 ^ 15 ∧ t.rd .BP_PTR = (battPort id.toNat + 1) % 20 ∧ t.mem = s.mem := by
  obtain ⟨i, hi, hnone, hone⟩ := State.allocOne_grants hg he id.toNat wait (lim.map BitVec.toNat) (.agent id.toNat sp.val)
  refine ⟨_, i, (exec_battAlloc_single ..).trans (congrArg Host.Outcome.next (State.bpCycle_presented hs hl hone
    (State.noneExpired_of_waitLists rfl hs hl))), hi, hnone, ?_, fun j hj => ?_, rfl, ?_, ?_, rfl⟩
  · exact s.batt_allocated_same ..
  · exact s.batt_allocated_other _ _ hj
  · exact (State.rd_emit ..).trans (s.allocated_free ..)
  · exact (State.rd_emit ..).trans (s.allocated_ptr ..)

theorem battAlloc_refused (he : s.eligible false sp.val = false) :
    exec (.battAlloc [⟨⟨id, sp⟩, false, false, lim⟩]) s =
      .next ((s.count .BP_CNT 0).emit (.battAnswer id.toNat sp.val bpNobuf 0)) := by
  refine (exec_battAlloc_single ..).trans (congrArg Host.Outcome.next (State.bpCycle_presented hs hl ?_
    (State.noneExpired_of_waitLists rfl hs hl)))
  rw [State.allocOne_loses he, State.loser_noWait]
  rfl

theorem battAlloc_waits (he : s.eligible false sp.val = false) (ht : ∀ e, lim = some e → s.now ≤ e.toNat) :
    ∃ t, exec (.battAlloc [⟨⟨id, sp⟩, false, true, lim⟩]) s = .next t ∧ t.tx = .battAnswer id.toNat sp.val 3 0 :: s.tx ∧
      t.ms.shortQ = [⟨id.toNat, sp.val, lim.map BitVec.toNat, .agent id.toNat sp.val⟩] := by
  obtain ⟨t, hloser, htx, hshort, hlong, hnow⟩ := State.loser_joins hs id.toNat sp.val (lim.map BitVec.toNat) id.toNat sp.val
  refine ⟨t, (exec_battAlloc_single ..).trans (congrArg Host.Outcome.next (State.bpCycle_presented hs hl
    ((State.allocOne_loses he).trans hloser) fun long => ?_)), htx, hshort⟩
  cases long with
  | true => exact State.noneExpired_empty (hlong.trans hl)
  | false =>
    intro w hw k hwk
    have hnew : w = ⟨id.toNat, sp.val, lim.map BitVec.toNat, .agent id.toNat sp.val⟩ := List.mem_singleton.1 (hshort ▸ hw)
    rw [hnew] at hwk
    obtain ⟨e, he, rfl⟩ := Option.map_eq_some_iff.1 hwk
    exact hnow.trans_le (ht e he)

end

/-- Settles O30: an ALLOC by whether its Spur is eligible and whether it waits; a FREE and a GIVE by the checks of R273 in their
order; a waiter by whether it has become eligible or its time has passed; the commands by the same operations. -/
theorem battPools : Obligations.BattPools := by
  unfold Obligations.BattPools
  refine ⟨fun s id sp wait lim hs hl => ⟨battAlloc_grants hs hl, ?refused, ?waits⟩,
    fun s ag h => ⟨fun hbad => exec_battFree_rejected (State.battCheck_handle hbad),
      fun hg hd => exec_battFree_rejected (State.battCheck_dfree hg hd), fun o sp hg ho hgen =>
      ⟨fun hsp => exec_battFree_rejected (State.battCheck_spur hg ho hgen hsp),
        fun hsp ha => exec_battFree_rejected (State.battCheck_agent hg ho hgen hsp ha), fun hsp ha => ⟨?frees, ?gives,
        fun tg ht => exec_battGive_rejected (State.battCheck_giveAway hg ho hgen hsp ha fun e => ht (Fin.ext e))⟩⟩⟩,
    fun s w id sp hq ha => ⟨battWaiterGrant_grants hq ha, fun e he ht hp => battWaitTimeout_ends hq ha he ht hp,
      battWaitTimeout_waits hq⟩,
    fun s mb tag c => ⟨exec_bpFree_frees, ?giveFree, exec_bpGive_gives,
      fun h hs hl hb he hg hc => bpAlloc_grants h hs hl hb hc he hg,
      fun h hs hl hb he hc => bpAlloc_refused h hs hl hb hc he⟩⟩
  case refused =>
    rintro he rfl
    exact battAlloc_refused hs hl he
  case waits =>
    rintro he rfl ht
    exact battAlloc_waits hs hl he ht
  case frees =>
    obtain ⟨hbatt, htx, hmem⟩ := State.freeBatt_owned s _ ho
    exact ⟨_, exec_battFree_frees (State.battCheck_free hg ho hgen hsp ha), hbatt, congrArg (List.cons _) htx, hmem⟩
  case gives =>
    intro tg ht hid
    have htsp : tg.spur.val = ag.spur.val := congrArg Fin.val ht
    exact ⟨_, exec_battGive_gives (State.battCheck_give hg ho hgen hsp ha htsp hid), State.batt_onBatt .., rfl, rfl⟩
  case giveFree =>
    intro h ho hr hn hi
    have hg : handleNames (c.opw 0) := ⟨hr, hn, by split <;> omega⟩
    exact exec_bpGive_rejected h (by decide) (State.battCheck_dfree hg (.inl ho))

end Sys2Proof.Machine
end

section
/-!
PROOFS of the statement of the Ego unit and the Tracker (O32) of `spec/10_fusion_and_tracking.md` in this row.
-/
namespace Sys2Proof.Machine

/-! ### Stores change memory alone

A store writes the same bytes into any state, so a state that differs elsewhere comes out with the same difference. -/

theorem stBytes_eq (p : Space) (l : List Byte) : ∀ a, ∃ f, ∀ s : State, s.stBytes p a l = s.onMem f := by
  induction l with
  | nil => exact fun _ => ⟨id, fun _ => rfl⟩
  | cons b l ih =>
    intro a
    obtain ⟨f, hf⟩ := ih (a + 1)
    exact ⟨fun m => f (Table.set unwritten m (p.base + a) b), fun s => hf (s.stByte p a b)⟩

theorem stLe_eq (p : Space) (a n v : Nat) : ∃ f, ∀ s : State, s.stLe p a n v = s.onMem f := stBytes_eq p _ a

theorem State.stSpur_eq (s : State) (sp a : Nat) (l : List Byte) : ∃ f, s.stSpur sp a l = s.onMem f := by
  induction l generalizing s a with
  | nil => exact ⟨id, rfl⟩
  | cons b l ih =>
    rw [State.stSpur]
    split
    · next c x _ =>
      obtain ⟨f, hf⟩ := ih (s.stByte (.lpddr c) x b) (a + 1)
      exact ⟨fun m => f (Table.set unwritten m ((Space.lpddr c).base + x) b), hf⟩
    · exact ih s (a + 1)

/-! ### The cross-check (R293, R527) -/

theorem State.reports_record2 (s : State) (owner : Nat) (t : ErrType) (unit : Nat) (detail : List Nat) :
    s.Reports (s.record2 owner t unit detail) :=
  .ite (s.reports_recordTo ..) ((s.reports_recordTo ..).trans (State.reports_recordTo ..))

theorem State.rd_record2 {r : Reg} (hc : r ≠ .ERR_OVF_CNT) (ho : r ≠ .ERR_STAT_OVF) (s : State) (i owner : Nat) (t : ErrType)
    (unit : Nat) (detail : List Nat) : (s.record2 owner t unit detail).rd r i = s.rd r i := by
  unfold State.record2
  dsimp only
  split
  · exact s.rd_recordTo hc ho ..
  · exact (State.rd_recordTo _ hc ho ..).trans (s.rd_recordTo hc ho ..)

theorem State.Reports.ft {s t : State} (h : s.Reports t) : t.ft = s.ft := by
  obtain ⟨_, _, _, _, _, rfl⟩ := h
  exact .refl _

/-- Where the window behind one that waits begins: at its end, if none waits there. -/
def EgoWin.nextFrom (w : EgoWin) : List EgoWin → Nat
  | [] => w.to_
  | v :: _ => v.from_

section
variable (s : State) (slot : Nat)

@[simp] theorem State.ego_onEgo (f : EgoSt → EgoSt) : (s.onEgo slot f).ego slot = f (s.ego slot) := Table.get_upd_same ..

@[simp] theorem State.rd_onFt (f : FtSt → FtSt) (r : Reg) (i : Nat) : (s.onFt f).rd r i = s.rd r i := State.rd_congr rfl r i

@[simp] theorem State.rd_onEgo (f : EgoSt → EgoSt) (r : Reg) (i : Nat) : (s.onEgo slot f).rd r i = s.rd r i := s.rd_onFt ..

/-- A suspension leaves the Ego unit's own data of every head (R291). -/
theorem State.ego_suspend (st i : Nat) : (s.suspend slot st).ego i = s.ego i := by
  unfold State.suspend State.ego
  rw [(State.reports_record2 ..).ft]
  rfl

theorem State.suspend_state (st : Nat) : (s.suspend slot st).rd .EGO_STAT_STATE slot = st % 2 ^ 3 := by
  unfold State.suspend
  rw [State.rd_record2 (by decide) (by decide), State.rd_onFt]
  exact State.rd_wr_same ..

/-- The reference chains of a slot, one per component of its twist. -/
def State.xchkChains : List Nat := (List.range 6).map (s.rd .EGO_CTRL_XCHK_SRC slot + ·)

/-- Every chain has an output after the end of a window. -/
def State.xchkReady (w : EgoWin) : Bool :=
  (s.xchkChains slot).all fun k => (s.ego slot).refs.any fun r => r.chain == k && decide (w.to_ ≤ r.stamp)

/-- The chains' means over a window. -/
def State.xchkMeans (w : EgoWin) : List (Option Rat) := (s.xchkChains slot).map fun k => s.refMean slot k w.from_ w.to_

/-- 16 windows have passed since the end of one. -/
def State.xchkOld (w : EgoWin) : Bool := w.to_ + 16 * (w.to_ - w.from_) ≤ s.now

/-- The oldest window no longer waits, and the references before the next one begins are dropped. -/
def State.windowTaken (w : EgoWin) (rest : List EgoWin) : State :=
  s.onEgo slot fun e => { e with waits := rest, refs := e.refs.filter fun r => w.nextFrom rest ≤ r.stamp }

/-- The run of disagreements after a window that has been taken and compared. -/
def State.compared (w : EgoWin) (rest : List EgoWin) (bad : Bool) : State :=
  (s.windowTaken slot w rest).onEgo slot fun e => { e with disagree := if bad then e.disagree + 1 else 0 }

/-- The rotation of a window's twist is far from the chains' means. -/
def State.turnsApart (w : EgoWin) : Bool :=
  farApart ((w.twist.map f32).take 3) (((s.xchkMeans slot w).filterMap id).take 3) ((s.rd .XCHK_W slot : Rat) / 1000)

/-- The translation of a window's twist is far from the chains' means. -/
def State.movesApart (w : EgoWin) : Bool :=
  farApart ((w.twist.map f32).drop 3) (((s.xchkMeans slot w).filterMap id).drop 3) (s.rd .XCHK_V slot)

variable (w : EgoWin) (rest : List EgoWin)

@[simp] theorem State.windowTaken_waits : ((s.windowTaken slot w rest).ego slot).waits = rest := by
  simp [State.windowTaken]

@[simp] theorem State.compared_waits (bad : Bool) : ((s.compared slot w rest bad).ego slot).waits = rest := by
  simp [State.compared]

@[simp] theorem State.compared_disagree :
    ((s.compared slot w rest true).ego slot).disagree = (s.ego slot).disagree + 1 := by
  simp [State.compared, State.windowTaken]

@[simp] theorem State.rd_compared (bad : Bool) (r : Reg) (i : Nat) : (s.compared slot w rest bad).rd r i = s.rd r i := by
  simp [State.compared, State.windowTaken]

end

section
variable {s : State} {slot : Fin 256} {w : EgoWin} {rest : List EgoWin} (hw : (s.ego slot.val).waits = w :: rest)
include hw

/-- The oldest window that waits: left alone, given up, or compared. -/
theorem exec_egoXchkCompare_window : exec (.egoXchkCompare slot) s =
    if !s.xchkReady slot.val w && !s.xchkOld w then .next s
    else if !s.xchkReady slot.val w || (s.xchkMeans slot.val w).any Option.isNone then .next (s.windowTaken slot.val w rest)
    else
      let bad := s.turnsApart slot.val w || s.movesApart slot.val w
      let u := s.compared slot.val w rest bad
      if bad ∧ u.rd .EGO_STAT_STATE slot.val = 1 ∧ u.rd .XCHK_N slot.val ≤ (u.ego slot.val).disagree then
        .next (u.suspend slot.val 4)
      else .next u := by
  change execEgoXchkCompare slot s = _
  unfold execEgoXchkCompare
  dsimp only
  rw [hw]
  rfl

theorem exec_egoXchkCompare_waits (hr : s.xchkReady slot.val w = false) (ho : s.xchkOld w = false) :
    exec (.egoXchkCompare slot) s = .next s := by
  simp [exec_egoXchkCompare_window hw, hr, ho]

theorem exec_egoXchkCompare_givenUp (hr : s.xchkReady slot.val w = false) (ho : s.xchkOld w = true) :
    exec (.egoXchkCompare slot) s = .next (s.windowTaken slot.val w rest) := by
  simp [exec_egoXchkCompare_window hw, hr, ho]

section
variable (hr : s.xchkReady slot.val w = true) (hm : (s.xchkMeans slot.val w).all Option.isSome = true)
  (hf : s.turnsApart slot.val w = true)
include hr hm hf

/-- A window that is compared and disagrees: the head is suspended where the run has become long enough in CONV (R293). -/
theorem exec_egoXchkCompare_disagrees : exec (.egoXchkCompare slot) s = .next
    (if s.rd .EGO_STAT_STATE slot.val = 1 ∧ s.rd .XCHK_N slot.val ≤ (s.ego slot.val).disagree + 1 then
      (s.compared slot.val w rest true).suspend slot.val 4 else s.compared slot.val w rest true) := by
  have hmeans : (s.xchkMeans slot.val w).any Option.isNone = false := by
    rw [List.any_eq_false]
    intro m hmem
    simp [Option.isSome_iff_ne_none.1 (List.all_eq_true.1 hm m hmem)]
  simp only [exec_egoXchkCompare_window hw, hr, hmeans, hf, State.rd_compared, State.compared_disagree, Bool.not_true, Bool.false_and,
    Bool.or_false, Bool.true_or, Bool.false_eq_true, if_false, true_and]
  exact (apply_ite Host.Outcome.next ..).symm

theorem egoXchkCompare_takes :
    ∃ t, exec (.egoXchkCompare slot) s = .next t ∧ (t.ego slot.val).waits = rest := by
  refine ⟨_, exec_egoXchkCompare_disagrees hw hr hm hf, ?_⟩
  split
  · rw [State.ego_suspend, State.compared_waits]
  · rw [State.compared_waits]

theorem egoXchkCompare_suspends (hc : s.rd .EGO_STAT_STATE slot.val = 1)
    (hn : s.rd .XCHK_N slot.val ≤ (s.ego slot.val).disagree + 1) :
    ∃ t, exec (.egoXchkCompare slot) s = .next t ∧ t.rd .EGO_STAT_STATE slot.val = 4 := by
  refine ⟨_, exec_egoXchkCompare_disagrees hw hr hm hf, ?_⟩
  rw [if_pos ⟨hc, hn⟩]
  exact State.suspend_state ..

theorem egoXchkCompare_counts (hc : s.rd .EGO_STAT_STATE slot.val ≠ 1) :
    ∃ t, exec (.egoXchkCompare slot) s = .next t ∧ (t.ego slot.val).disagree = (s.ego slot.val).disagree + 1 ∧
      t.rd .EGO_STAT_STATE slot.val = s.rd .EGO_STAT_STATE slot.val := by
  refine ⟨_, exec_egoXchkCompare_disagrees hw hr hm hf, ?_⟩
  rw [if_neg fun h => hc h.1, State.compared_disagree, State.rd_compared]
  exact ⟨rfl, rfl⟩

end

end

/-! ### EGO_CTRL.CLR (Table FT-6) -/

/-- A head that leaves its state for UNCONV keeps its correction. -/
theorem State.egoUnconv_ego (s : State) (slot : Nat) :
    (s.egoUnconv slot).ego slot = { s.ego slot with valid := 0, invalid := 0, disagree := 0 } := s.ego_onEgo slot _

/-- The correction of a head is zero. -/
def State.egoCleared (s : State) (slot : Nat) : State := s.onEgo slot fun e => { e with r := [0, 0, 0], t := [0, 0, 0] }

theorem State.egoCleared_ego (s : State) (slot : Nat) :
    (s.egoCleared slot).ego slot = { s.ego slot with r := [0, 0, 0], t := [0, 0, 0] } := s.ego_onEgo slot _

theorem egoClr_clears {s : State} {who : Agent} {slot : Fin 256} (h : s.letIn who .EGO_CTRL_CLR slot.val = .ok s) :
    ∃ t, exec (.egoClr who slot) s = .next t ∧ (t.ego slot.val).r = [0, 0, 0] ∧ (t.ego slot.val).t = [0, 0, 0] ∧
      t.mem = s.mem ∧ (s.suspended slot.val = true → t.rd .EGO_STAT_STATE slot.val = 0) := by
  have hexec : exec (.egoClr who slot) s = if s.suspended slot.val = true then
      .next (((s.egoCleared slot.val).egoUnconv slot.val).wr .EGO_DRIFT_MM slot.val 0) else .next (s.egoCleared slot.val) := by
    change execEgoClr who slot s = _
    unfold execEgoClr
    rw [h]
    rfl
  have hleft := ((s.egoCleared slot.val).egoUnconv_ego slot.val).trans (by rw [State.egoCleared_ego])
  rw [hexec]
  split
  · refine ⟨_, rfl, congrArg EgoSt.r hleft, congrArg EgoSt.t hleft, rfl, fun _ => ?_⟩
    exact (State.rd_wr_other _ _ _ _ (by decide)).trans (State.rd_wr_same _ .EGO_STAT_STATE slot.val 0)
  · next hs =>
    exact ⟨_, rfl, congrArg EgoSt.r (s.egoCleared_ego _), congrArg EgoSt.t (s.egoCleared_ego _), rfl, fun h => absurd h hs⟩

/-! ### Passes wait their turn (R294) -/

section
variable {s : State} {sp : Fin 8} {d : List Byte} (hd : d.length = 64) (hl : s.trkLive = true)
include hd hl

theorem exec_trackerPass (hk : paKind d ≠ 2) (err : ReadErr) :
    exec (.trackerPass sp d err) s = .next (s.passSubmit sp.val d err) := by
  change execTrackerPass sp d err s = _
  simp [execTrackerPass, hd, hl, hk, done]

theorem exec_trackerFlush (hk : paKind d = 2) : exec (.trackerFlush sp d) s = .next (s.passSubmit sp.val d .none) := by
  change execTrackerFlush sp d s = _
  simp [execTrackerFlush, hd, hl, hk, done]

end

/-- A pass that is submitted changes control memory, the queue and the next place alone. -/
theorem State.passSubmit_leaves (s : State) (sp : Nat) (d : List Byte) (err : ReadErr) :
    let t := s.passSubmit sp d err
    t.mem = (s.stBytes .control (passAddr sp (s.trk sp).next) d).mem ∧ t.ft.tracks = s.ft.tracks ∧ t.ft.pass = s.ft.pass ∧
      t.regs = s.regs ∧ t.tx = s.tx ∧ t.ft.passQ = insertPass ⟨sp, s.raw, (s.trk sp).next, d, err⟩ s.ft.passQ := by
  obtain ⟨f, hf⟩ := stBytes_eq .control d (passAddr sp (s.trk sp).next)
  unfold State.passSubmit
  simp only [hf]
  exact ⟨rfl, rfl, rfl, rfl, rfl, rfl⟩

/-- A pass or a flush by the KIND of its descriptor. -/
theorem trackerSubmit (s : State) (sp : Fin 8) (d : List Byte) (err : ReadErr) (hd : d.length = 64) (hl : s.trkLive = true) :
    exec (if paKind d = 2 then .trackerFlush sp d else .trackerPass sp d err) s =
      .next (s.passSubmit sp.val d (if paKind d = 2 then .none else err)) := by
  split
  · next hk => exact exec_trackerFlush hd hl hk
  · next hk => exact exec_trackerPass hd hl hk err

/-! ### The end of a pass (R294, R301) -/

/-- A pass of a Spur ends: STATUS stands in its descriptor, the Tracker is free and the Spur's core is told. -/
def State.passEnd (s : State) (spur place st : Nat) : State :=
  ((s.stLe .control (passAddr spur place + 2) 2 st).onFt fun f => { f with pass := none }).emit
    (.coreSignal (s.rd .TRK_CFG_NCC spur) 2)

/-- The queue without the pass that starts. -/
def State.dequeued (s : State) : State := s.onFt fun f => { f with passQ := [] }

theorem exec_trackerPassComplete_tick {s : State} {r : PassRun} (h : s.trkTick.ft.pass = some r) :
    exec .trackerPassComplete s = .next (s.trkTick.passEnd r.spur r.place r.status) := by
  change execTrackerPassComplete s = _
  unfold execTrackerPassComplete
  dsimp only
  rw [h]
  rfl

theorem exec_trackerPassComplete_runs {s : State} {r : PassRun} (h : s.ft.pass = some r) :
    exec .trackerPassComplete s = .next (s.passEnd r.spur r.place r.status) := by
  have htick : s.trkTick = s := by
    unfold State.trkTick State.passStart
    rw [h]
    exact ite_self s
  rw [exec_trackerPassComplete_tick (htick.symm ▸ h), htick]

section
variable (s : State) (spur place st : Nat)

theorem State.passEnd_eq : ∃ f, ∀ s : State, s.passEnd spur place st =
    ((s.onMem f).onFt fun x => { x with pass := none }).emit (.coreSignal (s.rd .TRK_CFG_NCC spur) 2) := by
  obtain ⟨f, hf⟩ := stLe_eq .control (passAddr spur place + 2) 2 st
  exact ⟨f, fun s => by rw [State.passEnd, hf]⟩

@[simp] theorem State.passEnd_ft : (s.passEnd spur place st).ft = { s.ft with pass := none } := by
  obtain ⟨f, hf⟩ := State.passEnd_eq spur place st
  rw [hf]
  rfl

@[simp] theorem State.passEnd_regs : (s.passEnd spur place st).regs = s.regs := by
  obtain ⟨f, hf⟩ := State.passEnd_eq spur place st
  rw [hf]
  rfl

@[simp] theorem State.passEnd_tx : (s.passEnd spur place st).tx = .coreSignal (s.rd .TRK_CFG_NCC spur) 2 :: s.tx := by
  obtain ⟨f, hf⟩ := State.passEnd_eq spur place st
  rw [hf]
  rfl

theorem State.passEnd_trk (sp : Nat) : (s.passEnd spur place st).trk sp = s.trk sp := by simp [State.trk]

/-- The end of a pass frees the Tracker, whichever pass stood in it. -/
theorem State.passEnd_onFt (p : Option PassRun) :
    (s.onFt fun f => { f with pass := p }).passEnd spur place st = s.passEnd spur place st := by
  obtain ⟨f, hf⟩ := State.passEnd_eq spur place st
  rw [hf, hf]
  rfl

end

section
variable {s : State} {r : PassReq} (hl : s.trkLive = true) (hp : s.ft.pass = none) (hq : s.ft.passQ = [r])
include hl hp hq

/-- A pass that starts when its completion is due ends as soon as it has done what its KIND asks for. -/
theorem exec_trackerPassComplete_starts {st : Nat} {u : State} (hk : s.dequeued.passKind r = (st, u)) :
    exec .trackerPassComplete s = .next (u.passEnd r.spur r.place st) := by
  have htick : s.trkTick = u.onFt fun f => { f with pass := some ⟨r.spur, r.place, st⟩ } := by
    unfold State.dequeued at hk
    unfold State.trkTick State.passStart
    rw [if_pos hl, hp, hq]
    dsimp only
    rw [hk]
  rw [exec_trackerPassComplete_tick (r := ⟨r.spur, r.place, st⟩) (htick ▸ rfl), htick, State.passEnd_onFt]

/-- A refused pass changes its STATUS and nothing else (R301). -/
theorem trackerPassComplete_refuses {st : Nat} (hk : s.dequeued.passKind r = (st, s.dequeued)) :
    ∃ t, exec .trackerPassComplete s = .next t ∧
      t.mem = (s.stLe .control (passAddr r.spur r.place + 2) 2 st).mem ∧ t.ft.tracks = s.ft.tracks ∧ t.ft.trk = s.ft.trk ∧
      t.ft.pass = none ∧ t.ft.passQ = [] ∧ t.regs = s.regs ∧ t.tx = .coreSignal (s.rd .TRK_CFG_NCC r.spur) 2 :: s.tx := by
  obtain ⟨f, hf⟩ := stLe_eq .control (passAddr r.spur r.place + 2) 2 st
  refine ⟨_, exec_trackerPassComplete_starts hl hp hq hk, ?_⟩
  rw [State.passEnd, hf, hf]
  exact ⟨rfl, rfl, rfl, rfl, rfl, rfl, rfl⟩

end

/-! ### What a descriptor asks for, and is refused for (R297, R301) -/

/-- Every track of a Spur is DELETED. -/
def State.allDeleted (s : State) (sp : Nat) : State := s.eachTrack sp fun _ x => { x with st := 3 }

section
variable {s : State} {r : PassReq}

theorem State.passKind_pass (h : paKind r.desc = 1) : s.passKind r = s.passDo r.spur r.desc r.err := by
  unfold State.passKind
  rw [h]
  rfl

theorem State.passKind_flush (h : paKind r.desc = 2) : s.passKind r = s.flushDo r.spur r.desc := by
  unfold State.passKind
  rw [h]
  rfl

theorem State.passKind_reserved (h₁ : paKind r.desc ≠ 1) (h₂ : paKind r.desc ≠ 2) : s.passKind r = (0x12, s) := by
  unfold State.passKind
  split
  · exact absurd ‹_› h₁
  · exact absurd ‹_› h₂
  · rfl

/-- A descriptor names at most eight batts, and its reserved bytes are zero. -/
def paLayout (d : List Byte) : Prop := paNdb d ≤ 8 ∧ leAt d 48 16 = 0

theorem State.passKind_layout (h : ¬ paLayout r.desc) : s.passKind r = (0x12, s) := by
  have hbad : 8 < paNdb r.desc ∨ leAt r.desc 48 16 ≠ 0 := by
    unfold paLayout at h
    omega
  by_cases h₁ : paKind r.desc = 1
  · rw [State.passKind_pass h₁, State.passDo]
    simp [hbad]
  · by_cases h₂ : paKind r.desc = 2
    · rw [State.passKind_flush h₂, State.flushDo]
      simp [hbad.symm]
    · exact State.passKind_reserved h₁ h₂

variable (hd : paLayout r.desc)
include hd

theorem State.passKind_old (hk : paKind r.desc = 1 ∨ paKind r.desc = 2) (ho : s.passOld r.spur r.desc = true) :
    s.passKind r = (0x10, s) := by
  obtain ⟨hn, hz⟩ := hd
  rcases hk with hk | hk
  · rw [State.passKind_pass hk, State.passDo]
    simp [Nat.not_lt.2 hn, hz, ho]
  · rw [State.passKind_flush hk, State.flushDo]
    simp [Nat.not_lt.2 hn, hz, ho]

variable (ho : s.passOld r.spur r.desc = false)
include ho

theorem State.passKind_handle (hk : paKind r.desc = 1) (hh : ∃ h ∈ paHandles r.desc, s.handleLive h = false) :
    s.passKind r = (0x11, s) := by
  obtain ⟨hn, hz⟩ := hd
  obtain ⟨h, hmem, hdead⟩ := hh
  have hany : (paHandles r.desc).any (fun h => !s.handleLive h || s.handleOwner h != some r.spur) = true :=
    List.any_eq_true.2 ⟨h, hmem, by simp [hdead]⟩
  rw [State.passKind_pass hk, State.passDo]
  simp only [hany, ho, hz, Nat.not_lt.2 hn]
  rfl

/-- A pass with no batt runs. -/
theorem State.passKind_empty (hk : paKind r.desc = 1) (hh : paHandles r.desc = []) :
    s.passKind r = (0, s.passRun r.spur r.desc) := by
  obtain ⟨hn, hz⟩ := hd
  rw [State.passKind_pass hk, State.passDo]
  simp [Nat.not_lt.2 hn, hz, ho, hh]

/-- A flush deletes the Spur's tracks, and the output lists them. -/
theorem State.passKind_flushes (hk : paKind r.desc = 2) : s.passKind r =
    (0, ((s.allDeleted r.spur).trackOutput r.spur r.desc).passRan r.spur r.desc) := by
  obtain ⟨hn, hz⟩ := hd
  rw [State.passKind_flush hk, State.flushDo]
  simp [Nat.not_lt.2 hn, hz, ho, State.allDeleted]

end

/-! ### The output list (R300) -/

/-- A run over a list that consumes free values at most leaves the rest of the state. -/
theorem foldl_onFree {α β : Type} {F : β × State → α → β × State} (hF : ∀ acc a, ∃ f, (F acc a).2 = acc.2.onFree f)
    (l : List α) : ∀ acc, ∃ f, (l.foldl F acc).2 = acc.2.onFree f := by
  induction l with
  | nil => exact fun _ => ⟨id, rfl⟩
  | cons a l ih =>
    intro acc
    obtain ⟨f, hf⟩ := hF acc a
    obtain ⟨g, hg⟩ := ih (F acc a)
    exact ⟨g ∘ f, by rw [List.foldl_cons, hg, hf]; rfl⟩

theorem State.outInt_onFree (s : State) (lo hi : Int) (v : FVal) : ∃ f, (s.outInt lo hi v).2 = s.onFree f := by
  unfold State.outInt
  split
  · exact ⟨id, rfl⟩
  · exact ⟨_, rfl⟩

theorem State.trackRec_onFree (s : State) (x : Track) : ∃ f, (s.trackRec x).2 = s.onFree f := by
  obtain ⟨f, hf⟩ := foldl_onFree (F := fun (acc : List Byte × State) (a : Axis) =>
    (acc.1 ++ leBytes 2 (acc.2.outInt (-32768) 32767 (f32 a.v)).1, (acc.2.outInt (-32768) 32767 (f32 a.v)).2))
    (fun acc a => acc.2.outInt_onFree ..) x.axes ([], s)
  obtain ⟨g, hg⟩ := (s.onFree f).outInt_onFree 0 65535 x.sigma
  exact ⟨g ∘ f, (congrArg (fun u : State => (u.outInt 0 65535 x.sigma).2) hf).trans hg⟩

/-- The output changes memory, and the Spur's DELETED tracks are gone; beside them it consumes free values. -/
theorem State.trackOutput_eq (s : State) (sp : Nat) (d : List Byte) : ∃ f g, s.trackOutput sp d =
    ((s.onFree f).onMem g).onFt fun x => { x with tracks := x.tracks.filter fun e => !(s.trkIn sp e.1 && e.2.st == 3) } := by
  obtain ⟨f, hf⟩ := foldl_onFree (F := fun (acc : List Byte × State) (e : Nat × Track) =>
    (acc.1 ++ (acc.2.trackRec e.2).1, (acc.2.trackRec e.2).2)) (fun acc e => acc.2.trackRec_onFree e.2) (s.tracksOf sp) ([], s)
  unfold State.trackOutput
  dsimp only
  rw [hf]
  obtain ⟨g, hg⟩ := State.stSpur_eq (s.onFree f) sp (s.rd .TRK_OUT_ADDR sp + paWin d % 2 * (32 + s.rd .TRK_COUNT sp * 32)) _
  rw [hg]
  exact ⟨f, g, rfl⟩

/-! ### A pass with nothing to do, and a flush (R297) -/

section
variable {s : State} {sp : Nat}

section
variable {t : State} (hb : t.rd .TRK_BASE sp = s.rd .TRK_BASE sp) (hc : t.rd .TRK_COUNT sp = s.rd .TRK_COUNT sp)
include hb hc

theorem State.trkIn_congr (k : Nat) : t.trkIn sp k = s.trkIn sp k := by simp only [State.trkIn, hb, hc]

theorem State.tracksOf_congr (hf : t.ft.tracks = s.ft.tracks) : t.tracksOf sp = s.tracksOf sp := by
  simp only [State.tracksOf, hf, State.trkIn_congr hb hc]

end

theorem State.trkIn_of_tracksOf_empty (h : s.tracksOf sp = []) {e : Nat × Track} (he : e ∈ s.ft.tracks) :
    s.trkIn sp e.1 = false := by
  simpa using List.filter_eq_nil_iff.1 h e he

/-- Where a Spur has no track, none is changed. -/
theorem State.eachTrack_empty (h : s.tracksOf sp = []) (f : Nat → Track → Track) : s.eachTrack sp f = s := by
  have hid : s.ft.tracks.map (fun e => if s.trkIn sp e.1 && e.2.st != 3 then (e.1, f e.1 e.2) else e) = s.ft.tracks :=
    (List.map_congr_left fun e he => by simp [State.trkIn_of_tracksOf_empty h he]).trans (List.map_id _)
  unfold State.eachTrack
  simp only [State.onFt, hid]

theorem State.associate_empty (h : s.tracksOf sp = []) (t : Nat) : s.associate sp t [] = ([], s) := by
  unfold State.associate
  rw [h]
  simp [takePairs, State.eachTrack_empty h]

theorem State.trackOutput_empty (h : s.tracksOf sp = []) (d : List Byte) :
    ∃ f g, s.trackOutput sp d = (s.onFree f).onMem g := by
  have hall : (s.ft.tracks.filter fun e => !(s.trkIn sp e.1 && e.2.st == 3)) = s.ft.tracks :=
    List.filter_eq_self.2 fun e he => by simp [State.trkIn_of_tracksOf_empty h he]
  obtain ⟨f, g, hout⟩ := s.trackOutput_eq sp d
  refine ⟨f, g, hout.trans ?_⟩
  simp only [State.onFt, State.onMem_ft, State.onFree_ft, hall]
  rfl

/-- A pass with no detections of a Spur with no tracks writes its output list and is the Spur's last one. -/
theorem State.passRun_empty {d : List Byte} (hh : paHandles d = []) (h : s.tracksOf sp = []) :
    ∃ f g, s.passRun sp d = (((s.count .FT_CNT 5 0).onFree f).onMem g).passRan sp d := by
  have hcount : (s.count .FT_CNT 5 0).tracksOf sp = [] :=
    (State.tracksOf_congr (s.rd_wr_other _ _ _ (by decide)) (s.rd_wr_other _ _ _ (by decide)) rfl).trans h
  have hnone : s.detections sp d = [] := by simp [State.detections, hh]
  obtain ⟨f, g, hout⟩ := State.trackOutput_empty hcount d
  refine ⟨f, g, ?_⟩
  unfold State.passRun
  simp [State.eachTrack_empty h, hnone, State.associate_empty hcount, sortBy, State.each, hout]

theorem State.passRan_trk (s : State) (sp : Nat) (d : List Byte) :
    (s.passRan sp d).trk sp = { s.trk sp with win := some (paWin d), time := paTime d } :=
  Table.get_upd_same ({} : TrkSt) s.ft.trk sp fun x => { x with win := some (paWin d), time := paTime d }

theorem State.passRan_tracksOf (s : State) (sp : Nat) (d : List Byte) (o : Nat) : (s.passRan sp d).tracksOf o = s.tracksOf o := rfl

theorem State.passEnd_tracksOf (s : State) (spur place st o : Nat) : (s.passEnd spur place st).tracksOf o = s.tracksOf o :=
  State.tracksOf_congr (State.rd_congr (s.passEnd_regs ..) ..) (State.rd_congr (s.passEnd_regs ..) ..) (by rw [State.passEnd_ft])

theorem State.allDeleted_st {e : Nat × Track} (he : e ∈ (s.allDeleted sp).ft.tracks) (hin : s.trkIn sp e.1 = true) :
    e.2.st = 3 := by
  obtain ⟨x, -, rfl⟩ := List.mem_map.1 he
  have hx : s.trkIn sp x.1 = true := by split at hin <;> exact hin
  by_cases h3 : x.2.st = 3
  · simp [h3]
  · simp [hx, h3]

theorem State.mem_allDeleted {e : Nat × Track} (he : e ∈ s.ft.tracks) (hin : s.trkIn sp e.1 = false) :
    e ∈ (s.allDeleted sp).ft.tracks := List.mem_map.2 ⟨e, he, by simp [hin]⟩

/-- The DELETED tracks of a Spur are gone after the output; those of the others stay. -/
theorem State.trackOutput_allDeleted (s : State) (sp : Nat) (d : List Byte) :
    let u := (s.allDeleted sp).trackOutput sp d
    u.tracksOf sp = [] ∧ ∀ e ∈ s.ft.tracks, s.trkIn sp e.1 = false → e ∈ u.ft.tracks := by
  obtain ⟨f, g, hout⟩ := (s.allDeleted sp).trackOutput_eq sp d
  rw [hout]
  refine ⟨List.filter_eq_nil_iff.2 fun e he hin => ?_, fun e he hin => ?_⟩
  · replace hin : s.trkIn sp e.1 = true := hin
    obtain ⟨hmem, hkept⟩ := List.mem_filter.1 he
    replace hkept : (!(s.trkIn sp e.1 && e.2.st == 3)) = true := hkept
    rw [hin, State.allDeleted_st hmem hin] at hkept
    exact absurd hkept (by decide)
  · refine List.mem_filter.2 ⟨State.mem_allDeleted he hin, ?_⟩
    change (!(s.trkIn sp e.1 && e.2.st == 3)) = true
    rw [hin]
    rfl

end

section
variable {s : State} {r : PassReq} (hl : s.trkLive = true) (hp : s.ft.pass = none) (hq : s.ft.passQ = [r])
  (hd : paLayout r.desc) (ho : s.passOld r.spur r.desc = false)
include hl hp hq hd ho

/-- A pass in order with nothing to do ends and becomes the Spur's last one. -/
theorem trackerPassComplete_empty (hk : paKind r.desc = 1) (hn : paNdb r.desc = 0) (ht : s.tracksOf r.spur = []) :
    ∃ t, exec .trackerPassComplete s = .next t ∧ (t.trk r.spur).win = some (paWin r.desc) ∧
      (t.trk r.spur).time = paTime r.desc ∧ t.ft.tracks = s.ft.tracks ∧ t.ft.pass = none ∧
      t.tx = .coreSignal (s.rd .TRK_CFG_NCC r.spur) 2 :: s.tx := by
  have hh : paHandles r.desc = [] := by simp [paHandles, hn]
  obtain ⟨f, g, hrun⟩ := State.passRun_empty (s := s.dequeued) hh ht
  have hk := State.passKind_empty (s := s.dequeued) hd ho hk hh
  rw [hrun] at hk
  refine ⟨_, exec_trackerPassComplete_starts hl hp hq hk, ?_⟩
  have htrk := (((s.dequeued.count .FT_CNT 5 0).onFree f).onMem g).passRan_trk r.spur r.desc
  have hncc : (s.dequeued.count .FT_CNT 5 0).rd .TRK_CFG_NCC r.spur = s.rd .TRK_CFG_NCC r.spur :=
    (State.rd_wr_other _ _ _ _ (by decide)).trans (State.rd_congr rfl ..)
  rw [State.passEnd_ft, State.passEnd_tx, ← hncc]
  exact ⟨(congrArg TrkSt.win (State.passEnd_trk ..)).trans (congrArg TrkSt.win htrk),
    (congrArg TrkSt.time (State.passEnd_trk ..)).trans (congrArg TrkSt.time htrk), rfl, rfl, rfl⟩

/-- A flush deletes every track of its Spur and no other. -/
theorem trackerPassComplete_flushes (hk : paKind r.desc = 2) :
    ∃ t, exec .trackerPassComplete s = .next t ∧ t.tracksOf r.spur = [] ∧ (t.trk r.spur).win = some (paWin r.desc) ∧
      ∀ e ∈ s.ft.tracks, s.trkIn r.spur e.1 = false → e ∈ t.ft.tracks := by
  obtain ⟨hnone, hkeep⟩ := s.dequeued.trackOutput_allDeleted r.spur r.desc
  refine ⟨_, exec_trackerPassComplete_starts hl hp hq (State.passKind_flushes (s := s.dequeued) hd ho hk), ?_, ?_, ?_⟩
  · rw [State.passEnd_tracksOf, State.passRan_tracksOf, hnone]
  · rw [State.passEnd_trk, State.passRan_trk]
  · rw [State.passEnd_ft]
    exact hkeep

end

/-- Settles O32: a waiting window by the three outcomes of a comparison, CLR by whether the head is suspended, a submission by the
queue, and a completion by what its descriptor asks for, checked in the order of R301. -/
theorem egoAndTracker : Obligations.EgoAndTracker := by
  unfold Obligations.EgoAndTracker
  refine ⟨fun s slot w rest hw => ⟨fun hr ho => exec_egoXchkCompare_waits hw hr (decide_eq_false ho),
      fun hr ho => ⟨_, exec_egoXchkCompare_givenUp hw hr (decide_eq_true ho), State.windowTaken_waits .., rfl⟩,
      fun hr hm hf => ⟨egoXchkCompare_takes hw hr hm hf, egoXchkCompare_suspends hw hr hm hf,
        egoXchkCompare_counts hw hr hm hf⟩⟩,
    fun s slot c h => egoClr_clears h,
    fun s sp d err hd hl => ?submit,
    fun s r hl hp hq => ⟨?layout, ?reserved, ?old, ?handle, ?empty, ?flush⟩,
    fun s r h => exec_trackerPassComplete_runs h⟩
  case submit =>
    obtain ⟨hmem, htracks, hpass, hregs, htx, hqueue⟩ := s.passSubmit_leaves sp.val d (if paKind d = 2 then .none else err)
    exact ⟨_, trackerSubmit s sp d err hd hl, hmem, htracks, hpass, hregs, htx, fun a ha => by rw [hqueue, ha]; rfl,
      fun ha => by rw [hqueue, ha]; rfl⟩
  case layout => exact fun h => trackerPassComplete_refuses hl hp hq (State.passKind_layout h)
  case reserved => exact fun h₁ h₂ => trackerPassComplete_refuses hl hp hq (State.passKind_reserved h₁ h₂)
  case old => exact fun hk hd ho => trackerPassComplete_refuses hl hp hq (State.passKind_old hd hk ho)
  case handle => exact fun hk hd ho hh => trackerPassComplete_refuses hl hp hq (State.passKind_handle hd ho hk hh)
  case empty => exact fun hk hn hz ho ht => trackerPassComplete_empty hl hp hq ⟨by omega, hz⟩ ho hk hn ht
  case flush => exact fun hk hd ho => trackerPassComplete_flushes hl hp hq hd ho hk

end Sys2Proof.Machine
end

section
/-!
REFUTATION of the statement of the Projectors and the grid (O31) of `spec/10_fusion_and_tracking.md` in this row.
-/
namespace Sys2Proof.Machine

/-! ### The end of a job, and what the firmware then sets (R276, R278) -/

/-- A register that the firmware sets from a head's own settings (R276). -/
@[simp] def Reg.fromHead (r : Reg) : Bool := List.contains [.CAL_RAW, .CAL_FX, .CAL_FY, .CAL_CX, .CAL_CY] r

theorem State.rd_wr_notFromHead (s : State) {r q : Reg} (hr : r.fromHead = false) (hq : q.fromHead = true) (j v i : Nat) :
    (s.wr q j v).rd r i = s.rd r i := s.rd_wr_other j v i fun e => by rw [e, hq] at hr; cases hr

section
variable (s : State) {r : Reg} (hr : r.fromHead = false)
include hr

theorem State.rd_calSet (slot : Nat) (all : Bool) (i : Nat) : (s.calSet slot all).rd r i = s.rd r i := by
  have hput : (s.put .CAL_RAW slot (!s.flag .SLOT_RECT_EN slot)).rd r i = s.rd r i := s.rd_wr_notFromHead hr rfl ..
  cases all with
  | false => exact hput
  | true =>
    exact (State.rd_wr_notFromHead _ hr rfl ..).trans ((State.rd_wr_notFromHead _ hr rfl ..).trans
      ((State.rd_wr_notFromHead _ hr rfl ..).trans ((State.rd_wr_notFromHead _ hr rfl ..).trans hput)))

theorem State.rd_calSettle (i : Nat) : s.calSettle.rd r i = s.rd r i :=
  (State.each_same (fun u => u.rd r i) (fun u (e : Nat × Bool) => u.calSet e.1 e.2) (fun u e => u.rd_calSet hr e.1 e.2 i) _ _).trans
    (State.rd_congr rfl r i)

theorem State.rd_jobEnd (sp place st i : Nat) : (s.jobEnd sp place st).rd r i = s.rd r i :=
  (State.rd_calSettle _ hr i).trans ((State.rd_emit ..).trans (State.rd_congr (s.stBytes_regs ..) r i))

end

/-! ### The close of a window (R288, R289) -/

section
variable {s : State} {sp : Nat}

theorem State.tilesOf_congr {t : State} (h : t.regs = s.regs) (sp : Nat) (d : Option Nat) : t.tilesOf sp d = s.tilesOf sp d := by
  simp only [State.tilesOf, State.gridDims, State.rd_congr h]

/-- The summary counts the dirty tiles in the field's 11 bits. -/
theorem State.closeWin_dirty (w : GridWin) :
    (s.closeWin sp w).rd .GW_DIRTY sp = (s.tilesOf sp (some w.dirty)).length % 2 ^ 11 := by
  unfold State.closeWin
  exact (State.rd_onFt ..).trans ((State.rd_wr_other _ _ _ _ (by decide)).trans (State.rd_wr_same _ .GW_DIRTY sp _))

theorem State.noteLate_open {w : Nat} (h : (s.grid sp).classify w = .ok) : s.noteLate sp w = s := by
  unfold State.noteLate
  rw [h]
  rfl

@[simp] theorem State.grid_onGrid (s : State) (sp : Nat) (f : GridSt → GridSt) : (s.onGrid sp f).grid sp = f (s.grid sp) :=
  Table.get_upd_same ..

theorem State.ringTake_regs (d : List Byte) : (s.ringTake sp d).2.regs = s.regs := s.stBytes_regs ..

theorem State.ringTake_grid (d : List Byte) :
    (s.ringTake sp d).2.grid sp = { s.grid sp with next := ((s.grid sp).next + 1) % 64 } := by
  obtain ⟨f, hf⟩ := stBytes_eq .control (d.take 32) (ringAddr sp (s.grid sp).next)
  unfold State.ringTake
  dsimp only
  rw [hf]
  exact State.grid_onGrid ..

end

/-- NX and NY within their 9 bits make a buffer of at most 1,024 tiles (R283, R288). -/
theorem State.tilesOf_length_le {s : State} (h : RegsOk s.regs) (sp d : Nat) : (s.tilesOf sp (some d)).length ≤ 1024 := by
  have hx : (s.rd .GRID_CFG_NX sp + 1) / 16 ≤ 32 := by
    have := State.rd_lt h .GRID_CFG_NX sp
    change _ < 512 at this
    omega
  have hy : (s.rd .GRID_CFG_NY sp + 1) / 16 ≤ 32 := by
    have := State.rd_lt h .GRID_CFG_NY sp
    change _ < 512 at this
    omega
  refine (List.length_filter_le ..).trans ?_
  rw [List.length_range]
  exact Nat.mul_le_mul hx hy

section
variable {s : State} {sp : Fin 8} {d : List Byte} {p : Nat} {w : GridWin} (hd : d.length = 32)
  (hp : s.idleProjector sp.val = some p) (hl : s.projLive = true) (hk : pjKind d = 3) (hm : pjMode d = 0)
  (hz : leAt d 16 16 = 0) (ho : (s.grid sp.val).opened = [w]) (hw : w.win = pjWin d)
  (hj : (s.ft.jobs.any fun e => e.2.spur == sp.val) = false)
include hd hp hl hk hm hz ho hw hj

/-- A CLOSE of the one open window, with no job left, closes it and ends with OK. -/
theorem exec_projectorClose_closes : exec (.projectorClose sp d) s =
    .next (((s.ringTake sp.val d).2.closeWin sp.val w).jobEnd sp.val (s.grid sp.val).next 0) := by
  have hopen : ((s.ringTake sp.val d).2.grid sp.val).opened = [w] := by rw [State.ringTake_grid, ho]
  have hany : (((s.ringTake sp.val d).2.grid sp.val).opened.any fun x => x.win == pjWin d) = true := by simp [hopen, hw]
  have hfind : (((s.ringTake sp.val d).2.grid sp.val).opened.find? fun x => x.win == pjWin d) = some w := by simp [hopen, hw]
  have hclass : ((s.ringTake sp.val d).2.grid sp.val).classify (pjWin d) = .ok := if_pos hany
  have hwin : (s.ringTake sp.val d).2.openWin sp.val (pjWin d) = (s.ringTake sp.val d).2 := if_pos hany
  have hready : (!s.projLive || pjKind d != 3 || (s.ft.jobs.any fun e => e.2.spur == sp.val) ||
      (s.idleProjector sp.val).isNone) = false := by
    simp only [hl, hk, hj, hp]
    rfl
  have hbad : (pjMode d != 0 || leAt d 16 16 != 0) = false := by simp [hm, hz]
  change execProjectorClose sp d s = _
  unfold execProjectorClose
  simp only [hd, hready, hbad, State.noteLate_open hclass, hclass, hwin, hfind]
  rfl

/-- GW_DIRTY after a CLOSE: the number of dirty tiles, in 11 bits. -/
theorem projectorClose_dirty {t : State} (ht : exec (.projectorClose sp d) s = .next t) :
    t.rd .GW_DIRTY sp.val = (s.tilesOf sp.val (some w.dirty)).length % 2 ^ 11 := by
  obtain rfl := Host.Outcome.next.inj ((exec_projectorClose_closes hd hp hl hk hm hz ho hw hj).symm.trans ht)
  rw [State.rd_jobEnd _ rfl, State.closeWin_dirty, State.tilesOf_congr (State.ringTake_regs d)]

/-- Where the registers hold what fits them, GW_DIRTY shows the number in full. -/
theorem projectorClose_dirty_full (hs : RegsOk s.regs) {t : State} (ht : exec (.projectorClose sp d) s = .next t) :
    t.rd .GW_DIRTY sp.val = (s.tilesOf sp.val (some w.dirty)).length := by
  rw [projectorClose_dirty hd hp hl hk hm hz ho hw hj ht]
  exact Nat.mod_eq_of_lt ((State.tilesOf_length_le hs ..).trans_lt (by decide))

end

/-! ### More tiles than the summary can count -/

theorem bitList_ones (n : Nat) : bitList n (2 ^ n - 1) = List.range n :=
  List.filter_eq_self.2 fun i hi => by simpa using hi

/-- Window 5 with 2,048 dirty tiles. -/
def allDirty : GridWin := { win := 5, dirty := 2 ^ 2048 - 1 }

/-- A state outside the canonical form: GRID_CFG.NX of Spur 0, a field of 9 bits, holds 32,767, and so a grid of 32,768 × 16 cells
has 2,048 tiles. Window 5 is open, and every tile of it is dirty. -/
def wideGrid : State :=
  (State.reset.onRegs fun _ => [(Reg.GRID_CFG_NX.key 0, 32767), (Reg.GRID_CFG_NY.key 0, 15)]).onGrid 0 fun g =>
    { g with opened := [allDirty] }

/-- A CLOSE of window 5. -/
def closeFive : List Byte := leBytes 12 3 ++ leBytes 20 5

theorem wideGrid_tiles : (wideGrid.tilesOf (0 : Fin 8).val (some allDirty.dirty)).length = 2048 := by
  have hx : wideGrid.rd .GRID_CFG_NX 0 = 32767 := by decide +kernel
  have hy : wideGrid.rd .GRID_CFG_NY 0 = 15 := by decide +kernel
  simp only [State.tilesOf, State.gridDims, Fin.val_zero, hx, hy]
  rw [show allDirty.dirty = 2 ^ 2048 - 1 from rfl, bitList_ones, List.length_range]

/-- Refutes O31: the statement quantifies over every `State`, also over one whose GRID_CFG.NX holds a value wider than its 9 bits, and
it reads GW_DIRTY modulo 2^16, where the field has 11 bits. In `wideGrid` the CLOSE of a window with 2,048 dirty tiles leaves 0 in
GW_DIRTY, and the statement says 2,048. The clause turns on this alone: no register write gives a field a value too wide for it
(`State.regsOk_wr`), and where every field fits, a buffer has at most 1,024 tiles and GW_DIRTY shows their number
(`projectorClose_dirty_full`). -/
theorem not_projectorsAndGrid : ¬ Obligations.ProjectorsAndGrid := by
  rintro ⟨hjobs, -⟩
  have hp : wideGrid.idleProjector 0 = some 0 := by decide +kernel
  have hl : wideGrid.projLive = true := by decide +kernel
  obtain ⟨-, -, -, -, -, hclose⟩ := (hjobs wideGrid 0 closeFive rfl).2 0 hp hl
  obtain ⟨t, hnext, -, hdirty, -⟩ := hclose allDirty rfl rfl rfl rfl rfl rfl
  have hcut := projectorClose_dirty (w := allDirty) rfl hp hl rfl rfl rfl rfl rfl rfl hnext
  have hsame := hcut.symm.trans hdirty
  rw [wideGrid_tiles] at hsame
  exact absurd hsame (by decide)

end Sys2Proof.Machine
end

section

/-!
PROOFS of the statement that the Kerb stays armed (O33) of `spec/11_kerb_and_deadlines.md` in this row.

R329: the Kerb is disarmed only by POR or BOR. Every command is a composition of the model's operations, so the proof says of each
operation, once, that it leaves KRB_STAT.ARMED as it was; of a command it then says (`State.KeepsArm`) that an armed Kerb is armed
in the state it answers. What may set the bit (arming, and what arms: a boot, a MAP, KERB_LOAD) keeps it set when it is.
-/

namespace Sys2Proof.Machine

/-! ### What keeps the Kerb armed -/

theorem State.armed_congr {s t : State} (h : t.regs = s.regs) : t.armed = s.armed := by
  unfold State.armed State.flag
  rw [State.rd_congr h]

section
variable (s : State)

@[simp] theorem State.wr_armed {r : Reg} (h : r ≠ .KRB_STAT_ARMED) (i v : Nat) : (s.wr r i v).armed = s.armed := by
  unfold State.armed State.flag
  rw [State.rd_wr_other s i v 0 h.symm]
@[simp] theorem State.put_armed {r : Reg} (h : r ≠ .KRB_STAT_ARMED) (i : Nat) (b : Bool) : (s.put r i b).armed = s.armed :=
  s.wr_armed h i _
@[simp] theorem State.count_armed {r : Reg} (h : r ≠ .KRB_STAT_ARMED) (i n : Nat) : (s.count r i n).armed = s.armed :=
  s.wr_armed h i _
@[simp] theorem State.setBitOf_armed {r : Reg} (h : r ≠ .KRB_STAT_ARMED) (i b : Nat) (v : Bool) :
    (s.setBitOf r i b v).armed = s.armed := s.wr_armed h i _
@[simp] theorem State.wrSigned_armed {r : Reg} (h : r ≠ .KRB_STAT_ARMED) (i : Nat) (z : Int) :
    (s.wrSigned r i z).armed = s.armed := s.wr_armed h i _
@[simp] theorem State.wr64_armed {lo hi : Reg} (h : lo ≠ .KRB_STAT_ARMED) (k : hi ≠ .KRB_STAT_ARMED) (i v : Nat) :
    (s.wr64 lo hi i v).armed = s.armed := (State.wr_armed _ k _ _).trans (s.wr_armed h _ _)
@[simp] theorem State.clearRange_armed {r : Reg} (h : r ≠ .KRB_STAT_ARMED) (n : Nat) : (s.clearRange r n).armed = s.armed := by
  have hk : ¬ Reg.KRB_STAT_ARMED.ctorIdx = r.ctorIdx := fun e => h (Reg.ctorIdx_inj e).symm
  unfold State.armed State.flag State.rd State.clearRange
  rw [State.onRegs_regs, Table.get_keep, if_pos (by simp [hk])]
@[simp] theorem State.ite_armed (p : Prop) [Decidable p] (t : State) :
    (if p then s else t).armed = if p then s.armed else t.armed := apply_ite _ _ _ _
@[simp] theorem State.each_armed {α : Type} {f : State → α → State} (hf : ∀ s a, (f s a).armed = s.armed) (l : List α) :
    (s.each l f).armed = s.armed := State.each_same State.armed f hf l s
@[simp] theorem State.when_armed {f : State → State} (hf : ∀ s, (f s).armed = s.armed) (c : Bool) :
    (s.when c f).armed = s.armed := by
  cases c
  · rfl
  · exact hf s
@[simp] theorem State.fresh_armed (w : Nat) : (s.fresh w).2.armed = s.armed := State.armed_congr rfl

theorem State.each_armed_mem {α : Type} {f : State → α → State} {l : List α} (hf : ∀ s, ∀ a ∈ l, (f s a).armed = s.armed) :
    (s.each l f).armed = s.armed := by
  induction l generalizing s with
  | nil => rfl
  | cons a l ih => exact (ih (f s a) fun t b hb => hf t b (List.mem_cons_of_mem a hb)).trans (hf s a List.mem_cons_self)

theorem State.lose_armed {p : Reg → Nat → Bool} (hp : p .KRB_STAT_ARMED 0 = false) : (s.lose p).armed = s.armed := by
  have hk : keyIs p (Reg.key .KRB_STAT_ARMED 0) = false := by
    have : regOfKey (Reg.key .KRB_STAT_ARMED 0) = some .KRB_STAT_ARMED := by decide +kernel
    simp only [keyIs, this]
    exact hp
  unfold State.lose
  refine (State.each_armed _ (fun u x => State.each_armed_mem _ fun v h hh => v.wr_armed ?_ _ _) _).trans ?_
  · rintro hr
    have hflash := (List.mem_filter.1 hh).2
    rw [hr, Bool.and_eq_true] at hflash
    exact absurd hflash.1 (by decide)
  · unfold State.armed State.flag State.rd
    rw [State.onWl1_regs, State.onRegs_regs, Table.get_keep, if_pos (by simp [hk])]

/-- In what `o` answers to `s`, an armed Kerb is armed. -/
def State.KeepsArm (o : Out) : Prop := s.armed = true → ∀ t, o = .next t → t.armed = true

@[simp] theorem State.keepsArm_done (t : State) : s.KeepsArm (done t) ↔ (s.armed = true → t.armed = true) := by
  simp [State.KeepsArm, done]
@[simp] theorem State.keepsArm_fault (f : Fault) : s.KeepsArm (.fault f) := by
  simp [State.KeepsArm]
@[simp] theorem State.keepsArm_checked (b : Bool) (o : Out) : s.KeepsArm (checked b o) ↔ (b = true → s.KeepsArm o) := by
  cases b <;> simp [checked]
@[simp] theorem State.keepsArm_ite (p : Prop) [Decidable p] (o q : Out) :
    s.KeepsArm (if p then o else q) ↔ (p → s.KeepsArm o) ∧ (¬ p → s.KeepsArm q) := by
  split <;> simp [*]
end

/-! #### Updates of the state -/

section
variable (s : State)

@[simp] theorem State.onMem_armed (f : List Host.Cell → List Host.Cell) : (s.onMem f).armed = s.armed := State.armed_congr rfl
@[simp] theorem State.onFree_armed (f : Nat → Nat) : (s.onFree f).armed = s.armed := State.armed_congr rfl
@[simp] theorem State.onTx_armed (f : List Tx → List Tx) : (s.onTx f).armed = s.armed := State.armed_congr rfl
@[simp] theorem State.onTime_armed (f : TimeSt → TimeSt) : (s.onTime f).armed = s.armed := State.armed_congr rfl
@[simp] theorem State.onPorts_armed (f : Table PortSt → Table PortSt) : (s.onPorts f).armed = s.armed := State.armed_congr rfl
@[simp] theorem State.onHat_armed (f : HatSt → HatSt) : (s.onHat f).armed = s.armed := State.armed_congr rfl
@[simp] theorem State.onCards_armed (f : Table CardSt → Table CardSt) : (s.onCards f).armed = s.armed := State.armed_congr rfl
@[simp] theorem State.onSlots_armed (f : Table SlotSt → Table SlotSt) : (s.onSlots f).armed = s.armed := State.armed_congr rfl
@[simp] theorem State.onEqs_armed (f : Table EqSt → Table EqSt) : (s.onEqs f).armed = s.armed := State.armed_congr rfl
@[simp] theorem State.onRecSeq_armed (f : Nat → Nat) : (s.onRecSeq f).armed = s.armed := State.armed_congr rfl

@[simp] theorem State.onKcopies_armed (f : (Table (List KCopy)) → (Table (List KCopy))) :
    (s.onKcopies f).armed = s.armed := State.armed_congr rfl

@[simp] theorem State.onFul_armed (f : FulSt → FulSt) : (s.onFul f).armed = s.armed := State.armed_congr rfl
@[simp] theorem State.onMills_armed (f : Table MillSt → Table MillSt) : (s.onMills f).armed = s.armed := State.armed_congr rfl
@[simp] theorem State.onMs_armed (f : MsSt → MsSt) : (s.onMs f).armed = s.armed := State.armed_congr rfl
@[simp] theorem State.onFt_armed (f : FtSt → FtSt) : (s.onFt f).armed = s.armed := State.armed_congr rfl
@[simp] theorem State.onKerb_armed (f : KerbSt → KerbSt) : (s.onKerb f).armed = s.armed := State.armed_congr rfl
@[simp] theorem State.onMail_armed (f : MailSt → MailSt) : (s.onMail f).armed = s.armed := State.armed_congr rfl
@[simp] theorem State.onSec_armed (f : SecSt → SecSt) : (s.onSec f).armed = s.armed := State.armed_congr rfl
@[simp] theorem State.onCw_armed (f : CwSt → CwSt) : (s.onCw f).armed = s.armed := State.armed_congr rfl
@[simp] theorem State.onPm_armed (f : PmSt → PmSt) : (s.onPm f).armed = s.armed := State.armed_congr rfl
@[simp] theorem State.onRst_armed (f : RstSt → RstSt) : (s.onRst f).armed = s.armed := State.armed_congr rfl
@[simp] theorem State.onFns_armed (f : Table FnSt → Table FnSt) : (s.onFns f).armed = s.armed := State.armed_congr rfl
@[simp] theorem State.onVfEnable_armed (f : Bool → Bool) : (s.onVfEnable f).armed = s.armed := State.armed_congr rfl
@[simp] theorem State.onNumVfs_armed (f : Nat → Nat) : (s.onNumVfs f).armed = s.armed := State.armed_congr rfl
@[simp] theorem State.onMemCap_armed (f : Nat → Nat) : (s.onMemCap f).armed = s.armed := State.armed_congr rfl
@[simp] theorem State.onLink_armed (f : LinkSt → LinkSt) : (s.onLink f).armed = s.armed := State.armed_congr rfl

@[simp] theorem State.onHostIn_armed (f : (Table (List Byte)) → (Table (List Byte))) :
    (s.onHostIn f).armed = s.armed := State.armed_congr rfl

@[simp] theorem State.onLinkUes_armed (f : (Table (List Nat)) → (Table (List Nat))) :
    (s.onLinkUes f).armed = s.armed := State.armed_congr rfl

@[simp] theorem State.onAux_armed (f : AuxSt → AuxSt) : (s.onAux f).armed = s.armed := State.armed_congr rfl
@[simp] theorem State.onErrs_armed (f : Table ErrRing → Table ErrRing) : (s.onErrs f).armed = s.armed := State.armed_congr rfl
@[simp] theorem State.onIsoLog_armed (f : List IsoEnt → List IsoEnt) : (s.onIsoLog f).armed = s.armed := State.armed_congr rfl
@[simp] theorem State.onWl1_armed (f : Table Bool → Table Bool) : (s.onWl1 f).armed = s.armed := State.armed_congr rfl

@[simp] theorem State.onCardFenced_armed (f : Table Bool → Table Bool) :
    (s.onCardFenced f).armed = s.armed := State.armed_congr rfl

@[simp] theorem State.onFulFenced_armed (f : Nat → Nat) : (s.onFulFenced f).armed = s.armed := State.armed_congr rfl
@[simp] theorem State.onSupply_armed (f : SupplySt → SupplySt) : (s.onSupply f).armed = s.armed := State.armed_congr rfl

end

/-! #### Registers, memory and arithmetic -/

section
variable (s : State)

@[simp] theorem State.emit_armed (t : Tx) : (s.emit t).armed = s.armed := State.armed_congr rfl
@[simp] theorem State.stByte_armed (p : Space) (a : Nat) (b : Byte) : (s.stByte p a b).armed = s.armed := by simp [State.stByte]

@[simp] theorem State.stBytes_armed (p : Space) (a : Nat) (l : List Byte) : (s.stBytes p a l).armed = s.armed := by
  unfold State.armed State.flag
  rw [State.rd_congr (s.stBytes_regs p a l)]

@[simp] theorem State.stLe_armed (p : Space) (a n v : Nat) : (s.stLe p a n v).armed = s.armed := by simp [State.stLe]
@[simp] theorem State.zero_armed (p : Space) (a n : Nat) : (s.zero p a n).armed = s.armed := by simp [State.zero]

end

/-! #### Records, interrupts and lock violations -/

section
variable (s : State)

@[simp] theorem State.onFn_armed (f : Nat) (g : FnSt → FnSt) : (s.onFn f g).armed = s.armed := State.armed_congr rfl
@[simp] theorem State.request_armed (f : Nat) (p : HostPost) : (s.request f p).armed = s.armed := by simp [State.request]
@[simp] theorem State.post_armed (f : Nat) (p : HostPost) : (s.post f p).armed = s.armed := by simp [State.post]
@[simp] theorem State.irq_armed (f v : Nat) : (s.irq f v).armed = s.armed := by simp [State.irq]

@[simp] theorem State.recordTo_armed (dst owner : Nat) (t : ErrType) (unit : Nat) (detail : List Nat) :
    (s.recordTo dst owner t unit detail).armed = s.armed := by
  simp [State.recordTo]

@[simp] theorem State.record_armed (owner : Nat) (t : ErrType) (unit : Nat) (detail : List Nat) :
    (s.record owner t unit detail).armed = s.armed := by
  simp [State.record]

@[simp] theorem State.record2_armed (owner : Nat) (t : ErrType) (unit : Nat) (detail : List Nat) :
    (s.record2 owner t unit detail).armed = s.armed := by
  simp [State.record2]

@[simp] theorem State.spurTrigger_armed (spur code : Nat) : (s.spurTrigger spur code).armed = s.armed := by
  simp [State.spurTrigger]

@[simp] theorem State.isoViolation_armed (spur cls obj : Nat) : (s.isoViolation spur cls obj).armed = s.armed := by
  simp [State.isoViolation]

@[simp] theorem State.lockViolation_armed (who : Agent) (off : Nat) : (s.lockViolation who off).armed = s.armed := by
  simp [State.lockViolation]

@[simp] theorem State.setTq_armed (tq : Nat) : (s.setTq tq).armed = s.armed := by simp [State.setTq]

end

/-! #### Admission and writes of words -/

section
variable (s : State)

@[simp] theorem State.tdiRefuse_armed (fn : Nat) : (s.tdiRefuse fn).armed = s.armed := by simp [State.tdiRefuse]
@[simp] theorem State.logFwWrite_armed (fn off : Nat) : (s.logFwWrite fn off).armed = s.armed := by simp [State.logFwWrite]

theorem State.letIn_cases (who : Agent) (r : Reg) (i : Nat) :
    s.letIn who r i = .ok s ∨ ∃ t, s.letIn who r i = .error t ∧ t.armed = s.armed := by
  unfold State.letIn
  (repeat' split) <;> simp

@[simp] theorem State.writeField_armed (h : Hit) (v : Nat) : (s.writeField h v).armed = s.armed := by
  by_cases hr : h.reg = .KRB_STAT_ARMED
  · have hro : h.reg.spec.acc = .ro := by rw [hr]; rfl
    rw [State.writeField, hro]
  · unfold State.writeField
    split <;> simp [hr]

@[simp] theorem State.applyWord_armed (who : Agent) (off w : Nat) : (s.applyWord who off w).2.armed = s.armed := by
  unfold State.applyWord
  cases who <;> dsimp only <;> (repeat' split) <;> simp

theorem State.readOpen_cases (who : Agent) : s.readOpen who = .ok s ∨ ∃ t, s.readOpen who = .error t ∧ t.armed = s.armed := by
  unfold State.readOpen
  (repeat' split) <;> simp

theorem State.admitRead_cases (who : Agent) (r : Reg) (i : Nat) :
    s.admitRead who r i = .ok s ∨ ∃ t, s.admitRead who r i = .error t ∧ t.armed = s.armed := by
  unfold State.admitRead
  (repeat' split) <;> simp

end

/-! #### Commands in flight -/

section
variable (s : State)

@[simp] theorem State.stSpur_armed (sp a : Nat) (l : List Byte) : (s.stSpur sp a l).armed = s.armed := by
  induction l generalizing s a with
  | nil => rfl
  | cons b l ih =>
    rw [State.stSpur, ih]
    split <;> rfl

@[simp] theorem State.freshBytes_armed (n : Nat) : (s.freshBytes n).2.armed = s.armed := by simp [State.freshBytes]

@[simp] theorem State.onBatt_armed (long : Bool) (i : Nat) (f : BattSt → BattSt) :
    (s.onBatt long i f).armed = s.armed := State.armed_congr rfl

@[simp] theorem State.freeBatt_armed (long : Bool) (i : Nat) : (s.freeBatt long i).armed = s.armed := by
  unfold State.freeBatt
  split <;> simp

@[simp] theorem State.freeHandle_armed (h : Nat) : (s.freeHandle h).armed = s.armed := by simp [State.freeHandle]

@[simp] theorem State.signal_armed (ms spur count : Nat) (src : SigSrc) : (s.signal ms spur count src).armed = s.armed := by
  simp [State.signal]

@[simp] theorem State.postTkc_armed (mill tkc count : Nat) : (s.postTkc mill tkc count).armed = s.armed := by
  simp [State.postTkc]

@[simp] theorem State.setMbState_armed (mb st : Nat) : (s.setMbState mb st).armed = s.armed := by simp [State.setMbState]
@[simp] theorem State.setNgx_armed (st : Nat) : (s.setNgx st).armed = s.armed := by simp [State.setNgx]
@[simp] theorem State.spurRefresh_armed (sp : Nat) : (s.spurRefresh sp).armed = s.armed := by simp [State.spurRefresh]
@[simp] theorem State.onCmds_armed (mb : Nat) (f : List Cmd → List Cmd) : (s.onCmds mb f).armed = s.armed := State.armed_congr rfl
@[simp] theorem State.onCmd_armed (mb id : Nat) (f : Cmd → Cmd) : (s.onCmd mb id f).armed = s.armed := State.armed_congr rfl
@[simp] theorem State.drain_armed (mb : Nat) : (s.drain mb).armed = s.armed := by simp [State.drain]

@[simp] theorem State.complete_armed (mb : Nat) (c : Cmd) (st detail result stamp : Nat) :
    (s.complete mb c st detail result stamp).armed = s.armed := by
  simp [State.complete]

@[simp] theorem State.claimTimeout_armed (mb : Nat) (c : Cmd) : (s.claimTimeout mb c).armed = s.armed := by
  simp [State.claimTimeout]

@[simp] theorem State.finish_armed (mb : Nat) (c : Cmd) (st detail result : Nat) :
    (s.finish mb c st detail result).armed = s.armed := by
  simp [State.finish]

@[simp] theorem State.finishId_armed (mb id : Nat) (st detail result : Nat) :
    (s.finishId mb id st detail result).armed = s.armed := by
  unfold State.finishId
  split <;> simp

@[simp] theorem State.keepsArm_runCmd (mb : Fin 64) (tag : BitVec 16) (op : Nat) (host : Bool)
    {f : State → Cmd → State} (hf : ∀ c, s.armed = true → (f s c).armed = true) : s.KeepsArm (s.runCmd mb tag op host f) := by
  unfold State.runCmd
  (repeat' split) <;> simp; exact hf _

@[simp] theorem State.begin_armed (mb : Nat) (c : Cmd) : (s.begin_ mb c).armed = s.armed := by simp [State.begin_]
@[simp] theorem State.raiseEpoch_armed (sp : Nat) : (s.raiseEpoch sp).armed = s.armed := by simp [State.raiseEpoch]
@[simp] theorem State.waitqRegs_armed : s.waitqRegs.armed = s.armed := by simp [State.waitqRegs]
@[simp] theorem State.dropWaiter_armed (mb id : Nat) : (s.dropWaiter mb id).armed = s.armed := by simp [State.dropWaiter]

end

/-! #### Event queues -/

section
variable (s : State)

@[simp] theorem State.onEq_armed (q : Nat) (f : EqSt → EqSt) : (s.onEq q f).armed = s.armed := State.armed_congr rfl
@[simp] theorem State.onCard_armed (u : Nat) (f : CardSt → CardSt) : (s.onCard u f).armed = s.armed := State.armed_congr rfl
@[simp] theorem State.onSlot_armed (i : Nat) (f : SlotSt → SlotSt) : (s.onSlot i f).armed = s.armed := State.armed_congr rfl

@[simp] theorem State.watermark_armed (q pre : Nat) (quiet : Bool) : (s.watermark q pre quiet).armed = s.armed := by
  simp [State.watermark]

@[simp] theorem State.eqPut_armed (q r : Nat) (pkt : Nat) (quiet : Bool) : (s.eqPut q r pkt quiet).armed = s.armed := by
  simp [State.eqPut]

@[simp] theorem State.eqReset_armed (q reason : Nat) : (s.eqReset q reason).armed = s.armed := by simp [State.eqReset]
@[simp] theorem State.upset_armed (q : Nat) (ptrBad : Bool) : (s.upset q ptrBad).armed = s.armed := by simp [State.upset]
@[simp] theorem State.dropPend_armed (p : PendRec) : (s.dropPend p).armed = s.armed := by simp [State.dropPend]
@[simp] theorem State.formSegment_armed (q : Nat) : (s.formSegment q).armed = s.armed := by simp [State.formSegment]
@[simp] theorem State.segmentDue_armed (q : Nat) : (s.segmentDue q).armed = s.armed := by simp [State.segmentDue]

@[simp] theorem State.eqWritePending_armed (q : Nat) : (s.eqWritePending q).armed = s.armed := by
  unfold State.eqWritePending
  dsimp only
  (repeat' split) <;> simp

@[simp] theorem State.offerEvent_armed (q r : Nat) (t : Int) (pkt : Nat) : (s.offerEvent q r t pkt).2.armed = s.armed := by
  unfold State.offerEvent
  dsimp only
  (repeat' split) <;> simp

@[simp] theorem State.offerGap_armed (q slot src count first : Nat) : (s.offerGap q slot src count first).armed = s.armed := by
  simp [State.offerGap]

@[simp] theorem State.formControl_armed (q slot sub param : Nat) (unf : Bool) :
    (s.formControl q slot sub param unf).armed = s.armed := by
  simp [State.formControl]

@[simp] theorem State.eqDiscard_armed (q : Nat) : (s.eqDiscard q).armed = s.armed := by simp [State.eqDiscard]
@[simp] theorem State.eqStart_armed (q : Nat) : (s.eqStart q).armed = s.armed := by simp [State.eqStart]

@[simp] theorem State.readRecs_armed (q ce ue : Nat) (l : List (QRec × Nat)) :
    (s.readRecs q ce ue l).2.2.2.2.armed = s.armed := by
  induction l generalizing s with
  | nil => rfl
  | cons e l ih => simp [State.readRecs, ih]

@[simp] theorem State.popLine_armed (q ce ue : Nat) (ptrBad : Bool) : (s.popLine q ce ue ptrBad).2.2.armed = s.armed := by
  unfold State.popLine
  dsimp only
  split
  · simp
  · split <;> simp

@[simp] theorem execEqPendingWrite_armed (q : Fin 512) (ptrBad : Bool) : s.KeepsArm (execEqPendingWrite q ptrBad s) := by
  simp [execEqPendingWrite]

@[simp] theorem execSegmentBoundary_armed : s.KeepsArm (execSegmentBoundary s) := by simp [execSegmentBoundary]

@[simp] theorem execEqPop_armed (who : Agent) (q : Fin 512) (ce ue : BitVec 8) (ptrBad : Bool) :
    s.KeepsArm (execEqPop who q ce ue ptrBad s) := by
  rcases s.admitRead_cases who .EQ_WP q.val with h | ⟨t, h, ht⟩ <;> simp [execEqPop, *]

@[simp] theorem execEqReset_armed (who : Agent) (q : Fin 512) : s.KeepsArm (execEqReset who q s) := by
  rcases s.letIn_cases who .EQ_CTRL_RESET q.val with h | ⟨t, h, ht⟩ <;> simp [execEqReset, *]

@[simp] theorem execEqSkipGo_armed (who : Agent) (q : Fin 512) : s.KeepsArm (execEqSkipGo who q s) := by
  unfold execEqSkipGo
  rcases s.letIn_cases who .EQ_SKIP_GO q.val with h | ⟨t, h, ht⟩
  · simp only [h]
    (repeat' split) <;> simp
  · simp [h, ht]

@[simp] theorem State.eqCfgWrite_armed (who : Agent) (q : Nat) (w : Nat) (en : Bool) :
    (s.eqCfgWrite who q w en).armed = s.armed := by
  rcases s.letIn_cases who .EQ_CFG_EN q with h | ⟨t, h, ht⟩ <;> simp [State.eqCfgWrite, *]

@[simp] theorem execEqEnable_armed (who : Agent) (q : Fin 512) (w : Word) : s.KeepsArm (execEqEnable who q w s) := by
  simp [execEqEnable]

@[simp] theorem execEqDisable_armed (who : Agent) (q : Fin 512) (w : Word) : s.KeepsArm (execEqDisable who q w s) := by
  simp [execEqDisable]

end

/-! #### The Ego unit -/

section
variable (s : State)

@[simp] theorem State.onEgo_armed (i : Nat) (f : EgoSt → EgoSt) : (s.onEgo i f).armed = s.armed := State.armed_congr rfl
@[simp] theorem State.egoZero_armed (slot : Nat) : (s.egoZero slot).armed = s.armed := by simp [State.egoZero]
@[simp] theorem State.egoUnconv_armed (slot : Nat) : (s.egoUnconv slot).armed = s.armed := by simp [State.egoUnconv]
@[simp] theorem State.suspend_armed (slot st : Nat) : (s.suspend slot st).armed = s.armed := by simp [State.suspend]

@[simp] theorem State.egoUpdate_armed (slot len : Nat) (x : List FVal) (sigma : FVal) :
    (s.egoUpdate slot len x sigma).armed = s.armed := by
  simp [State.egoUpdate]

@[simp] theorem State.egoSolve_armed (slot win a b : Nat) : (s.egoSolve slot win a b).armed = s.armed := by
  unfold State.egoSolve
  dsimp only
  (repeat' split) <;> simp

@[simp] theorem execEgoXchkCompare_armed (slot : Fin 256) : s.KeepsArm (execEgoXchkCompare slot s) := by
  unfold execEgoXchkCompare
  dsimp only
  split <;> simp

@[simp] theorem execEgoClr_armed (who : Agent) (slot : Fin 256) : s.KeepsArm (execEgoClr who slot s) := by
  rcases s.letIn_cases who .EGO_CTRL_CLR slot.val with h | ⟨t, h, ht⟩ <;> simp [execEgoClr, *]

end

/-! #### Milestones and Batt pools -/

section
variable (s : State)

theorem State.msOwner_cases (ms spur : Nat) :
    s.msOwner ms spur = .ok s ∨ ∃ t, s.msOwner ms spur = .error t ∧ t.armed = s.armed := by
  unfold State.msOwner
  split <;> simp

theorem State.msAdmit_cases (ms spur : Nat) :
    s.msAdmit ms spur = .ok s ∨ ∃ code t, s.msAdmit ms spur = .error (code, t) ∧ t.armed = s.armed := by
  unfold State.msAdmit
  rcases s.msOwner_cases ms spur with h | ⟨t, h, ht⟩ <;> rw [h]
  · dsimp only
    split <;> simp
  · exact .inr ⟨_, t, rfl, ht⟩

@[simp] theorem State.forwards_armed (ms count : Nat) : (s.forwards ms count).armed = s.armed := by simp [State.forwards]
@[simp] theorem State.raiseValue_armed (ms total : Nat) : (s.raiseValue ms total).armed = s.armed := by simp [State.raiseValue]

@[simp] theorem State.signalOutcome_armed (g : Signal) (code : Nat) : (s.signalOutcome g code).armed = s.armed := by
  unfold State.signalOutcome
  split <;> simp

@[simp] theorem State.takeSignal_armed (g : Signal) : (s.takeSignal g).2.armed = s.armed := by
  unfold State.takeSignal
  rcases s.msAdmit_cases g.ms g.spur with h | ⟨c, t, h, ht⟩ <;> simp [*]

theorem State.foldl_armed {α β : Type} {f : β × State → α → β × State} (hf : ∀ a x, (f a x).2.armed = a.2.armed) (l : List α)
    (a : β × State) : (l.foldl f a).2.armed = a.2.armed := by
  induction l generalizing a with
  | nil => rfl
  | cons x l ih => exact (ih _).trans (hf a x)

@[simp] theorem State.msSignals_armed (l : List Signal) : (s.msSignals l).armed = s.armed := by
  unfold State.msSignals
  dsimp only
  refine (State.each_armed _ (fun _ _ => by simp) _).trans (State.foldl_armed (fun a g => ?_) l _)
  have h := a.2.takeSignal_armed g
  split <;> next heq => simpa [heq] using h

@[simp] theorem State.endWaiter_armed (w : Waiter) (o : WOut) : (s.endWaiter w o).armed = s.armed := by
  unfold State.endWaiter
  dsimp only
  (repeat' split) <;> simp

@[simp] theorem State.msEnds_armed : s.msEnds.armed = s.armed := by simp [State.msEnds]
@[simp] theorem State.msCycle_armed (l : List Signal) : (s.msCycle l).armed = s.armed := by simp [State.msCycle]

@[simp] theorem State.msWait_armed (ms spur h : Nat) (timeout : Option Nat) (act : WAct) :
    (s.msWait ms spur h timeout act).2.armed = s.armed := by
  unfold State.msWait
  rcases s.msAdmit_cases ms spur with h | ⟨c, t, h, ht⟩ <;> simp only [h]
  · (repeat' split) <;> simp
  · exact ht

@[simp] theorem State.msRearm_armed (ms value target : Nat) : (s.msRearm ms value target).armed = s.armed := by
  simp [State.msRearm]

@[simp] theorem execMsSignalArrival_armed (arriving : Nat) : s.KeepsArm (execMsSignalArrival arriving s) := by
  simp [execMsSignalArrival]

@[simp] theorem execMsig_armed (core : Fin 16) (ms : Fin 1024) (count : BitVec 16) : s.KeepsArm (execMsig core ms count s) := by
  simp [execMsig]

@[simp] theorem execMwait_armed (core : Fin 16) (ms : Fin 1024) (h : Word) (timeout : Option DWord) (act : WaitAct) :
    s.KeepsArm (execMwait core ms h timeout act s) := by
  simp [execMwait]

@[simp] theorem execMrearm_armed (core : Fin 16) (ms : Fin 1024) (value target : Word) :
    s.KeepsArm (execMrearm core ms value target s) := by
  rcases s.msAdmit_cases ms.val (core.val / 2) with h | ⟨c, t, h, ht⟩ <;> simp [execMrearm, *]

@[simp] theorem execMsCoreRead_armed (core : Fin 16) (ms : Fin 1024) : s.KeepsArm (execMsCoreRead core ms s) := by
  rcases s.msOwner_cases ms.val (core.val / 2) with h | ⟨t, h, ht⟩ <;> simp [execMsCoreRead, *]

@[simp] theorem execWaiterTimeout_armed : s.KeepsArm (execWaiterTimeout s) := by simp [execWaiterTimeout]
@[simp] theorem State.noteGrant_armed (long : Bool) : (s.noteGrant long).armed = s.armed := by simp [State.noteGrant]

@[simp] theorem State.grant_armed (long : Bool) (agent sp : Nat) : (s.grant long agent sp).2.armed = s.armed := by
  unfold State.grant
  dsimp only
  split <;> simp

@[simp] theorem State.battReply_armed (dst : BTo) (code handle : Nat) : (s.battReply dst code handle).armed = s.armed := by
  unfold State.battReply
  (repeat' split) <;> simp

@[simp] theorem State.onWaitq_armed (long : Bool) (f : List BWaiter → List BWaiter) : (s.onWaitq long f).armed = s.armed := by
  simp [State.onWaitq]

@[simp] theorem State.dropPoolWaiter_armed (long : Bool) (w : BWaiter) : (s.dropPoolWaiter long w).armed = s.armed := by
  simp [State.dropPoolWaiter]

@[simp] theorem State.serveWaiters_armed (long : Bool) : (s.serveWaiters long).armed = s.armed := by simp [State.serveWaiters]

@[simp] theorem State.loser_armed (long wait : Bool) (agent sp : Nat) (timeout : Option Nat) (dst : BTo) :
    (s.loser long wait agent sp timeout dst).armed = s.armed := by
  unfold State.loser
  dsimp only
  (repeat' split) <;> simp

@[simp] theorem State.allocOne_armed (long wait : Bool) (agent sp : Nat) (timeout : Option Nat) (dst : BTo) :
    (s.allocOne long wait agent sp timeout dst).armed = s.armed := by
  simp [State.allocOne]

@[simp] theorem State.waitersExpire_armed (long : Bool) : (s.waitersExpire long).armed = s.armed := by
  simp [State.waitersExpire]

@[simp] theorem State.bpCycle_armed {f : State → State} (hf : ∀ s, (f s).armed = s.armed) : (s.bpCycle f).armed = s.armed := by
  simp [State.bpCycle, hf]

@[simp] theorem execBattAlloc_armed (reqs : List AllocReq) : s.KeepsArm (execBattAlloc reqs s) := by simp [execBattAlloc]

@[simp] theorem execBattWaiterGrant_armed (long : Bool) : s.KeepsArm (execBattWaiterGrant long s) := by
  simp [execBattWaiterGrant]

@[simp] theorem execBattWaitTimeout_armed (long : Bool) : s.KeepsArm (execBattWaitTimeout long s) := by
  simp [execBattWaitTimeout]

@[simp] theorem State.battReject_armed (op agent sp h : Nat) (e : Nat × Bool) :
    (s.battReject op agent sp h e).armed = s.armed := by
  simp [State.battReject]

@[simp] theorem State.battFreeOp_armed (agent sp h : Nat) : (s.battFreeOp agent sp h).2.armed = s.armed := by
  unfold State.battFreeOp
  split <;> simp

@[simp] theorem State.battGiveOp_armed (agent sp h ta tsp : Nat) : (s.battGiveOp agent sp h ta tsp).2.armed = s.armed := by
  unfold State.battGiveOp
  split <;> simp

@[simp] theorem execBattFree_armed (agent : BattAgent) (handle : Word) : s.KeepsArm (execBattFree agent handle s) := by
  simp [execBattFree]

@[simp] theorem execBattGive_armed (agent : BattAgent) (handle : Word) (target : BattAgent) :
    s.KeepsArm (execBattGive agent handle target s) := by
  simp [execBattGive]

@[simp] theorem State.msCfgApply_armed (c : Cmd) : (s.msCfgApply c).armed = s.armed := by simp [State.msCfgApply]

@[simp] theorem execMsCfg_armed (mb : Fin 64) (tag : BitVec 16) : s.KeepsArm (execMsCfg mb tag s) := by
  refine s.keepsArm_runCmd mb tag 0x30 false fun c => ?_
  split <;> simp

@[simp] theorem State.endMs_armed (mb : Nat) (c : Cmd) (code result : Nat) : (s.endMs mb c code result).armed = s.armed := by
  simp [State.endMs]

@[simp] theorem execMsRearm_armed (mb : Fin 64) (tag : BitVec 16) : s.KeepsArm (execMsRearm mb tag s) := by
  refine s.keepsArm_runCmd mb tag 0x31 false fun c => ?_
  rcases s.msAdmit_cases (bits (c.opw 0) 0 10) (mb.val / 8) with h | ⟨c, t, h, ht⟩ <;> simp [*]

@[simp] theorem execMsRead_armed (mb : Fin 64) (tag : BitVec 16) : s.KeepsArm (execMsRead mb tag s) := by
  refine s.keepsArm_runCmd mb tag 0x32 false fun c => ?_
  rcases s.msOwner_cases (bits (c.opw 0) 0 10) (mb.val / 8) with h | ⟨t, h, ht⟩ <;> simp [*]

@[simp] theorem execMsSignal_armed (mb : Fin 64) (tag : BitVec 16) : s.KeepsArm (execMsSignal mb tag s) := by
  refine s.keepsArm_runCmd mb tag 0x33 false fun c => ?_
  rcases s.msAdmit_cases (bits (c.opw 0) 0 10) (mb.val / 8) with h | ⟨c, t, h, ht⟩ <;> simp [*]

@[simp] theorem execBpAlloc_armed (mb : Fin 64) (tag : BitVec 16) : s.KeepsArm (execBpAlloc mb tag s) := by simp [execBpAlloc]
@[simp] theorem execBpFree_armed (mb : Fin 64) (tag : BitVec 16) : s.KeepsArm (execBpFree mb tag s) := by simp [execBpFree]
@[simp] theorem execBpGive_armed (mb : Fin 64) (tag : BitVec 16) : s.KeepsArm (execBpGive mb tag s) := by simp [execBpGive]
@[simp] theorem State.flrMs_armed (sp : Nat) : (s.flrMs sp).armed = s.armed := by simp [State.flrMs]

end

/-! #### The state of the Mills -/

section
variable (s : State)

@[simp] theorem State.onMill_armed (m : Nat) (f : MillSt → MillSt) : (s.onMill m f).armed = s.armed := State.armed_congr rfl
@[simp] theorem State.setTask_armed (m t : Nat) (r : RunTask) : (s.setTask m t r).armed = s.armed := by simp [State.setTask]
@[simp] theorem State.clearTask_armed (m t : Nat) : (s.clearTask m t).armed = s.armed := by simp [State.clearTask]
@[simp] theorem State.millCount_armed (m i : Nat) (n : Nat) : (s.millCount m i n).armed = s.armed := by simp [State.millCount]

@[simp] theorem State.onReruns_armed (m q : Nat) (f : List RunTask → List RunTask) :
    (s.onReruns m q f).armed = s.armed := State.armed_congr rfl

@[simp] theorem State.setTemplate_armed (m e : Nat) (v : Expand) : (s.setTemplate m e v).armed = s.armed := by
  simp [State.setTemplate]

@[simp] theorem State.dropTemplate_armed (m e : Nat) : (s.dropTemplate m e).armed = s.armed := by simp [State.dropTemplate]
@[simp] theorem State.tqAdvance_armed (k : Nat) : (s.tqAdvance k).armed = s.armed := by simp [State.tqAdvance]
@[simp] theorem State.tqRefresh_armed (m q : Nat) : (s.tqRefresh m q).armed = s.armed := by simp [State.tqRefresh]
@[simp] theorem State.tqHalt_armed (m q st : Nat) : (s.tqHalt m q st).armed = s.armed := by simp [State.tqHalt]

@[simp] theorem State.consume_armed (m : Nat) (ws : List (Nat × Nat)) : (s.consume m ws).armed = s.armed := by
  simp [State.consume]

@[simp] theorem State.applyPost_armed (m c count : Nat) : (s.applyPost m c count).armed = s.armed := by
  unfold State.applyPost
  (repeat' split) <;> simp

@[simp] theorem State.doPost_armed (m p : Nat) : (s.doPost m p).armed = s.armed := by
  unfold State.doPost
  split <;> simp

@[simp] theorem State.setTeCause_armed (m t c : Nat) : (s.setTeCause m t c).armed = s.armed := by simp [State.setTeCause]

@[simp] theorem State.onInv_armed (m : Nat) (f : Machine.Inv → Machine.Inv) : (s.onInv m f).armed = s.armed := by
  unfold State.onInv
  split <;> simp

@[simp] theorem State.clearCtx_armed (m : Nat) : (s.clearCtx m).armed = s.armed := by simp [State.clearCtx]
@[simp] theorem State.takeCtx_armed (m : Nat) : (s.takeCtx m).armed = s.armed := by simp [State.takeCtx]

@[simp] theorem State.millNext_armed (m : Nat) : (s.millNext m).armed = s.armed := by
  unfold State.millNext
  split <;> simp

@[simp] theorem State.leaveMill_armed (v : Machine.Inv) (m : Nat) : (s.leaveMill v m).armed = s.armed := by
  simp [State.leaveMill]

@[simp] theorem State.removeMill_armed (m cause : Nat) : (s.removeMill m cause).armed = s.armed := by simp [State.removeMill]
@[simp] theorem State.rerunTask_armed (m : Nat) (r : RunTask) : (s.rerunTask m r).armed = s.armed := by simp [State.rerunTask]

@[simp] theorem State.removeTe_armed (m t cause : Nat) : (s.removeTe m t cause).armed = s.armed := by
  unfold State.removeTe
  dsimp only
  (repeat' split) <;> simp

@[simp] theorem State.stSram_armed (m : Nat) (a : Nat) (l : List Byte) : (s.stSram m a l).armed = s.armed := by
  induction l generalizing s a with
  | nil => rfl
  | cons b l ih => simp [State.stSram, ih]

@[simp] theorem State.hbRewrite_armed (m : Nat) : (s.hbRewrite m).armed = s.armed := by simp [State.hbRewrite]
@[simp] theorem State.millReadmit_armed (m : Nat) : (s.millReadmit m).armed = s.armed := by simp [State.millReadmit]
@[simp] theorem State.invBoundary_armed (sp : Nat) : (s.invBoundary sp).armed = s.armed := by simp [State.invBoundary]
@[simp] theorem State.askReadmit_armed (m : Nat) : (s.askReadmit m).armed = s.armed := by simp [State.askReadmit]
@[simp] theorem State.setOp_armed (q op : Nat) : (s.setOp q op).armed = s.armed := by simp [State.setOp]
@[simp] theorem State.sramCe_armed (m : Nat) (e : SramEcc) : (s.sramCe m e).armed = s.armed := by simp [State.sramCe]
@[simp] theorem State.sramUe_armed (m a : Nat) : (s.sramUe m a).armed = s.armed := by simp [State.sramUe]

end

/-! #### Claims and operating points -/

section
variable (s : State)

@[simp] theorem State.opRequest_armed (q op : Nat) : (s.opRequest q op).armed = s.armed := by simp [State.opRequest]
@[simp] theorem State.opGo_armed (q op mb id : Nat) : (s.opGo q op mb id).armed = s.armed := by simp [State.opGo]
@[simp] theorem State.opRetry_armed : s.opRetry.armed = s.armed := by simp [State.opRetry]

@[simp] theorem State.statsRecord_armed (v : Machine.Inv) (stamp : Nat) : (s.statsRecord v stamp).2.armed = s.armed := by
  simp [State.statsRecord]

@[simp] theorem State.nanOut_armed (v : Machine.Inv) (nan : Nat) : (s.nanOut v nan).armed = s.armed := by simp [State.nanOut]
@[simp] theorem State.gather_armed (v : Machine.Inv) : (s.gather v).2.armed = s.armed := by simp [State.gather]

@[simp] theorem State.invEnds_armed (v : Machine.Inv) (discard : Bool) : (s.invEnds v discard).armed = s.armed := by
  simp [State.invEnds]

@[simp] theorem State.claimInv_armed (v : Machine.Inv) (st detail stamp : Nat) :
    (s.claimInv v st detail stamp).armed = s.armed := by
  unfold State.claimInv
  dsimp only
  split <;> simp

@[simp] theorem State.claimOk_armed (slot gen : Nat) : (s.claimOk slot gen).armed = s.armed := by
  unfold State.claimOk
  split <;> simp

@[simp] theorem State.claimMissed_armed (slot gen dl : Nat) : (s.claimMissed slot gen dl).armed = s.armed := by
  unfold State.claimMissed
  split <;> simp

@[simp] theorem State.abortCmd_armed (mb st detail : Nat) (c : Cmd) : (s.abortCmd mb st detail c).armed = s.armed := by
  unfold State.abortCmd
  dsimp only
  split <;> simp

@[simp] theorem State.abortCmds_armed (mb : Nat) (p : Cmd → Bool) (st detail : Nat) :
    (s.abortCmds mb p st detail).armed = s.armed := by
  simp [State.abortCmds]

@[simp] theorem State.recoverMb_armed (mb : Nat) : (s.recoverMb mb).armed = s.armed := by simp [State.recoverMb]
@[simp] theorem State.cwPut_armed (cls : Nat) (t : Tx) : (s.cwPut cls t).armed = s.armed := by simp [State.cwPut]

@[simp] theorem State.cwEmit_armed (cls dst : Nat) (bcast : Bool) (spur sub : Nat) (fields payload : List Byte) :
    (s.cwEmit cls dst bcast spur sub fields payload).armed = s.armed := by
  simp [State.cwEmit]

@[simp] theorem State.sendStopState_armed : s.sendStopState.armed = s.armed := by
  unfold State.sendStopState
  (repeat' split) <;> simp

end

/-! #### Wakes -/

section
variable (s : State)

@[simp] theorem State.setLast_armed (v : Nat) : (s.setLast v).armed = s.armed := by simp [State.setLast]

@[simp] theorem State.endPm_armed (r : Option PmReq) (reason : Nat) : (s.endPm r reason).armed = s.armed := by
  unfold State.endPm
  split <;> simp

@[simp] theorem State.endPms_armed (reason : Nat) : (s.endPms reason).armed = s.armed := by simp [State.endPms]

@[simp] theorem State.commandRail_armed (rail : Nat) (c old : RailCmd) : (s.commandRail rail c old).armed = s.armed := by
  simp [State.commandRail]

@[simp] theorem State.startRaise_armed (target : Nat) : (s.startRaise target).armed = s.armed := by simp [State.startRaise]
@[simp] theorem State.abortEntry_armed : s.abortEntry.armed = s.armed := by simp [State.abortEntry]
@[simp] theorem State.latchWake_armed (src : Nat) : (s.latchWake src).armed = s.armed := by simp [State.latchWake]

@[simp] theorem State.raiseWake_armed (src : Nat) : (s.raiseWake src).armed = s.armed := by
  unfold State.raiseWake
  dsimp only
  (repeat' split) <;> simp

end

/-! #### The hub of the Kerb -/

section
variable (s : State)

@[simp] theorem State.onZone_armed (z : Nat) (f : ZoneSt → ZoneSt) : (s.onZone z f).armed = s.armed := State.armed_congr rfl
@[simp] theorem State.densityTest_armed (z : Nat) : (s.densityTest z).1.armed = s.armed := by simp [State.densityTest]
@[simp] theorem State.zoneSettings_armed (z : Nat) : (s.zoneSettings z).armed = s.armed := by simp [State.zoneSettings]

@[simp] theorem State.approach_armed (unit : Nat) (rose : List Nat) : (s.approach unit rose).armed = s.armed := by
  simp [State.approach]

@[simp] theorem State.silentNow_armed (slot : Nat) : (s.silentNow slot).armed = s.armed := by simp [State.silentNow]

@[simp] theorem State.heardOpen_armed (slot i : Nat) (now : Bool) : (s.heardOpen slot i now).armed = s.armed := by
  simp [State.heardOpen]

@[simp] theorem State.refreshLoss_armed : s.refreshLoss.armed = s.armed := by simp [State.refreshLoss]

@[simp] theorem State.setLatch_armed (z verdict reason win stamp : Nat) :
    (s.setLatch z verdict reason win stamp).armed = s.armed := by
  simp [State.setLatch]

@[simp] theorem State.ageLatch_armed (z : Nat) : (s.ageLatch z).armed = s.armed := by simp [State.ageLatch]
@[simp] theorem State.aggRefresh_armed : s.aggRefresh.armed = s.armed := by simp [State.aggRefresh]
@[simp] theorem State.setCause_armed (c : Nat) : (s.setCause c).armed = s.armed := by simp [State.setCause]
@[simp] theorem State.combine_armed : s.combine.armed = s.armed := by simp [State.combine]
@[simp] theorem State.kerbUpdate_armed : s.kerbUpdate.armed = s.armed := by simp [State.kerbUpdate]
@[simp] theorem State.kerbFault_armed (code unit : Nat) : (s.kerbFault code unit).armed = s.armed := by simp [State.kerbFault]
@[simp] theorem State.maskWithdraw_armed : s.maskWithdraw.armed = s.armed := by simp [State.maskWithdraw]

@[simp] theorem State.toolJudge_armed : s.toolJudge.armed = s.armed := by
  unfold State.toolJudge
  split <;> simp

end

/-! #### Carding -/

section
variable (s : State)

@[simp] theorem State.slotControl_armed (slot sub param : Nat) (unf : Bool) :
    (s.slotControl slot sub param unf).armed = s.armed := by
  unfold State.slotControl
  split <;> simp

@[simp] theorem State.startRun_armed (slot interval : Nat) : (s.startRun slot interval).armed = s.armed := by
  simp [State.startRun]

@[simp] theorem State.formFilter_armed (slot e : Nat) : (s.formFilter slot e).armed = s.armed := by simp [State.formFilter]

@[simp] theorem State.endRun_armed (slot : Nat) (lost : Bool) : (s.endRun slot lost).armed = s.armed := by
  unfold State.endRun
  split <;> simp

@[simp] theorem State.flushStopped_armed (slot : Nat) : (s.flushStopped slot).armed = s.armed := by
  unfold State.flushStopped
  split <;> simp

@[simp] theorem State.leaveSlot_armed (slot : Nat) (lost : Bool) : (s.leaveSlot slot lost).armed = s.armed := by
  simp [State.leaveSlot]

@[simp] theorem State.tableError_armed (slot addr : Nat) : (s.tableError slot addr).armed = s.armed := by
  simp [State.tableError]

@[simp] theorem State.reloadSlot_armed (slot : Nat) : (s.reloadSlot slot).armed = s.armed := by simp [State.reloadSlot]
@[simp] theorem State.resumeSlot_armed (slot : Nat) : (s.resumeSlot slot).armed = s.armed := by simp [State.resumeSlot]

@[simp] theorem State.countStopped_armed (slot n stamp : Nat) : (s.countStopped slot n stamp).armed = s.armed := by
  simp [State.countStopped]

@[simp] theorem State.touch_armed (slot x y : Nat) (t : Int) : (s.touch slot x y t).armed = s.armed := by simp [State.touch]

@[simp] theorem State.kerbCopy_armed (slot x y : Nat) (pol : Bool) (t : Int) : (s.kerbCopy slot x y pol t).armed = s.armed := by
  simp [State.kerbCopy]

@[simp] theorem State.cardCount_armed (u i : Nat) : (s.cardCount u i).armed = s.armed := by simp [State.cardCount]

@[simp] theorem State.cardOffer_armed (slot interval x y : Nat) (pol : Bool) (t : Int) (ptrBad : Bool) :
    (s.cardOffer slot interval x y pol t ptrBad).armed = s.armed := by
  unfold State.cardOffer
  dsimp only
  (repeat' split) <;> simp

@[simp] theorem State.cardFilter_armed (slot interval x y : Nat) (pol : Bool) (t : Int) (ptrBad : Bool) :
    (s.cardFilter slot interval x y pol t ptrBad).armed = s.armed := by
  unfold State.cardFilter
  dsimp only
  (repeat' split) <;> simp

@[simp] theorem State.cardPixel_armed (slot interval w : Nat) (ecc : EccResult) (ptrBad : Bool) :
    (s.cardPixel slot interval w ecc ptrBad).armed = s.armed := by
  unfold State.cardPixel
  dsimp only
  (repeat' split) <;> simp

@[simp] theorem State.cardOther_armed (c : CardWord) : (s.cardOther c).armed = s.armed := by
  unfold State.cardOther
  dsimp only
  (repeat' split) <;> simp

@[simp] theorem State.cardDrain_armed (u : Nat) : (s.cardDrain u).armed = s.armed := by simp [State.cardDrain]
@[simp] theorem State.cardEnter_armed (u : Nat) (c : CardWord) : (s.cardEnter u c).armed = s.armed := by simp [State.cardEnter]

@[simp] theorem execCardEvent_armed (u : Fin 8) (ecc : EccResult) (ptrBad : Bool) :
    s.KeepsArm (execCardEvent u ecc ptrBad s) := by
  unfold execCardEvent
  dsimp only
  (repeat' split) <;> simp

@[simp] theorem execWarmupEndTimeout_armed (slot : Fin 256) : s.KeepsArm (execWarmupEndTimeout slot s) := by
  unfold execWarmupEndTimeout
  split <;> simp

@[simp] theorem execBafScrub_armed (u : Fin 8) : s.KeepsArm (execBafScrub u s) := by simp [execBafScrub]

end

/-! #### The Kerb -/

section
variable (s : State)

@[simp] theorem State.countCopy_armed (unit : Nat) (zs : List Nat) : (s.countCopy unit zs).armed = s.armed := by
  unfold State.countCopy
  dsimp only
  rw [State.when_armed _ fun t => t.raiseWake_armed 2, State.approach_armed]
  induction zs using List.reverseRecOn with
  | nil => rfl
  | append_singleton zs z ih => simpa [List.foldl_append] using ih

@[simp] theorem execKerbCopyCount_armed (unit : Fin 8) : s.KeepsArm (execKerbCopyCount unit s) := by
  unfold execKerbCopyCount
  dsimp only
  (repeat' split) <;> simp

@[simp] theorem execBinBoundary_armed (unit : Fin 8) (zone : Fin 64) : s.KeepsArm (execBinBoundary unit zone s) := by
  simp [execBinBoundary]

@[simp] theorem execHoldExpiry_armed (_unit : Fin 8) (_zone : Fin 64) : s.KeepsArm (execHoldExpiry _unit _zone s) := by
  simp [execHoldExpiry]

@[simp] theorem State.poseFrame_armed (src : Nat) (f : List Byte) : (s.poseFrame src f).armed = s.armed := by
  simp [State.poseFrame]

@[simp] theorem execPoseFrameRx_armed (src : Fin 12) (frame : List Byte) : s.KeepsArm (execPoseFrameRx src frame s) := by
  simp [execPoseFrameRx]

@[simp] theorem execMaskRectCompute_armed : s.KeepsArm (execMaskRectCompute s) := by
  unfold execMaskRectCompute
  split <;> simp

@[simp] theorem execMaskAgeExpiry_armed : s.KeepsArm (execMaskAgeExpiry s) := by simp [execMaskAgeExpiry]
@[simp] theorem execLatchAge_armed (z : Fin 512) : s.KeepsArm (execLatchAge z s) := by simp [execLatchAge]
@[simp] theorem State.lateEntry_armed (e : LateEnt) : (s.lateEntry e).armed = s.armed := by simp [State.lateEntry]
@[simp] theorem State.lateLatch_armed (win z : Nat) : (s.lateLatch win z).armed = s.armed := by simp [State.lateLatch]

@[simp] theorem State.fireSlot_armed (d : Nat) : (s.fireSlot d).armed = s.armed := by
  unfold State.fireSlot
  dsimp only
  split <;> simp

@[simp] theorem State.hubSteps_armed : s.hubSteps.armed = s.armed := by simp [State.hubSteps]
@[simp] theorem execDeadlineFire_armed (slot : Fin 1024) : s.KeepsArm (execDeadlineFire slot s) := by simp [execDeadlineFire]

@[simp] theorem State.armSlot_armed (d dl win act vset spur : Nat) : (s.armSlot d dl win act vset spur).armed = s.armed := by
  simp [State.armSlot]

@[simp] theorem execSlotArm_armed (who : Agent) (slot : Fin 1024) (w : Word) : s.KeepsArm (execSlotArm who slot w s) := by
  rcases s.letIn_cases who .SLOT_CTRL_ARM slot.val with h | ⟨t, h, ht⟩ <;> simp [execSlotArm, *]

@[simp] theorem State.applyVerdict_armed (w code z : Nat) : (s.applyVerdict w code z).armed = s.armed := by
  simp [State.applyVerdict]

@[simp] theorem execVerdictCommit_armed (core : Fin 16) (rec : List Byte) : s.KeepsArm (execVerdictCommit core rec s) := by
  unfold execVerdictCommit
  dsimp only
  split <;> simp

@[simp] theorem State.showFault_armed : s.showFault.armed = s.armed := by
  unfold State.showFault
  split <;> simp

@[simp] theorem State.kerbReset_armed (readback : Bool) : (s.kerbReset readback).armed = s.armed := by simp [State.kerbReset]

@[simp] theorem execKrbReset_armed (who : Agent) (readback : Bool) : s.KeepsArm (execKrbReset who readback s) := by
  rcases s.letIn_cases who .KRB_RESET 0 with h | ⟨t, h, ht⟩ <;> simp [execKrbReset, *]

@[simp] theorem execKerbReset_armed (mb : Fin 64) (tag : BitVec 16) (readback : Bool) :
    s.KeepsArm (execKerbReset mb tag readback s) := by
  simp [execKerbReset]

@[simp] theorem execEstopInputChange_armed (i : Side) (high : Bool) : s.KeepsArm (execEstopInputChange i high s) := by
  simp [execEstopInputChange]

@[simp] theorem execEstopFilterExpiry_armed (i : Side) : s.KeepsArm (execEstopFilterExpiry i s) := by
  simp [execEstopFilterExpiry]

@[simp] theorem execEstopDiscTimeout_armed : s.KeepsArm (execEstopDiscTimeout s) := by
  unfold execEstopDiscTimeout
  split <;> simp

@[simp] theorem execFeedbackInputChange_armed (i : Side) (high : Bool) : s.KeepsArm (execFeedbackInputChange i high s) := by
  simp [execFeedbackInputChange]

@[simp] theorem execFeedbackTimeout_armed (i : Side) : s.KeepsArm (execFeedbackTimeout i s) := by
  unfold execFeedbackTimeout
  split <;> simp

@[simp] theorem execDarkTestStart_armed (o : SafeOut) : s.KeepsArm (execDarkTestStart o s) := by simp [execDarkTestStart]

@[simp] theorem execDarkTestSample_armed (o : SafeOut) (stopLevel : Bool) : s.KeepsArm (execDarkTestSample o stopLevel s) := by
  simp [execDarkTestSample]

@[simp] theorem execDarkTestEnd_armed (o : SafeOut) : s.KeepsArm (execDarkTestEnd o s) := by simp [execDarkTestEnd]
@[simp] theorem execOutStuckTimeout_armed (o : SafeOut) : s.KeepsArm (execOutStuckTimeout o s) := by simp [execOutStuckTimeout]
@[simp] theorem execUnitLockstep_armed (unit : Fin 8) : s.KeepsArm (execUnitLockstep unit s) := by simp [execUnitLockstep]
@[simp] theorem execChanMismatch_armed : s.KeepsArm (execChanMismatch s) := by simp [execChanMismatch]
@[simp] theorem execKerbCfgUe_armed : s.KeepsArm (execKerbCfgUe s) := by simp [execKerbCfgUe]
@[simp] theorem execKerbClockLoss_armed : s.KeepsArm (execKerbClockLoss s) := by simp [execKerbClockLoss]
@[simp] theorem State.tapForced_armed : s.tapForced.armed = s.armed := by simp [State.tapForced]

@[simp] theorem State.armKerb_armed (h : s.armed = true) : s.armKerb.2.armed = true := by
  unfold State.armKerb
  split
  · simp only [State.toolJudge_armed, State.kerbUpdate_armed, State.tapForced_armed, State.onWl1_armed]
    exact bne_iff_ne.2 (by simp [State.put, show Reg.KRB_STAT_ARMED.spec.width = 1 from rfl])
  · simp [h]

@[simp] theorem execKrbArm_armed (who : Agent) (w : Word) : s.KeepsArm (execKrbArm who w s) := by
  unfold execKrbArm
  rcases s.letIn_cases who .KRB_ARM_ARM 0 with h | ⟨t, h, ht⟩
  · simp only [h]
    (repeat' split) <;> simp [*]
  · simp [h, ht]

@[simp] theorem execKrbLatelogPop_armed (who : Agent) : s.KeepsArm (execKrbLatelogPop who s) := by
  unfold execKrbLatelogPop
  rcases s.admitRead_cases who .KRB_LATELOG 0 with h | ⟨t, h, ht⟩
  · simp only [h]
    (repeat' split) <;> simp
  · simp [h, ht]

@[simp] theorem execKerbLoad_armed (mb : Fin 64) (tag : BitVec 16) (image : List Word) :
    s.KeepsArm (execKerbLoad mb tag image s) := by
  refine s.keepsArm_runCmd mb tag 0x20 true fun c h => ?_
  simp [h]

end

/-! #### Mailboxes -/

section
variable (s : State)

@[simp] theorem State.mbWake_armed : s.mbWake.armed = s.armed := by simp [State.mbWake]
@[simp] theorem State.mbRings_armed (mb : Nat) : (s.mbRings mb).armed = s.armed := by simp [State.mbRings]

@[simp] theorem execMbEnable_armed (who : Agent) (mb : Fin 64) (w : Word) : s.KeepsArm (execMbEnable who mb w s) := by
  unfold execMbEnable
  rcases s.letIn_cases who .MB_CFG_EN mb.val with h | ⟨t, h, ht⟩ <;> simp only [h]
  · have hw := s.applyWord_armed who (Reg.MB_CFG_EN.offset mb.val) w.toNat
    split <;> next heq => simp_all
  · simp [ht]

@[simp] theorem execMbDisable_armed (who : Agent) (mb : Fin 64) (w : Word) : s.KeepsArm (execMbDisable who mb w s) := by
  unfold execMbDisable
  rcases s.letIn_cases who .MB_CFG_EN mb.val with h | ⟨t, h, ht⟩ <;> simp only [h]
  · have hw := s.applyWord_armed who (Reg.MB_CFG_EN.offset mb.val) w.toNat
    split <;> next heq => simp_all
  · simp [ht]

@[simp] theorem State.dbErr_armed (mb : Nat) : (s.dbErr mb).armed = s.armed := by simp [State.dbErr]

@[simp] theorem State.sqDoorbell_armed (who : Agent) (mb v : Nat) : (s.sqDoorbell who mb v).armed = s.armed := by
  rcases s.letIn_cases who .MB_SQ_DB mb with h | ⟨t, h, ht⟩ <;> simp [State.sqDoorbell, *]

@[simp] theorem execMbSqDb_armed (who : Agent) (mb : Fin 64) (v : BitVec 16) : s.KeepsArm (execMbSqDb who mb v s) := by
  simp [execMbSqDb]

@[simp] theorem execMbCqDb_armed (who : Agent) (mb : Fin 64) (v : BitVec 16) : s.KeepsArm (execMbCqDb who mb v s) := by
  rcases s.letIn_cases who .MB_CQ_DB mb with h | ⟨t, h, ht⟩ <;> simp [execMbCqDb, *]

@[simp] theorem State.fetchWait_armed (mb : Nat) (c : Cmd) : (s.fetchWait mb c).armed = s.armed := by
  unfold State.fetchWait
  split
  · have h := s.msWait_armed c.waitMs (mb / 8) c.waitH (if c.deadline = 0 then none else some c.deadline) (.cmd mb c.id)
    split <;> next heq => simp_all
  · simp

@[simp] theorem State.fetchChecks_armed (mb : Nat) (c : Cmd) : (s.fetchChecks mb c).armed = s.armed := by
  unfold State.fetchChecks
  dsimp only
  (repeat' split) <;> simp

@[simp] theorem execDescriptorFetch_armed (mb : Fin 64) (desc : List Byte) (cfg : CfgOps) :
    s.KeepsArm (execDescriptorFetch mb desc cfg s) := by
  simp [execDescriptorFetch]

@[simp] theorem execCommandTimeout_armed (mb : Fin 64) (tag : BitVec 16) : s.KeepsArm (execCommandTimeout mb tag s) := by
  unfold execCommandTimeout
  split <;> simp

@[simp] theorem State.mbStates_armed (l : List Nat) (st : Nat) : (s.mbStates l st).armed = s.armed := by simp [State.mbStates]
@[simp] theorem State.migrate_armed (core : Nat) : (s.migrate core).armed = s.armed := by simp [State.migrate]
@[simp] theorem State.spurDies_armed (sp : Nat) : (s.spurDies sp).armed = s.armed := by simp [State.spurDies]
@[simp] theorem State.nccFail_armed (core cause : Nat) : (s.nccFail core cause).armed = s.armed := by simp [State.nccFail]

@[simp] theorem execNccWatchdogExpiry_armed (core : Fin 16) : s.KeepsArm (execNccWatchdogExpiry core s) := by
  simp [execNccWatchdogExpiry]

@[simp] theorem execNccUe_armed (core : Fin 16) : s.KeepsArm (execNccUe core s) := by simp [execNccUe]

@[simp] theorem State.hostBlock_armed (mb : Nat) (c : Cmd) (a n : Nat) : (s.hostBlock mb c a n).armed = s.armed := by
  simp [State.hostBlock]

@[simp] theorem execNop_armed (mb : Fin 64) (tag : BitVec 16) : s.KeepsArm (execNop mb tag s) := by simp [execNop]
@[simp] theorem execGetInfo_armed (mb : Fin 64) (tag : BitVec 16) : s.KeepsArm (execGetInfo mb tag s) := by simp [execGetInfo]
@[simp] theorem execPtpStat_armed (mb : Fin 64) (tag : BitVec 16) : s.KeepsArm (execPtpStat mb tag s) := by simp [execPtpStat]

@[simp] theorem execPtpCfg_armed (mb : Fin 64) (tag : BitVec 16) (cfg : PtpSettings) : s.KeepsArm (execPtpCfg mb tag cfg s) := by
  simp [execPtpCfg]

end

/-! #### Surfaces -/

section
variable (s : State)

@[simp] theorem State.onSub_armed (i : Nat) (f : SubSt → SubSt) : (s.onSub i f).armed = s.armed := State.armed_congr rfl
@[simp] theorem State.stNap_armed (w v : Nat) : (s.stNap w v).armed = s.armed := by simp [State.stNap]
@[simp] theorem State.onTile_armed (i t : Nat) (f : TileSt → TileSt) : (s.onTile i t f).armed = s.armed := State.armed_congr rfl
@[simp] theorem State.fillTile_armed (i tile k v : Nat) : (s.fillTile i tile k v).armed = s.armed := by simp [State.fillTile]
@[simp] theorem State.winFlag_armed (i b w : Nat) : (s.winFlag i b w).armed = s.armed := by simp [State.winFlag]
@[simp] theorem State.openFlag_armed (i b : Nat) : (s.openFlag i b).armed = s.armed := by simp [State.openFlag]
@[simp] theorem State.mark_armed (i w t : Nat) : (s.mark i w t).armed = s.armed := by simp [State.mark]
@[simp] theorem State.markEvent_armed (i w t : Nat) : (s.markEvent i w t).armed = s.armed := by simp [State.markEvent]
@[simp] theorem State.freshen_armed (i : Nat) : (s.freshen i).armed = s.armed := by simp [State.freshen]
@[simp] theorem State.rebase_armed (i t time : Nat) : (s.rebase i t time).armed = s.armed := by simp [State.rebase]

@[simp] theorem State.writeStamp_armed (i t px : Nat) (pol : Bool) (time : Nat) :
    (s.writeStamp i t px pol time).armed = s.armed := by
  simp [State.writeStamp]

@[simp] theorem State.writeCount_armed (i t px : Nat) (pol : Bool) (time : Nat) :
    (s.writeCount i t px pol time).armed = s.armed := by
  simp [State.writeCount]

@[simp] theorem State.writeEvent_armed (i x y : Nat) (pol : Bool) (time : Nat) :
    (s.writeEvent i x y pol time).armed = s.armed := by
  simp [State.writeEvent]

@[simp] theorem State.napError_armed (e : NapErr) : (s.napError e).armed = s.armed := by simp [State.napError]

@[simp] theorem State.readTile_armed (i t ref win fmt : Nat) : (s.readTile i t ref win fmt).2.2.armed = s.armed := by
  unfold State.readTile
  split <;> simp

end

/-! #### The Fuller -/

section
variable (s : State)

@[simp] theorem State.battTake_armed (sp : Nat) : (s.battTake sp).2.armed = s.armed := by
  unfold State.battTake
  dsimp only
  split <;> simp

@[simp] theorem State.featDrop_armed (i : Nat) (flow : Bool) (n : Nat) : (s.featDrop i flow n).armed = s.armed := by
  simp [State.featDrop]

@[simp] theorem State.featClose_armed (i : Nat) (flow : Bool) : (s.featClose i flow).armed = s.armed := by
  unfold State.featClose
  split <;> simp

@[simp] theorem State.featPut_armed (i : Nat) (flow : Bool) (win rec' : Nat) : (s.featPut i flow win rec').armed = s.armed := by
  have h := s.battTake_armed (s.sub i).spur
  unfold State.featPut
  dsimp only
  (repeat' split) <;> simp_all

@[simp] theorem State.flowFit_armed (i k x y t : Nat) : (s.flowFit i k x y t).2.armed = s.armed := by
  unfold State.flowFit
  dsimp only
  (repeat' split) <;> simp

@[simp] theorem State.cornerTest_armed (i slot x y : Nat) (pol : Bool) (t stamp : Nat) (skip : Bool) :
    (s.cornerTest i slot x y pol t stamp skip).armed = s.armed := by
  simp [State.cornerTest]

@[simp] theorem State.flowTest_armed (i slot x y : Nat) (pol : Bool) (t stamp : Nat) (skip : Bool) :
    (s.flowTest i slot x y pol t stamp skip).armed = s.armed := by
  have h := s.flowFit_armed i (s.planeOf i pol) x y t
  unfold State.flowTest
  (repeat' split) <;> simp_all

@[simp] theorem State.fullerEvent_armed (i r t : Nat) (skipC skipF : Bool) :
    (s.fullerEvent i r t skipC skipF).armed = s.armed := by
  simp [State.fullerEvent]

@[simp] theorem State.warmOff_armed (i e : Nat) : (s.warmOff i e).armed = s.armed := by
  unfold State.warmOff
  split <;> simp

@[simp] theorem State.fullerControl_armed (q r : Nat) : (s.fullerControl q r).armed = s.armed := by
  unfold State.fullerControl
  split <;> simp

@[simp] theorem State.fullerGap_armed (q r : Nat) : (s.fullerGap q r).armed = s.armed := by simp [State.fullerGap]

@[simp] theorem State.fullerRecord_armed (q r : Nat) (skipC skipF : Bool) :
    (s.fullerRecord q r skipC skipF).armed = s.armed := by
  unfold State.fullerRecord
  split <;> simp

@[simp] theorem execFullerQueueRead_armed (ce ue : BitVec 8) (ptrBad : Bool) (nap : List NapErr)
    (skipCorner skipFlow : BitVec 8) :
    s.KeepsArm (execFullerQueueRead ce ue ptrBad nap skipCorner skipFlow s) := by
  unfold execFullerQueueRead
  dsimp only
  (repeat' split) <;> simp

@[simp] theorem State.takeSnap_armed (i : Nat) : (s.takeSnap i).armed = s.armed := by
  unfold State.takeSnap
  split <;> simp

@[simp] theorem State.closeWindow_armed (i : Nat) : (s.closeWindow i).armed = s.armed := by
  unfold State.closeWindow
  dsimp only
  split <;> simp

@[simp] theorem execWindowClose_armed (sub : Fin 64) : s.KeepsArm (execWindowClose sub s) := by simp [execWindowClose]

@[simp] theorem execFeatPop_armed (core : Fin 16) (sub : Fin 64) : s.KeepsArm (execFeatPop core sub s) := by
  unfold execFeatPop
  dsimp only
  (repeat' split) <;> simp

end

/-! #### The Mills -/

section
variable (s : State)

@[simp] theorem State.checkHeads_armed (m : Nat) : (s.checkHeads m).armed = s.armed := by simp [State.checkHeads]
@[simp] theorem State.headUe_armed (m : Nat) (a : Nat) : (s.headUe m a).armed = s.armed := by simp [State.headUe]

@[simp] theorem State.startTask_armed (m t : Nat) (r : RunTask) : (s.startTask m t r).armed = s.armed := by
  simp [State.startTask]

@[simp] theorem State.putTileList_armed (m a : Nat) (l : List Nat) : (s.putTileList m a l).armed = s.armed := by
  simp [State.putTileList]

@[simp] theorem State.endTemplate_armed (m : Nat) (d : List Byte) (l : List Nat) : (s.endTemplate m d l).armed = s.armed := by
  simp [State.endTemplate]

@[simp] theorem State.startInstance_armed (m q t e : Nat) (x : Expand) : (s.startInstance m q t e x).armed = s.armed := by
  unfold State.startInstance
  split <;> simp

@[simp] theorem State.startHead_armed (m q t : Nat) : (s.startHead m q t).armed = s.armed := by simp [State.startHead]

@[simp] theorem State.dispatchTo_armed (m q t : Nat) : (s.dispatchTo m q t).armed = s.armed := by
  unfold State.dispatchTo
  dsimp only
  split <;> simp

@[simp] theorem execTaskDispatch_armed (m : Fin 128) (ecc : SramEcc) : s.KeepsArm (execTaskDispatch m ecc s) := by
  unfold execTaskDispatch
  dsimp only
  (repeat' split) <;> simp

@[simp] theorem State.writeBack_armed (m : Nat) (r : RunTask) (codes : List Nat) : (s.writeBack m r codes).armed = s.armed := by
  simp [State.writeBack]

@[simp] theorem State.takeCounts_armed (m t : Nat) (r : RunTask) (o : TileOut) : (s.takeCounts m t r o).armed = s.armed := by
  unfold State.takeCounts
  split <;> simp

@[simp] theorem State.endTask_armed (m : Nat) (r : RunTask) (failed : Bool) : (s.endTask m r failed).armed = s.armed := by
  unfold State.endTask
  dsimp only
  (repeat' split) <;> simp

@[simp] theorem State.boundary_armed (m t : Nat) : (s.boundary m t).armed = s.armed := by simp [State.boundary]
@[simp] theorem State.askTest_armed (m t : Nat) : (s.askTest m t).armed = s.armed := by simp [State.askTest]
@[simp] theorem State.startTests_armed (m : Nat) : (s.startTests m).armed = s.armed := by simp [State.startTests]

@[simp] theorem State.testVerdict_armed (m t : Nat) (pass : Bool) : (s.testVerdict m t pass).armed = s.armed := by
  simp [State.testVerdict]

@[simp] theorem State.endUnitCmd_armed (m t : Nat) : (s.endUnitCmd m t).armed = s.armed := by
  unfold State.endUnitCmd
  split <;> simp

@[simp] theorem State.taskDone_armed (m t : Nat) (r : RunTask) (fn : TaskFn) : (s.taskDone m t r fn).armed = s.armed := by
  simp [State.taskDone]

@[simp] theorem execTaskComplete_armed (m : Fin 128) (t : Fin 16) (fn : TaskFn) (ecc : SramEcc) :
    s.KeepsArm (execTaskComplete m t fn ecc s) := by
  unfold execTaskComplete
  dsimp only
  (repeat' split) <;> simp

@[simp] theorem execTkcPostArrival_armed (arriving : Nat) : s.KeepsArm (execTkcPostArrival arriving s) := by
  simp [execTkcPostArrival]

@[simp] theorem execTaskWatchdog_armed (m : Fin 128) (t : Fin 16) : s.KeepsArm (execTaskWatchdog m t s) := by
  unfold execTaskWatchdog
  split <;> simp

@[simp] theorem execTeFault_armed (m : Fin 128) (t : Fin 16) (cause : TeCause) : s.KeepsArm (execTeFault m t cause s) := by
  cases cause <;> simp [execTeFault]

@[simp] theorem execMillFault_armed (m : Fin 128) (clock : Bool) : s.KeepsArm (execMillFault m clock s) := by
  simp [execMillFault]

@[simp] theorem execMillCreditTimeout_armed (m : Fin 128) : s.KeepsArm (execMillCreditTimeout m s) := by
  simp [execMillCreditTimeout]

@[simp] theorem execTeNantileClear_armed (who : Agent) (m : Fin 128) (t : Fin 16) (w : Word) :
    s.KeepsArm (execTeNantileClear who m t w s) := by
  unfold execTeNantileClear
  rcases s.letIn_cases who .TE_FLAGS_NANTILE (16 * m.val + t.val) with h | ⟨t, h, ht⟩ <;> simp [*]

@[simp] theorem State.addTasks_armed (m q v : Nat) : (s.addTasks m q v).armed = s.armed := by
  unfold State.addTasks
  split <;> simp

@[simp] theorem execTqTailWrite_armed (who : Agent) (m : Fin 128) (q : Fin 8) (v : BitVec 9) :
    s.KeepsArm (execTqTailWrite who m q v s) := by
  rcases s.letIn_cases who .TQ_TAIL (8 * m.val + q.val) with h | ⟨t, h, ht⟩ <;> simp [execTqTailWrite, *]

@[simp] theorem State.tqClear_armed (m q : Nat) : (s.tqClear m q).armed = s.armed := by simp [State.tqClear]

@[simp] theorem execTqClr_armed (who : Agent) (m : Fin 128) (q : Fin 8) : s.KeepsArm (execTqClr who m q s) := by
  rcases s.letIn_cases who .TQ_CLR (8 * m.val + q.val) with h | ⟨t, h, ht⟩ <;> simp [execTqClr, *]

@[simp] theorem State.teOff_armed (m mask : Nat) : (s.teOff m mask).armed = s.armed := by simp [State.teOff]

@[simp] theorem execTeOff_armed (who : Agent) (m : Fin 128) (mask : BitVec 16) : s.KeepsArm (execTeOff who m mask s) := by
  rcases s.letIn_cases who .MILL_CTRL_TE_OFF m.val with h | ⟨t, h, ht⟩ <;> simp [execTeOff, *]

@[simp] theorem State.teReadmit_armed (m mask : Nat) : (s.teReadmit m mask).armed = s.armed := by simp [State.teReadmit]

@[simp] theorem execTeReadmit_armed (who : Agent) (m : Fin 128) (mask : BitVec 16) : s.KeepsArm (execTeReadmit who m mask s) := by
  rcases s.letIn_cases who .MILL_CTRL_TE_READMIT m.val with h | ⟨t, h, ht⟩ <;> simp [execTeReadmit, *]

@[simp] theorem State.startRetest_armed (m : Nat) : (s.startRetest m).armed = s.armed := by simp [State.startRetest]

@[simp] theorem execMillRetest_armed (who : Agent) (m : Fin 128) : s.KeepsArm (execMillRetest who m s) := by
  rcases s.letIn_cases who .MILL_CMD_RETEST m.val with h | ⟨t, h, ht⟩ <;> simp [execMillRetest, *]

@[simp] theorem execMillReadmit_armed (who : Agent) (m : Fin 128) : s.KeepsArm (execMillReadmit who m s) := by
  rcases s.letIn_cases who .MILL_CMD_READMIT m.val with h | ⟨t, h, ht⟩ <;> simp [execMillReadmit, *]

@[simp] theorem State.bistMill_armed (fails : Nat) (bad : Bool) (m : Nat) : (s.bistMill fails bad m).armed = s.armed := by
  simp [State.bistMill]

@[simp] theorem State.setAvail_armed (mills tes : Nat) : (s.setAvail mills tes).armed = s.armed := by simp [State.setAvail]

@[simp] theorem State.loadAvail_armed (teFail : List (Fin 128 × BitVec 16)) (millFail : List (Fin 128)) :
    (s.loadAvail teFail millFail).armed = s.armed := by
  simp [State.loadAvail]

@[simp] theorem State.quadTest_armed (q : Nat) : (s.quadTest q).armed = s.armed := by simp [State.quadTest]

@[simp] theorem State.quadTested_armed (q : Nat) (teFail : List (Fin 128 × BitVec 16)) (millFail : List (Fin 128)) :
    (s.quadTested q teFail millFail).armed = s.armed := by
  simp [State.quadTested]

@[simp] theorem execBistComplete_armed (target : BistOf) (teFail : List (Fin 128 × BitVec 16)) (millFail : List (Fin 128)) :
    s.KeepsArm (execBistComplete target teFail millFail s) := by
  unfold execBistComplete
  split <;> simp

@[simp] theorem execTestPeriodTimer_armed (q : Fin 4) : s.KeepsArm (execTestPeriodTimer q s) := by simp [execTestPeriodTimer]

@[simp] theorem execUnitCtrl_armed (mb : Fin 64) (tag : BitVec 16) : s.KeepsArm (execUnitCtrl mb tag s) := by
  refine s.keepsArm_runCmd mb tag 0x68 false fun c => ?_
  dsimp only [State.fresh]
  split <;> simp

end

/-! #### Hatboxes -/

section
variable (s : State)

@[simp] theorem State.hbTasks_armed (b : HbBody) : (s.hbTasks b).2.armed = s.armed := by
  unfold State.hbTasks
  dsimp only
  (repeat' split) <;> simp

@[simp] theorem State.hbWrite_armed (b : HbBody) : (s.hbWrite b).armed = s.armed := by simp [State.hbWrite]
@[simp] theorem State.onHb_armed (sp i : Nat) (f : Hatbox → Hatbox) : (s.onHb sp i f).armed = s.armed := State.armed_congr rfl

@[simp] theorem State.hbCopy_armed (sp : Nat) (c : Cmd) (img : HbImage) : (s.hbCopy sp c img).armed = s.armed := by
  simp [State.hbCopy]

@[simp] theorem execHbLoad_armed (mb : Fin 64) (tag : BitVec 16) (img : HbImage) : s.KeepsArm (execHbLoad mb tag img s) := by
  refine s.keepsArm_runCmd mb tag 0x10 false fun c => ?_
  have h := (s.hbCopy (mb.val / 8) c img).hbTasks_armed img.body
  dsimp only
  (repeat' split) <;> simp_all

@[simp] theorem execHbUnload_armed (mb : Fin 64) (tag : BitVec 16) : s.KeepsArm (execHbUnload mb tag s) := by
  refine s.keepsArm_runCmd mb tag 0x11 false fun c => ?_
  dsimp only
  split <;> simp

@[simp] theorem State.moveMill_armed (sp i m : Nat) : (s.moveMill sp i m).armed = s.armed := by
  unfold State.moveMill
  dsimp only
  split <;> simp

@[simp] theorem State.hbRemap_armed (sp i : Nat) : (s.hbRemap sp i).armed = s.armed := by simp [State.hbRemap]

@[simp] theorem execHbQuery_armed (mb : Fin 64) (tag : BitVec 16) : s.KeepsArm (execHbQuery mb tag s) := by
  refine s.keepsArm_runCmd mb tag 0x13 true fun c => ?_
  dsimp only
  split <;> simp

@[simp] theorem State.queueInv_armed (v : Machine.Inv) : (s.queueInv v).armed = s.armed := by simp [State.queueInv]

@[simp] theorem State.invokeArm_armed (mb sp i d spent : Nat) (c : Cmd) : (s.invokeArm mb sp i d spent c).armed = s.armed := by
  simp [State.invokeArm]

@[simp] theorem execInvoke_armed (mb : Fin 64) (tag : BitVec 16) (spent : Nat) : s.KeepsArm (execInvoke mb tag spent s) := by
  refine s.keepsArm_runCmd mb tag 0x12 false fun c => ?_
  dsimp only
  (repeat' split) <;> simp

end

/-! #### Memory channels -/

section
variable (s : State)

@[simp] theorem State.chanRefresh_armed (c : Nat) : (s.chanRefresh c).armed = s.armed := by simp [State.chanRefresh]
@[simp] theorem State.chansRefresh_armed : s.chansRefresh.armed = s.armed := by simp [State.chansRefresh]
@[simp] theorem State.flrSettle_armed (sp : Nat) : (s.flrSettle sp).armed = s.armed := by simp [State.flrSettle]

@[simp] theorem State.scrubStops_armed (c : Nat) : (s.scrubStops c).armed = s.armed := by
  unfold State.scrubStops
  dsimp only
  (repeat' split) <;> simp

@[simp] theorem State.chanFail_armed (c cause : Nat) : (s.chanFail c cause).armed = s.armed := by simp [State.chanFail]
@[simp] theorem State.linkUe_armed (c a : Nat) : (s.linkUe c a).armed = s.armed := by simp [State.linkUe]

@[simp] theorem State.readErr_armed (e : ReadErr) (h : Nat) : (s.readErr e h).2.armed = s.armed := by
  unfold State.readErr
  dsimp only
  (repeat' split) <;> simp

@[simp] theorem execLpddrRetrain_armed (c : Fin 8) (mr4 : Byte) : s.KeepsArm (execLpddrRetrain c mr4 s) := by
  simp [execLpddrRetrain]

@[simp] theorem execLpddrPhyLockLoss_armed (c : Fin 8) : s.KeepsArm (execLpddrPhyLockLoss c s) := by simp [execLpddrPhyLockLoss]

end

/-! #### DMA -/

section
variable (s : State)

@[simp] theorem State.stBatt_armed (sp h i : Nat) (b : Byte) : (s.stBatt sp h i b).armed = s.armed := by simp [State.stBatt]

@[simp] theorem State.onXfers_armed (m ch : Nat) (f : List Xfer → List Xfer) :
    (s.onXfers m ch f).armed = s.armed := State.armed_congr rfl

@[simp] theorem State.dmaRefuse_armed (m ch : Nat) (d : List Byte) : (s.dmaRefuse m ch d).armed = s.armed := by
  unfold State.dmaRefuse
  dsimp only
  split <;> simp

@[simp] theorem execDmaTailWrite_armed (who : Agent) (m : Fin 128) (ch : Fin 4) (v : BitVec 6) :
    s.KeepsArm (execDmaTailWrite who m ch v s) := by
  rcases s.letIn_cases who .DC_TAIL (4 * m.val + ch.val) with h | ⟨t, h, ht⟩ <;> simp [execDmaTailWrite, *]

@[simp] theorem execDmaDescriptorFetch_armed (m : Fin 128) (ch : Fin 4) (ecc : SramEcc) :
    s.KeepsArm (execDmaDescriptorFetch m ch ecc s) := by
  unfold execDmaDescriptorFetch
  split <;> simp

@[simp] theorem State.readDmaTile_armed (m ch : Nat) : (s.readDmaTile m ch).armed = s.armed := by
  unfold State.readDmaTile
  dsimp only
  (repeat' split) <;> simp

@[simp] theorem State.tileTrailer_armed (tag tile : Nat) : (s.tileTrailer tag tile).2.armed = s.armed := by
  simp [State.tileTrailer]

@[simp] theorem State.readTaskTile_armed (m te : Nat) : (s.readTaskTile m te).armed = s.armed := by
  unfold State.readTaskTile
  split <;> simp

@[simp] theorem execTileRead_armed (m : Fin 128) (req : TileReq) (nap : List NapErr) : s.KeepsArm (execTileRead m req nap s) := by
  unfold execTileRead
  dsimp only
  (repeat' split) <;> simp

@[simp] theorem State.dmaStore_armed (m : Nat) (d : List Byte) (o : Nat) (b : Byte) : (s.dmaStore m d o b).armed = s.armed := by
  unfold State.dmaStore
  split <;> simp

@[simp] theorem State.eqrdLines_armed (q n : Nat) (l : List (BitVec 8 × BitVec 8 × Bool)) :
    (s.eqrdLines q n l).2.armed = s.armed := by
  induction n generalizing s l with
  | zero => rfl
  | succ n ih => simp [State.eqrdLines, ih]

@[simp] theorem State.dmaBytes_armed (m : Nat) (x : Xfer) (lines : List (BitVec 8 × BitVec 8 × Bool)) :
    (s.dmaBytes m x lines).2.armed = s.armed := by
  unfold State.dmaBytes
  dsimp only
  split <;> simp

@[simp] theorem execDmaTransferComplete_armed (m : Fin 128) (ch : Fin 4) (ecc : SramEcc) (err : ReadErr) (lines : List
    (BitVec 8 × BitVec 8 × Bool)) :
    s.KeepsArm (execDmaTransferComplete m ch ecc err lines s) := by
  unfold execDmaTransferComplete
  dsimp only
  (repeat' split) <;> simp

end

/-! #### Fusion -/

section
variable (s : State)

@[simp] theorem State.onGrid_armed (sp : Nat) (f : GridSt → GridSt) : (s.onGrid sp f).armed = s.armed := State.armed_congr rfl
@[simp] theorem State.clearTile_armed (sp win t : Nat) : (s.clearTile sp win t).armed = s.armed := by simp [State.clearTile]
@[simp] theorem State.openWin_armed (sp w : Nat) : (s.openWin sp w).armed = s.armed := by simp [State.openWin]
@[simp] theorem State.onWin_armed (sp w : Nat) (f : GridWin → GridWin) : (s.onWin sp w f).armed = s.armed := State.armed_congr rfl
@[simp] theorem State.gridFlag_armed (sp w b : Nat) : (s.gridFlag sp w b).armed = s.armed := by simp [State.gridFlag]
@[simp] theorem State.calSet_armed (slot : Nat) (all : Bool) : (s.calSet slot all).armed = s.armed := by simp [State.calSet]

@[simp] theorem State.calFollow_armed (slot : Nat) (all : Bool) : (s.calFollow slot all).armed = s.armed := by
  simp [State.calFollow]

@[simp] theorem State.calSettle_armed : s.calSettle.armed = s.armed := by simp [State.calSettle]

@[simp] theorem State.cellChan_armed (sp win cell c old stamp v : Nat) :
    (s.cellChan sp win cell c old stamp v).armed = s.armed := by
  unfold State.cellChan
  split <;> simp

@[simp] theorem State.cellWrite_armed (sp win i j b ch0 stamp : Nat) (vals : List Nat) :
    (s.cellWrite sp win i j b ch0 stamp vals).armed = s.armed := by
  simp [State.cellWrite]

@[simp] theorem State.dropRec_armed (sp win i : Nat) : (s.dropRec sp win i).armed = s.armed := by simp [State.dropRec]

@[simp] theorem State.onePoint_armed (sp : Nat) (d : List Byte) (p : List FVal) (stamp : Nat) (vals : List Nat) :
    (s.onePoint sp d p stamp vals).armed = s.armed := by
  unfold State.onePoint
  (repeat' split) <;> simp

@[simp] theorem State.bandPoint_armed (sp : Nat) (d : List Byte) (c ray : List FVal) (stamp : Nat) (vals : List Nat) (b : Nat) :
    (s.bandPoint sp d c ray stamp vals b).1.armed = s.armed := by
  unfold State.bandPoint
  dsimp only
  (repeat' split) <;> simp

@[simp] theorem State.projPoint_armed (j : PrjJob) (b : Nat) : (s.projPoint j b).1.armed = s.armed := by
  unfold State.projPoint
  dsimp only
  (repeat' split) <;> simp

@[simp] theorem State.projCycle_armed (p : Nat) : (s.projCycle p).armed = s.armed := by
  unfold State.projCycle
  dsimp only
  (repeat' split) <;> simp

@[simp] theorem State.projFinish_armed (p : Nat) : (s.projFinish p).armed = s.armed := by
  unfold State.projFinish
  split <;> simp

@[simp] theorem State.ringTake_armed (sp : Nat) (d : List Byte) : (s.ringTake sp d).2.armed = s.armed := by
  simp [State.ringTake]

@[simp] theorem State.jobReads_armed (sp : Nat) (d : List Byte) (err : Option (Nat × ReadErr)) :
    (s.jobReads sp d err).2.2.armed = s.armed := by
  unfold State.jobReads
  dsimp only
  (repeat' split) <;> simp

@[simp] theorem State.jobRun_armed (sp : Nat) (d : List Byte) (err : Option (Nat × ReadErr)) :
    (s.jobRun sp d err).2.2.armed = s.armed := by
  unfold State.jobRun
  dsimp only
  (repeat' split) <;> simp

@[simp] theorem State.noteLate_armed (sp w : Nat) : (s.noteLate sp w).armed = s.armed := by simp [State.noteLate]

@[simp] theorem State.jobDo_armed (sp : Nat) (d : List Byte) (err : Option (Nat × ReadErr)) :
    (s.jobDo sp d err).2.2.armed = s.armed := by
  unfold State.jobDo
  dsimp only
  (repeat' split) <;> simp

@[simp] theorem execProjectorJob_armed (spur : Fin 8) (desc : List Byte) (err : Option (Nat × ReadErr)) :
    s.KeepsArm (execProjectorJob spur desc err s) := by
  unfold execProjectorJob
  dsimp only
  split <;> simp

@[simp] theorem State.jobEnd_armed (sp place st : Nat) : (s.jobEnd sp place st).armed = s.armed := by simp [State.jobEnd]

@[simp] theorem execProjectorJobComplete_armed (p : Fin 16) : s.KeepsArm (execProjectorJobComplete p s) := by
  unfold execProjectorJobComplete
  split <;> simp

@[simp] theorem State.closeWin_armed (sp : Nat) (w : GridWin) : (s.closeWin sp w).armed = s.armed := by simp [State.closeWin]

@[simp] theorem execProjectorClose_armed (spur : Fin 8) (desc : List Byte) : s.KeepsArm (execProjectorClose spur desc s) := by
  unfold execProjectorClose
  dsimp only
  (repeat' split) <;> simp

end

/-! #### The Tracker -/

section
variable (s : State)

@[simp] theorem State.eachTrack_armed (sp : Nat) (f : Nat → Track → Track) : (s.eachTrack sp f).armed = s.armed := by
  simp [State.eachTrack]

@[simp] theorem State.associate_armed (sp t : Nat) (ds : List Detection) : (s.associate sp t ds).2.armed = s.armed := by
  simp [State.associate]

@[simp] theorem State.birth_armed (sp t : Nat) (d : Detection) : (s.birth sp t d).armed = s.armed := by simp [State.birth]

@[simp] theorem State.outInt_armed (lo hi : Int) (v : FVal) : (s.outInt lo hi v).2.armed = s.armed := by
  unfold State.outInt
  split <;> simp

@[simp] theorem State.trackRec_armed (x : Track) : (s.trackRec x).2.armed = s.armed := by
  simp only [State.trackRec, State.outInt_armed]
  refine State.foldl_armed (fun a v => ?_) x.axes _
  exact a.2.outInt_armed ..

@[simp] theorem State.trackOutput_armed (sp : Nat) (d : List Byte) : (s.trackOutput sp d).armed = s.armed := by
  simp only [State.trackOutput, State.onFt_armed, State.stSpur_armed]
  refine State.foldl_armed (fun a e => ?_) (s.tracksOf sp) _
  exact a.2.trackRec_armed e.2

@[simp] theorem State.passRan_armed (sp : Nat) (d : List Byte) : (s.passRan sp d).armed = s.armed := by simp [State.passRan]
@[simp] theorem State.passRun_armed (sp : Nat) (d : List Byte) : (s.passRun sp d).armed = s.armed := by simp [State.passRun]

@[simp] theorem State.passDo_armed (sp : Nat) (d : List Byte) (err : ReadErr) : (s.passDo sp d err).2.armed = s.armed := by
  unfold State.passDo
  dsimp only
  (repeat' split) <;> simp

@[simp] theorem State.flushDo_armed (sp : Nat) (d : List Byte) : (s.flushDo sp d).2.armed = s.armed := by
  unfold State.flushDo
  dsimp only
  (repeat' split) <;> simp

@[simp] theorem State.passKind_armed (r : PassReq) : (s.passKind r).2.armed = s.armed := by
  unfold State.passKind
  split <;> simp

@[simp] theorem State.passStart_armed : s.passStart.armed = s.armed := by
  unfold State.passStart
  split <;> simp

@[simp] theorem State.trkTick_armed : s.trkTick.armed = s.armed := by simp [State.trkTick]

@[simp] theorem State.passSubmit_armed (sp : Nat) (desc : List Byte) (err : ReadErr) :
    (s.passSubmit sp desc err).armed = s.armed := by
  simp [State.passSubmit]

@[simp] theorem execTrackerPass_armed (spur : Fin 8) (desc : List Byte) (err : ReadErr) :
    s.KeepsArm (execTrackerPass spur desc err s) := by
  simp [execTrackerPass]

@[simp] theorem execTrackerFlush_armed (spur : Fin 8) (desc : List Byte) : s.KeepsArm (execTrackerFlush spur desc s) := by
  simp [execTrackerFlush]

@[simp] theorem execTrackerPassComplete_armed : s.KeepsArm (execTrackerPassComplete s) := by
  unfold execTrackerPassComplete
  dsimp only
  split <;> simp

end

/-! #### What a Spur and a domain lose -/

section
variable (s : State)

@[simp] theorem State.dropCmds_armed (sp : Nat) : (s.dropCmds sp).armed = s.armed := by simp [State.dropCmds]
@[simp] theorem State.dropPort_armed (p : Nat) : (s.dropPort p).armed = s.armed := by simp [State.dropPort]

@[simp] theorem State.dropMillWork_armed (m : Nat) (reset : Bool) : (s.dropMillWork m reset).armed = s.armed := by
  simp [State.dropMillWork]

@[simp] theorem State.dropQueue_armed (q : Nat) : (s.dropQueue q).armed = s.armed := by simp [State.dropQueue]
@[simp] theorem State.dropTracks_armed (sp : Nat) : (s.dropTracks sp).armed = s.armed := by simp [State.dropTracks]
@[simp] theorem State.dropFul_armed (sp : Nat) : (s.dropFul sp).armed = s.armed := by simp [State.dropFul]

@[simp] theorem State.reviveCores_armed (sp : Nat) : (s.reviveCores sp).armed = s.armed := by
  refine State.each_armed _ (fun u c => ?_) _
  by_cases hc : bit u.mail.fenced c = true <;> simp [hc, State.fresh]

@[simp] theorem State.dropHeld_armed (f : Nat) : (s.dropHeld f).armed = s.armed := by
  refine State.each_armed _ (fun u p => ?_) _
  cases p <;> simp [State.fresh]

/-- An FLR takes nothing of class K (R369). -/
theorem State.flrTakes_armed (sp : Nat) : s.flrTakes sp .KRB_STAT_ARMED 0 = false := by
  have hcls : Reg.KRB_STAT_ARMED.spec.cls = .K := rfl
  simp [State.flrTakes, hcls]

@[simp] theorem State.spurLoses_armed (sp : Nat) : (s.spurLoses sp).armed = s.armed := by
  unfold State.spurLoses
  refine (State.lose_armed _ (s.flrTakes_armed sp)).trans ?_
  simp

@[simp] theorem State.dropHat_armed (sp : Nat) : (s.dropHat sp).armed = s.armed := by simp [State.dropHat]
@[simp] theorem State.flrSpur_armed (sp : Nat) : (s.flrSpur sp).armed = s.armed := by simp [State.flrSpur]

@[simp] theorem State.cwGone_armed : s.cwGone.armed = s.armed :=
  (State.kerbUpdate_armed _).trans (State.lose_armed _ (by decide))

@[simp] theorem State.flrFn_armed (f : Nat) : (s.flrFn f).armed = s.armed := by simp [State.flrFn]

end

/-! #### Spurs -/

section
variable (s : State)

@[simp] theorem State.applySettings_armed (mb : Nat) (l : List (Nat × Nat)) : (s.applySettings mb l).armed = s.armed := by
  simp [State.applySettings]

@[simp] theorem State.millSpurs_armed : s.millSpurs.armed = s.armed := by simp [State.millSpurs]

@[simp] theorem State.scrubGiven_armed (sp : Nat) (give : List (Nat × Nat)) (cmd : Option (Nat × Nat)) :
    (s.scrubGiven sp give cmd).armed = s.armed := by
  simp [State.scrubGiven]

@[simp] theorem State.spurWordDone_armed (sp kind old new : Nat) : (s.spurWordDone sp kind old new).armed = s.armed := by
  simp [State.spurWordDone]

@[simp] theorem State.spurAssign_armed (mb sp : Nat) (c : Cmd) : (s.spurAssign mb sp c).armed = s.armed := by
  have h : (s.lose fun r i => (r == .SPUR_GRANT || r == .SIGNER_HASH) && i / r.perUnit == sp).armed = s.armed :=
    s.lose_armed (by simp)
  simp [State.spurAssign, h]

@[simp] theorem execSpurCfg_armed (mb : Fin 64) (tag : BitVec 16) : s.KeepsArm (execSpurCfg mb tag s) := by
  refine s.keepsArm_runCmd mb tag 0x70 false fun c => ?_
  dsimp only [State.fresh]
  split <;> simp

@[simp] theorem State.releaseHeads_armed (p : Nat) : (s.releaseHeads p).armed = s.armed := by simp [State.releaseHeads]

@[simp] theorem State.scrubClears_armed (x : Nat × Nat) : (s.scrubClears x).armed = s.armed := by
  have hx : scrubTakes x .KRB_STAT_ARMED 0 = false := by
    have hb : Reg.KRB_STAT_ARMED.spec.base = 0x60008 := rfl
    unfold scrubTakes
    split <;> simp [hb]
  have h : ∀ u : State, (u.lose (scrubTakes x)).armed = u.armed := fun u => u.lose_armed hx
  unfold State.scrubClears
  split <;> simp [h]

@[simp] theorem execScrubComplete_armed (r : ScrubRes) : s.KeepsArm (execScrubComplete r s) := by
  unfold execScrubComplete
  dsimp only
  (repeat' split) <;> simp

@[simp] theorem execFlr_armed (fn : Fin 8) : s.KeepsArm (execFlr fn s) := by simp [execFlr]

@[simp] theorem State.stopMills_armed (sp : Nat) : (s.stopMills sp).armed = s.armed := by
  refine State.each_armed _ (fun u m => ?_) _
  simp

@[simp] theorem State.freshTiles_armed (sp : Nat) : (s.freshTiles sp).armed = s.armed := by simp [State.freshTiles]
@[simp] theorem State.spurFault_armed (sp code : Nat) : (s.spurFault sp code).armed = s.armed := by simp [State.spurFault]

@[simp] theorem execSpurFault_armed (sp : Fin 8) (fwCheck : Bool) : s.KeepsArm (execSpurFault sp fwCheck s) := by
  simp [execSpurFault]

end

/-! #### Security -/

section
variable (s : State)

@[simp] theorem State.answer_armed (r : DoeResp) : (s.answer r).armed = s.armed := by simp [State.answer]

@[simp] theorem keepsArm_openRequest (r : DoeResp) : s.KeepsArm (openRequest s r) := by
  simp [openRequest]

@[simp] theorem keepsArm_spdmRequest {f : State → State} (hf : (f s).armed = s.armed) : s.KeepsArm (spdmRequest s f) := by
  simp [spdmRequest, hf]

@[simp] theorem State.sessionError_armed : s.sessionError.armed = s.armed := by simp [State.sessionError]
@[simp] theorem execDoeDiscovery_armed (index : Byte) : s.KeepsArm (execDoeDiscovery index s) := by simp [execDoeDiscovery]
@[simp] theorem execGetVersion_armed : s.KeepsArm (execGetVersion s) := by simp [execGetVersion]
@[simp] theorem execGetCapabilities_armed : s.KeepsArm (execGetCapabilities s) := by simp [execGetCapabilities]
@[simp] theorem execNegotiateAlgorithms_armed : s.KeepsArm (execNegotiateAlgorithms s) := by simp [execNegotiateAlgorithms]
@[simp] theorem execGetDigests_armed : s.KeepsArm (execGetDigests s) := by simp [execGetDigests]

@[simp] theorem execGetCertificate_armed (slot : BitVec 4) (offset length : BitVec 16) :
    s.KeepsArm (execGetCertificate slot offset length s) := by
  simp [execGetCertificate]

@[simp] theorem execChallenge_armed (nonce : BitVec 256) : s.KeepsArm (execChallenge nonce s) := by simp [execChallenge]

@[simp] theorem execGetMeasurements_armed (index : Byte) : s.KeepsArm (execGetMeasurements index s) := by
  simp [execGetMeasurements]

@[simp] theorem execKeyExchange_armed (session : BitVec 16) : s.KeepsArm (execKeyExchange session s) := by
  simp [execKeyExchange]

@[simp] theorem execFinish_armed (session : BitVec 16) : s.KeepsArm (execFinish session s) := by simp [execFinish]

@[simp] theorem keepsArm_inSession (session : BitVec 16) {f : State → State} (hf : (f s).armed = s.armed) :
    s.KeepsArm (inSession session s f) := by
  simp [inSession, hf]

@[simp] theorem execHeartbeat_armed (session : BitVec 16) : s.KeepsArm (execHeartbeat session s) := by simp [execHeartbeat]
@[simp] theorem execKeyUpdate_armed (session : BitVec 16) : s.KeepsArm (execKeyUpdate session s) := by simp [execKeyUpdate]
@[simp] theorem execEndSession_armed (session : BitVec 16) : s.KeepsArm (execEndSession session s) := by simp [execEndSession]

@[simp] theorem execSpdmUnsupported_armed (_code : Byte) : s.KeepsArm (execSpdmUnsupported _code s) := by
  simp [execSpdmUnsupported]

@[simp] theorem execIdeKmQuery_armed : s.KeepsArm (execIdeKmQuery s) := by simp [execIdeKmQuery]

@[simp] theorem execKeyProg_armed (fn : Fin 8) (set1 : Bool) (transmit : Bool) (sub : IdeSub) :
    s.KeepsArm (execKeyProg fn set1 transmit sub s) := by
  simp [execKeyProg]

@[simp] theorem execKSetGo_armed (fn : Fin 8) (set1 : Bool) : s.KeepsArm (execKSetGo fn set1 s) :=
  keepsArm_spdmRequest s (by simp)

@[simp] theorem execKSetStop_armed (fn : Fin 8) (set1 : Bool) : s.KeepsArm (execKSetStop fn set1 s) :=
  keepsArm_spdmRequest s (by simp)

@[simp] theorem State.tdiError_armed (f : Nat) : (s.tdiError f).armed = s.armed := by simp [State.tdiError]

@[simp] theorem execIdeIntegrityFailure_armed (fn : Fin 8) : s.KeepsArm (execIdeIntegrityFailure fn s) := by
  simp [execIdeIntegrityFailure]

@[simp] theorem execGetTdispVersion_armed : s.KeepsArm (execGetTdispVersion s) := by simp [execGetTdispVersion]
@[simp] theorem execGetTdispCapabilities_armed : s.KeepsArm (execGetTdispCapabilities s) := by simp [execGetTdispCapabilities]

@[simp] theorem execLockInterfaceRequest_armed (tdi : Fin 8) : s.KeepsArm (execLockInterfaceRequest tdi s) := by
  simp [execLockInterfaceRequest]

@[simp] theorem execGetDeviceInterfaceReport_armed (tdi : Fin 8) : s.KeepsArm (execGetDeviceInterfaceReport tdi s) := by
  simp [execGetDeviceInterfaceReport]

@[simp] theorem execGetDeviceInterfaceState_armed (tdi : Fin 8) : s.KeepsArm (execGetDeviceInterfaceState tdi s) := by
  simp [execGetDeviceInterfaceState]

@[simp] theorem execStartInterfaceRequest_armed (tdi : Fin 8) : s.KeepsArm (execStartInterfaceRequest tdi s) := by
  simp [execStartInterfaceRequest]

@[simp] theorem execStopInterfaceRequest_armed (tdi : Fin 8) : s.KeepsArm (execStopInterfaceRequest tdi s) := by
  simp [execStopInterfaceRequest]

@[simp] theorem execIsoLogPop_armed (who : Agent) : s.KeepsArm (execIsoLogPop who s) := by
  unfold execIsoLogPop
  rcases s.admitRead_cases who .ISO_LOG_LO 0 with h | ⟨t, h, ht⟩
  · simp only [h]
    (repeat' split) <;> simp
  · simp [h, ht]

end

/-! #### Time -/

section
variable (s : State)

@[simp] theorem execTimeRawLoRead_armed (who : Agent) : s.KeepsArm (execTimeRawLoRead who s) := by
  rcases s.readOpen_cases who with h | ⟨t, h, ht⟩ <;> simp [execTimeRawLoRead, *]

@[simp] theorem execTimeRcLoRead_armed (who : Agent) : s.KeepsArm (execTimeRcLoRead who s) := by
  rcases s.admitRead_cases who .TIME_RC_HI 0 with h | ⟨t, h, ht⟩ <;> simp [execTimeRcLoRead, *]

@[simp] theorem State.noteNeg_armed : s.noteNeg.armed = s.armed := by simp [State.noteNeg]

@[simp] theorem State.capture_armed (who : Agent) : (s.capture who).armed = s.armed := by
  unfold State.capture
  split <;> simp

@[simp] theorem execTimeSnapGo_armed (who : Agent) : s.KeepsArm (execTimeSnapGo who s) := by
  rcases s.letIn_cases who .TIME_SNAP_GO 0 with h | ⟨t, h, ht⟩ <;> simp [execTimeSnapGo, *]

@[simp] theorem State.takeCommit_armed (c : Commit) : (s.takeCommit c).armed = s.armed := by simp [State.takeCommit]

@[simp] theorem State.settleCommit_armed : s.settleCommit.armed = s.armed := by
  unfold State.settleCommit
  split <;> simp

@[simp] theorem State.commitWrite_armed (who : Agent) (op : CommitOp) (ppm : Nat) :
    (s.commitWrite who op ppm).armed = s.armed := by
  rcases s.letIn_cases who .TIME_CMD_OP 0 with h | ⟨t, h, ht⟩ <;> simp [State.commitWrite, *]

@[simp] theorem execTimeCmdNone_armed (who : Agent) (ppm : BitVec 8) : s.KeepsArm (execTimeCmdNone who ppm s) := by
  rcases s.letIn_cases who .TIME_CMD_OP 0 with h | ⟨t, h, ht⟩ <;> simp [execTimeCmdNone, *]

@[simp] theorem execTimeCmdFold_armed (who : Agent) (ppm : BitVec 8) : s.KeepsArm (execTimeCmdFold who ppm s) := by
  simp [execTimeCmdFold]

@[simp] theorem execTimeCmdSlew_armed (who : Agent) (ppm : BitVec 8) : s.KeepsArm (execTimeCmdSlew who ppm s) := by
  simp [execTimeCmdSlew]

@[simp] theorem execTimeCmdStep_armed (who : Agent) (ppm : BitVec 8) : s.KeepsArm (execTimeCmdStep who ppm s) := by
  simp [execTimeCmdStep]

@[simp] theorem execTimeCommitRelease_armed : s.KeepsArm (execTimeCommitRelease s) := by
  unfold execTimeCommitRelease
  split <;> simp

@[simp] theorem execTimeCommitApply_armed : s.KeepsArm (execTimeCommitApply s) := by simp [execTimeCommitApply]
@[simp] theorem execSlewEnd_armed : s.KeepsArm (execSlewEnd s) := by simp [execSlewEnd]
@[simp] theorem State.updateTq_armed : s.updateTq.armed = s.armed := by simp [State.updateTq]

@[simp] theorem execRefLoss_armed (r : RefId) : s.KeepsArm (execRefLoss r s) := by
  unfold execRefLoss
  split <;> simp

@[simp] theorem State.trendRestart_armed : s.trendRestart.armed = s.armed := by simp [State.trendRestart]
@[simp] theorem State.refNoneClear_armed (m : RefMeas) : (s.refNoneClear m).armed = s.armed := by simp [State.refNoneClear]
@[simp] theorem State.gradeWindow_armed (m : RefMeas) : (s.gradeWindow m).armed = s.armed := by simp [State.gradeWindow]
@[simp] theorem State.trendWindow_armed (m : RefMeas) : (s.trendWindow m).armed = s.armed := by simp [State.trendWindow]
@[simp] theorem State.refSwitch_armed : s.refSwitch.armed = s.armed := by simp [State.refSwitch]

@[simp] theorem State.refDecide_armed (m : RefMeas) (base : Bool) : (s.refDecide m base).armed = s.armed := by
  simp [State.refDecide]

@[simp] theorem State.holdoverExit_armed : s.holdoverExit.armed = s.armed := by simp [State.holdoverExit]
@[simp] theorem execRefWindowEnd_armed (m : RefMeas) : s.KeepsArm (execRefWindowEnd m s) := by simp [execRefWindowEnd]
@[simp] theorem execRefNoneTimeout_armed : s.KeepsArm (execRefNoneTimeout s) := by simp [execRefNoneTimeout]
@[simp] theorem State.foreignMaster_armed (m : PtpMsg) : (s.foreignMaster m).armed = s.armed := by simp [State.foreignMaster]
@[simp] theorem execPtpMessageRx_armed (m : PtpMsg) : s.KeepsArm (execPtpMessageRx m s) := by simp [execPtpMessageRx]

@[simp] theorem execPtpPortStateChange_armed (st : PtpState) : s.KeepsArm (execPtpPortStateChange st s) := by
  simp [execPtpPortStateChange]

@[simp] theorem execArpRequestRx_armed (ip : Word) : s.KeepsArm (execArpRequestRx ip s) := by simp [execArpRequestRx]
@[simp] theorem execEthFrameDiscard_armed : s.KeepsArm (execEthFrameDiscard s) := by simp [execEthFrameDiscard]
@[simp] theorem State.txtsPush_armed (e : TxStamp) : (s.txtsPush e).armed = s.armed := by simp [State.txtsPush]
@[simp] theorem execPtpFrameTx_armed (id : BitVec 16) : s.KeepsArm (execPtpFrameTx id s) := by simp [execPtpFrameTx]

@[simp] theorem execPtpFrameDropped_armed (id : BitVec 16) : s.KeepsArm (execPtpFrameDropped id s) := by
  simp [execPtpFrameDropped]

@[simp] theorem execTxtsPop_armed (who : Agent) : s.KeepsArm (execTxtsPop who s) := by
  rcases s.letIn_cases who .TXTS_POP 0 with h | ⟨t, h, ht⟩ <;> simp [execTxtsPop, *]

end

/-! #### The Causeway -/

section
variable (s : State)

@[simp] theorem State.goodRefresh_armed : s.goodRefresh.armed = s.armed := by simp [State.goodRefresh]
@[simp] theorem State.newOutHop_armed : s.newOutHop.armed = s.armed := by simp [State.newOutHop]
@[simp] theorem State.loseBrims_armed (ds : List Nat) : (s.loseBrims ds).armed = s.armed := by simp [State.loseBrims]
@[simp] theorem State.newInHop_armed : s.newInHop.armed = s.armed := by simp [State.newInHop]
@[simp] theorem State.cwLeave_armed (st : Nat) : (s.cwLeave st).armed = s.armed := by simp [State.cwLeave]
@[simp] theorem State.cwRefresh_armed : s.cwRefresh.armed = s.armed := by simp [State.cwRefresh]
@[simp] theorem State.joinRing_armed : s.joinRing.armed = s.armed := by simp [State.joinRing]
@[simp] theorem State.abortCal_armed : s.abortCal.armed = s.armed := by simp [State.abortCal]
@[simp] theorem State.outGood_armed (good : Nat) : (s.outGood good).armed = s.armed := by simp [State.outGood]
@[simp] theorem State.sawMarker_armed : s.sawMarker.armed = s.armed := by simp [State.sawMarker]

@[simp] theorem State.keepsArm_marker (l : CwLane) (m : BitVec 256) {f : State → Nat → State}
    (hf : ∀ s n, (f s n).armed = s.armed) : s.KeepsArm (s.marker l m f) := by
  simp [State.marker, hf]

@[simp] theorem State.inFrame_armed (n : Nat) : (s.inFrame n).armed = s.armed := by simp [State.inFrame]
@[simp] theorem State.heardSplice_armed (w : Nat) : (s.heardSplice w).armed = s.armed := by simp [State.heardSplice]

@[simp] theorem execCwMarkerARx_armed (lane : CwLane) (m : BitVec 256) : s.KeepsArm (execCwMarkerARx lane m s) := by
  simp [execCwMarkerARx]

@[simp] theorem execCwMarkerBRx_armed (lane : CwLane) (m : BitVec 256) : s.KeepsArm (execCwMarkerBRx lane m s) := by
  simp [execCwMarkerBRx]

@[simp] theorem execCwFrameBoundary_armed : s.KeepsArm (execCwFrameBoundary s) := by simp [execCwFrameBoundary]
@[simp] theorem State.cwIn_armed (p : CwPacket) : (s.cwIn p).armed = s.armed := by simp [State.cwIn]

@[simp] theorem State.keepsArm_cwTake (p : CwPacket) (cls : Nat) {use own : State → State} (relay : CwPacket)
    (hu : ∀ s, s.armed = true → (use s).armed = true) (ho : ∀ s, s.armed = true → (own s).armed = true) :
    s.KeepsArm (s.cwTake p cls use own relay) := by
  have hin : s.armed = true → (s.cwIn p).armed = true := by simp
  unfold State.cwTake
  simp only [State.keepsArm_ite, State.keepsArm_done]
  refine ⟨fun _ => id, fun _ => ⟨fun _ => id, fun _ => ⟨fun _ => by simp, fun _ => ⟨fun _ => hin, fun _ => ?_⟩⟩⟩⟩
  refine ⟨fun _ h => ?_, fun _ h => ?_⟩
  · exact ho _ (by simp [h])
  · rw [State.when_armed _ fun u => by simp]
    exact State.when_keeps (fun t => t.armed = true) _ _ hu _ (hin h)

@[simp] theorem State.stopState_armed (p : CwPacket) : (s.stopState p).armed = s.armed := by simp [State.stopState]
@[simp] theorem execStopStateRx_armed (p : CwPacket) : s.KeepsArm (execStopStateRx p s) := by simp [execStopStateRx]
@[simp] theorem execAggTimeout_armed (d : Fin 16) : s.KeepsArm (execAggTimeout d s) := by simp [execAggTimeout]

@[simp] theorem State.timeReturn_armed (p : CwPacket) (arrival : Int) : (s.timeReturn p arrival).armed = s.armed := by
  simp [State.timeReturn]

@[simp] theorem State.brimServo_armed (theta : Int) : (s.brimServo theta).armed = s.armed := by simp [State.brimServo]

@[simp] theorem State.brimTime_armed (p : CwPacket) (arrival : Int) : (s.brimTime p arrival).armed = s.armed := by
  simp [State.brimTime]

@[simp] theorem execTimePacketRx_armed (p : CwPacket) (arrival : Int) (residence : BitVec 48) :
    s.KeepsArm (execTimePacketRx p arrival residence s) := by
  simp [execTimePacketRx]

@[simp] theorem State.sendTime_armed : s.sendTime.armed = s.armed := by simp [State.sendTime]
@[simp] theorem State.awaitTime_armed : s.awaitTime.armed = s.armed := by simp [State.awaitTime]

@[simp] theorem execCwTimeReturnTimeout_armed : s.KeepsArm (execCwTimeReturnTimeout s) := by
  unfold execCwTimeReturnTimeout
  split <;> simp

@[simp] theorem execHelloRx_armed (p : CwPacket) (proof : Bool) : s.KeepsArm (execHelloRx p proof s) := by simp [execHelloRx]
@[simp] theorem execHelloTimer_armed (nonce : BitVec 128) : s.KeepsArm (execHelloTimer nonce s) := by simp [execHelloTimer]

@[simp] theorem State.takeMap_armed (l : List MapEnt) (h : s.armed = true) : (s.takeMap l).armed = true := by
  unfold State.takeMap
  extract_lets s1 s2 s3 s4 s5 ok s6 s7
  have h2 : s2.armed = s1.armed := State.each_armed _ (fun u d => by split <;> simp) _
  have h5 : s5.armed = s4.armed := by
    unfold s5
    (repeat' split) <;> simp
  have h6 : s6.armed = true := by
    simp [s6, h5, s4, s3, h2, s1, h]
  rw [State.kerbUpdate_armed]
  unfold s7
  split
  · exact State.armKerb_armed _ h6
  · exact h6

@[simp] theorem execDiscoverRx_armed (p : CwPacket) : s.KeepsArm (execDiscoverRx p s) := by
  simp +contextual [execDiscoverRx]

@[simp] theorem execMapRx_armed (p : CwPacket) : s.KeepsArm (execMapRx p s) := by
  simp +contextual [execMapRx]

@[simp] theorem execCwDiscoverStart_armed : s.KeepsArm (execCwDiscoverStart s) := by simp [execCwDiscoverStart]
@[simp] theorem execCwMapBroadcast_armed : s.KeepsArm (execCwMapBroadcast s) := by simp [execCwMapBroadcast]
@[simp] theorem State.cwWrite_armed (p : CwPacket) : (s.cwWrite p).armed = s.armed := by simp [State.cwWrite]
@[simp] theorem State.takeCtrl_armed (p : CwPacket) : (s.takeCtrl p).armed = s.armed := by simp [State.takeCtrl]
@[simp] theorem execCtrlPacketRx_armed (p : CwPacket) : s.KeepsArm (execCtrlPacketRx p s) := by simp [execCtrlPacketRx]
@[simp] theorem execCtrlAckRx_armed (p : CwPacket) : s.KeepsArm (execCtrlAckRx p s) := by simp [execCtrlAckRx]

@[simp] theorem execCtrlRetryTimeout_armed (spur : Fin 8) (seq : Word) : s.KeepsArm (execCtrlRetryTimeout spur seq s) := by
  unfold execCtrlRetryTimeout
  split <;> simp

@[simp] theorem execDataPacketRx_armed (p : CwPacket) : s.KeepsArm (execDataPacketRx p s) := by simp [execDataPacketRx]
@[simp] theorem State.laneBad_armed (l : Nat) : (s.laneBad l).armed = s.armed := by simp [State.laneBad]
@[simp] theorem execCwLaneLoss_armed (lane : Fin 8) : s.KeepsArm (execCwLaneLoss lane s) := by simp [execCwLaneLoss]

@[simp] theorem execCwLaneErrorRate_armed (lane : Fin 8) : s.KeepsArm (execCwLaneErrorRate lane s) := by
  simp [execCwLaneErrorRate]

@[simp] theorem execCwLaneQualified_armed (lane : Fin 8) : s.KeepsArm (execCwLaneQualified lane s) := by
  simp [execCwLaneQualified]

@[simp] theorem execCwLaneCalStart_armed (lane : Fin 8) (inPath : Bool) : s.KeepsArm (execCwLaneCalStart lane inPath s) := by
  simp [execCwLaneCalStart]

@[simp] theorem execCwLaneCalDone_armed (lane : Fin 8) (inPath : Bool) (locked : Bool) :
    s.KeepsArm (execCwLaneCalDone lane inPath locked s) := by
  simp [execCwLaneCalDone]

@[simp] theorem execCwBatchCalDone_armed (failed : BitVec 8) (crosstalkHigh : Bool) :
    s.KeepsArm (execCwBatchCalDone failed crosstalkHigh s) := by
  unfold execCwBatchCalDone
  dsimp only
  (repeat' split) <;> simp

@[simp] theorem execCwNoMarkerTimeout_armed : s.KeepsArm (execCwNoMarkerTimeout s) := by simp [execCwNoMarkerTimeout]

@[simp] theorem execCwSplice_armed : s.KeepsArm (execCwSplice s) := by
  unfold execCwSplice
  (repeat' split) <;> simp

@[simp] theorem execCwSpliceSchedule_armed : s.KeepsArm (execCwSpliceSchedule s) := by simp [execCwSpliceSchedule]

@[simp] theorem execCwHopDataTimeout_armed (inHop : Bool) : s.KeepsArm (execCwHopDataTimeout inHop s) := by
  simp [execCwHopDataTimeout]

@[simp] theorem State.portFail_armed (what : Nat) : (s.portFail what).armed = s.armed := by simp [State.portFail]
@[simp] theorem execCwRxFailTimeout_armed : s.KeepsArm (execCwRxFailTimeout s) := by simp [execCwRxFailTimeout]
@[simp] theorem execCwTxBiasFault_armed : s.KeepsArm (execCwTxBiasFault s) := by simp [execCwTxBiasFault]

@[simp] theorem execCwCfg_armed (mb : Fin 64) (tag : BitVec 16) : s.KeepsArm (execCwCfg mb tag s) := by
  refine s.keepsArm_runCmd mb tag 0x7C false fun c => ?_
  (repeat' split) <;> simp

end

/-! #### Identity -/

section
variable (s : State)

@[simp] theorem State.idCount_armed (i : Nat) (n : Nat) : (s.idCount i n).armed = s.armed := by simp [State.idCount]

@[simp] theorem State.countStore_armed (r : Option IdStore) : (s.countStore r).armed = s.armed := by
  cases r <;> simp [State.countStore]

@[simp] theorem State.loadHotTable_armed (u : Nat) : (s.loadHotTable u).armed = s.armed := by
  unfold State.loadHotTable
  dsimp only
  split <;> simp

@[simp] theorem State.loadHot_armed (slot : Nat) (v : List Byte) : (s.loadHot slot v).armed = s.armed := by
  simp only [State.loadHot, State.onSlot_armed, State.idCount_armed]
  exact State.when_armed _ (fun u => by simp) _

@[simp] theorem State.loadHead_armed (slot : Nat) (l : List (Nat × List Byte)) : (s.loadHead slot l).armed = s.armed := by
  simp [State.loadHead]

@[simp] theorem State.tblRefresh_armed (u : Nat) : (s.tblRefresh u).armed = s.armed := by simp [State.tblRefresh]

end

/-! #### The Wayline -/

section
variable (s : State)

@[simp] theorem State.onPort_armed (p : Nat) (f : PortSt → PortSt) : (s.onPort p f).armed = s.armed := State.armed_congr rfl
@[simp] theorem State.onHead_armed (slot : Nat) (f : HeadSt → HeadSt) : (s.onHead slot f).armed = s.armed := State.armed_congr rfl
@[simp] theorem State.wlCount_armed (p i : Nat) : (s.wlCount p i).armed = s.armed := by simp [State.wlCount]
@[simp] theorem State.headsRefresh_armed (p : Nat) : (s.headsRefresh p).armed = s.armed := by simp [State.headsRefresh]
@[simp] theorem State.setHead_armed (slot st : Nat) : (s.setHead slot st).armed = s.armed := by simp [State.setHead]
@[simp] theorem State.freeHead_armed (slot : Nat) : (s.freeHead slot).armed = s.armed := by simp [State.freeHead]
@[simp] theorem State.portStart_armed (p : Nat) : (s.portStart p).armed = s.armed := by simp [State.portStart]
@[simp] theorem State.portStop_armed (p : Nat) : (s.portStop p).armed = s.armed := by simp [State.portStop]

@[simp] theorem State.wlCtrl_armed (who : Agent) (p : Nat) (w : Word) (en : Bool) : (s.wlCtrl who p w en).armed = s.armed := by
  unfold State.wlCtrl
  rcases s.letIn_cases who .WL_CTRL_EN p with h | ⟨t, h, ht⟩ <;> simp only [h]
  · have hw := s.applyWord_armed who (Reg.WL_CTRL_EN.offset p) w.toNat
    split
    · rfl
    · split <;> next heq => simp_all
  · exact ht

@[simp] theorem execWlPortEnable_armed (who : Agent) (p : Fin 8) (w : Word) : s.KeepsArm (execWlPortEnable who p w s) := by
  simp [execWlPortEnable]

@[simp] theorem execWlPortDisable_armed (who : Agent) (p : Fin 8) (w : Word) : s.KeepsArm (execWlPortDisable who p w s) := by
  simp [execWlPortDisable]

@[simp] theorem State.cutBurst_armed (p : Nat) : (s.cutBurst p).armed = s.armed := by
  unfold State.cutBurst
  split <;> simp

@[simp] theorem State.takePlace_armed (p : Nat) (delivered : Bool) : (s.takePlace p delivered).armed = s.armed := by
  simp [State.takePlace]

@[simp] theorem State.wordRsvd_armed (p : Nat) : (s.wordRsvd p).armed = s.armed := by simp [State.wordRsvd]
@[simp] theorem State.enterRetrain_armed (p : Nat) : (s.enterRetrain p).armed = s.armed := by simp [State.enterRetrain]
@[simp] theorem State.leaveRetrain_armed (p : Nat) : (s.leaveRetrain p).armed = s.armed := by simp [State.leaveRetrain]
@[simp] theorem execWlInlanesLock_armed (p : Fin 8) : s.KeepsArm (execWlInlanesLock p s) := by simp [execWlInlanesLock]
@[simp] theorem execWlLaneLoss_armed (p : Fin 8) : s.KeepsArm (execWlLaneLoss p s) := by simp [execWlLaneLoss]

@[simp] theorem execBlockDiscard_armed (p : Fin 8) (b : BadBlock) : s.KeepsArm (execBlockDiscard p b s) := by
  simp [execBlockDiscard]

@[simp] theorem execLaneAlignRx_armed (p : Fin 8) (aligned : Bool) : s.KeepsArm (execLaneAlignRx p aligned s) := by
  simp [execLaneAlignRx]

@[simp] theorem execReservedWordRx_armed (p : Fin 8) (w : Word) : s.KeepsArm (execReservedWordRx p w s) := by
  simp [execReservedWordRx]

@[simp] theorem State.beginBurst_armed (p pos len interval : Nat) (ok : Bool) :
    (s.beginBurst p pos len interval ok).armed = s.armed := by
  simp [State.beginBurst]

@[simp] theorem State.dropBurst_armed (p pos len cnt : Nat) (interval : Option Nat) :
    (s.dropBurst p pos len cnt interval).armed = s.armed := by
  unfold State.dropBurst
  split <;> simp

@[simp] theorem State.takeOpen_armed (p pos len i : Nat) : (s.takeOpen p pos len i).armed = s.armed := by simp [State.takeOpen]
@[simp] theorem execOpenRx_armed (p : Fin 8) (w : Word) : s.KeepsArm (execOpenRx p w s) := by simp [execOpenRx]

@[simp] theorem keepsArm_burstWord (p : Fin 8) (w : Word) (types : Nat → Bool) {f : State → Burst → State}
    (hf : ∀ b, (f s b).armed = s.armed) : s.KeepsArm (burstWord p w types s f) := by
  unfold burstWord
  (repeat' split) <;> simp [hf]

@[simp] theorem execPixelEventRx_armed (p : Fin 8) (w : Word) : s.KeepsArm (execPixelEventRx p w s) := by
  simp [execPixelEventRx]

@[simp] theorem execGapMarkerWordRx_armed (p : Fin 8) (w : Word) : s.KeepsArm (execGapMarkerWordRx p w s) := by
  simp [execGapMarkerWordRx]

@[simp] theorem State.auxevPush_armed (p : Nat) (e : AuxEv) : (s.auxevPush p e).armed = s.armed := by simp [State.auxevPush]

@[simp] theorem execTrigAuxWordRx_armed (p : Fin 8) (w : Word) : s.KeepsArm (execTrigAuxWordRx p w s) := by
  simp [execTrigAuxWordRx]

@[simp] theorem keepsArm_statusWord (p : Fin 8) (w : Word) (sub : Nat) {f : State → Nat → State}
    (hf : ∀ b, (f s b).armed = s.armed) : s.KeepsArm (statusWord p w sub s f) := by
  simp [statusWord, hf]

@[simp] theorem execHealthRx_armed (p : Fin 8) (w : Word) : s.KeepsArm (execHealthRx p w s) := by simp [execHealthRx]
@[simp] theorem execLeaveReqRx_armed (p : Fin 8) (w : Word) : s.KeepsArm (execLeaveReqRx p w s) := by simp [execLeaveReqRx]
@[simp] theorem execWmMissRx_armed (p : Fin 8) (w : Word) : s.KeepsArm (execWmMissRx p w s) := by simp [execWmMissRx]
@[simp] theorem State.mgmtPut_armed (p seq : Nat) (r : MgmtReq) : (s.mgmtPut p seq r).armed = s.armed := by simp [State.mgmtPut]
@[simp] theorem State.mgmtSend_armed (p : Nat) (r : MgmtReq) : (s.mgmtSend p r).armed = s.armed := by simp [State.mgmtSend]
@[simp] theorem State.mgmtCast_armed (p : Nat) (r : MgmtReq) : (s.mgmtCast p r).armed = s.armed := by simp [State.mgmtCast]

@[simp] theorem State.mgmtDone_armed (p seq : Nat) : (s.mgmtDone p seq).armed = s.armed := by
  unfold State.mgmtDone
  dsimp only
  split <;> simp

@[simp] theorem State.placeHead_armed (p id : Nat) : (s.placeHead p id).armed = s.armed := by simp [State.placeHead]

@[simp] theorem State.placeTemps_armed (p : Nat) (ids : List Nat) : (s.placeTemps p ids).armed = s.armed := by
  simp [State.placeTemps]

@[simp] theorem State.wmField_armed (v : Int) : (s.wmField v).2.armed = s.armed := by
  unfold State.wmField
  split <;> simp

@[simp] theorem State.wmRefresh_armed (p : Nat) : (s.wmRefresh p).armed = s.armed := by simp [State.wmRefresh]

@[simp] theorem State.reportHot_armed (p : Nat) : (s.reportHot p).armed = s.armed := by
  unfold State.reportHot
  split <;> simp

@[simp] theorem State.startHeads_armed (p : Nat) : (s.startHeads p).armed = s.armed := by simp [State.startHeads]
@[simp] theorem State.sendEnum_armed (p : Nat) : (s.sendEnum p).armed = s.armed := by simp [State.sendEnum]

@[simp] theorem State.nextIdent_armed (p : Nat) : (s.nextIdent p).armed = s.armed := by
  unfold State.nextIdent
  dsimp only
  (repeat' split) <;> simp

@[simp] theorem State.rejectHead_armed (p dest : Nat) : (s.rejectHead p dest).armed = s.armed := by simp [State.rejectHead]

@[simp] theorem State.rejectStore_armed (p dest result : Nat) : (s.rejectStore p dest result).armed = s.armed := by
  simp [State.rejectStore]

@[simp] theorem State.configHead_armed (slot : Nat) : (s.configHead slot).armed = s.armed := by simp [State.configHead]

@[simp] theorem State.identDone_armed (p dest : Nat) (st : List Byte) : (s.identDone p dest st).armed = s.armed := by
  unfold State.identDone
  dsimp only
  split
  · simp
  · split
    · simp only [State.ite_armed]
      split
      · simp
      · split
        · simp
        · split <;> simp
    · simp [State.fresh]

@[simp] theorem State.headNumbered_armed (p dest pos : Nat) : (s.headNumbered p dest pos).armed = s.armed := by
  unfold State.headNumbered
  dsimp only
  split <;> simp

@[simp] theorem State.identData_armed (p addr : Nat) (data : List Byte) : (s.identData p addr data).armed = s.armed := by
  unfold State.identData
  dsimp only
  (repeat' split) <;> simp

@[simp] theorem State.mgmtResult_armed (p : Nat) (r : MgmtReq) (ok : Bool) (data : List Byte) :
    (s.mgmtResult p r ok data).armed = s.armed := by
  unfold State.mgmtResult
  split <;> simp

@[simp] theorem execMgmtResponseRx_armed (p : Fin 8) (frame : List Byte) : s.KeepsArm (execMgmtResponseRx p frame s) := by
  unfold execMgmtResponseRx
  dsimp only
  (repeat' split) <;> simp

@[simp] theorem execEnumReturn_armed (p : Fin 8) (frame : List Byte) : s.KeepsArm (execEnumReturn p frame s) := by
  unfold execEnumReturn
  dsimp only
  (repeat' split) <;> simp

@[simp] theorem execMgmtRequestTimeout_armed (p : Fin 8) (seq : Byte) : s.KeepsArm (execMgmtRequestTimeout p seq s) := by
  unfold execMgmtRequestTimeout
  split <;> simp

@[simp] theorem State.sendWaymark_armed (p : Nat) : (s.sendWaymark p).armed = s.armed := by simp [State.sendWaymark]
@[simp] theorem execWaymarkBoundary_armed : s.KeepsArm (execWaymarkBoundary s) := by simp [execWaymarkBoundary]
@[simp] theorem State.loseHead_armed (slot : Nat) : (s.loseHead slot).armed = s.armed := by simp [State.loseHead]
@[simp] theorem State.liveness_armed (p w : Nat) : (s.liveness p w).armed = s.armed := by simp [State.liveness]
@[simp] theorem State.silence_armed (p w : Nat) : (s.silence p w).armed = s.armed := by simp [State.silence]

@[simp] theorem State.loopRegs_armed (p delay corr : Nat) : (s.loopRegs p delay corr).armed = s.armed := by
  simp [State.loopRegs]

@[simp] theorem State.landed_armed (p w : Nat) : (s.landed p w).armed = s.armed := by simp [State.landed]
@[simp] theorem State.resumeAt_armed (p w : Nat) : (s.resumeAt p w).armed = s.armed := by simp [State.resumeAt]
@[simp] theorem State.askPositions_armed (p : Nat) : (s.askPositions p).armed = s.armed := by simp [State.askPositions]

@[simp] theorem State.waymarkBack_armed (p w delay corr : Nat) : (s.waymarkBack p w delay corr).armed = s.armed := by
  simp [State.waymarkBack]

@[simp] theorem execWaymarkReturn_armed (p : Fin 8) (w0 w1 : Word) (delay : Nat) :
    s.KeepsArm (execWaymarkReturn p w0 w1 delay s) := by
  unfold execWaymarkReturn
  dsimp only
  (repeat' split) <;> simp

@[simp] theorem execWaymarkReturnTimeout_armed (p : Fin 8) : s.KeepsArm (execWaymarkReturnTimeout p s) := by
  unfold execWaymarkReturnTimeout
  dsimp only
  split <;> simp

@[simp] theorem execSplicePeriodExpiry_armed (p : Fin 8) : s.KeepsArm (execSplicePeriodExpiry p s) := by
  simp [execSplicePeriodExpiry]

@[simp] theorem State.spliceOut_armed (p b : Nat) : (s.spliceOut p b).armed = s.armed := by simp [State.spliceOut]

@[simp] theorem execSpliceWindowEnd_armed (p : Fin 8) : s.KeepsArm (execSpliceWindowEnd p s) := by
  unfold execSpliceWindowEnd
  split <;> simp

end

/-! #### The Hatband -/

section
variable (s : State)

@[simp] theorem State.hbState_armed : s.hbState.armed = s.armed := by simp [State.hbState]
@[simp] theorem State.antCheck_armed (amp : Nat) : (s.antCheck amp).armed = s.armed := by simp [State.antCheck]

@[simp] theorem execHbEnable_armed (who : Agent) (w : Word) (amplitude : BitVec 12) :
    s.KeepsArm (execHbEnable who w amplitude s) := by
  unfold execHbEnable
  rcases s.letIn_cases who .HB_CFG_EN 0 with h | ⟨t, h, ht⟩ <;> simp only [h]
  · have hw := s.applyWord_armed who (Reg.HB_CFG_EN.offset 0) w.toNat
    split <;> next heq => simp_all
  · simp [ht]

@[simp] theorem State.hbDisable_armed : s.hbDisable.armed = s.armed := by simp [State.hbDisable]
@[simp] theorem State.tagSend_armed (uid code arg : Nat) : (s.tagSend uid code arg).armed = s.armed := by simp [State.tagSend]

@[simp] theorem State.tagReadRange_armed (uid blk base size : Nat) : (s.tagReadRange uid blk base size).armed = s.armed := by
  simp [State.tagReadRange]

@[simp] theorem State.tagReadStart_armed : s.tagReadStart.armed = s.armed := by
  unfold State.tagReadStart
  split <;> simp

@[simp] theorem execHbPoll_armed (uids : List DWord) (air : PollAir) : s.KeepsArm (execHbPoll uids air s) := by
  unfold execHbPoll
  dsimp only
  (repeat' split) <;> simp

@[simp] theorem State.toolAccept_armed (l : List (Nat × List Byte)) : (s.toolAccept l).armed = s.armed := by
  simp [State.toolAccept]

@[simp] theorem State.idOp_armed (result : Nat) (newValid : Bool) (restarts : Nat) (active : Option (Bool × Nat)) :
    (s.idOp result newValid restarts active).armed = s.armed := by
  unfold State.idOp
  split <;> simp

@[simp] theorem State.tagReadCmds_armed (uid blk : Nat) (r : Option IdStore) : (s.tagReadCmds uid blk r).armed = s.armed := by
  unfold State.tagReadCmds
  split <;> simp

@[simp] theorem execHbTagReadDone_armed (uid : DWord) (block : Nat) (store : List Byte) :
    s.KeepsArm (execHbTagReadDone uid block store s) := by
  unfold execHbTagReadDone
  dsimp only
  (repeat' split) <;> simp

@[simp] theorem State.idSend_armed (w : IdWriteSt) : (s.idSend w).armed = s.armed := by
  unfold State.idSend
  dsimp only
  (repeat' split) <;> simp

@[simp] theorem execHbTagNoResponse_armed (miss : TagMiss) : s.KeepsArm (execHbTagNoResponse miss s) := by
  unfold execHbTagNoResponse
  dsimp only [State.fresh]
  (repeat' split) <;> simp

@[simp] theorem State.idStep_armed (w : IdWriteSt) (step : Nat) : (s.idStep w step).armed = s.armed := by simp [State.idStep]

@[simp] theorem State.idEnd_armed (w : IdWriteSt) (result : Nat) (newValid : Bool) :
    (s.idEnd w result newValid).armed = s.armed := by
  simp [State.idEnd]

@[simp] theorem State.idRefuse_armed (mb : Nat) (c : Cmd) (result : Nat) (x : Option IdStore) :
    (s.idRefuse mb c result x).armed = s.armed := by
  simp [State.idRefuse]

@[simp] theorem State.readForWrite_armed (m : Medium) (x : Option IdStore) : (s.readForWrite m x).armed = s.armed := by
  simp [State.readForWrite]

@[simp] theorem execIdWrite_armed (mb : Fin 64) (tag : BitVec 16) (m : Medium) (payload store : List Byte)
    (lockedBlocks : List Nat) (s : State) : s.KeepsArm (execIdWrite mb tag m payload store lockedBlocks s) := by
  unfold execIdWrite
  split
  · simp
  · refine s.keepsArm_runCmd mb tag 0x58 true fun c => ?_
    dsimp only
    (repeat' split) <;> simp

@[simp] theorem execIdWriteBlockDone_armed (m : Medium) (a : IdAnswer) (store : List Byte) :
    s.KeepsArm (execIdWriteBlockDone m a store s) := by
  unfold execIdWriteBlockDone
  dsimp only
  (repeat' split) <;> simp

@[simp] theorem execIdWriteCollapse_armed (m : Medium) : s.KeepsArm (execIdWriteCollapse m s) := by
  unfold execIdWriteCollapse
  dsimp only
  (repeat' split) <;> simp

@[simp] theorem execIdWriteResume_armed (m : Medium) (ident : DWord) (store : List Byte) :
    s.KeepsArm (execIdWriteResume m ident store s) := by
  unfold execIdWriteResume
  split <;> simp

@[simp] theorem execIdWriteResumeTimeout_armed (m : Medium) : s.KeepsArm (execIdWriteResumeTimeout m s) := by
  unfold execIdWriteResumeTimeout
  split <;> simp

@[simp] theorem execIdLockdir_armed (mb : Fin 64) (tag : BitVec 16) (store : List Byte) (answers : List IdAnswer) :
    s.KeepsArm (execIdLockdir mb tag store answers s) := by
  unfold execIdLockdir
  split
  · simp
  · refine s.keepsArm_runCmd mb tag 0x59 false fun c => ?_
    dsimp only
    (repeat' split) <;> simp

@[simp] theorem execIdRead_armed (mb : Fin 64) (tag : BitVec 16) (m : Medium) (store : List Byte) :
    s.KeepsArm (execIdRead mb tag m store s) := by
  refine s.keepsArm_runCmd mb tag 0x5A true fun c => ?_
  dsimp only
  (repeat' split) <;> simp

end

/-! #### Auxiliary signals -/

section
variable (s : State)

@[simp] theorem State.onChain_armed (k : Nat) (f : ChainSt → ChainSt) : (s.onChain k f).armed = s.armed := State.armed_congr rfl
@[simp] theorem State.chainPush_armed (k : Nat) (o : ChOut) : (s.chainPush k o).armed = s.armed := by simp [State.chainPush]

@[simp] theorem State.chainTake_armed (k stamp : Nat) (x : Option Int) : (s.chainTake k stamp x).armed = s.armed := by
  unfold State.chainTake
  dsimp only
  split <;> simp

@[simp] theorem State.feed_armed (src stamp : Nat) (data : List Byte) (missed : List Nat) :
    (s.feed src stamp data missed).armed = s.armed := by
  simp [State.feed]

@[simp] theorem execChPop_armed (who : Agent) (k : Fin 16) : s.KeepsArm (execChPop who k s) := by
  rcases s.letIn_cases who .CH_POP k.val with h | ⟨t, h, ht⟩ <;> simp [execChPop, *]

@[simp] theorem State.spiEvent_armed (p stamp : Nat) : (s.spiEvent p stamp).armed = s.armed := by
  unfold State.spiEvent
  (repeat' split) <;> simp

@[simp] theorem execDrdyEdge_armed (p : Fin 8) : s.KeepsArm (execDrdyEdge p s) := by simp [execDrdyEdge]

@[simp] theorem execSpiFrameDone_armed (p : Fin 8) (data : List Byte) : s.KeepsArm (execSpiFrameDone p data s) := by
  unfold execSpiFrameDone
  split <;> simp

@[simp] theorem State.i3cEvent_armed (c d stamp : Nat) : (s.i3cEvent c d stamp).armed = s.armed := by
  unfold State.i3cEvent
  split <;> simp

@[simp] theorem execI3cIbi_armed (c : Fin 4) (d : Fin 8) : s.KeepsArm (execI3cIbi c d s) := by simp [execI3cIbi]

@[simp] theorem execI3cReadDone_armed (c : Fin 4) (d : Fin 8) (data : List Byte) : s.KeepsArm (execI3cReadDone c d data s) := by
  unfold execI3cReadDone
  split <;> simp

@[simp] theorem execI3cHotJoin_armed (c : Fin 4) (d : Fin 8) : s.KeepsArm (execI3cHotJoin c d s) := by simp [execI3cHotJoin]
@[simp] theorem State.onTrig_armed (n : Nat) (f : TrigSt → TrigSt) : (s.onTrig n f).armed = s.armed := State.armed_congr rfl
@[simp] theorem State.trigMiss_armed (n k : Nat) : (s.trigMiss n k).armed = s.armed := by simp [State.trigMiss]
@[simp] theorem State.trigStop_armed (n : Nat) : (s.trigStop n).armed = s.armed := by simp [State.trigStop]
@[simp] theorem State.trigArm_armed (n : Nat) : (s.trigArm n).armed = s.armed := by simp [State.trigArm]

@[simp] theorem execTrigEnable_armed (who : Agent) (n : Fin 8) (w : Word) : s.KeepsArm (execTrigEnable who n w s) := by
  unfold execTrigEnable
  rcases s.letIn_cases who .TRIG_CTRL_EN n.val with h | ⟨t, h, ht⟩ <;> simp only [h]
  · have hw := s.applyWord_armed who (Reg.TRIG_CTRL_EN.offset n.val) w.toNat
    split <;> next heq => simp_all
  · simp [ht]

@[simp] theorem execTrigDisable_armed (who : Agent) (n : Fin 8) (w : Word) : s.KeepsArm (execTrigDisable who n w s) := by
  unfold execTrigDisable
  rcases s.letIn_cases who .TRIG_CTRL_EN n.val with h | ⟨t, h, ht⟩ <;> simp only [h]
  · have hw := s.applyWord_armed who (Reg.TRIG_CTRL_EN.offset n.val) w.toNat
    split <;> next heq => simp_all
  · simp [ht]

@[simp] theorem execTrigCountWrite_armed (who : Agent) (n : Fin 8) (count : BitVec 16) :
    s.KeepsArm (execTrigCountWrite who n count s) := by
  rcases s.letIn_cases who .TRIG_COUNT n.val with h | ⟨t, h, ht⟩ <;> simp [execTrigCountWrite, *]

@[simp] theorem State.trigFrames_armed (n edge : Nat) : (s.trigFrames n edge).armed = s.armed := by simp [State.trigFrames]

@[simp] theorem execTrigEdge_armed (n : Fin 8) : s.KeepsArm (execTrigEdge n s) := by
  unfold execTrigEdge
  dsimp only
  split <;> simp

@[simp] theorem execTrigPulseEnd_armed (n : Fin 8) : s.KeepsArm (execTrigPulseEnd n s) := by
  unfold execTrigPulseEnd
  split <;> simp

@[simp] theorem State.trigGate_armed : s.trigGate.armed = s.armed := by simp [State.trigGate]

@[simp] theorem State.trigResume_armed : s.trigResume.armed = s.armed := by
  refine State.each_armed _ (fun u n => ?_) _
  (repeat' split) <;> simp

@[simp] theorem execAuxevPop_armed (who : Agent) (p : Fin 8) : s.KeepsArm (execAuxevPop who p s) := by
  rcases s.letIn_cases who .AUXEV_POP p.val with h | ⟨t, h, ht⟩ <;> simp [execAuxevPop, *]

@[simp] theorem execEthLinkLoss_armed : s.KeepsArm (execEthLinkLoss s) := by simp [execEthLinkLoss]
@[simp] theorem execEthLinkUp_armed : s.KeepsArm (execEthLinkUp s) := by simp [execEthLinkUp]
@[simp] theorem execEthTxFault_armed (asserted : Bool) : s.KeepsArm (execEthTxFault asserted s) := by simp [execEthTxFault]
@[simp] theorem execGpioEdge_armed (pin : Fin 16) (high : Bool) : s.KeepsArm (execGpioEdge pin high s) := by simp [execGpioEdge]

@[simp] theorem execGpioPop_armed (who : Agent) : s.KeepsArm (execGpioPop who s) := by
  rcases s.letIn_cases who .GPIO_POP 0 with h | ⟨t, h, ht⟩ <;> simp [execGpioPop, *]

@[simp] theorem execTapInstruction_armed (i : TapInstr) : s.KeepsArm (execTapInstruction i s) := by simp [execTapInstruction]

end

/-! #### Power domains -/

section
variable (s : State)

/-- The Kerb's state is of class K, which a warm reset and a gated domain keep (R460). -/
theorem Reg.not_volatile_armed : Reg.KRB_STAT_ARMED.volatile = false := rfl

@[simp] theorem State.loseRegs_armed (d : Nat) : (s.loseRegs d).armed = s.armed := s.lose_armed (by simp [Reg.not_volatile_armed])
@[simp] theorem State.loseCtrl_armed : s.loseCtrl.armed = s.armed := by simp [State.loseCtrl]
@[simp] theorem State.loseHost_armed : s.loseHost.armed = s.armed := by simp [State.loseHost]
@[simp] theorem State.loseMem_armed : s.loseMem.armed = s.armed := by simp [State.loseMem]

@[simp] theorem State.loseAux_armed : s.loseAux.armed = s.armed := by
  unfold State.loseAux
  split <;> simp

@[simp] theorem State.losePort_armed (p : Nat) : (s.losePort p).armed = s.armed := by
  unfold State.losePort
  rw [State.dropPort_armed]
  exact s.lose_armed (by simp [Reg.not_volatile_armed])

@[simp] theorem State.loseFul_armed : s.loseFul.armed = s.armed := by simp [State.loseFul]
@[simp] theorem State.loseKerb_armed : s.loseKerb.armed = s.armed := by simp [State.loseKerb]
@[simp] theorem State.loseQuad_armed (q : Nat) : (s.loseQuad q).armed = s.armed := by simp [State.loseQuad]
@[simp] theorem State.loseCw_armed : s.loseCw.armed = s.armed := by simp [State.loseCw]
@[simp] theorem State.loseDomain_armed (d : Nat) : (s.loseDomain d).armed = s.armed := by simp [State.loseDomain]
@[simp] theorem State.setDom_armed (d : Nat) (on : Bool) : (s.setDom d on).armed = s.armed := by simp [State.setDom]
@[simp] theorem State.portBack_armed (p : Nat) : (s.portBack p).armed = s.armed := by simp [State.portBack]
@[simp] theorem State.hostBack_armed : s.hostBack.armed = s.armed := by simp [State.hostBack]
@[simp] theorem State.auxBack_armed : s.auxBack.armed = s.armed := by simp [State.auxBack]
@[simp] theorem State.freshSub_armed (i : Nat) : (s.freshSub i).armed = s.armed := by simp [State.freshSub]
@[simp] theorem State.fulBack_armed : s.fulBack.armed = s.armed := by simp [State.fulBack]

@[simp] theorem State.cardBack_armed (d : Nat) (pass : Option Nat) : (s.cardBack d pass).armed = s.armed := by
  unfold State.cardBack
  dsimp only
  (repeat' split) <;> simp

@[simp] theorem State.domainUp_armed (d : Nat) (pass : Option Nat) : (s.domainUp d pass).armed = s.armed := by
  simp [State.domainUp]

@[simp] theorem State.thermRefresh_armed : s.thermRefresh.armed = s.armed := by simp [State.thermRefresh]
@[simp] theorem State.gateDomain_armed (d : Nat) : (s.gateDomain d).armed = s.armed := by simp [State.gateDomain]
@[simp] theorem State.rstCause_armed (kind : Nat) : (s.rstCause kind).armed = s.armed := by simp [State.rstCause]
@[simp] theorem State.hotReset_armed : s.hotReset.armed = s.armed := by simp [State.hotReset]
@[simp] theorem execHotReset_armed : s.KeepsArm (execHotReset s) := by simp [execHotReset]

end

/-! #### The host link -/

section
variable (s : State)

@[simp] theorem State.flushHeld_armed (f : Nat) : (s.flushHeld f).armed = s.armed := by simp [State.flushHeld]
@[simp] theorem State.flushPba_armed (f : Nat) : (s.flushPba f).armed = s.armed := by simp [State.flushPba]

@[simp] theorem execMsixUnmask_armed (f : Fin 8) (en fnMask : Bool) (vecMask : Word) :
    s.KeepsArm (execMsixUnmask f en fnMask vecMask s) := by
  simp [execMsixUnmask]

@[simp] theorem execBusMasterEnable_armed (f : Fin 8) (en : Bool) : s.KeepsArm (execBusMasterEnable f en s) := by
  simp [execBusMasterEnable]

@[simp] theorem execDStateChange_armed (f : Fin 8) (d3hot : Bool) : s.KeepsArm (execDStateChange f d3hot s) := by
  simp [execDStateChange]

@[simp] theorem execHostDmaCompletion_armed (mb : Fin 64) (data : List Byte) : s.KeepsArm (execHostDmaCompletion mb data s) := by
  simp [execHostDmaCompletion]

@[simp] theorem State.haltMb_armed (mb : Nat) : (s.haltMb mb).armed = s.armed := by simp [State.haltMb]

@[simp] theorem execHostDmaError_armed (mb : Fin 64) (what : DmaUse) (kind : Fin 5) :
    s.KeepsArm (execHostDmaError mb what kind s) := by
  unfold execHostDmaError
  split <;> simp

@[simp] theorem State.enterL2_armed : s.enterL2.armed = s.armed := by simp [State.enterL2]
@[simp] theorem execPmeTurnOff_armed : s.KeepsArm (execPmeTurnOff s) := by simp [execPmeTurnOff]
@[simp] theorem State.wakeRelease_armed : s.wakeRelease.armed = s.armed := by simp [State.wakeRelease]
@[simp] theorem execPciePerst_armed (low : Bool) : s.KeepsArm (execPciePerst low s) := by simp [execPciePerst]

@[simp] theorem execPcieWakeTimeout_armed : s.KeepsArm (execPcieWakeTimeout s) := by
  unfold execPcieWakeTimeout
  split <;> simp

@[simp] theorem execPcieLinkUp_armed (speed : BitVec 3) (width : BitVec 4) : s.KeepsArm (execPcieLinkUp speed width s) := by
  simp [execPcieLinkUp]

@[simp] theorem execVfEnableWrite_armed (en : Bool) (num : Fin 8) : s.KeepsArm (execVfEnableWrite en num s) := by
  simp [execVfEnableWrite]

end

/-! #### Power -/

section
variable (s : State)

@[simp] theorem State.rdyRefresh_armed : s.rdyRefresh.armed = s.armed := by
  unfold State.rdyRefresh
  split <;> simp

@[simp] theorem State.supersede_armed : s.supersede.armed = s.armed := by simp [State.supersede]
@[simp] theorem execPmReq_armed (mb : Fin 64) (tag : BitVec 16) : s.KeepsArm (execPmReq mb tag s) := by simp [execPmReq]
@[simp] theorem State.setPmTarget_armed (t : Nat) : (s.setPmTarget t).armed = s.armed := by simp [State.setPmTarget]
@[simp] theorem State.setPmWake_armed (r : PmReq) : (s.setPmWake r).armed = s.armed := by simp [State.setPmWake]

@[simp] theorem State.startReq_armed (r : PmReq) (drain : Nat) : (s.startReq r drain).armed = s.armed := by
  simp [State.startReq]

@[simp] theorem State.pendReq_armed (r : PmReq) : (s.pendReq r).armed = s.armed := by simp [State.pendReq]
@[simp] theorem State.clearPend_armed : s.clearPend.armed = s.armed := by simp [State.clearPend]

@[simp] theorem execWaitp_armed (temp : Int) (drain : Nat) : s.KeepsArm (execWaitp temp drain s) := by
  unfold execWaitp
  dsimp only
  split <;> simp

@[simp] theorem State.pmDone_armed : s.pmDone.armed = s.armed := by simp [State.pmDone]
@[simp] theorem State.pmReached_armed (last : Nat) : (s.pmReached last).armed = s.armed := by simp [State.pmReached]
@[simp] theorem State.entryDone_armed : s.entryDone.armed = s.armed := by simp [State.entryDone]

@[simp] theorem State.railMv_armed (rail : Nat) (c : RailCmd) : (s.railMv rail c).2.armed = s.armed := by
  unfold State.railMv
  (repeat' split) <;> simp [State.fresh]

@[simp] theorem State.opComplete_armed (p : Nat × Nat × Nat × Nat → Bool) (st detail : Nat) :
    (s.opComplete p st detail).armed = s.armed := by
  simp [State.opComplete]

@[simp] theorem State.opEnd_armed (q st detail : Nat) : (s.opEnd q st detail).armed = s.armed := by simp [State.opEnd]
@[simp] theorem State.opReached_armed (q op : Nat) : (s.opReached q op).armed = s.armed := by simp [State.opReached]

@[simp] theorem State.railDone_armed (w : RailWait) : (s.railDone w).armed = s.armed := by
  unfold State.railDone
  split <;> simp

@[simp] theorem State.dropWait_armed (w : RailWait) : (s.dropWait w).armed = s.armed := by simp [State.dropWait]

@[simp] theorem State.railsReady_armed : s.railsReady.armed = s.armed := by
  unfold State.railsReady
  (repeat' split) <;> simp

@[simp] theorem execRailAck_armed (rail : Fin 5) : s.KeepsArm (execRailAck rail s) := by
  unfold execRailAck
  dsimp only
  (repeat' split) <;> simp

@[simp] theorem State.abortRails_armed : s.abortRails.armed = s.armed := by simp [State.abortRails]

@[simp] theorem execRailAckTimeout_armed (rail : Fin 5) : s.KeepsArm (execRailAckTimeout rail s) := by
  unfold execRailAckTimeout
  dsimp only
  (repeat' split) <;> simp

@[simp] theorem execWakeHostpin_armed : s.KeepsArm (execWakeHostpin s) := by simp [execWakeHostpin]
@[simp] theorem execWakeTimer_armed : s.KeepsArm (execWakeTimer s) := by simp [execWakeTimer]
@[simp] theorem execWakeWlport_armed (p : Fin 8) : s.KeepsArm (execWakeWlport p s) := by simp [execWakeWlport]
@[simp] theorem execWakeCwlight_armed (p : Fin 4) : s.KeepsArm (execWakeCwlight p s) := by simp [execWakeCwlight]
@[simp] theorem execAonTherm_armed (temp : Int) : s.KeepsArm (execAonTherm temp s) := by simp [execAonTherm]
@[simp] theorem execAonIlim_armed : s.KeepsArm (execAonIlim s) := by simp [execAonIlim]

@[simp] theorem State.retFail_armed (d : Nat) : (s.retFail d).armed = s.armed := by
  have h := s.lose_armed
    (p := fun r i => r.domain i == some d && r.spec.cls != .K && r.spec.cls != .F && !r.staysGated && !r.millHealth)
    (by simp [show Reg.KRB_STAT_ARMED.spec.cls = .K from rfl])
  unfold State.retFail
  dsimp only
  by_cases hd : d = pdCtrl
  · subst hd
    simp [State.fresh, h]
  · simp [hd, h]

@[simp] theorem State.ctrlBack_armed : s.ctrlBack.armed = s.armed := by simp [State.ctrlBack]

@[simp] theorem execWakeComplete_armed (badGroups : BitVec 13) : s.KeepsArm (execWakeComplete badGroups s) := by
  simp [execWakeComplete]

@[simp] theorem execMqOp_armed (mb : Fin 64) (tag : BitVec 16) : s.KeepsArm (execMqOp mb tag s) := by simp [execMqOp]
@[simp] theorem execOppointSwitch_armed (q : Fin 4) : s.KeepsArm (execOppointSwitch q s) := by simp [execOppointSwitch]
@[simp] theorem execBowCrossing_armed (rail : Fin 3) : s.KeepsArm (execBowCrossing rail s) := by simp [execBowCrossing]

@[simp] theorem execBowEnd_armed : s.KeepsArm (execBowEnd s) := by
  unfold execBowEnd
  dsimp only
  (repeat' split) <;> simp

@[simp] theorem execPmbAlert_armed (rail : Fin 5) (fault : Bool) : s.KeepsArm (execPmbAlert rail fault s) := by
  simp [execPmbAlert]

end

/-! #### Stored data -/

section
variable (s : State)

@[simp] theorem State.loadBanks_armed : s.loadBanks.armed = s.armed := by simp [State.loadBanks]

@[simp] theorem State.wrFit_armed {r : Reg} (h : r ≠ .KRB_STAT_ARMED) (v : Nat) : (s.wrFit r v).armed = s.armed := by
  simp [State.wrFit, State.fresh, h]

@[simp] theorem State.holdUpCheck_armed (code us : Nat) : (s.holdUpCheck code us).2.2.armed = s.armed := by
  simp [State.holdUpCheck]

@[simp] theorem State.storeTorn_armed (x : StoreSt) : (s.storeTorn x).armed = s.armed := by simp [State.storeTorn]

@[simp] theorem State.storeCut_armed : s.storeCut.armed = s.armed := by
  unfold State.storeCut
  split <;> simp

@[simp] theorem State.storeEnd_armed (x : StoreSt) (out : Nat) : (s.storeEnd x out).armed = s.armed := by simp [State.storeEnd]

@[simp] theorem State.storeTrim_armed (x : StoreSt) (cells : Bool) : (s.storeTrim x cells).armed = s.armed := by
  unfold State.storeTrim
  split <;> simp

@[simp] theorem State.storeStep_armed (x : StoreSt) (cells : Bool) (n step : Nat) :
    (s.storeStep x cells n step).armed = s.armed := by
  induction n generalizing s x step with
  | zero => rfl
  | succ n ih => simp [State.storeStep, ih]

@[simp] theorem execCalStore_armed (mb : Fin 64) (tag : BitVec 16) (payload : List Byte) (settings : List RegSet)
    (code : BitVec 12) (times : FlashTimes) (s : State) : s.KeepsArm (execCalStore mb tag payload settings code times s) := by
  refine s.keepsArm_runCmd mb tag 0x78 true fun c => ?_
  dsimp only
  (repeat' split) <;> simp

@[simp] theorem execFlashOpComplete_armed (ok good cells : Bool) : s.KeepsArm (execFlashOpComplete ok good cells s) := by
  unfold execFlashOpComplete
  dsimp only
  (repeat' split) <;> simp

end

/-! #### Boot -/

section
variable (s : State)

@[simp] theorem State.takeFused_armed (f : FusedId) : (s.takeFused f).armed = s.armed := by simp [State.takeFused]
@[simp] theorem State.coldFuses_armed (f : BootFacts) : (s.coldFuses f).armed = s.armed := by simp [State.coldFuses]

@[simp] theorem State.warmFuses_armed (f : BootFacts) : (s.warmFuses f).armed = s.armed := by
  unfold State.warmFuses
  dsimp only
  generalize (List.find? _ _) = o
  cases o <;> simp

@[simp] theorem State.takeStraps_armed (f : BootFacts) : (s.takeStraps f).armed = s.armed := by simp [State.takeStraps]
@[simp] theorem State.takeRefs_armed (f : BootFacts) : (s.takeRefs f).armed = s.armed := by simp [State.takeRefs]

@[simp] theorem State.romStart_armed (f : BootFacts) : (s.romStart f).2.armed = s.armed := by
  unfold State.romStart
  dsimp only
  (repeat' split) <;> simp

@[simp] theorem State.flashImage_armed (f : BootFacts) : (s.flashImage f).2.armed = s.armed := by simp [State.flashImage]
@[simp] theorem State.bootFails_armed : s.bootFails.armed = s.armed := by simp [State.bootFails]
@[simp] theorem State.deriveKeys_armed (f : BootFacts) : (s.deriveKeys f).armed = s.armed := by simp [State.deriveKeys]
@[simp] theorem State.coresUp_armed (fail : Nat) : (s.coresUp fail).armed = s.armed := by simp [State.coresUp]
@[simp] theorem State.ngxRegs_armed (f : BootFacts) : (s.ngxRegs f).armed = s.armed := by simp [State.ngxRegs]
@[simp] theorem State.bootUp_armed (f : BootFacts) : (s.bootUp f).armed = s.armed := by simp [State.bootUp]

@[simp] theorem State.bootKerb_armed (h : s.armed = true) : s.bootKerb.armed = true := by
  have hw : ∀ l : List (Nat × Nat), (s.each l fun s p => (s.applyWord (.fw 0) p.1 p.2).2).armed = true := fun l =>
    (State.each_armed _ (fun u p => u.applyWord_armed ..) l).trans h
  unfold State.bootKerb
  (repeat' split) <;> simp [hw, h]

@[simp] theorem State.bootTrim_armed (f : BootFacts) : (s.bootTrim f).armed = s.armed := by
  unfold State.bootTrim
  split
  · rfl
  · simp

@[simp] theorem State.coldBoot_armed (f : BootFacts) (h : s.armed = true) : (s.coldBoot f).armed = true := by
  have hflash : ∀ u : State, (u.lose fun r _ => r.spec.src == .flash).armed = u.armed := fun u => u.lose_armed (by decide)
  unfold State.coldBoot
  extract_lets s1 s2 s3
  have h3 : s3.armed = true := by simp [s3, s2, s1, h]
  have hrom := s3.romStart_armed f
  split
  · next u hu =>
    rw [hu] at hrom
    simp_all
  · next u hu =>
    rw [hu] at hrom
    have himage := u.flashImage_armed f
    split <;> next v hv =>
      rw [hv] at himage
      simp_all

@[simp] theorem State.warmLose_armed : s.warmLose.armed = s.armed := by
  have h : ∀ u : State, (u.lose fun r _ => r.volatile).armed = u.armed := fun u => u.lose_armed Reg.not_volatile_armed
  simp [State.warmLose, h]

@[simp] theorem State.journalLost_armed (why : Nat) : (s.journalLost why).armed = s.armed := by
  unfold State.journalLost
  rw [State.record_armed, State.put_armed _ (by decide)]
  exact State.each_armed _ (fun u sp => (State.lose_armed _ (s.flrTakes_armed sp)).trans (u.flrMs_armed sp)) _

@[simp] theorem State.warmBoot_armed (pin : Bool) (f : BootFacts) : (s.warmBoot pin f).armed = s.armed := by
  unfold State.warmBoot
  extract_lets s1 s2
  have h2 : s2.armed = s.armed := by simp [s2, s1]
  have hrom := s2.romStart_armed f
  split
  · next u hu =>
    rw [hu] at hrom
    simp_all
  · next u hu =>
    rw [hu] at hrom
    extract_lets chan
    split
    next copy v hv =>
      have hv : v.armed = u.armed := by
        split at hv <;> cases hv <;> rfl
      have himage : (if copy = 1 then (true, v.put .BOOT_STAT_IMG_BAD 0 false) else v.flashImage f).2.armed = v.armed := by
        split <;> simp
      split <;> next t ht =>
        rw [ht] at himage
        simp_all

end

/-! #### Resets -/

section
variable (s : State)

@[simp] theorem execBorEnd_armed (facts : BootFacts) : s.KeepsArm (execBorEnd facts s) := by
  simp only [execBorEnd, State.keepsArm_checked]
  intro _
  (repeat' split) <;> simp +contextual

@[simp] theorem State.warmReset_armed (kind : Nat) {after : State → State} (hf : ∀ s, (after s).armed = s.armed) :
    (s.warmReset kind after).armed = s.armed := by
  simp [State.warmReset, hf]

@[simp] theorem execPinReset_armed : s.KeepsArm (execPinReset s) := by simp [execPinReset]

@[simp] theorem execResetNRelease_armed (facts : BootFacts) (h : s.inOff = false) :
    s.KeepsArm (execResetNRelease facts s) := by
  simp only [execResetNRelease, State.keepsArm_checked, h]
  intro
  (repeat' split) <;> simp_all

@[simp] theorem execWdtExpiry_armed (facts : BootFacts) : s.KeepsArm (execWdtExpiry facts s) := by simp [execWdtExpiry]
@[simp] theorem State.softReset_armed (f : BootFacts) : (s.softReset f).armed = s.armed := by simp [State.softReset]

@[simp] theorem execSoftReset_armed (who : Agent) (facts : BootFacts) : s.KeepsArm (execSoftReset who facts s) := by
  rcases s.letIn_cases who .RST_CTRL_SOFT 0 with h | ⟨t, h, ht⟩ <;> simp [execSoftReset, *]

@[simp] theorem execDomainReset_armed (who : Agent) (d : BitVec 4) (cardPass : BitVec 8) :
    s.KeepsArm (execDomainReset who d cardPass s) := by
  rcases s.letIn_cases who .RST_DOM_GO 0 with h | ⟨t, h, ht⟩ <;> simp [execDomainReset, *]

@[simp] theorem execRstWdtKick_armed (who : Agent) : s.KeepsArm (execRstWdtKick who s) := by
  unfold execRstWdtKick
  rcases s.letIn_cases who .RST_WDT_KICK 0 with h | ⟨t, h, ht⟩
  · simp only [h]
    (repeat' split) <;> simp
  · simp [h, ht]

@[simp] theorem execStrapResample_armed (devid : BitVec 4) (role : BitVec 2) : s.KeepsArm (execStrapResample devid role s) := by
  simp [execStrapResample]

end

/-! #### Unit faults -/

section
variable (s : State)

@[simp] theorem State.bankLeave_armed (slot : Nat) : (s.bankLeave slot).armed = s.armed := by
  unfold State.bankLeave
  split <;> simp

@[simp] theorem State.cardFail_armed (u cause : Nat) : (s.cardFail u cause).armed = s.armed := by simp [State.cardFail]

@[simp] theorem execCardUnitFault_armed (u : Fin 8) (parity : Bool) : s.KeepsArm (execCardUnitFault u parity s) := by
  simp [execCardUnitFault]

@[simp] theorem execCardHandshakeTimeout_armed (u : Fin 8) : s.KeepsArm (execCardHandshakeTimeout u s) := by
  simp [execCardHandshakeTimeout]

@[simp] theorem State.fulFail_armed (k cause : Nat) : (s.fulFail k cause).armed = s.armed := by simp [State.fulFail]

@[simp] theorem execSharedUnitFault_armed (i : SharedIsland) (cause : IslandCause) (facts : BootFacts) :
    s.KeepsArm (execSharedUnitFault i cause facts s) := by
  unfold execSharedUnitFault
  split <;> simp

@[simp] theorem State.setErrRec_armed (sp : Nat) (l : List Byte) : (s.setErrRec sp l).armed = s.armed := by
  simp [State.setErrRec]

@[simp] theorem execErrPop_armed (who : Agent) (sp : Fin 8) : s.KeepsArm (execErrPop who sp s) := by
  unfold execErrPop
  rcases s.admitRead_cases who .ERR_POP_VALID sp with h | ⟨t, h, ht⟩
  · simp only [h]
    (repeat' split) <;> simp
  · simp [h, ht]

end

/-! #### Supplies -/

section
variable (s : State)

@[simp] theorem State.driversRefresh_armed : s.driversRefresh.armed = s.armed := by simp [State.driversRefresh]
@[simp] theorem execVdd3v3Loss_armed : s.KeepsArm (execVdd3v3Loss s) := by simp [execVdd3v3Loss]
@[simp] theorem execVdd3v3Return_armed : s.KeepsArm (execVdd3v3Return s) := by simp [execVdd3v3Return]

@[simp] theorem execThermtrip_armed (sensor : Fin 8) (reading : Byte) : s.KeepsArm (execThermtrip sensor reading s) := by
  simp [execThermtrip]

end

/-! #### Register accesses -/

section
variable (s : State)

theorem State.refusedWrite_armed {s t : State} {who : Agent} {off w : Nat} (h : s.refusedWrite who off w = some t) :
    t.armed = s.armed := by
  cases who with
  | host => simp [State.refusedWrite] at h
  | fw core =>
    dsimp only [State.refusedWrite] at h
    split_ifs at h <;> cases h <;> simp

@[simp] theorem State.subEnChange_armed (who : Agent) (i : Nat) (en : Bool) : (s.subEnChange who i en).armed = s.armed := by
  simp [State.subEnChange]

@[simp] theorem State.newPose_armed (slot : Nat) : (s.newPose slot).armed = s.armed := by simp [State.newPose]
@[simp] theorem State.gridAnew_armed (sp : Nat) : (s.gridAnew sp).armed = s.armed := by simp [State.gridAnew]

@[simp] theorem State.fieldHook_armed (who : Agent) (h : Hit) (old : Nat) : (s.fieldHook who h old).armed = s.armed := by
  unfold State.fieldHook
  dsimp only
  (repeat' split) <;> simp

@[simp] theorem State.wordHooks_armed (s s0 : State) (who : Agent) (off w : Nat) :
    (s.wordHooks s0 who off w).armed = s.armed := by
  simp [State.wordHooks]

@[simp] theorem State.wordApplied_armed (who : Agent) (off w : Nat) : (s.wordApplied who off w).armed = s.armed := by
  have h := s.applyWord_armed who off w
  unfold State.wordApplied
  split <;> next heq => simpa [heq] using h

@[simp] theorem State.wordEffect_armed (who : Agent) (off w : Nat) : (s.wordEffect who off w).armed = s.armed := by
  unfold State.wordEffect
  split
  · next h => exact State.refusedWrite_armed h
  · simp

@[simp] theorem State.busWord_armed (who : Agent) (off w : Nat) : (s.busWord who off w).armed = s.armed := by
  unfold State.busWord
  (repeat' split) <;> simp

@[simp] theorem State.writeWord_armed (who : Agent) (off w : Nat) : (s.writeWord who off w).armed = s.armed := by
  unfold State.writeWord
  (repeat' split) <;> simp

@[simp] theorem State.busWrite_armed (who : Agent) (off size : Nat) (allBytes poisoned : Bool) (data : Nat) :
    (s.busWrite who off size allBytes poisoned data).armed = s.armed := by
  unfold State.busWrite
  rcases s.readOpen_cases who with h | ⟨t, h, ht⟩
  · simp only [h]
    (repeat' split) <;> simp
  · simp [h, ht]

@[simp] theorem execRegisterWrite_armed (who : Agent) (off : BitVec 23) (size : Nat) (allBytes poisoned : Bool) (data : DWord) :
    s.KeepsArm (execRegisterWrite who off size allBytes poisoned data s) := by
  simp [execRegisterWrite]

@[simp] theorem State.txtsView_armed (off : Nat) : (s.txtsView off).2.armed = s.armed := by
  unfold State.txtsView
  dsimp only [State.fresh]
  (repeat' split) <;> rfl

@[simp] theorem State.chainView_armed (k off : Nat) : (s.chainView k off).2.armed = s.armed := by
  unfold State.chainView
  dsimp only
  (repeat' split) <;> simp

@[simp] theorem State.gpioView_armed (off : Nat) : (s.gpioView off).2.armed = s.armed := by
  unfold State.gpioView
  split <;> simp

@[simp] theorem State.auxevView_armed (p off : Nat) : (s.auxevView p off).2.armed = s.armed := by
  unfold State.auxevView
  split <;> simp

@[simp] theorem State.resView_armed (k i : Nat) {hi : Reg} (h : hi ≠ .KRB_STAT_ARMED) : (s.resView k i hi).2.armed = s.armed := by
  simp [State.resView, h]

@[simp] theorem State.viewWord_armed (off : Nat) : (s.viewWord off).2.armed = s.armed := by
  have hite : ∀ (p : Prop) [Decidable p] (a b : Nat × State), a.2.armed = s.armed → b.2.armed = s.armed →
      (if p then a else b).2.armed = s.armed := fun p _ a b ha hb => by split <;> assumption
  unfold State.viewWord
  repeat' with_reducible apply hite
  all_goals simp

@[simp] theorem popped_armed {o : Out} (ho : s.KeepsArm o) (h : s.armed = true) : (popped s o).2.armed = true := by
  unfold popped
  split
  · next t =>
    have ht : t.armed = true := ho h t rfl
    (repeat' split) <;> simp [ht]
  · exact h

theorem State.popRead_armed {s : State} {who : Agent} {l : LineChecks} {off : Nat} {r : Nat × State}
    (hr : s.popRead who l off = some r) (h : s.armed = true) : r.2.armed = true := by
  unfold State.popRead at hr
  (repeat' split at hr) <;> cases hr
  · exact popped_armed _ (execTimeRawLoRead_armed _ _) h
  · exact popped_armed _ (execTimeRcLoRead_armed _ _) h
  · exact popped_armed _ (execErrPop_armed _ _ _) h
  · exact popped_armed _ (execKrbLatelogPop_armed _ _) h
  · exact popped_armed _ (execIsoLogPop_armed _ _) h
  · exact popped_armed _ (execEqPop_armed _ _ _ _ _ _) h
  · exact popped_armed _ (execFeatPop_armed _ _ _) h
  · exact h

@[simp] theorem State.clearRc_armed (off : Nat) : (s.clearRc off).armed = s.armed := by
  refine State.each_armed_mem _ fun u h hh => u.wr_armed ?_ _ _
  rintro hr
  have hrc := (List.mem_filter.1 hh).2
  rw [hr] at hrc
  exact absurd hrc (by decide)

@[simp] theorem State.readOne_armed (who : Agent) (l : LineChecks) (off : Nat) (h : s.armed = true) :
    (s.readOne who l off).2.armed = true := by
  unfold State.readOne
  split
  · exact h
  · split
    · cases who <;> simp [h]
    · split
      · next hr => exact State.popRead_armed hr h
      · simp [h]

@[simp] theorem State.readAt_armed (who : Agent) (l : LineChecks) (off : Nat) (h : s.armed = true) :
    (s.readAt who l off).2.armed = true := by
  unfold State.readAt
  (repeat' split) <;> simp [h]

@[simp] theorem State.readRun_armed (who : Agent) (l : LineChecks) (off n : Nat) (h : s.armed = true) :
    (s.readRun who l off n).2.armed = true := by
  induction n generalizing s off with
  | zero => exact h
  | succ n ih =>
    have hr := ih (s.readAt who l off).2 (off + 4) (s.readAt_armed who l off h)
    rw [State.readRun]
    split
    next v t hv =>
      rw [hv] at hr
      split
      next w u hw =>
        rw [hw] at hr
        exact hr

@[simp] theorem execRcFieldRead_armed (who : Agent) (off : BitVec 23) (len : ReadLen) :
    s.KeepsArm (execRcFieldRead who off len s) := by
  rcases s.readOpen_cases who with h | ⟨t, h, ht⟩ <;> simp [execRcFieldRead, *]
  intros
  apply State.readRun_armed
  assumption

end

/-! #### Configuration commands -/

section
variable (s : State)

theorem State.configure_armed (mb : Nat) (c : Cmd) {refuse : State → Option (Nat × Nat × State)}
    {apply : State → State × Nat × Nat × Nat} (hr : ∀ r, refuse s = some r → r.2.2.armed = s.armed)
    (ha : (apply s).1.armed = s.armed) : (s.configure mb c refuse apply).armed = s.armed := by
  unfold State.configure
  split
  · simp
  · simp
  · split
    · next h => simpa using hr _ h
    · simpa using ha

theorem State.freeDetail_armed {s : State} {st base n : Nat} {r : Nat × Nat × State} (h : s.freeDetail st base n = some r) :
    r.2.2.armed = s.armed := by
  cases h
  rfl

@[simp] theorem State.cfgWrite_armed (mb : Nat) (l : List (Nat × Nat)) : (s.cfgWrite mb l).armed = s.armed := by
  refine State.each_armed _ (fun u p => ?_) _
  split <;> simp

@[simp] theorem execWlCfg_armed (mb : Fin 64) (tag : BitVec 16) : s.KeepsArm (execWlCfg mb tag s) := by
  refine s.keepsArm_runCmd mb tag 0x40 false fun c h => (s.configure_armed mb.val c (fun r hr => ?_) ?_).trans h
  · split at hr
    · exact State.freeDetail_armed hr
    · cases hr
  · simp

@[simp] theorem State.giveTables_armed (c : Cmd) : (s.giveTables c).armed = s.armed := by simp [State.giveTables]

theorem State.headCfgRefuse_armed {s : State} {mb : Nat} {c : Cmd} {r : Nat × Nat × State} (h : s.headCfgRefuse mb c = some r) :
    r.2.2.armed = s.armed := by
  simp only [State.headCfgRefuse] at h
  split_ifs at h
  · exact State.freeDetail_armed h
  · cases h; rfl
  · obtain ⟨q, -, rfl⟩ := Option.map_eq_some_iff.1 h
    rfl

@[simp] theorem State.loadRect_armed (slot : Nat) (nodes : List Nat) : (s.loadRect slot nodes).armed = s.armed := by
  simp [State.loadRect]

@[simp] theorem State.tableEcc_armed (slot : Nat) (ecc : EccResult) : (s.tableEcc slot ecc).armed = s.armed := by
  unfold State.tableEcc
  split <;> simp

@[simp] theorem execHeadCfg_armed (mb : Fin 64) (tag : BitVec 16) (tables : HeadTables) :
    s.KeepsArm (execHeadCfg mb tag tables s) :=
  s.keepsArm_runCmd mb tag 0x41 false fun c h =>
    (s.configure_armed mb.val c (fun r hr => State.headCfgRefuse_armed hr) (by simp)).trans h

@[simp] theorem execEqCfg_armed (mb : Fin 64) (tag : BitVec 16) : s.KeepsArm (execEqCfg mb tag s) := by
  refine s.keepsArm_runCmd mb tag 0x42 false fun c h => (s.configure_armed mb.val c (fun r hr => ?_) ?_).trans h
  · obtain ⟨q, -, rfl⟩ := Option.map_eq_some_iff.1 hr
    rfl
  · simp

theorem State.partBad_armed {s t : State} {c : Cmd} {r : Nat × Nat × State} (h : s.partBad t c = some r) :
    r.2.2.armed = s.armed := by
  simp only [State.partBad] at h
  split at h
  · cases h; rfl
  · split_ifs at h
    exact State.freeDetail_armed h

theorem State.fulRefuse_armed {s : State} {mb : Nat} {c : Cmd} {r : Nat × Nat × State} (h : s.fulRefuse mb c = some r) :
    r.2.2.armed = s.armed := by
  simp only [State.fulRefuse] at h
  split at h
  · next hp => cases h; exact State.partBad_armed hp
  · split at h
    · cases h; rfl
    · obtain ⟨q, -, rfl⟩ := Option.map_eq_some_iff.1 h
      rfl

@[simp] theorem State.subApply_armed (who : Agent) (i : Nat) (d : Option Nat) : (s.subApply who i d).armed = s.armed := by
  unfold State.subApply
  split <;> simp

@[simp] theorem State.fulApply_armed (mb : Nat) (c : Cmd) : (s.fulApply mb c).1.armed = s.armed := by
  simp only [State.fulApply]
  split <;> simp

@[simp] theorem execFulApply_armed (mb : Fin 64) (tag : BitVec 16) : s.KeepsArm (execFulApply mb tag s) :=
  s.keepsArm_runCmd mb tag 0x43 false fun c h =>
    (s.configure_armed mb.val c (fun _ hr => State.fulRefuse_armed hr) (s.fulApply_armed ..)).trans h

theorem State.ftRefuse_armed {s : State} {c : Cmd} {r : Nat × Nat × State} (h : s.ftRefuse c = some r) :
    r.2.2.armed = s.armed := by
  simp only [State.ftRefuse] at h
  split at h
  · cases h; rfl
  · split at h
    · cases h; rfl
    · split_ifs at h <;> exact State.freeDetail_armed h

@[simp] theorem execFtCfg_armed (mb : Fin 64) (tag : BitVec 16) : s.KeepsArm (execFtCfg mb tag s) :=
  s.keepsArm_runCmd mb tag 0x44 false fun c h =>
    (s.configure_armed mb.val c (fun r hr => State.ftRefuse_armed hr) (by simp)).trans h

end

/-! #### The command -/

/-- Every command but a POR, a BOR crossing and the release of RESET_N in OFF leaves an armed Kerb armed. -/
theorem exec_armed (c : Instr) (s : State) (hpor : ∀ f l, c ≠ .por f l) (hbor : ∀ r, c ≠ .borCrossing r)
    (hres : s.inOff = true → ∀ f, c ≠ .resetNRelease f) : s.KeepsArm (exec c s) := by
  cases c
  case por f l => exact absurd rfl (hpor f l)
  case borCrossing r => exact absurd rfl (hbor r)
  case resetNRelease f => exact execResetNRelease_armed s f (by simpa using fun h => hres h f rfl)
  all_goals simp [exec]

/-- Settles O33: of the operations that every command is made of, none clears KRB_STAT.ARMED but the cold reset. -/
theorem kerbStaysArmed : Obligations.KerbStaysArmed := by
  intro c s t harmed hexec
  by_contra! hno
  obtain ⟨ht, hpor, hbor, hres⟩ := hno
  exact ht (exec_armed c s hpor hbor hres harmed t hexec)

end Sys2Proof.Machine

end

section
/-!
PROOFS of the statement of the global stops (O34) of `spec/11_kerb_and_deadlines.md` in this row.
-/
namespace Sys2Proof.Machine

/-! ### What the Kerb hub's own state and the verdict statuses depend on

Records, vectors, completions and what they lead to change neither the hub's state, nor the registers of its latches, slots and
feedback settings, nor the verdict statuses that cores have been told. -/

/-- A register of the latches, the deadline slots or the feedback settings. -/
@[simp] def Reg.ofHub (r : Reg) : Bool := List.contains
  [.SLOT_CTRL_STATE, .LATCH_VERDICT, .LATCH_REASON, .LATCH_LATE_SEEN, .KRB_FB_POL, .KRB_FB_FBA_EN, .KRB_FB_FBB_EN] r

/-- The outcome of a verdict record, told to its core. -/
def Tx.isVerdict : Tx → Bool
  | .vpStatus _ _ => true
  | _ => false

@[simp] theorem Tx.isVerdict_host (fn : Nat) (p : HostPost) (tbit : Bool) : (Tx.host fn p tbit).isVerdict = false := by
  simp [Tx.isVerdict]
@[simp] theorem Tx.isVerdict_cwSend (p : CwSend) : (Tx.cwSend p).isVerdict = false := by simp [Tx.isVerdict]
@[simp] theorem Tx.isVerdict_safetyOut (n : Nat) : (Tx.safetyOut n).isVerdict = false := by simp [Tx.isVerdict]

/-- The hub's state, the verdict statuses sent, and the registers of `Reg.ofHub`. -/
def State.hubSide (s : State) : KerbSt × List Tx × (Reg → Nat → Nat) :=
  (s.kerb, s.tx.filter Tx.isVerdict, fun r i => if r.ofHub then s.rd r i else 0)

theorem State.hubSide_congr {s t : State} (hk : t.kerb = s.kerb) (hx : t.tx = s.tx) (hr : t.regs = s.regs) :
    t.hubSide = s.hubSide := by
  simp only [State.hubSide, hk, hx, State.rd_congr hr]

section
variable {s t : State} (h : t.hubSide = s.hubSide)
include h

theorem State.kerb_of_hubSide : t.kerb = s.kerb := congrArg Prod.fst h

theorem State.rd_of_hubSide {r : Reg} (hr : r.ofHub = true) (i : Nat) : t.rd r i = s.rd r i := by
  have hv : (if r.ofHub then t.rd r i else 0) = if r.ofHub then s.rd r i else 0 := congrArg (fun v => v.2.2 r i) h
  simpa only [hr, if_true] using hv

theorem State.sent_of_hubSide {x : Tx} (hx : x.isVerdict = true) (hs : x ∈ s.tx) : x ∈ t.tx := by
  have hf : t.tx.filter Tx.isVerdict = s.tx.filter Tx.isVerdict := congrArg (fun v => v.2.1) h
  exact (List.mem_filter.1 (hf ▸ List.mem_filter.2 ⟨hs, hx⟩)).1

end

section
variable (s : State)

@[simp] theorem State.wr_hubSide {r : Reg} (h : r.ofHub = false) (i v : Nat) : (s.wr r i v).hubSide = s.hubSide := by
  refine congrArg (fun g => (s.kerb, s.tx.filter Tx.isVerdict, g)) (funext fun q => funext fun j => ?_)
  cases hq : q.ofHub with
  | false => rfl
  | true => exact s.rd_wr_other i v j fun e => by rw [e, h] at hq; cases hq
@[simp] theorem State.put_hubSide {r : Reg} (h : r.ofHub = false) (i : Nat) (b : Bool) : (s.put r i b).hubSide = s.hubSide :=
  s.wr_hubSide h i _
@[simp] theorem State.count_hubSide {r : Reg} (h : r.ofHub = false) (i n : Nat) : (s.count r i n).hubSide = s.hubSide :=
  s.wr_hubSide h i _
@[simp] theorem State.setBitOf_hubSide {r : Reg} (h : r.ofHub = false) (i b : Nat) (v : Bool) :
    (s.setBitOf r i b v).hubSide = s.hubSide := s.wr_hubSide h i _
@[simp] theorem State.emit_hubSide {x : Tx} (h : x.isVerdict = false) : (s.emit x).hubSide = s.hubSide :=
  Prod.ext rfl (Prod.ext (List.filter_cons_of_neg (by rw [h]; decide)) rfl)
@[simp] theorem State.ite_hubSide (p : Prop) [Decidable p] (t : State) :
    (if p then s else t).hubSide = if p then s.hubSide else t.hubSide := apply_ite _ _ _ _
@[simp] theorem State.each_hubSide {α : Type} {f : State → α → State} (hf : ∀ s a, (f s a).hubSide = s.hubSide)
    (l : List α) : (s.each l f).hubSide = s.hubSide := State.each_same State.hubSide f hf l s
@[simp] theorem State.when_hubSide {f : State → State} (hf : ∀ s, (f s).hubSide = s.hubSide) (c : Bool) :
    (s.when c f).hubSide = s.hubSide := State.when_same hf s c

@[simp] theorem State.onFns_hubSide (f : Table FnSt → Table FnSt) : (s.onFns f).hubSide = s.hubSide :=
  State.hubSide_congr rfl rfl rfl
@[simp] theorem State.onErrs_hubSide (f : Table ErrRing → Table ErrRing) : (s.onErrs f).hubSide = s.hubSide :=
  State.hubSide_congr rfl rfl rfl
@[simp] theorem State.onCw_hubSide (f : CwSt → CwSt) : (s.onCw f).hubSide = s.hubSide := State.hubSide_congr rfl rfl rfl

@[simp] theorem State.post_hubSide (f : Nat) (p : HostPost) : (s.post f p).hubSide = s.hubSide := by
  simp [State.post, State.request, State.onFn]
@[simp] theorem State.irq_hubSide (f v : Nat) : (s.irq f v).hubSide = s.hubSide := by simp [State.irq, State.onFn]
@[simp] theorem State.recordTo_hubSide (dst owner : Nat) (t : ErrType) (unit : Nat) (detail : List Nat) :
    (s.recordTo dst owner t unit detail).hubSide = s.hubSide := by
  simp [State.recordTo]
@[simp] theorem State.cwPut_hubSide (cls : Nat) {t : Tx} (h : t.isVerdict = false) : (s.cwPut cls t).hubSide = s.hubSide := by
  unfold State.cwPut
  rw [State.emit_hubSide _ h]
  split <;> simp
@[simp] theorem State.sendStopState_hubSide : s.sendStopState.hubSide = s.hubSide := by
  unfold State.sendStopState
  split
  · split
    · rfl
    · simp [State.cwEmit]
  · rfl
@[simp] theorem State.setCause_hubSide (c : Nat) : (s.setCause c).hubSide = s.hubSide := by simp [State.setCause]
@[simp] theorem State.aggRefresh_hubSide : s.aggRefresh.hubSide = s.hubSide := by simp [State.aggRefresh]

end

/-! ### Step 4 of R319: the combination

The names below are those of the terms that `State.combine` computes. -/

section
variable (s : State)

/-- The groups of which a source other than MANUAL demands STOP. -/
def State.liveGroups : Nat := s.zoneGroups.1 ||| s.aggDemand.1 ||| (if s.globalStops = 0 then 0 else 0xFF)

/-- The groups held as MANUAL (R322). -/
def State.manualGroups : Nat := (s.kerb.manual ||| s.liveGroups) &&& s.rd .KRB_OUT_MANUAL

/-- The groups that show STOP. -/
def State.stopGroups : Nat := s.liveGroups ||| s.manualGroups

/-- The outputs that these groups and those that show SLOW energise. -/
def State.groupOut : Nat := s.outputsFor s.stopGroups (s.zoneGroups.2.1 ||| s.aggDemand.2)

/-- The hub's state once the demands are combined. -/
def State.combined : State := s.onKerb fun k =>
  { k with manual := s.manualGroups, liveStop := s.liveGroups, out := s.groupOut, fbAAway := s.fbAway false s.groupOut,
           fbBAway := s.fbAway true s.groupOut }

/-- KRB_STAT shows the groups and the outputs. -/
def State.groupsShown : State :=
  (((s.combined.wr .KRB_STAT_ZG_STOP 0 s.stopGroups).wr .KRB_STAT_ZG_SLOW 0 (s.zoneGroups.2.1 ||| s.aggDemand.2)).put
    .KRB_STAT_RUN 0 (bit s.groupOut 0)).put .KRB_STAT_SLOWOUT 0 (bit s.groupOut 2)

/-- KRB_STAT shows also whether a fault is latched and a mask in force. -/
def State.statShown : State :=
  (s.groupsShown.put .KRB_STAT_FAULT 0 (!s.groupsShown.kerb.faults.isEmpty)).put .KRB_STAT_MASK_ON 0 s.groupsShown.maskOn

/-- After KRB_STAT the cause, the outputs as driven and the STOP_STATE are reported. -/
theorem State.combine_eq : ∃ c b d, s.combine =
    ((s.statShown.setCause c).when b (fun u => u.emit (.safetyOut (u.driven s.groupOut)))).when d State.sendStopState := by
  unfold State.combine
  exact ⟨_, _, _, rfl⟩

theorem State.combine_hubSide : s.combine.hubSide = s.combined.hubSide := by
  obtain ⟨c, b, d, h⟩ := s.combine_eq
  simp [h, State.statShown, State.groupsShown]

theorem State.combine_kerb : s.combine.kerb = s.combined.kerb := State.kerb_of_hubSide s.combine_hubSide

theorem State.rd_sendStopState (r : Reg) (i : Nat) : s.sendStopState.rd r i = s.rd r i := by
  refine State.rd_congr ?_ r i
  unfold State.sendStopState
  split
  · split
    · rfl
    · simp only [State.cwEmit, State.cwPut]
      split
      · rfl
      · split <;> rfl
  · rfl

theorem State.rd_setCause {r : Reg} (hc : r ≠ .KRB_CAUSE) (hs : r ≠ .KRB_CAUSE_SEEN) (c i : Nat) :
    (s.setCause c).rd r i = s.rd r i := by
  unfold State.setCause
  split
  · rfl
  · rw [State.rd_congr (State.irq_regs ..), State.rd_wr_other _ _ _ _ hs, State.rd_wr_other _ _ _ _ hc]

/-- What KRB_STAT shows of the groups stands when the hub has reported. -/
theorem State.rd_combine {r : Reg} (hc : r ≠ .KRB_CAUSE) (hs : r ≠ .KRB_CAUSE_SEEN) (i : Nat) :
    s.combine.rd r i = s.statShown.rd r i := by
  obtain ⟨c, b, d, h⟩ := s.combine_eq
  rw [h, State.when_same (g := fun u => u.rd r i) (fun u => u.rd_sendStopState r i),
    State.when_same (g := fun u => u.rd r i) (fun u => u.rd_emit _ r i), State.rd_setCause _ hc hs]

end

/-! ### The hub's evaluation -/

section
variable (s : State)

/-- The hub's state but for what an evaluation sets: the SILENT slots, the LOSS demands (with the rest of the zones), the groups
held and demanded, the outputs and the times of the feedback inputs. -/
def KerbSt.lasting (k : KerbSt) : KerbSt :=
  { k with zones := [], silent := 0, manual := 0, liveStop := 0, out := 0, fbAAway := none, fbBAway := none }

/-- The state in which the demands are combined: silence and the losses of Brims are known. -/
def State.lossesKnown : State := s.refreshLoss.aggRefresh

theorem State.kerbUpdate_eq : s.kerbUpdate = s.lossesKnown.combine := rfl

theorem State.refreshLoss_regs : s.refreshLoss.regs = s.regs := by
  refine (State.each_same State.regs _ (fun u z => ?_) _ _).trans
    (State.each_same State.regs State.silentNow (fun u k => rfl) _ _)
  dsimp only
  split <;> rfl

theorem State.refreshLoss_lasting : s.refreshLoss.kerb.lasting = s.kerb.lasting := by
  refine (State.each_same (fun u => u.kerb.lasting) _ (fun u z => ?_) _ _).trans
    (State.each_same (fun u => u.kerb.lasting) State.silentNow (fun u k => rfl) _ _)
  dsimp only
  split <;> rfl

theorem State.lossesKnown_lasting : s.lossesKnown.kerb.lasting = s.kerb.lasting := by
  rw [State.lossesKnown, State.kerb_of_hubSide (State.aggRefresh_hubSide _), State.refreshLoss_lasting]

theorem State.rd_lossesKnown {r : Reg} (h : r ≠ .AGG_LOST) (i : Nat) : s.lossesKnown.rd r i = s.rd r i := by
  have hagg : ∀ t : State, t.aggRefresh.rd r i = t.rd r i := fun t => by
    unfold State.aggRefresh
    split
    · rfl
    · exact State.each_same (fun u => u.rd r i) _ (fun u d => u.rd_wr_other _ _ _ h) _ t
  rw [State.lossesKnown, hagg, State.rd_congr s.refreshLoss_regs]

theorem State.kerbUpdate_lasting : s.kerbUpdate.kerb.lasting = s.kerb.lasting := by
  rw [State.kerbUpdate_eq, State.combine_kerb]
  exact s.lossesKnown_lasting

@[simp] theorem State.lossesKnown_faults : s.lossesKnown.kerb.faults = s.kerb.faults :=
  (congrArg KerbSt.faults s.lossesKnown_lasting :)
@[simp] theorem State.kerbUpdate_faults : s.kerbUpdate.kerb.faults = s.kerb.faults :=
  (congrArg KerbSt.faults s.kerbUpdate_lasting :)
@[simp] theorem State.kerbUpdate_estop : s.kerbUpdate.kerb.estop = s.kerb.estop :=
  (congrArg KerbSt.estop s.kerbUpdate_lasting :)
@[simp] theorem State.kerbUpdate_fbA : s.kerbUpdate.kerb.fbA = s.kerb.fbA := (congrArg KerbSt.fbA s.kerbUpdate_lasting :)
@[simp] theorem State.kerbUpdate_fbB : s.kerbUpdate.kerb.fbB = s.kerb.fbB := (congrArg KerbSt.fbB s.kerbUpdate_lasting :)
@[simp] theorem State.kerbUpdate_latches : s.kerbUpdate.kerb.latches = s.kerb.latches :=
  (congrArg KerbSt.latches s.kerbUpdate_lasting :)
@[simp] theorem State.kerbUpdate_lateLog : s.kerbUpdate.kerb.lateLog = s.kerb.lateLog :=
  (congrArg KerbSt.lateLog s.kerbUpdate_lasting :)

/-- What makes a global stop is not changed by an evaluation. -/
theorem State.lossesKnown_globalStops : s.lossesKnown.globalStops = s.globalStops := by
  have hk := s.lossesKnown_lasting
  have he : s.lossesKnown.kerb.estop = s.kerb.estop := (congrArg KerbSt.estop hk :)
  have hb : s.lossesKnown.kerb.bow = s.kerb.bow := (congrArg KerbSt.bow hk :)
  have ha : s.lossesKnown.armed = s.armed := by simp [State.lossesKnown]
  simp only [State.globalStops, State.lossesKnown_faults, he, hb, ha]

theorem State.globalStops_ne_zero (h : s.armed = false ∨ s.kerb.faults ≠ [] ∨ s.kerb.estop = true ∨ s.kerb.bow = true) :
    s.globalStops ≠ 0 := by
  rw [← List.isEmpty_eq_false_iff] at h
  unfold State.globalStops
  rcases h with h | h | h | h <;> simp [h]

end

/-! ### Global stops (Table KB-1, R321) -/

section
variable {s : State}

/-- The low bits of a number that holds all of a mask's. -/
theorem lor_mask_mod (a m w : Nat) : (a ||| (2 ^ w - 1) ||| m) % 2 ^ w = 2 ^ w - 1 := by
  apply Nat.eq_of_testBit_eq
  intro i
  simp only [Nat.testBit_mod_two_pow, Nat.testBit_or, Nat.testBit_two_pow_sub_one]
  by_cases h : i < w <;> simp [h]

/-- With a global stop every group shows STOP. -/
theorem State.stopGroups_all (h : s.globalStops ≠ 0) : s.stopGroups % 2 ^ 8 = 0xFF := by
  unfold State.stopGroups State.liveGroups
  rw [if_neg h]
  exact lor_mask_mod _ _ 8

/-- Groups that all show STOP meet every cover. -/
theorem land_cover_ne_zero {a c : Nat} (ha : a % 2 ^ 8 = 0xFF) (h0 : c ≠ 0) (hc : c < 2 ^ 8) : a &&& c ≠ 0 := by
  have h : a &&& c = c := by
    apply Nat.eq_of_testBit_eq
    intro i
    have hi : (a % 2 ^ 8).testBit i = Nat.testBit (2 ^ 8 - 1) i := congrArg (Nat.testBit · i) ha
    rw [Nat.testBit_mod_two_pow, Nat.testBit_two_pow_sub_one] at hi
    by_cases h8 : i < 8
    · have hset : a.testBit i = true := by simpa [h8] using hi
      rw [Nat.testBit_and, hset, Bool.true_and]
    · simp [Nat.testBit_lt_two_pow (lt_of_lt_of_le hc (Nat.pow_le_pow_right (by decide) (not_lt.1 h8)))]
  rwa [h]

/-- Where every group shows STOP no group output is energised, and no SSTOP output that a group covers. -/
theorem State.outputsFor_all {s : State} {a : Nat} (ha : a % 2 ^ 8 = 0xFF) (slow : Nat) :
    s.outputsFor a slow / 8 = 0 ∧
      (s.rd .KRB_OUT_SSTOP_COVER ≠ 0 → s.rd .KRB_OUT_SSTOP_COVER < 2 ^ 8 → s.outputsFor a slow = 0) := by
  have h256 : a % 256 = 255 := ha
  unfold State.outputsFor
  split
  · simp
  · simp only [h256]
    refine ⟨?_, fun h0 hc => ?_⟩
    · split_ifs <;> rfl
    · simp [land_cover_ne_zero ha h0 hc]

theorem State.outputsFor_forcedOff {s : State} (h : s.kerb.forcedOff = true) (stop slow : Nat) : s.outputsFor stop slow = 0 := by
  simp [State.outputsFor, h]

/-- The groups that the hub shows STOP for after it has evaluated. -/
theorem State.rd_kerbUpdate_zgStop (s : State) :
    s.kerbUpdate.rd .KRB_STAT_ZG_STOP = s.lossesKnown.stopGroups % 2 ^ 8 := by
  rw [State.kerbUpdate_eq, State.rd_combine _ (by decide) (by decide)]
  simp only [State.statShown, State.groupsShown, State.put, ne_eq, reduceCtorEq, not_false_eq_true, State.rd_wr_other,
    State.rd_wr_same]
  rfl

theorem State.kerbUpdate_out (s : State) : s.kerbUpdate.kerb.out = s.lossesKnown.groupOut := by
  rw [State.kerbUpdate_eq, State.combine_kerb]
  rfl

/-- KRB_STAT.RUN is the level of SSTOP_A. -/
theorem State.rd_kerbUpdate_run (s : State) :
    s.kerbUpdate.rd .KRB_STAT_RUN = if bit s.lossesKnown.groupOut 0 then 1 else 0 := by
  rw [State.kerbUpdate_eq, State.rd_combine _ (by decide) (by decide)]
  simp only [State.statShown, State.groupsShown, State.put, ne_eq, reduceCtorEq, not_false_eq_true, State.rd_wr_other,
    State.rd_wr_same]
  split <;> rfl

/-- With a global stop the hub shows STOP for all groups. -/
theorem State.kerbUpdate_globalStop {s : State} (h : s.globalStops ≠ 0) : s.kerbUpdate.rd .KRB_STAT_ZG_STOP = 0xFF := by
  rw [State.rd_kerbUpdate_zgStop]
  exact State.stopGroups_all (s.lossesKnown_globalStops ▸ h)

end

/-- Settles O34: a global source makes every group live, so every group shows STOP and meets every cover; with the outputs forced
off none is energised. -/
theorem globalStopsStopEveryGroup : Obligations.GlobalStopsStopEveryGroup := by
  intro s
  refine ⟨fun h => ?_, fun h => ?_⟩
  · have hstop : s.lossesKnown.stopGroups % 2 ^ 8 = 0xFF :=
      State.stopGroups_all (s.lossesKnown_globalStops ▸ s.globalStops_ne_zero h)
    obtain ⟨hgroups, hcover⟩ := State.outputsFor_all (s := s.lossesKnown) hstop
      (s.lossesKnown.zoneGroups.2.1 ||| s.lossesKnown.aggDemand.2)
    rw [State.rd_lossesKnown _ (by decide)] at hcover
    rw [State.rd_kerbUpdate_zgStop, State.kerbUpdate_out, State.rd_kerbUpdate_run]
    refine ⟨hstop, hgroups, fun h0 hc => ?_⟩
    have hout : s.lossesKnown.groupOut = 0 := hcover h0 hc
    simp [hout, bit]
  · rw [State.kerbUpdate_out]
    exact State.outputsFor_forcedOff ((congrArg KerbSt.forcedOff s.lossesKnown_lasting :).trans h) _ _

end Sys2Proof.Machine
end

section
/-!
PROOFS of the statement of the Kerb's counts and masks (O35) of `spec/11_kerb_and_deadlines.md` in this row: its refutation.

A count that reaches a threshold begins a demand, which is the KERB wake source (Table PW-6). Before the point of no return of an
entry, under policy REPLAY, that aborts the entry and its PM_REQ completes (R432). A completion goes to the Spur's own memory
where its mailbox has LOC = 1 (R338), so a copy that counts may change memory.
-/
namespace Sys2Proof.Machine

/-- A copy of slot 0 at the origin. -/
def originCopy : KCopy := ⟨0, 0, 0, true, 0, false⟩

/-- Zone 0 of unit 0 demands STOP from the first copy on; an entry with REPLAY for the Kerb is in progress; it was asked for by a
PM_REQ with TAG 7 on mailbox 0, whose completion ring lies at the start of Spur 0's memory; the copy waits at the unit. -/
def enteringWithCopy : State :=
  (((regsAt [(.ZR_EN, 0, 1), (.ZONE_EN, 0, 1), (.ZONE_TH_STOP, 0, 1), (.PM_WAKE_CFG_EN, 0, 4), (.PM_WAKE_CFG_REPLAY, 0, 4),
      (.PM_STATUS_BUSY, 0, 1), (.SPUR_RES_CH, 0, 1), (.MB_CFG_LOC, 0, 1)]).onKcopies fun t => Table.set [] t 0 [originCopy]).onPm
    fun p => { p with phase := .entering 1, req := some ⟨0, 0, 0, 0, 0⟩ }).onMail
    fun m => { m with cmds := [(0, [⟨0, 7, leBytes 64 0, .begun, {}, [], none⟩])] }

theorem enteringWithCopy_zonesHit : enteringWithCopy.zonesHit 0 originCopy = [0] := by decide +kernel

/-- The first byte of the completion is its TAG. -/
theorem enteringWithCopy_counts :
    ∃ t, exec (.kerbCopyCount 0) enteringWithCopy = .next t ∧ t.ldByte (.lpddr 0) 0 = 7 :=
  ⟨_, rfl, by decide +kernel⟩

/-- Refutes O35: its first clause says that a copy that counts leaves memory as it was, also where the demand that begins with it
aborts an entry whose PM_REQ completes into the Spur's memory. -/
theorem not_kerbCountsAndMasks : ¬ Obligations.KerbCountsAndMasks := by
  rintro ⟨hcount, -⟩
  have hzones : ∀ z ∈ enteringWithCopy.zonesHit (0 : Fin 8).val originCopy, z < 512 := by
    simp [enteringWithCopy_zonesHit]
  obtain ⟨t, ht, -, hmem, -⟩ := hcount enteringWithCopy 0 originCopy [] (by decide +kernel) (by decide +kernel) hzones
  obtain ⟨u, hu, htag⟩ := enteringWithCopy_counts
  obtain rfl : t = u := Host.Outcome.next.inj (ht.symm.trans hu)
  have hbefore : enteringWithCopy.ldByte (.lpddr 0) 0 = 0 := by decide +kernel
  rw [State.ldByte, hmem, ← State.ldByte, hbefore] at htag
  exact absurd htag (by decide)

end Sys2Proof.Machine
end

section
/-!
PROOFS of the statement of the Kerb's inputs, faults and arming (O37) of `spec/11_kerb_and_deadlines.md` in this row.
-/
namespace Sys2Proof.Machine

/-! ### What the claim of an invocation leaves alone (R342)

A slot that fires, or is discharged, claims the outcome of its invocation. Nothing of that reaches the hub. -/

section
variable (s : State)

@[simp] theorem State.onMem_hubSide (f : List Host.Cell → List Host.Cell) : (s.onMem f).hubSide = s.hubSide :=
  State.hubSide_congr rfl rfl rfl

@[simp] theorem State.onMs_hubSide (f : MsSt → MsSt) : (s.onMs f).hubSide = s.hubSide := State.hubSide_congr rfl rfl rfl
@[simp] theorem State.onMail_hubSide (f : MailSt → MailSt) : (s.onMail f).hubSide = s.hubSide := State.hubSide_congr rfl rfl rfl
@[simp] theorem State.onPm_hubSide (f : PmSt → PmSt) : (s.onPm f).hubSide = s.hubSide := State.hubSide_congr rfl rfl rfl
@[simp] theorem State.fresh_hubSide (w : Nat) : (s.fresh w).2.hubSide = s.hubSide := State.hubSide_congr rfl rfl rfl
@[simp] theorem State.stByte_hubSide (p : Space) (a : Nat) (b : Byte) : (s.stByte p a b).hubSide = s.hubSide := by
  simp [State.stByte]
@[simp] theorem State.record_hubSide (owner : Nat) (t : ErrType) (unit : Nat) (detail : List Nat) :
    (s.record owner t unit detail).hubSide = s.hubSide := by
  simp [State.record]

@[simp] theorem State.stSpur_hubSide (sp a : Nat) (l : List Byte) : (s.stSpur sp a l).hubSide = s.hubSide := by
  induction l generalizing s a with
  | nil => rfl
  | cons b l ih =>
    rw [State.stSpur, ih]
    split <;> rfl

@[simp] theorem State.freshBytes_hubSide (n : Nat) : (s.freshBytes n).2.hubSide = s.hubSide := by simp [State.freshBytes]
@[simp] theorem State.onBatt_hubSide (long : Bool) (i : Nat) (f : BattSt → BattSt) :
    (s.onBatt long i f).hubSide = s.hubSide := State.hubSide_congr rfl rfl rfl

@[simp] theorem State.freeBatt_hubSide (long : Bool) (i : Nat) : (s.freeBatt long i).hubSide = s.hubSide := by
  unfold State.freeBatt
  split <;> simp

@[simp] theorem State.freeHandle_hubSide (h : Nat) : (s.freeHandle h).hubSide = s.hubSide := by simp [State.freeHandle]
@[simp] theorem State.signal_hubSide (ms spur count : Nat) (src : SigSrc) : (s.signal ms spur count src).hubSide = s.hubSide := by
  simp [State.signal]

@[simp] theorem State.setMbState_hubSide (mb st : Nat) : (s.setMbState mb st).hubSide = s.hubSide := by simp [State.setMbState]
@[simp] theorem State.onCmds_hubSide (mb : Nat) (f : List Cmd → List Cmd) : (s.onCmds mb f).hubSide = s.hubSide :=
  State.hubSide_congr rfl rfl rfl

@[simp] theorem State.drain_hubSide (mb : Nat) : (s.drain mb).hubSide = s.hubSide := by simp [State.drain]
@[simp] theorem State.complete_hubSide (mb : Nat) (c : Cmd) (st detail result stamp : Nat) :
    (s.complete mb c st detail result stamp).hubSide = s.hubSide := by
  simp [State.complete]

@[simp] theorem State.claimTimeout_hubSide (mb : Nat) (c : Cmd) : (s.claimTimeout mb c).hubSide = s.hubSide := by
  simp [State.claimTimeout]

@[simp] theorem State.finish_hubSide (mb : Nat) (c : Cmd) (st detail result : Nat) :
    (s.finish mb c st detail result).hubSide = s.hubSide := by
  simp [State.finish]

@[simp] theorem State.finishId_hubSide (mb id : Nat) (st detail result : Nat) :
    (s.finishId mb id st detail result).hubSide = s.hubSide := by
  unfold State.finishId
  split <;> simp

@[simp] theorem State.onMill_hubSide (m : Nat) (f : MillSt → MillSt) : (s.onMill m f).hubSide = s.hubSide :=
  State.hubSide_congr rfl rfl rfl

@[simp] theorem State.tqRefresh_hubSide (m q : Nat) : (s.tqRefresh m q).hubSide = s.hubSide := by simp [State.tqRefresh]
@[simp] theorem State.setTeCause_hubSide (m t c : Nat) : (s.setTeCause m t c).hubSide = s.hubSide := by simp [State.setTeCause]
@[simp] theorem State.onInv_hubSide (m : Nat) (f : Machine.Inv → Machine.Inv) : (s.onInv m f).hubSide = s.hubSide := by
  unfold State.onInv
  split <;> simp

@[simp] theorem State.clearCtx_hubSide (m : Nat) : (s.clearCtx m).hubSide = s.hubSide := by simp [State.clearCtx]
@[simp] theorem State.takeCtx_hubSide (m : Nat) : (s.takeCtx m).hubSide = s.hubSide := by simp [State.takeCtx]
@[simp] theorem State.millNext_hubSide (m : Nat) : (s.millNext m).hubSide = s.hubSide := by
  unfold State.millNext
  split <;> simp

@[simp] theorem State.leaveMill_hubSide (v : Machine.Inv) (m : Nat) : (s.leaveMill v m).hubSide = s.hubSide := by
  simp [State.leaveMill]

@[simp] theorem State.stSram_hubSide (m : Nat) (a : Nat) (l : List Byte) : (s.stSram m a l).hubSide = s.hubSide := by
  induction l generalizing s a with
  | nil => rfl
  | cons b l ih => simp [State.stSram, ih]

@[simp] theorem State.hbRewrite_hubSide (m : Nat) : (s.hbRewrite m).hubSide = s.hubSide := by simp [State.hbRewrite]
@[simp] theorem State.millReadmit_hubSide (m : Nat) : (s.millReadmit m).hubSide = s.hubSide := by simp [State.millReadmit]
@[simp] theorem State.invBoundary_hubSide (sp : Nat) : (s.invBoundary sp).hubSide = s.hubSide := by simp [State.invBoundary]
@[simp] theorem State.opRequest_hubSide (q op : Nat) : (s.opRequest q op).hubSide = s.hubSide := by simp [State.opRequest]
@[simp] theorem State.opGo_hubSide (q op mb id : Nat) : (s.opGo q op mb id).hubSide = s.hubSide := by simp [State.opGo]
@[simp] theorem State.opRetry_hubSide : s.opRetry.hubSide = s.hubSide := by simp [State.opRetry]
@[simp] theorem State.statsRecord_hubSide (v : Machine.Inv) (stamp : Nat) : (s.statsRecord v stamp).2.hubSide = s.hubSide := by
  simp [State.statsRecord]

@[simp] theorem State.nanOut_hubSide (v : Machine.Inv) (nan : Nat) : (s.nanOut v nan).hubSide = s.hubSide := by
  simp [State.nanOut]
@[simp] theorem State.gather_hubSide (v : Machine.Inv) : (s.gather v).2.hubSide = s.hubSide := by simp [State.gather]
@[simp] theorem State.invEnds_hubSide (v : Machine.Inv) (discard : Bool) : (s.invEnds v discard).hubSide = s.hubSide := by
  simp [State.invEnds]

@[simp] theorem State.claimInv_hubSide (v : Machine.Inv) (st detail stamp : Nat) :
    (s.claimInv v st detail stamp).hubSide = s.hubSide := by
  unfold State.claimInv
  dsimp only
  split <;> simp

@[simp] theorem State.claimOk_hubSide (slot gen : Nat) : (s.claimOk slot gen).hubSide = s.hubSide := by
  unfold State.claimOk
  split <;> simp

@[simp] theorem State.claimMissed_hubSide (slot gen dl : Nat) : (s.claimMissed slot gen dl).hubSide = s.hubSide := by
  unfold State.claimMissed
  split <;> simp

end

/-! ### Faults (R327, Table KB-4) -/

section
variable (s : State)

/-- KRB_STAT.FAULT shows whether a fault is latched. -/
theorem State.rd_kerbUpdate_fault : s.kerbUpdate.rd .KRB_STAT_FAULT = if s.kerb.faults = [] then 0 else 1 := by
  have hf : s.lossesKnown.groupsShown.kerb.faults = s.kerb.faults := s.lossesKnown_faults
  rw [State.kerbUpdate_eq, State.rd_combine _ (by decide) (by decide), State.statShown, hf]
  simp only [State.put, ne_eq, reduceCtorEq, not_false_eq_true, State.rd_wr_other, State.rd_wr_same]
  cases s.kerb.faults <;> rfl

/-- KRB_FAULT holds the first fault, and a later one is counted. -/
def State.faultShown (code unit : Nat) : State :=
  if s.kerb.faults.isEmpty then (s.wr .KRB_FAULT_CODE 0 code).wr .KRB_FAULT_UNIT 0 unit else s.count .KRB_CNT 8

/-- The hub's state with one more fault. -/
def KerbSt.latched (k : KerbSt) (code unit : Nat) : KerbSt :=
  { k with
    faults := if k.faults.contains (code, unit) then k.faults else k.faults ++ [(code, unit)]
    estopLowSeen := if code = 8 then false else k.estopLowSeen }

theorem KerbSt.mem_latched (k : KerbSt) (code unit : Nat) : (code, unit) ∈ (k.latched code unit).faults := by
  unfold KerbSt.latched
  dsimp only
  split
  · next h => exact List.contains_iff_mem.1 h
  · exact List.mem_append_right _ (List.mem_singleton.2 rfl)

/-- The fault is latched and reported; the hub has not yet evaluated. -/
def State.faultLatched (code unit : Nat) : State :=
  ((s.faultShown code unit).onKerb fun k => k.latched code unit).recordTo 0 0 .kerbFault unit [code]

theorem State.kerbFault_on {s : State} (h : s.domOn pdKerb = true) (code unit : Nat) :
    s.kerbFault code unit = (s.faultLatched code unit).kerbUpdate := by
  unfold State.kerbFault
  rw [if_neg (by simp [h])]
  rfl

theorem State.kerbFault_off {s : State} (h : s.domOn pdKerb = false) (code unit : Nat) : s.kerbFault code unit = s := by
  unfold State.kerbFault
  rw [if_pos (by simp [h])]

@[simp] theorem State.faultShown_kerb (code unit : Nat) : (s.faultShown code unit).kerb = s.kerb := by
  unfold State.faultShown
  split <;> rfl

theorem State.faultLatched_kerb (code unit : Nat) : (s.faultLatched code unit).kerb = s.kerb.latched code unit := by
  rw [State.faultLatched, State.kerb_of_hubSide (State.recordTo_hubSide ..), State.onKerb_kerb, State.faultShown_kerb]

theorem State.rd_faultLatched (code unit : Nat) : (s.faultLatched code unit).rd .KRB_FAULT_CODE =
    if s.kerb.faults = [] then code % 2 ^ 8 else s.rd .KRB_FAULT_CODE := by
  rw [State.faultLatched, State.rd_recordTo _ (by decide) (by decide), State.rd_onKerb, State.faultShown]
  split
  · next h =>
    rw [if_pos (List.isEmpty_iff.1 h), State.rd_wr_other _ _ _ _ (by decide), State.rd_wr_same]
    rfl
  · next h =>
    rw [if_neg (mt List.isEmpty_iff.2 h)]
    exact State.rd_wr_other _ _ _ _ (by decide)

/-- A fault found while the Kerb has power stops every group; KRB_FAULT keeps the first. -/
theorem State.kerbFault_latches {s : State} (h : s.domOn pdKerb = true) (code n : Nat) :
    (s.kerbFault code n).rd .KRB_STAT_ZG_STOP = 0xFF ∧ (s.kerbFault code n).rd .KRB_STAT_FAULT = 1 ∧
      (code, n) ∈ (s.kerbFault code n).kerb.faults ∧ (s.kerbFault code n).armed = s.armed ∧
      (s.kerb.faults = [] → (s.kerbFault code n).rd .KRB_FAULT_CODE = code % 2 ^ 8) ∧
      (s.kerb.faults ≠ [] → (s.kerbFault code n).rd .KRB_FAULT_CODE = s.rd .KRB_FAULT_CODE) := by
  have harmed := s.kerbFault_armed code n
  have hmem : (code, n) ∈ (s.faultLatched code n).kerb.faults := by
    rw [State.faultLatched_kerb]
    exact s.kerb.mem_latched code n
  have hsome := List.ne_nil_of_mem hmem
  have hcode : (s.kerbFault code n).rd .KRB_FAULT_CODE = if s.kerb.faults = [] then code % 2 ^ 8 else s.rd .KRB_FAULT_CODE := by
    rw [State.kerbFault_on h, State.rd_kerbUpdate _ rfl, State.rd_faultLatched]
  refine ⟨?_, ?_, ?_, harmed, fun h0 => by rw [hcode, if_pos h0], fun h0 => by rw [hcode, if_neg h0]⟩
  · rw [State.kerbFault_on h]
    exact State.kerbUpdate_globalStop (State.globalStops_ne_zero _ (.inr (.inl hsome)))
  · rw [State.kerbFault_on h, State.rd_kerbUpdate_fault, if_neg hsome]
  · rwa [State.kerbFault_on h, State.kerbUpdate_faults]

/-- What O37 says of the commands that find a fault. -/
theorem kerbFaultFound (u : Fin 8) (o : SafeOut) :
    exec (.unitLockstep u) s = .next (s.kerbFault 1 u.val) ∧ exec .chanMismatch s = .next (s.kerbFault 2 0) ∧
    exec .kerbCfgUe s = .next (s.kerbFault 3 0) ∧ exec .kerbClockLoss s = .next (s.kerbFault 4 0) ∧
    (s.inDark o.val = false → exec (.outStuckTimeout o) s = .next (s.kerbFault 5 0)) ∧
    (s.inDark o.val = true → exec (.outStuckTimeout o) s = .next s ∧ exec (.darkTestSample o true) s = .next s ∧
      exec (.darkTestSample o false) s = .next (s.kerbFault 6 0)) ∧
    (∀ t, s.kerb.estopDiff = some t →
      exec .estopDiscTimeout s = .next (if t + s.rd .KRB_ESTOP_DISC * 10 ^ 7 < s.raw then s.kerbFault 8 0 else s)) ∧
    (∀ t, s.kerb.fbAAway = some t →
      exec (.feedbackTimeout .a) s = .next (if t + s.rd .KRB_FB_T * 10 ^ 6 < s.raw then s.kerbFault 7 0 else s)) ∧
    (s.domOn pdKerb = false → exec .chanMismatch s = .next s) := by
  refine ⟨rfl, rfl, rfl, rfl, fun h => ?_, fun h => ⟨?_, ?_, ?_⟩, fun t h => ?_, fun t h => ?_, fun h => ?_⟩
  · change execOutStuckTimeout o s = _
    simp [execOutStuckTimeout, h, done]
  · change execOutStuckTimeout o s = _
    simp [execOutStuckTimeout, h, done]
  · change execDarkTestSample o true s = _
    simp [execDarkTestSample, done]
  · change execDarkTestSample o false s = _
    simp [execDarkTestSample, h, done]
  · change execEstopDiscTimeout s = _
    simp only [execEstopDiscTimeout, h, done]
    split <;> rfl
  · change execFeedbackTimeout .a s = _
    simp only [execFeedbackTimeout, h, done]
    split <;> rfl
  · change done (s.kerbFault 2 0) = _
    rw [State.kerbFault_off h]
    rfl

end

/-! ### Safety inputs (R324, R325) -/

section
variable (s : State)

theorem estopInputA (high : Bool) : ∃ t, exec (.estopInputChange .a high) s = .next t ∧ t.kerb.estopA = high ∧
    t.kerb.estopB = s.kerb.estopB ∧ t.regs = s.regs := by
  refine ⟨_, rfl, ?_, ?_, rfl⟩
  · rw [State.onKerb_kerb]
    dsimp only
    split
    · next h => exact h
    · rfl
  · rw [State.onKerb_kerb]
    dsimp only
    split <;> rfl

theorem estopInputB (high : Bool) : ∃ t, exec (.estopInputChange .b high) s = .next t ∧ t.kerb.estopB = high ∧
    t.kerb.estopA = s.kerb.estopA ∧ t.regs = s.regs := by
  refine ⟨_, rfl, ?_, ?_, rfl⟩
  · rw [State.onKerb_kerb]
    dsimp only
    split
    · next h => exact h
    · rfl
  · rw [State.onKerb_kerb]
    dsimp only
    split <;> rfl

/-- An input that has been low for ESTOP_FILT. -/
def State.estopALow : Prop :=
  s.kerb.estopA = false ∧ s.domOn pdKerb = true ∧ s.kerb.estopASince + s.rd .KRB_ESTOP_FILT * 1000 ≤ s.raw

theorem estopFilterA_set (h : s.estopALow) : ∃ t, exec (.estopFilterExpiry .a) s = .next t ∧ t.kerb.estop = true ∧
    t.rd .KRB_STAT_ZG_STOP = 0xFF := by
  obtain ⟨hlow, hon, hlong⟩ := h
  refine ⟨(s.onKerb fun k => { k with estop := true }).kerbUpdate, ?_, ?_, ?_⟩
  · change execEstopFilterExpiry .a s = _
    simp [execEstopFilterExpiry, hlow, hon, hlong, done]
  · rw [State.kerbUpdate_estop]
    rfl
  · exact State.kerbUpdate_globalStop (State.globalStops_ne_zero _ (.inr (.inr (.inl rfl))))

theorem estopFilterA_kept (h : ¬ s.estopALow) : exec (.estopFilterExpiry .a) s = .next s := by
  change execEstopFilterExpiry .a s = _
  unfold execEstopFilterExpiry
  dsimp only
  rw [if_neg fun hc => h ?_]
  · rfl
  · simpa [State.estopALow, and_assoc] using hc

theorem feedbackInputB (high : Bool) : ∃ t, exec (.feedbackInputChange .b high) s = .next t ∧ t.kerb.fbB = high ∧
    t.kerb.fbA = s.kerb.fbA :=
  ⟨_, rfl, State.kerbUpdate_fbB _, State.kerbUpdate_fbA _⟩

end

/-! ### Dark tests (R326) -/

theorem Table.any_insert {α : Type} (t : Table α) (k : Nat) (v : α) (p : Nat × α → Bool) :
    (Table.insert t k v).any p = (p (k, v) || t.any p) := by
  induction t with
  | nil => simp [Table.insert]
  | cons e t ih =>
    obtain ⟨j, w⟩ := e
    unfold Table.insert
    split
    · rfl
    · simp [ih, Bool.or_left_comm]

section
variable (s : State) (o : SafeOut)

theorem darkTestStart_pair (h : o.val < 2) (hd : s.inDark (1 - o.val) = true) : exec (.darkTestStart o) s = .next s := by
  change execDarkTestStart o s = _
  simp [execDarkTestStart, h, hd, done]

theorem darkTestStart_off (h : bit s.kerb.out o.val = false) : exec (.darkTestStart o) s = .next s := by
  change execDarkTestStart o s = _
  simp [execDarkTestStart, h, done]

theorem darkTestStart_on (hb : bit s.kerb.out o.val = true) (hn : s.inDark o.val = false) (hp : s.domOn pdKerb = true)
    (hd : o.val < 2 → s.inDark (1 - o.val) = false) :
    ∃ t, exec (.darkTestStart o) s = .next t ∧ t.inDark o.val = true ∧ t.kerb.out = s.kerb.out ∧ t.regs = s.regs := by
  let u := s.onKerb fun k => { k with dark := Table.insert k.dark o.val s.raw }
  refine ⟨u.emit (.safetyOut (u.driven u.kerb.out)), ?_, ?_, rfl, rfl⟩
  · have hpair : ¬ ((decide (o.val < 2) && s.inDark (1 - o.val)) = true) := by simpa using hd
    change execDarkTestStart o s = _
    unfold execDarkTestStart
    rw [if_neg hpair, if_pos (by simp [hb, hn, hp])]
    rfl
  · change (Table.insert s.kerb.dark o.val s.raw).any (fun e => e.1 == o.val) = true
    simp [Table.any_insert]

theorem darkTestEnd_on (h : s.inDark o.val = true) :
    ∃ t, exec (.darkTestEnd o) s = .next t ∧ t.inDark o.val = false ∧ t.kerb.out = s.kerb.out ∧ t.regs = s.regs := by
  let u := s.onKerb fun k => { k with dark := Table.erase k.dark o.val }
  refine ⟨u.emit (.safetyOut (u.driven u.kerb.out)), ?_, ?_, rfl, rfl⟩
  · change execDarkTestEnd o s = _
    simp only [execDarkTestEnd, h, if_true]
    rfl
  · change (Table.erase s.kerb.dark o.val).any (fun e => e.1 == o.val) = false
    exact List.any_eq_false.2 fun e he => by simpa using (Table.mem_erase he).2

end

/-! ### Resetting the Kerb (R319 step 5, R322) -/

section
variable (s : State)

@[simp] theorem State.ageLatch_kerb (z : Nat) : (s.ageLatch z).kerb = s.kerb := by
  unfold State.ageLatch
  split <;> rfl

/-- The hub's state but for what an evaluation, the verdict latches and the late log set. -/
def KerbSt.inputs (k : KerbSt) : KerbSt := { k.lasting with latches := [], lateLog := [] }

/-- A setting of the feedback inputs. -/
@[simp] def Reg.feedback (r : Reg) : Bool := List.contains [.KRB_FB_POL, .KRB_FB_FBA_EN, .KRB_FB_FBB_EN] r

/-- What decides whether a fault may be cleared: the safety inputs, their settings and the faults. -/
def State.inputSide (s : State) : KerbSt × (Reg → Nat → Nat) :=
  (s.kerb.inputs, fun r i => if r.feedback then s.rd r i else 0)

theorem State.inputSide_congr {s t : State} (hk : t.kerb.inputs = s.kerb.inputs)
    (hr : ∀ r, r.feedback = true → ∀ i, t.rd r i = s.rd r i) : t.inputSide = s.inputSide := by
  refine Prod.ext hk (funext fun r => funext fun i => ?_)
  change (if r.feedback then t.rd r i else 0) = if r.feedback then s.rd r i else 0
  split
  · next h => exact hr r h i
  · rfl

theorem State.inputSide_of_hubSide {s t : State} (h : t.hubSide = s.hubSide) : t.inputSide = s.inputSide := by
  refine State.inputSide_congr (congrArg KerbSt.inputs (State.kerb_of_hubSide h)) fun r hr i => ?_
  have hcases : r = .KRB_FB_POL ∨ r = .KRB_FB_FBA_EN ∨ r = .KRB_FB_FBB_EN := by simpa using hr
  rcases hcases with rfl | rfl | rfl <;> exact State.rd_of_hubSide h rfl i

@[simp] theorem State.wr_inputSide {r : Reg} (h : r.feedback = false) (i v : Nat) : (s.wr r i v).inputSide = s.inputSide :=
  State.inputSide_congr rfl fun q hq j => s.rd_wr_other i v j fun e => by rw [e, h] at hq; cases hq
@[simp] theorem State.count_inputSide {r : Reg} (h : r.feedback = false) (i n : Nat) : (s.count r i n).inputSide = s.inputSide :=
  s.wr_inputSide h i _

@[simp] theorem State.ageLatch_inputSide (z : Nat) : (s.ageLatch z).inputSide = s.inputSide := by
  unfold State.ageLatch
  split <;> simp

@[simp] theorem State.lateEntry_inputSide (e : LateEnt) : (s.lateEntry e).inputSide = s.inputSide := by
  unfold State.lateEntry
  split
  · simp
  · exact State.inputSide_congr rfl fun r _ i => State.rd_onKerb ..

@[simp] theorem State.lateLatch_inputSide (win z : Nat) : (s.lateLatch win z).inputSide = s.inputSide := by
  refine (State.inputSide_congr rfl fun r _ i => State.rd_onKerb ..).trans ?_
  exact (State.wr_inputSide _ rfl _ _).trans ((State.wr_inputSide _ rfl _ _).trans (s.wr_inputSide rfl _ _))

theorem State.fireSlot_inputSide (d : Nat) : (s.fireSlot d).inputSide = s.inputSide := by
  unfold State.fireSlot
  rw [State.inputSide_of_hubSide (State.claimMissed_hubSide ..)]
  split
  · simp
  · rw [State.each_same State.inputSide _ (fun u z => u.lateLatch_inputSide ..)]
    simp
  · rw [State.each_same State.inputSide _ (fun u z => u.lateLatch_inputSide ..)]
    simp

/-- Ageing and firing touch neither the safety inputs nor the faults. -/
theorem State.hubSteps_inputSide : s.hubSteps.inputSide = s.inputSide :=
  (State.each_same State.inputSide _ (fun u d => u.fireSlot_inputSide d) _ _).trans
    (State.each_same State.inputSide _ (fun u z => u.ageLatch_inputSide z) _ _)

theorem State.kerbUpdate_inputSide : s.kerbUpdate.inputSide = s.inputSide := by
  refine State.inputSide_congr (congrArg (fun k : KerbSt => { k with latches := [], lateLog := [] }) s.kerbUpdate_lasting)
    fun r hr i => s.rd_kerbUpdate ?_ i
  have hcases : r = .KRB_FB_POL ∨ r = .KRB_FB_FBA_EN ∨ r = .KRB_FB_FBB_EN := by simpa using hr
  rcases hcases with rfl | rfl | rfl <;> rfl

theorem State.faultClears_congr {s t : State} (h : t.inputSide = s.inputSide) (rb : Bool) (code : Nat) :
    t.faultClears rb code = s.faultClears rb code := by
  have hk : t.kerb.inputs = s.kerb.inputs := congrArg Prod.fst h
  have hrd : ∀ r, r.feedback = true → ∀ i, t.rd r i = s.rd r i := fun r hr i => by
    have hv : (if r.feedback then t.rd r i else 0) = if r.feedback then s.rd r i else 0 := congrArg (fun v => v.2 r i) h
    simpa only [hr, if_true] using hv
  have hA : t.kerb.fbA = s.kerb.fbA := (congrArg KerbSt.fbA hk :)
  have hB : t.kerb.fbB = s.kerb.fbB := (congrArg KerbSt.fbB hk :)
  have hlow : t.kerb.estopLowSeen = s.kerb.estopLowSeen := (congrArg KerbSt.estopLowSeen hk :)
  have hea : t.kerb.estopA = s.kerb.estopA := (congrArg KerbSt.estopA hk :)
  have heb : t.kerb.estopB = s.kerb.estopB := (congrArg KerbSt.estopB hk :)
  simp only [State.faultClears, State.flag, hrd .KRB_FB_POL rfl, hrd .KRB_FB_FBA_EN rfl, hrd .KRB_FB_FBB_EN rfl, hA, hB, hlow,
    hea, heb]

/-- The state in which KRB_RESET takes effect: steps 1 to 4 are done, and a KRB_RESET against a live demand is counted. -/
def State.resetReady : State :=
  s.hubSteps.kerbUpdate.when (s.hubSteps.kerbUpdate.kerb.liveStop &&& s.hubSteps.kerbUpdate.rd .KRB_OUT_MANUAL != 0) fun u =>
    u.count .KRB_CNT 5

theorem State.resetReady_inputSide : s.resetReady.inputSide = s.inputSide :=
  (State.when_same (fun u => u.count_inputSide (by decide) _ _) _ _).trans
    ((State.kerbUpdate_inputSide _).trans s.hubSteps_inputSide)

/-- What KRB_RESET clears: groups held as MANUAL, the emergency stop, faults. -/
def State.cleared (rb : Bool) : State := s.onKerb fun k =>
  { k with
    manual := k.manual &&& k.liveStop
    estop := k.estop && !(k.estopA && k.estopB)
    faults := k.faults.filter fun f => !s.faultClears rb f.1 }

theorem State.kerbReset_eq (rb : Bool) : s.kerbReset rb = (s.resetReady.cleared rb).showFault.kerbUpdate := rfl

@[simp] theorem State.showFault_kerb : s.showFault.kerb = s.kerb := by
  unfold State.showFault
  split <;> rfl

theorem State.kerbReset_estop (rb : Bool) :
    (s.kerbReset rb).kerb.estop = (s.kerb.estop && !(s.kerb.estopA && s.kerb.estopB)) := by
  have hk : s.resetReady.kerb.inputs = s.kerb.inputs := congrArg Prod.fst s.resetReady_inputSide
  have he : s.resetReady.kerb.estop = s.kerb.estop := (congrArg KerbSt.estop hk :)
  have ha : s.resetReady.kerb.estopA = s.kerb.estopA := (congrArg KerbSt.estopA hk :)
  have hb : s.resetReady.kerb.estopB = s.kerb.estopB := (congrArg KerbSt.estopB hk :)
  rw [State.kerbReset_eq, State.kerbUpdate_estop, State.showFault_kerb, State.cleared, State.onKerb_kerb, he, ha, hb]

theorem State.kerbReset_faults (rb : Bool) :
    (s.kerbReset rb).kerb.faults = s.kerb.faults.filter fun f => !s.faultClears rb f.1 := by
  have hk : s.resetReady.kerb.inputs = s.kerb.inputs := congrArg Prod.fst s.resetReady_inputSide
  have hf : s.resetReady.kerb.faults = s.kerb.faults := (congrArg KerbSt.faults hk :)
  rw [State.kerbReset_eq, State.kerbUpdate_faults, State.showFault_kerb, State.cleared, State.onKerb_kerb, hf]
  simp only [State.faultClears_congr s.resetReady_inputSide]

end

/-! ### Arming (R328) -/

section
variable (s : State)

/-- The configuration's CRC is shown, and the poses of the maskable rectangles' slots are copied (R310). -/
def State.poseCopied : State :=
  let slots := (((s.setOf .ZR_EN).filter fun i => s.flag .ZONE_MASKABLE (s.rectZone i)).map fun i => s.rd .ZR_SLOT i).dedup
  let s := s.wr .KRB_CFGCRC 0 (crc32 s.kerbImage)
  s.onKerb fun k => { k with poseCopy := slots.foldl (fun t p => Table.set [] t p (s.poseOf p)) [] }

/-- STOP in every active latch. -/
def State.latchesStopped : State := s.each s.activeLatches fun s z => s.setLatch z 2 0 0 0

/-- An arm that is not refused, up to the evaluation that follows. -/
def State.armTaken : State :=
  ((s.poseCopied.latchesStopped.put .KRB_ARM_ARM 0 true).put .KRB_STAT_ARMED 0 true).onWl1 fun t =>
    Table.set false t (Reg.key .KRB_ARM_ARM 0) true

theorem State.armKerb_taken {s : State} (h : s.armRefusal = 0) : s.armKerb = (0, s.armTaken.tapForced.kerbUpdate.toolJudge) := by
  unfold State.armKerb
  rw [h]
  rfl

theorem State.armKerb_refused {s : State} (h : s.armRefusal ≠ 0) :
    s.armKerb = (s.armRefusal, s.wr .KRB_ARM_ERR 0 s.armRefusal) := by
  unfold State.armKerb
  split
  · next h0 => exact absurd h0 h
  · rfl

theorem State.rd_toolJudge {r : Reg} (hr : r.reported = false) (hm : r.showsMask = false) (hu : r ≠ .HB_STAT_UNLISTED) (i : Nat) :
    s.toolJudge.rd r i = s.rd r i := by
  have hshow : ∀ q : Reg, q.showsMask = true → r ≠ q := fun q hq e => by rw [e, hq] at hm; cases hm
  unfold State.toolJudge
  split
  · rfl
  · split
    · split
      · rw [State.rd_kerbUpdate _ hr, State.rd_onKerb, State.rd_onHat, State.put, State.rd_wr_other _ _ _ _ (hshow _ rfl),
          State.rd_wr_other _ _ _ _ (hshow _ rfl), State.rd_wr_other _ _ _ _ (hshow _ rfl)]
      · exact s.rd_wr_other _ _ _ hu
    · rfl

theorem State.rd_tapForced (r : Reg) (i : Nat) : s.tapForced.rd r i = s.rd r i := by
  unfold State.tapForced
  split
  · rfl
  · exact State.rd_congr rfl r i

/-- What an arm that is taken leaves in a register is there once the tool has been judged. -/
theorem State.rd_armKerb {r : Reg} (h : s.armRefusal = 0) (hr : r.reported = false) (hm : r.showsMask = false)
    (hu : r ≠ .HB_STAT_UNLISTED) (i : Nat) : s.armKerb.2.rd r i = s.armTaken.rd r i := by
  rw [State.armKerb_taken h, State.rd_toolJudge _ hr hm hu, State.rd_kerbUpdate _ hr, State.rd_tapForced]

end

/-! #### Tables of registers and the active latches -/

theorem Table.filter_erase {α : Type} (t : Table α) {k : Nat} {p : Nat × α → Bool} (h : ∀ v, p (k, v) = false) :
    (Table.erase t k).filter p = t.filter p := by
  induction t with
  | nil => rfl
  | cons e t ih =>
    obtain ⟨j, w⟩ := e
    unfold Table.erase
    split
    · next hj => rw [ih, List.filter_cons_of_neg (by simp [hj, h])]
    · rw [List.filter_cons, List.filter_cons, ih]

theorem Table.filter_insert {α : Type} (t : Table α) {k : Nat} {v : α} {p : Nat × α → Bool} (h : p (k, v) = false) :
    (Table.insert t k v).filter p = t.filter p := by
  induction t with
  | nil => simp [Table.insert, h]
  | cons e t ih =>
    obtain ⟨j, w⟩ := e
    unfold Table.insert
    split
    · rw [List.filter_cons_of_neg (by simp [h])]
    · rw [List.filter_cons, List.filter_cons, ih]

theorem Table.filter_set {α : Type} [DecidableEq α] (d : α) (t : Table α) {k : Nat} (v : α) {p : Nat × α → Bool}
    (h : ∀ w, p (k, w) = false) : (Table.set d t k v).filter p = t.filter p := by
  unfold Table.set
  split
  · exact Table.filter_erase t h
  · rw [Table.filter_insert _ (h v), Table.filter_erase t h]

section
variable (s : State)

/-- A write of another field leaves the instances of a field that are set. -/
theorem State.setOf_wr {r q : Reg} (h : q ≠ r) (i v : Nat) : (s.wr r i v).setOf q = s.setOf q := by
  have hkey : ∀ w : Nat, (keyField (r.key i) == q.ctorIdx && w != 0) = false := fun w => by
    rw [keyField_key, beq_eq_false_iff_ne.2 fun e => h (Reg.ctorIdx_inj e).symm, Bool.false_and]
  exact congrArg (List.map fun e => e.1 % 2 ^ 24)
    (Table.filter_set (p := fun e => keyField e.1 == q.ctorIdx && e.2 != 0) _ _ _ hkey)

theorem State.setZones_congr {s t : State} (h : ∀ i, t.rd .VS_MASK i = s.rd .VS_MASK i) (v : Nat) :
    t.setZones v = s.setZones v := by
  simp only [State.setZones, h]

/-- The active latches are a matter of the enabled sets and their masks. -/
theorem State.activeLatches_congr {s t : State} (hs : t.sets = s.sets) (h : ∀ i, t.rd .VS_MASK i = s.rd .VS_MASK i) :
    t.activeLatches = s.activeLatches := by
  have hz : t.setZones = s.setZones := funext (State.setZones_congr h)
  rw [State.activeLatches, State.activeLatches, hs, hz]

theorem State.activeLatches_wr {r : Reg} (he : r ≠ .VS_EN) (hm : r ≠ .VS_MASK) (i v : Nat) :
    (s.wr r i v).activeLatches = s.activeLatches :=
  State.activeLatches_congr (s.setOf_wr he.symm i v) fun j => s.rd_wr_other i v j hm.symm

theorem State.activeLatches_onKerb (f : KerbSt → KerbSt) : (s.onKerb f).activeLatches = s.activeLatches :=
  State.activeLatches_congr rfl fun _ => State.rd_onKerb ..

end

/-! #### The latches at arming -/

/-- A write has one effect on a field in all states that agree on it. -/
theorem State.rd_wr_congr {s t : State} {r : Reg} {j : Nat} (h : t.rd r j = s.rd r j) (i v : Nat) :
    (t.wr r i v).rd r j = (s.wr r i v).rd r j := by
  by_cases hk : r.key j = r.key i
  · rw [State.rd, State.rd, hk]
    exact (t.rd_wr_same r i v).trans (s.rd_wr_same r i v).symm
  · exact (Table.get_set_other _ _ _ _ hk).trans (h.trans (Table.get_set_other _ _ _ _ hk).symm)

section
variable (s : State)

theorem State.rd_setLatch_verdict (z verdict reason win stamp j : Nat) :
    (s.setLatch z verdict reason win stamp).rd .LATCH_VERDICT j = (s.wr .LATCH_VERDICT z verdict).rd .LATCH_VERDICT j := by
  rw [State.setLatch, State.rd_onKerb, State.rd_wr_other _ _ _ _ (by decide), State.rd_wr_other _ _ _ _ (by decide)]

theorem State.rd_setLatch_reason (z verdict reason win stamp j : Nat) :
    (s.setLatch z verdict reason win stamp).rd .LATCH_REASON j = (s.wr .LATCH_REASON z reason).rd .LATCH_REASON j := by
  rw [State.setLatch, State.rd_onKerb, State.rd_wr_other _ _ _ _ (by decide)]
  exact State.rd_wr_congr (s.rd_wr_other _ _ _ (by decide)) _ _

theorem State.rd_setLatch_other {r : Reg} (hv : r ≠ .LATCH_VERDICT) (hr : r ≠ .LATCH_REASON) (hw : r ≠ .LATCH_WIN)
    (z verdict reason win stamp j : Nat) : (s.setLatch z verdict reason win stamp).rd r j = s.rd r j := by
  rw [State.setLatch, State.rd_onKerb, State.rd_wr_other _ _ _ _ hw, State.rd_wr_other _ _ _ _ hr, State.rd_wr_other _ _ _ _ hv]

/-- A run that gives every latch of a list one verdict and reason gives it to each. -/
theorem State.each_setLatch {z : Nat} {l : List Nat} (hz : z ∈ l) (verdict reason : Nat) :
    (s.each l fun s z => s.setLatch z verdict reason 0 0).rd .LATCH_VERDICT z = verdict % 2 ^ 2 ∧
      (s.each l fun s z => s.setLatch z verdict reason 0 0).rd .LATCH_REASON z = reason % 2 ^ 2 := by
  refine State.each_reaches (P := fun _ => True)
    (Q := fun u => u.rd .LATCH_VERDICT z = verdict % 2 ^ 2 ∧ u.rd .LATCH_REASON z = reason % 2 ^ 2) (a := z)
    (fun u _ => ?_) l s hz trivial (fun _ _ _ _ => trivial) fun u b _ _ hu => ?_
  · rw [State.rd_setLatch_verdict, State.rd_setLatch_reason]
    exact ⟨u.rd_wr_same .LATCH_VERDICT z verdict, u.rd_wr_same .LATCH_REASON z reason⟩
  · rw [State.rd_setLatch_verdict, State.rd_setLatch_reason]
    exact ⟨State.rd_wr_kept (r := .LATCH_VERDICT) hu.1 b, State.rd_wr_kept (r := .LATCH_REASON) hu.2 b⟩

theorem State.rd_armTaken {r : Reg} (ha : r ≠ .KRB_ARM_ARM) (hs : r ≠ .KRB_STAT_ARMED) (i : Nat) :
    s.armTaken.rd r i = s.poseCopied.latchesStopped.rd r i := by
  rw [State.armTaken, State.rd_congr (State.onWl1_regs ..), State.put, State.put, State.rd_wr_other _ _ _ _ hs,
    State.rd_wr_other _ _ _ _ ha]

theorem State.poseCopied_activeLatches : s.poseCopied.activeLatches = s.activeLatches :=
  (State.activeLatches_onKerb ..).trans (s.activeLatches_wr (by decide) (by decide) _ _)

/-- An armed Kerb begins with STOP in every active latch. -/
theorem State.armTaken_latches {z : Nat} (hz : z ∈ s.activeLatches) :
    s.armTaken.rd .LATCH_VERDICT z = 2 ∧ s.armTaken.rd .LATCH_REASON z = 0 := by
  rw [s.rd_armTaken (by decide) (by decide), s.rd_armTaken (by decide) (by decide)]
  exact s.poseCopied.each_setLatch (s.poseCopied_activeLatches.symm ▸ hz) 2 0

/-- What a taken arm shows. -/
theorem State.armTaken_shown : s.armTaken.rd .KRB_STAT_ARMED = 1 ∧ s.armTaken.rd .KRB_ARM_ARM = 1 ∧
    s.armTaken.rd .KRB_CFGCRC = crc32 s.kerbImage % 2 ^ 32 := by
  refine ⟨?_, ?_, ?_⟩
  · rw [State.armTaken, State.rd_congr (State.onWl1_regs ..), State.put, State.rd_wr_same]
    rfl
  · rw [State.armTaken, State.rd_congr (State.onWl1_regs ..), State.put, State.rd_wr_other _ _ _ _ (by decide), State.put,
      State.rd_wr_same]
    rfl
  · rw [s.rd_armTaken (by decide) (by decide), State.latchesStopped,
      State.each_same (fun u => u.rd .KRB_CFGCRC) _ (fun u z => u.rd_setLatch_other (by decide) (by decide) (by decide) ..),
      State.poseCopied, State.rd_onKerb]
    exact s.rd_wr_same .KRB_CFGCRC 0 _

end

/-! ### The commands of O37 -/

section
variable (s : State)

theorem krbArm_exec {c : Fin 16} (h : s.letIn (.fw c) .KRB_ARM_ARM 0 = .ok s) (w : Word) :
    exec (.krbArm (.fw c) w) s = .next (if s.armed then s.lockViolation (.fw c) 0x60000
      else if bit w.toNat 0 then s.armKerb.2 else s) := by
  change execKrbArm (.fw c) w s = _
  simp only [execKrbArm, h, done]
  split_ifs <;> rfl

theorem krbReset_exec {c : Fin 16} (h : s.letIn (.fw c) .KRB_RESET 0 = .ok s) (rb : Bool) :
    exec (.krbReset (.fw c) rb) s = .next (s.kerbReset rb) := by
  change execKrbReset (.fw c) rb s = _
  simp only [execKrbReset, h, done]

theorem krbArm_taken {c : Fin 16} (h : s.letIn (.fw c) .KRB_ARM_ARM 0 = .ok s) {w : Word} (ha : s.armed = false)
    (hw : bit w.toNat 0 = true) (hr : s.armRefusal = 0) :
    ∃ t, exec (.krbArm (.fw c) w) s = .next t ∧ t.armed = true ∧ t.rd .KRB_ARM_ARM = 1 ∧
      t.rd .KRB_CFGCRC = crc32 s.kerbImage % 2 ^ 32 ∧
      ∀ z ∈ s.activeLatches, t.rd .LATCH_VERDICT z = 2 ∧ t.rd .LATCH_REASON z = 0 := by
  obtain ⟨harmed, harm, hcrc⟩ := s.armTaken_shown
  refine ⟨s.armKerb.2, ?_, ?_, ?_, ?_, fun z hz => ?_⟩
  · rw [krbArm_exec s h, ha, hw]
    rfl
  · rw [State.armed, State.flag, s.rd_armKerb hr rfl rfl (by decide), harmed]
    rfl
  · rwa [s.rd_armKerb hr rfl rfl (by decide)]
  · rwa [s.rd_armKerb hr rfl rfl (by decide)]
  · rw [s.rd_armKerb hr rfl rfl (by decide), s.rd_armKerb hr rfl rfl (by decide)]
    exact s.armTaken_latches hz

/-- The state in which KERB_LOAD tries to arm: the image is loaded, and the zones have taken up its settings. -/
def State.imageLoaded (core : Agent) (l : List (Nat × Nat)) : State :=
  (s.each l fun s p => (s.applyWord core p.1 p.2).2).each
    ((s.each l fun s p => (s.applyWord core p.1 p.2).2).kerb.zones.map Prod.fst) State.zoneSettings

/-- What KERB_LOAD comes to, by its three outcomes. -/
theorem kerbLoad_exec {mb : Fin 64} {tag : BitVec 16} {c : Cmd} (h : s.runs mb tag 0x20 true c) (image : List Word) :
    let core : Agent := .fw ⟨s.mbCore mb.val % 16, Nat.mod_lt _ (by decide)⟩
    let l := kerbCfgOffsets.zip (image.map BitVec.toNat)
    let w := s.imageLoaded core l
    (s.armed = true → exec (.kerbLoad mb tag image) s = .next ((s.lockViolation core 0x60020).finish mb.val c 5 0x60020 0)) ∧
    (∀ i, s.armed = false → reservedIn l = some i →
      exec (.kerbLoad mb tag image) s = .next (s.finish mb.val c 0x11 (4 * i) 0)) ∧
    (s.armed = false → reservedIn l = none → w.armRefusal = 0 →
      exec (.kerbLoad mb tag image) s = .next (w.armKerb.2.finish mb.val c 0 0 (w.armKerb.2.rd .KRB_CFGCRC))) ∧
    (s.armed = false → reservedIn l = none → w.armRefusal ≠ 0 →
      exec (.kerbLoad mb tag image) s = .next ((w.wr .KRB_ARM_ERR 0 w.armRefusal).finish mb.val c 0x28 w.armRefusal 0)) := by
  intro core l w
  refine ⟨fun ha => ?_, fun i ha hi => ?_, fun ha hn hr => ?_, fun ha hn hr => ?_⟩
  all_goals
    change execKerbLoad mb tag image s = _
    rw [execKerbLoad, State.runCmd_runs h]
    refine congrArg _ ?_
  · exact if_pos ha
  · dsimp only
    rw [if_neg (by simp [ha]), hi]
  · dsimp only
    rw [if_neg (by simp [ha]), hn]
    change (match w.armKerb with | (0, s) => _ | (r, s) => _) = _
    simp only [State.armKerb_taken hr]
  · dsimp only
    rw [if_neg (by simp [ha]), hn]
    change (match w.armKerb with | (0, s) => _ | (r, s) => _) = _
    rw [State.armKerb_refused hr]
    split
    · next h0 => exact absurd (congrArg Prod.fst h0) hr
    · next h0 => cases h0; rfl

end

/-- Settles O37: a fault by what stands once it is latched, the inputs and dark tests by what they set, KRB_RESET by what ageing
and firing leave of the inputs, an arm by what it writes, KERB_LOAD by its outcomes. -/
theorem kerbInputsFaultsAndArming : Obligations.KerbInputsFaultsAndArming := by
  refine ⟨fun s u o => ?_, fun s high => ?_, fun s o => ?_, fun s c rb h => ?_, fun s c w h => ?_, fun s mb tag c image rb => ?_⟩
  · obtain ⟨h1, h2, h3, h4, h5, h6, h7, h8, h9⟩ := kerbFaultFound s u o
    exact ⟨h1, h2, h3, h4, h5, h6, h7, h8, h9, fun code n h => State.kerbFault_latches h code n⟩
  · exact ⟨estopInputA s high, estopInputB s high, estopFilterA_set s, estopFilterA_kept s, feedbackInputB s high⟩
  · exact ⟨darkTestStart_pair s o, darkTestStart_on s o, darkTestStart_off s o, darkTestEnd_on s o⟩
  · exact ⟨_, krbReset_exec s h rb, s.kerbReset_armed rb, s.kerbReset_estop rb, s.kerbReset_faults rb⟩
  · refine ⟨fun ha => ?_, fun ha hw => ?_, fun ha hw hr => ?_, krbArm_taken s h⟩
    · rw [krbArm_exec s h, if_pos ha]
    · rw [krbArm_exec s h, ha, hw]
      rfl
    · rw [krbArm_exec s h, ha, hw, State.armKerb_refused hr]
      rfl
  · have hload := fun h : s.runs mb tag 0x20 true c => kerbLoad_exec s h image
    refine ⟨fun h => (hload h).1, fun i h => (hload h).2.1 i, fun h => (hload h).2.2.1, fun h => (hload h).2.2.2, fun h => ?_⟩
    change execKerbReset mb tag rb s = _
    rw [execKerbReset, State.runCmd_runs h]

end Sys2Proof.Machine
end

section
/-!
PROOFS of the statement of the verdicts and deadlines (O36) of `spec/11_kerb_and_deadlines.md` in this row.
-/
namespace Sys2Proof.Machine

theorem bits_lt (n lo w : Nat) : bits n lo w < 2 ^ w := Nat.mod_lt _ (Nat.two_pow_pos w)

/-! ### Deadline slots are armed (R314, R315) -/

section
variable (s : State) (d : Nat)

/-- The fields of SLOT_CTRL that a write carries. -/
def State.slotFields (w : Word) : State :=
  ((s.wr .SLOT_CTRL_ACT d (bits w.toNat 1 2)).wr .SLOT_CTRL_VSET d (bits w.toNat 3 6)).wr .SLOT_CTRL_SPUR d (bits w.toNat 9 3)

/-- The slot is armed with the deadline and the window it holds and the fields of the write. -/
def State.slotArmed (w : Word) : State :=
  s.armSlot d (s.rd64 .DL_LO .DL_HI d) (s.rd .SLOT_WIN d) (bits w.toNat 1 2) (bits w.toNat 3 6) (bits w.toNat 9 3)

theorem State.rd_slotFields (w : Word) :
    (s.slotFields d w).rd .SLOT_CTRL_STATE d = s.rd .SLOT_CTRL_STATE d ∧
      (s.slotFields d w).rd .SLOT_CTRL_ACT d = bits w.toNat 1 2 ∧ (s.slotFields d w).rd .SLOT_CTRL_VSET d = bits w.toNat 3 6 ∧
      (s.slotFields d w).rd .SLOT_CTRL_SPUR d = bits w.toNat 9 3 := by
  have hact : bits w.toNat 1 2 % 2 ^ Reg.SLOT_CTRL_ACT.spec.width = bits w.toNat 1 2 := Nat.mod_eq_of_lt (bits_lt ..)
  have hset : bits w.toNat 3 6 % 2 ^ Reg.SLOT_CTRL_VSET.spec.width = bits w.toNat 3 6 := Nat.mod_eq_of_lt (bits_lt ..)
  have hspur : bits w.toNat 9 3 % 2 ^ Reg.SLOT_CTRL_SPUR.spec.width = bits w.toNat 9 3 := Nat.mod_eq_of_lt (bits_lt ..)
  unfold State.slotFields
  simp only [ne_eq, reduceCtorEq, not_false_eq_true, State.rd_wr_other, State.rd_wr_same, hact, hset, hspur, and_self]

theorem State.rd_slotArmed (w : Word) : (s.slotArmed d w).rd .SLOT_CTRL_STATE d = 1 ∧
    (s.slotArmed d w).rd .SLOT_CTRL_GEN d = (s.rd .SLOT_CTRL_GEN d + 1) % 256 := by
  constructor
  · rw [State.slotArmed, State.armSlot, State.rd_onKerb, State.rd_wr_same]
    rfl
  · rw [State.slotArmed, State.armSlot, State.rd_onKerb, State.rd_wr_other _ _ _ _ (by decide), State.rd_wr_same]
    simp only [State.wr64, ne_eq, reduceCtorEq, not_false_eq_true, State.rd_wr_other]
    rfl

theorem State.slotArmed_slot (w : Word) : (s.slotArmed d w).armedSlot d =
    ⟨s.rd64 .DL_LO .DL_HI d, s.rd .SLOT_WIN d, bits w.toNat 3 6, bits w.toNat 1 2, bits w.toNat 9 3⟩ :=
  Table.get_set_same ..

/-- A write of SLOT_CTRL by a core of Spur 0, by the state of the slot and ARM. -/
theorem slotArm_exec {s : State} {c : Fin 16} {d : Fin 1024} {w : Word} (h : s.letIn (.fw c) .SLOT_CTRL_ARM d.val = .ok s)
    (hc : c.val / 2 = 0) (hact : bits w.toNat 1 2 ≠ 3) :
    exec (.slotArm (.fw c) d w) s = .next (if s.rd .SLOT_CTRL_STATE d.val = 1 then s.count .KRB_CNT 6
      else if bit w.toNat 0 then s.slotArmed d.val w else s.slotFields d.val w) := by
  change execSlotArm (.fw c) d w s = _
  simp only [execSlotArm, h, hc, beq_self_eq_true, Bool.not_true, Bool.false_eq_true, if_false, if_neg hact, done]
  split
  · rfl
  · cases hb : bit w.toNat 0 <;> rfl

end

/-! ### Ageing (R313) -/

section
variable (s : State)

theorem State.rd_ageLatch {r : Reg} (hv : r ≠ .LATCH_VERDICT) (hr : r ≠ .LATCH_REASON) (hc : r ≠ .KRB_CNT) (z i : Nat) :
    (s.ageLatch z).rd r i = s.rd r i := by
  unfold State.ageLatch
  split
  · rw [State.count, State.rd_wr_other _ _ _ _ hc, State.rd_wr_other _ _ _ _ hr, State.rd_wr_other _ _ _ _ hv]
  · rfl

theorem State.ageLatch_now (z : Nat) : (s.ageLatch z).now = s.now := by
  unfold State.ageLatch
  split <;> rfl

theorem State.ageLatch_sets (z : Nat) : (s.ageLatch z).sets = s.sets := by
  unfold State.ageLatch
  split
  · exact (State.setOf_wr _ (by decide) _ _).trans ((State.setOf_wr _ (by decide) _ _).trans (s.setOf_wr (by decide) _ _))
  · rfl

/-- Step 1 of R319. -/
def State.latchesAged : State := s.each s.activeLatches State.ageLatch

theorem State.rd_latchesAged {r : Reg} (hv : r ≠ .LATCH_VERDICT) (hr : r ≠ .LATCH_REASON) (hc : r ≠ .KRB_CNT) (i : Nat) :
    s.latchesAged.rd r i = s.rd r i :=
  State.each_same (fun u => u.rd r i) _ (fun u z => u.rd_ageLatch hv hr hc z i) _ s

@[simp] theorem State.latchesAged_kerb : s.latchesAged.kerb = s.kerb :=
  State.each_same State.kerb _ State.ageLatch_kerb _ s

@[simp] theorem State.latchesAged_now : s.latchesAged.now = s.now := State.each_same State.now _ State.ageLatch_now _ s

theorem State.latchesAged_activeLatches : s.latchesAged.activeLatches = s.activeLatches :=
  State.activeLatches_congr (State.each_same State.sets _ State.ageLatch_sets _ s)
    fun i => s.rd_latchesAged (by decide) (by decide) (by decide) i

theorem State.latchesAged_due (d : Nat) : s.latchesAged.due d = s.due d := by
  rw [State.due, State.due, State.rd_latchesAged _ (by decide) (by decide) (by decide), State.armedSlot, State.latchesAged_kerb,
    State.latchesAged_now, State.armedSlot]

/-- What LATCH_AGE leaves of a latch that is too old. -/
theorem State.rd_ageLatch_aged {s : State} {z : Nat} (h : s.aged z = true) :
    (s.ageLatch z).rd .LATCH_VERDICT z = 2 ∧ (s.ageLatch z).rd .LATCH_REASON z = 3 := by
  simp only [State.ageLatch, if_pos h, State.count, ne_eq, reduceCtorEq, not_false_eq_true, State.rd_wr_other, State.rd_wr_same]
  exact ⟨rfl, rfl⟩

/-- With nothing aged and nothing due, steps 1 and 2 of R319 do nothing. -/
theorem State.hubSteps_idle {s : State} (ha : ∀ z ∈ s.activeLatches, s.aged z = false)
    (hd : ∀ d ∈ s.armedSlots, s.due d = false) : s.hubSteps = s := by
  have hage : s.each s.activeLatches State.ageLatch = s :=
    State.each_idle fun z hz => by rw [State.ageLatch, ha z hz]; rfl
  unfold State.hubSteps
  rw [hage]
  dsimp only
  rw [List.filter_eq_nil_iff.2 fun d hd' => by simp [hd d hd']]
  rfl

end

/-! ### A slot fires (R316) -/

section
variable (s : State)

@[simp] theorem State.rd_lateEntry {r : Reg} (h : r ≠ .KRB_CNT) (e : LateEnt) (i : Nat) : (s.lateEntry e).rd r i = s.rd r i := by
  unfold State.lateEntry
  split
  · exact s.rd_wr_other _ _ _ h
  · exact State.rd_onKerb ..

theorem State.lateEntry_latches (e : LateEnt) : (s.lateEntry e).kerb.latches = s.kerb.latches := by
  unfold State.lateEntry
  split <;> rfl

theorem State.lateEntry_log (e : LateEnt) (h : s.kerb.lateLog.length < 64) :
    (s.lateEntry e).kerb.lateLog = s.kerb.lateLog ++ [e] := by
  rw [State.lateEntry, if_neg (by omega)]
  rfl

theorem State.lateEntry_sets (e : LateEnt) : (s.lateEntry e).sets = s.sets := by
  unfold State.lateEntry
  split
  · exact s.setOf_wr (by decide) _ _
  · rfl

/-- The slot is FIRED and stands in the late log. -/
def State.slotFired (d : Nat) : State :=
  (s.wr .SLOT_CTRL_STATE d 3).lateEntry
    ⟨d, (s.wr .SLOT_CTRL_STATE d 3).rd .SLOT_CTRL_GEN d, (s.armedSlot d).win, s.now % 2 ^ 32⟩

theorem State.rd_slotFired {r : Reg} (hs : r ≠ .SLOT_CTRL_STATE) (hc : r ≠ .KRB_CNT) (d i : Nat) :
    (s.slotFired d).rd r i = s.rd r i := by
  rw [State.slotFired, State.rd_lateEntry _ hc, State.rd_wr_other _ _ _ _ hs]

theorem State.slotFired_activeLatches (d : Nat) : (s.slotFired d).activeLatches = s.activeLatches :=
  State.activeLatches_congr ((State.lateEntry_sets ..).trans (s.setOf_wr (by decide) _ _)) fun i =>
    s.rd_slotFired (by decide) (by decide) d i

theorem State.slotFired_latch (d z : Nat) : (s.slotFired d).latch z = s.latch z := by
  rw [State.latch, State.slotFired, State.lateEntry_latches]
  rfl

theorem State.slotFired_inSet (d v z : Nat) : (s.slotFired d).inSet v z = s.inSet v z := by
  rw [State.inSet, s.rd_slotFired (by decide) (by decide), State.inSet]

/-- The action of a slot that fires: MARK counts, STOP_SET makes the active latches of its set late, STOP_ALL all of them. -/
def State.slotActs (act v win : Nat) : State :=
  match act with
  | 0 => s.count .KRB_CNT 2
  | 1 => s.each (s.activeLatches.filter (s.inSet v)) fun s z => s.lateLatch win z
  | _ => s.each s.activeLatches fun s z => s.lateLatch win z

/-- The claim of the slot's invocation comes last. -/
theorem State.fireSlot_eq (d : Nat) : ∃ gen, s.fireSlot d =
    ((s.slotFired d).slotActs (max (s.armedSlot d).act (s.rd .VS_MINACT (s.armedSlot d).vset)) (s.armedSlot d).vset
      (s.armedSlot d).win).claimMissed d gen (s.armedSlot d).dl := ⟨_, rfl⟩

theorem State.rd_lateLatch_other {r : Reg} (hv : r ≠ .LATCH_VERDICT) (hr : r ≠ .LATCH_REASON) (hw : r ≠ .LATCH_WIN)
    (win z i : Nat) : (s.lateLatch win z).rd r i = s.rd r i := s.rd_setLatch_other hv hr hw ..

/-- What every late latch of a run comes to: STOP, reason LATE, the larger window. -/
theorem State.each_lateLatch {z : Nat} {l : List Nat} (hz : z ∈ l) (win : Nat) :
    (s.each l fun s z => s.lateLatch win z).rd .LATCH_VERDICT z = 2 ∧
      (s.each l fun s z => s.lateLatch win z).rd .LATCH_REASON z = 2 ∧
      ((s.each l fun s z => s.lateLatch win z).latch z).win = max (s.latch z).win win := by
  have hverdict : ∀ (u : State) b, (u.lateLatch win b).rd .LATCH_VERDICT z = (u.wr .LATCH_VERDICT b 2).rd .LATCH_VERDICT z :=
    fun u b => u.rd_setLatch_verdict ..
  have hreason : ∀ (u : State) b, (u.lateLatch win b).rd .LATCH_REASON z = (u.wr .LATCH_REASON b 2).rd .LATCH_REASON z :=
    fun u b => u.rd_setLatch_reason ..
  have hwin : ∀ (u : State) b, max ((u.lateLatch win b).latch z).win win = max (u.latch z).win win ∧
      (b = z → ((u.lateLatch win b).latch z).win = max (u.latch z).win win) ∧
      (b ≠ z → (u.lateLatch win b).latch z = u.latch z) := fun u b => by
    by_cases hb : b = z
    · subst hb
      have h : (u.lateLatch win b).latch b = ⟨max (u.latch b).win win, (u.latch b).stamp⟩ := Table.get_set_same ..
      simp [h]
    · have h : (u.lateLatch win b).latch z = u.latch z := Table.get_set_other _ _ _ _ (Ne.symm hb)
      simp [h, hb]
  refine State.each_reaches (P := fun u => max (u.latch z).win win = max (s.latch z).win win)
    (Q := fun u => u.rd .LATCH_VERDICT z = 2 ∧ u.rd .LATCH_REASON z = 2 ∧ (u.latch z).win = max (s.latch z).win win) (a := z)
    (fun u hu => ⟨?_, ?_, ?_⟩) l s hz rfl (fun u b _ hu => (hwin u b).1.trans hu) fun u b _ hu hq => ⟨?_, ?_, ?_⟩
  · exact (hverdict u z).trans (u.rd_wr_same .LATCH_VERDICT z 2)
  · exact (hreason u z).trans (u.rd_wr_same .LATCH_REASON z 2)
  · exact ((hwin u z).2.1 rfl).trans hu
  · exact (hverdict u b).trans (State.rd_wr_kept (r := .LATCH_VERDICT) hq.1 b)
  · exact (hreason u b).trans (State.rd_wr_kept (r := .LATCH_REASON) hq.2.1 b)
  · by_cases hb : b = z
    · exact ((hwin u b).2.1 hb).trans hu
    · rw [(hwin u b).2.2 hb]
      exact hq.2.2

/-- A STOP action reaches every latch that it concerns. -/
theorem State.slotActs_late {act v z : Nat} (hz : z ∈ s.activeLatches) (hact : act = 2 ∨ act = 1 ∧ s.inSet v z = true)
    (win : Nat) :
    (s.slotActs act v win).rd .LATCH_VERDICT z = 2 ∧ (s.slotActs act v win).rd .LATCH_REASON z = 2 ∧
      ((s.slotActs act v win).latch z).win = max (s.latch z).win win := by
  rcases hact with rfl | ⟨rfl, hin⟩
  · exact s.each_lateLatch hz win
  · exact s.each_lateLatch (List.mem_filter.2 ⟨hz, hin⟩) win

/-- Whatever its action, a slot that fires is FIRED, and its action leaves the late log. -/
theorem State.slotActs_fired (act v win d : Nat) : (s.slotActs act v win).rd .SLOT_CTRL_STATE d = s.rd .SLOT_CTRL_STATE d ∧
    (s.slotActs act v win).kerb.lateLog = s.kerb.lateLog := by
  have heach : ∀ l : List Nat, (s.each l fun s z => s.lateLatch win z).rd .SLOT_CTRL_STATE d = s.rd .SLOT_CTRL_STATE d ∧
      (s.each l fun s z => s.lateLatch win z).kerb.lateLog = s.kerb.lateLog := fun l =>
    ⟨State.each_same (fun u => u.rd .SLOT_CTRL_STATE d) _
        (fun u z => u.rd_lateLatch_other (by decide) (by decide) (by decide) win z d) l s,
      State.each_same (fun u => u.kerb.lateLog) (fun s z => s.lateLatch win z) (fun u z => rfl) l s⟩
  unfold State.slotActs
  split
  · exact ⟨s.rd_wr_other _ _ _ (by decide), rfl⟩
  · exact heach _
  · exact heach _

theorem State.rd_fireSlot_state (d : Nat) : (s.fireSlot d).rd .SLOT_CTRL_STATE d = 3 := by
  obtain ⟨gen, h⟩ := s.fireSlot_eq d
  rw [h, State.rd_of_hubSide (State.claimMissed_hubSide ..) rfl, (State.slotActs_fired ..).1, State.slotFired,
    State.rd_lateEntry _ (by decide), State.rd_wr_same]
  rfl

theorem State.fireSlot_lateLog (d : Nat) (h64 : s.kerb.lateLog.length < 64) : (s.fireSlot d).kerb.lateLog =
    s.kerb.lateLog ++ [⟨d, s.rd .SLOT_CTRL_GEN d, (s.armedSlot d).win, s.now % 2 ^ 32⟩] := by
  obtain ⟨gen, h⟩ := s.fireSlot_eq d
  rw [h, State.kerb_of_hubSide (State.claimMissed_hubSide ..), (State.slotActs_fired _ _ _ _ d).2, State.slotFired,
    State.lateEntry_log (s.wr .SLOT_CTRL_STATE d 3) _ h64, State.rd_wr_other _ _ _ _ (by decide)]
  rfl

theorem State.fireSlot_late {d z : Nat} (hz : z ∈ s.activeLatches)
    (hact : max (s.armedSlot d).act (s.rd .VS_MINACT (s.armedSlot d).vset) = 2 ∨
      max (s.armedSlot d).act (s.rd .VS_MINACT (s.armedSlot d).vset) = 1 ∧ s.inSet (s.armedSlot d).vset z = true) :
    (s.fireSlot d).rd .LATCH_VERDICT z = 2 ∧ (s.fireSlot d).rd .LATCH_REASON z = 2 ∧
      ((s.fireSlot d).latch z).win = max (s.latch z).win (s.armedSlot d).win := by
  obtain ⟨gen, h⟩ := s.fireSlot_eq d
  rw [h, State.rd_of_hubSide (State.claimMissed_hubSide ..) rfl, State.rd_of_hubSide (State.claimMissed_hubSide ..) rfl,
    State.latch, State.kerb_of_hubSide (State.claimMissed_hubSide ..), ← s.slotFired_latch d]
  exact State.slotActs_late _ ((s.slotFired_activeLatches d).symm ▸ hz) (by rwa [s.slotFired_inSet d]) _

end

/-! ### DEADLINE_FIRE and LATCH_AGE -/

section
variable (s : State)

theorem State.kerbUpdate_latch (z : Nat) : s.kerbUpdate.latch z = s.latch z := by
  rw [State.latch, State.kerbUpdate_latches, State.latch]

theorem deadlineFire_idle {d : Fin 1024} (hd : s.due d.val = false) (ha : s.activeLatches = []) :
    exec (.deadlineFire d) s = .next s.kerbUpdate := by
  have hage : s.latchesAged = s := by
    rw [State.latchesAged, ha]
    rfl
  change (if s.latchesAged.due d.val then done (s.latchesAged.fireSlot d.val).kerbUpdate else done s.latchesAged.kerbUpdate) = _
  rw [hage, hd]
  rfl

theorem deadlineFire_due {d : Fin 1024} (hd : s.due d.val = true) :
    exec (.deadlineFire d) s = .next (s.latchesAged.fireSlot d.val).kerbUpdate := by
  change (if s.latchesAged.due d.val then done (s.latchesAged.fireSlot d.val).kerbUpdate else done s.latchesAged.kerbUpdate) = _
  rw [s.latchesAged_due, hd]
  rfl

/-- What the ageing that comes first leaves of a slot and of what its action depends on. -/
theorem State.latchesAged_slot (d : Nat) : s.latchesAged.armedSlot d = s.armedSlot d ∧
    (∀ v, s.latchesAged.rd .VS_MINACT v = s.rd .VS_MINACT v) ∧ (∀ v z, s.latchesAged.inSet v z = s.inSet v z) ∧
    s.latchesAged.rd .SLOT_CTRL_GEN d = s.rd .SLOT_CTRL_GEN d ∧ ∀ z, s.latchesAged.latch z = s.latch z := by
  have hrd : ∀ {r : Reg}, r ≠ .LATCH_VERDICT → r ≠ .LATCH_REASON → r ≠ .KRB_CNT → ∀ i, s.latchesAged.rd r i = s.rd r i :=
    fun hv hr hc i => s.rd_latchesAged hv hr hc i
  refine ⟨?_, hrd (by decide) (by decide) (by decide), fun v z => ?_, hrd (by decide) (by decide) (by decide) d, fun z => ?_⟩
  · rw [State.armedSlot, State.latchesAged_kerb, State.armedSlot]
  · rw [State.inSet, hrd (by decide) (by decide) (by decide), State.inSet]
  · rw [State.latch, State.latchesAged_kerb, State.latch]

theorem deadlineFire_fires {d : Fin 1024} (hd : s.due d.val = true) :
    let a := s.armedSlot d.val
    ∃ t, exec (.deadlineFire d) s = .next t ∧ t.rd .SLOT_CTRL_STATE d.val = 3 ∧
      (s.kerb.lateLog.length < 64 → t.kerb.lateLog = s.kerb.lateLog ++
        [⟨d.val, s.rd .SLOT_CTRL_GEN d.val, a.win, s.now % 2 ^ 32⟩]) ∧
      (∀ z ∈ s.activeLatches, max a.act (s.rd .VS_MINACT a.vset) = 2 ∨
          (max a.act (s.rd .VS_MINACT a.vset) = 1 ∧ s.inSet a.vset z = true) →
        t.rd .LATCH_VERDICT z = 2 ∧ t.rd .LATCH_REASON z = 2 ∧ (t.latch z).win = max (s.latch z).win a.win) := by
  intro a
  obtain ⟨hslot, hmin, hset, hgen, hlatch⟩ := s.latchesAged_slot d.val
  refine ⟨_, deadlineFire_due s hd, ?_, fun h64 => ?_, fun z hz hact => ?_⟩
  · rw [State.rd_kerbUpdate _ rfl, State.rd_fireSlot_state]
  · rw [State.kerbUpdate_lateLog, State.fireSlot_lateLog _ _ (by rwa [State.latchesAged_kerb]), State.latchesAged_kerb, hslot,
      hgen, State.latchesAged_now]
  · rw [State.rd_kerbUpdate _ rfl, State.rd_kerbUpdate _ rfl, State.kerbUpdate_latch, ← hlatch z]
    have hlate := State.fireSlot_late s.latchesAged (d := d.val) (z := z) (s.latchesAged_activeLatches.symm ▸ hz)
    rw [hslot, hmin, hset] at hlate
    exact hlate hact

theorem latchAge_exec {z : Fin 512} (hz : z.val ∈ s.activeLatches) :
    exec (.latchAge z) s = .next (s.ageLatch z.val).kerbUpdate := by
  change execLatchAge z s = _
  rw [execLatchAge, if_pos (List.contains_iff_mem.2 hz)]
  rfl

theorem latchAge_aged {z : Fin 512} (hz : z.val ∈ s.activeLatches) (ha : s.aged z.val = true) :
    ∃ t, exec (.latchAge z) s = .next t ∧ t.rd .LATCH_VERDICT z.val = 2 ∧ t.rd .LATCH_REASON z.val = 3 := by
  refine ⟨_, latchAge_exec s hz, ?_⟩
  rw [State.rd_kerbUpdate _ rfl, State.rd_kerbUpdate _ rfl]
  exact State.rd_ageLatch_aged ha

end

/-- A verdict status that has been sent stays sent when the hub evaluates. -/
theorem State.sent_of_kerbUpdate {s : State} {x : Tx} (hx : x.isVerdict = true) (h : x ∈ s.tx) : x ∈ s.kerbUpdate.tx := by
  have hloss : s.refreshLoss.tx = s.tx := by
    refine (State.each_same State.tx _ (fun u z => ?_) _ _).trans (State.each_same State.tx State.silentNow (fun u k => rfl) _ _)
    dsimp only
    split <;> rfl
  have hknown : x ∈ s.lossesKnown.tx := State.sent_of_hubSide (State.aggRefresh_hubSide _) hx (hloss.symm ▸ h)
  rw [State.kerbUpdate_eq]
  exact State.sent_of_hubSide (State.combine_hubSide _) hx hknown

/-! ### Verdict records (R317, R318) -/

section
variable (s : State)

/-- The zones of a verdict set are those of the latches. -/
theorem State.lt_of_mem_setZones {v z : Nat} (h : z ∈ s.setZones v) : z < 512 := by
  obtain ⟨w, hw, hz⟩ := List.mem_flatMap.1 h
  obtain ⟨b, hb, rfl⟩ := List.mem_map.1 hz
  have hw := List.mem_range.1 hw
  have hb := List.mem_range.1 (List.mem_filter.1 hb).1
  omega

/-- A latch takes a verdict of window `w` when its own is older, or equal with reason VERDICT (R318). -/
def State.takesVerdict (w z : Nat) : Prop := (s.latch z).win < w ∨ (w = (s.latch z).win ∧ s.rd .LATCH_REASON z = 1)

/-- The latch shows the verdict. -/
def State.verdictTaken (w code z : Nat) : State := (s.setLatch z code 1 w s.now).put .LATCH_LATE_SEEN z false

theorem State.applyVerdict_takes {s : State} {w z : Nat} (h : s.takesVerdict w z) (code : Nat) :
    s.applyVerdict w code z = s.verdictTaken w code z := if_pos h

theorem State.applyVerdict_keeps {s : State} {w z : Nat} (h : ¬ s.takesVerdict w z) (code : Nat) :
    s.applyVerdict w code z = s.count .KRB_CNT 7 := if_neg h

theorem State.applyVerdict_now (w code z : Nat) : (s.applyVerdict w code z).now = s.now := by
  unfold State.applyVerdict
  dsimp only
  split <;> rfl

/-- A verdict for one zone leaves the latch of another. -/
theorem State.applyVerdict_other {z b : Nat} (hz : z < 512) (hb : b < 512) (h : b ≠ z) (w code : Nat) :
    (s.applyVerdict w code b).latch z = s.latch z ∧ (s.applyVerdict w code b).rd .LATCH_VERDICT z = s.rd .LATCH_VERDICT z ∧
      (s.applyVerdict w code b).rd .LATCH_REASON z = s.rd .LATCH_REASON z := by
  have hindex : ∀ (u : State) (r : Reg) v, (u.wr r b v).rd r z = u.rd r z := fun u r v =>
    u.rd_wr_index r v (by omega) (by omega) (Ne.symm h)
  by_cases ht : s.takesVerdict w b
  · rw [State.applyVerdict_takes ht, State.verdictTaken]
    refine ⟨Table.get_set_other _ _ _ _ (Ne.symm h), ?_, ?_⟩
    · rw [State.put, State.rd_wr_other _ _ _ _ (by decide), State.rd_setLatch_verdict, hindex]
    · rw [State.put, State.rd_wr_other _ _ _ _ (by decide), State.rd_setLatch_reason, hindex]
  · rw [State.applyVerdict_keeps ht]
    exact ⟨rfl, s.rd_wr_other _ _ _ (by decide), s.rd_wr_other _ _ _ (by decide)⟩

/-- A latch that takes a verdict shows its code, reason VERDICT, its window and the stamp. -/
theorem State.applyVerdict_same {z w code : Nat} (h : s.takesVerdict w z) (hcode : code < 4) :
    (s.applyVerdict w code z).rd .LATCH_VERDICT z = code ∧ (s.applyVerdict w code z).rd .LATCH_REASON z = 1 ∧
      (s.applyVerdict w code z).latch z = ⟨w, s.now⟩ := by
  rw [State.applyVerdict_takes h, State.verdictTaken]
  refine ⟨?_, ?_, Table.get_set_same ..⟩
  · rw [State.put, State.rd_wr_other _ _ _ _ (by decide), State.rd_setLatch_verdict, State.rd_wr_same]
    exact Nat.mod_eq_of_lt hcode
  · rw [State.put, State.rd_wr_other _ _ _ _ (by decide), State.rd_setLatch_reason, State.rd_wr_same]
    rfl

/-- A latch that does not take a verdict stays as it is. -/
theorem State.applyVerdict_same_keeps {z w : Nat} (h : ¬ s.takesVerdict w z) (code : Nat) :
    (s.applyVerdict w code z).latch z = s.latch z ∧ (s.applyVerdict w code z).rd .LATCH_VERDICT z = s.rd .LATCH_VERDICT z ∧
      (s.applyVerdict w code z).rd .LATCH_REASON z = s.rd .LATCH_REASON z := by
  rw [State.applyVerdict_keeps h]
  exact ⟨rfl, s.rd_wr_other _ _ _ (by decide), s.rd_wr_other _ _ _ (by decide)⟩

/-- The verdicts of a record reach the latches of its set. -/
def State.verdictsApplied (r : List Byte) (w : Nat) (l : List Nat) : State :=
  s.each l fun s z => s.applyVerdict w (verdictCode r z) z

variable {r : List Byte} {w z : Nat} {l : List Nat}

/-- A latch that does not take the record's verdict stays as it is through the run. -/
theorem State.verdictsApplied_keeps (hl : ∀ b ∈ l, b < 512) (hz : z < 512) (h : ¬ s.takesVerdict w z) :
    (s.verdictsApplied r w l).rd .LATCH_VERDICT z = s.rd .LATCH_VERDICT z ∧ (s.verdictsApplied r w l).latch z = s.latch z := by
  suffices hrun : ∀ u : State, (u.latch z = s.latch z ∧ u.rd .LATCH_VERDICT z = s.rd .LATCH_VERDICT z ∧
      u.rd .LATCH_REASON z = s.rd .LATCH_REASON z) → ((u.verdictsApplied r w l).latch z = s.latch z ∧
        (u.verdictsApplied r w l).rd .LATCH_VERDICT z = s.rd .LATCH_VERDICT z ∧
        (u.verdictsApplied r w l).rd .LATCH_REASON z = s.rd .LATCH_REASON z) by
    exact ⟨(hrun s ⟨rfl, rfl, rfl⟩).2.1, (hrun s ⟨rfl, rfl, rfl⟩).1⟩
  induction l with
  | nil => exact fun u hu => hu
  | cons b l ih =>
    intro u hu
    obtain ⟨hlatch, hverdict, hreason⟩ := hu
    refine ih (fun c hc => hl c (List.mem_cons_of_mem _ hc)) (u.applyVerdict w (verdictCode r b) b) ?_
    have hstep : (u.applyVerdict w (verdictCode r b) b).latch z = u.latch z ∧
        (u.applyVerdict w (verdictCode r b) b).rd .LATCH_VERDICT z = u.rd .LATCH_VERDICT z ∧
        (u.applyVerdict w (verdictCode r b) b).rd .LATCH_REASON z = u.rd .LATCH_REASON z := by
      by_cases hb : b = z
      · subst hb
        refine u.applyVerdict_same_keeps (fun ht => h ?_) _
        rwa [State.takesVerdict, hlatch, hreason] at ht
      · exact u.applyVerdict_other hz (hl b List.mem_cons_self) hb ..
    rwa [hlatch, hverdict, hreason] at hstep

theorem verdictCode_lt (r : List Byte) (z : Nat) : verdictCode r z < 4 := bits_lt _ _ 2

/-- A latch that takes the record's verdict shows it after the run. -/
theorem State.verdictsApplied_takes (hl : ∀ b ∈ l, b < 512) (hz : z ∈ l) (h : s.takesVerdict w z) :
    (s.verdictsApplied r w l).rd .LATCH_VERDICT z = verdictCode r z ∧ (s.verdictsApplied r w l).rd .LATCH_REASON z = 1 ∧
      (s.verdictsApplied r w l).latch z = ⟨w, s.now⟩ := by
  have hsame : ∀ u : State, u.takesVerdict w z ∧ u.now = s.now →
      (u.applyVerdict w (verdictCode r z) z).rd .LATCH_VERDICT z = verdictCode r z ∧
        (u.applyVerdict w (verdictCode r z) z).rd .LATCH_REASON z = 1 ∧
        (u.applyVerdict w (verdictCode r z) z).latch z = ⟨w, s.now⟩ := fun u hu =>
    hu.2 ▸ u.applyVerdict_same hu.1 (verdictCode_lt r z)
  refine State.each_reaches (f := fun s z => s.applyVerdict w (verdictCode r z) z)
    (P := fun u => u.takesVerdict w z ∧ u.now = s.now)
    (Q := fun u => u.rd .LATCH_VERDICT z = verdictCode r z ∧ u.rd .LATCH_REASON z = 1 ∧ u.latch z = ⟨w, s.now⟩) (a := z)
    hsame l s hz ⟨h, rfl⟩ (fun u b hb hu => ⟨?_, (u.applyVerdict_now ..).trans hu.2⟩) fun u b hb hu hq => ?_
  · by_cases hbz : b = z
    · subst hbz
      obtain ⟨-, hreason, hlatch⟩ := hsame u hu
      exact .inr ⟨by rw [hlatch], hreason⟩
    · obtain ⟨hlatch, -, hreason⟩ := u.applyVerdict_other (hl z hz) (hl b hb) hbz w (verdictCode r b)
      rw [State.takesVerdict, hlatch, hreason]
      exact hu.1
  · by_cases hbz : b = z
    · subst hbz
      exact hsame u hu
    · obtain ⟨hlatch, hverdict, hreason⟩ := u.applyVerdict_other (hl z hz) (hl b hb) hbz w (verdictCode r b)
      rw [hlatch, hverdict, hreason]
      exact hq

/-- The slots and what has been sent are as they were. -/
theorem State.verdictsApplied_tx : (s.verdictsApplied r w l).tx = s.tx :=
  State.each_same State.tx _ (fun u z => by unfold State.applyVerdict; dsimp only; split <;> rfl) l s

end

/-! ### VERDICT_COMMIT (R317 to R319) -/

section
variable (s : State) {core : Fin 16} {r : List Byte}

/-- The outcome of the checks is told to the core. -/
def State.verdictTold (core : Fin 16) (r : List Byte) : State := s.emit (.vpStatus core.val (s.verdictCheck core.val r))

/-- The slot that a record names. -/
def verdictSlot (r : List Byte) : Nat := bits (leAt r 0 2) 0 10

/-- A record that passes: the latches of the slot's set, the slot DISCHARGED, its invocation claimed. -/
def State.verdictPassed (u : State) (r : List Byte) (a : ArmedSlot) : State :=
  ((u.verdictsApplied r a.win (u.setZones a.vset)).wr .SLOT_CTRL_STATE (verdictSlot r) 2).claimOk (verdictSlot r) (byteAt r 2)

/-- A record that is late (check 6): counted, logged, and seen in the latches of the slot's set. -/
def State.verdictLate (u : State) (r : List Byte) (a : ArmedSlot) : State :=
  let v := (u.count .KRB_CNT 1).lateEntry ⟨verdictSlot r, byteAt r 2, a.win, u.now % 2 ^ 32⟩
  v.each (v.setZones a.vset) fun s z => s.put .LATCH_LATE_SEEN z true

/-- A record that fails check 3: counted, and an isolation violation. -/
def State.verdictForeign (u : State) (core : Fin 16) (r : List Byte) : State :=
  (u.count .KRB_CNT 0).isoViolation (core.val / 2) isoVerdict (verdictSlot r)

/-- What a record comes to when nothing is due and nothing aged, by the outcome of its checks. -/
theorem verdictCommit_exec (hlen : r.length = 144) (hidle : s.hubSteps = s) :
    (s.verdictCheck core.val r ∈ [1, 2, 4, 5] →
      exec (.verdictCommit core r) s = .next ((s.verdictTold core r).count .KRB_CNT 0).kerbUpdate) ∧
    (s.verdictCheck core.val r = 3 →
      exec (.verdictCommit core r) s = .next ((s.verdictTold core r).verdictForeign core r).kerbUpdate) ∧
    (s.verdictCheck core.val r = 6 → exec (.verdictCommit core r) s =
      .next ((s.verdictTold core r).verdictLate r (s.armedSlot (verdictSlot r))).kerbUpdate) ∧
    (s.verdictCheck core.val r = 0 → exec (.verdictCommit core r) s =
      .next ((s.verdictTold core r).verdictPassed r (s.armedSlot (verdictSlot r))).kerbUpdate) := by
  have hlen : (r.length == 144) = true := by simp [hlen]
  have hexec : exec (.verdictCommit core r) s = execVerdictCommit core r s := rfl
  rw [hexec, execVerdictCommit, hidle, hlen, checked, if_pos rfl]
  dsimp only
  refine ⟨fun h => ?_, fun h => ?_, fun h => ?_, fun h => ?_⟩
  · unfold State.verdictTold
    simp only [List.mem_cons, List.not_mem_nil, or_false] at h
    rcases h with h | h | h | h <;> rw [h] <;> rfl
  all_goals
    unfold State.verdictTold
    rw [h]
    rfl

/-- The latches of a late record's set show that it has been seen, and nothing else of a latch changes. -/
theorem State.verdictLate_leaves (u : State) (a : ArmedSlot) : (u.verdictLate r a).kerb.latches = u.kerb.latches ∧
    (∀ z ∈ u.setZones a.vset, (u.verdictLate r a).rd .LATCH_LATE_SEEN z = 1 ∧
      (u.verdictLate r a).rd .LATCH_VERDICT z = u.rd .LATCH_VERDICT z) ∧
    (u.kerb.lateLog.length < 64 → (u.verdictLate r a).kerb.lateLog =
      u.kerb.lateLog ++ [⟨verdictSlot r, byteAt r 2, a.win, u.now % 2 ^ 32⟩]) := by
  let v := (u.count .KRB_CNT 1).lateEntry ⟨verdictSlot r, byteAt r 2, a.win, u.now % 2 ^ 32⟩
  let l := v.setZones a.vset
  have hv : ∀ {q : Reg}, q ≠ .KRB_CNT → ∀ i, v.rd q i = u.rd q i := fun hq i => by
    rw [State.rd_lateEntry _ hq, State.count, State.rd_wr_other _ _ _ _ hq]
  have hkerb : (v.each l fun s z => s.put .LATCH_LATE_SEEN z true).kerb = v.kerb :=
    State.each_same State.kerb (fun s z => s.put .LATCH_LATE_SEEN z true) (fun _ _ => rfl) _ _
  have hverdict : ∀ z, (v.each l fun s z => s.put .LATCH_LATE_SEEN z true).rd .LATCH_VERDICT z = u.rd .LATCH_VERDICT z := fun z =>
    (State.each_same (fun w => w.rd .LATCH_VERDICT z) (fun s z => s.put .LATCH_LATE_SEEN z true)
      (fun w b => w.rd_wr_other _ _ _ (by decide)) _ _).trans (hv (by decide) z)
  refine ⟨?_, fun z hz => ⟨?_, hverdict z⟩, fun h64 => ?_⟩
  · exact (congrArg KerbSt.latches hkerb).trans (State.lateEntry_latches ..)
  · have hz : z ∈ l := by
      rwa [show l = u.setZones a.vset from State.setZones_congr (hv (by decide)) _]
    exact State.each_reaches (f := fun s z => s.put .LATCH_LATE_SEEN z true) (a := z) (P := fun _ => True)
      (Q := fun w => w.rd .LATCH_LATE_SEEN z = 1) (fun w _ => w.rd_wr_same .LATCH_LATE_SEEN z 1) l v hz trivial
      (fun _ _ _ _ => trivial)
      fun w b _ _ hw => State.rd_wr_kept (r := .LATCH_LATE_SEEN) hw b
  · exact (congrArg KerbSt.lateLog hkerb).trans (State.lateEntry_log (u.count .KRB_CNT 1) _ h64)

/-- The latches and the slot after a record that passes. -/
theorem State.verdictPassed_leaves (u : State) (a : ArmedSlot) :
    (u.verdictPassed r a).rd .SLOT_CTRL_STATE (verdictSlot r) = 2 ∧
    (∀ x : Tx, x.isVerdict = true → x ∈ u.tx → x ∈ (u.verdictPassed r a).kerbUpdate.tx) ∧
    ∀ z ∈ u.setZones a.vset,
      (u.takesVerdict a.win z → (u.verdictPassed r a).rd .LATCH_VERDICT z = verdictCode r z ∧
        (u.verdictPassed r a).rd .LATCH_REASON z = 1 ∧ (u.verdictPassed r a).latch z = ⟨a.win, u.now⟩) ∧
      (¬ u.takesVerdict a.win z →
        (u.verdictPassed r a).rd .LATCH_VERDICT z = u.rd .LATCH_VERDICT z ∧ (u.verdictPassed r a).latch z = u.latch z) := by
  let l := u.setZones a.vset
  let v := (u.verdictsApplied r a.win l).wr .SLOT_CTRL_STATE (verdictSlot r) 2
  have hclaim : (u.verdictPassed r a).hubSide = v.hubSide := State.claimOk_hubSide ..
  have hrd : ∀ {q : Reg}, q.ofHub = true → q ≠ .SLOT_CTRL_STATE → ∀ i,
      (u.verdictPassed r a).rd q i = (u.verdictsApplied r a.win l).rd q i :=
    fun hq hs i => (State.rd_of_hubSide hclaim hq i).trans (State.rd_wr_other _ _ _ _ hs)
  have hlatch : ∀ z, (u.verdictPassed r a).latch z = (u.verdictsApplied r a.win l).latch z := fun z => by
    rw [State.latch, State.kerb_of_hubSide hclaim]
    rfl
  have hl : ∀ b ∈ l, b < 512 := fun b hb => u.lt_of_mem_setZones hb
  refine ⟨?_, fun x hx hmem => ?_, fun z hz => ⟨fun h => ?_, fun h => ?_⟩⟩
  · exact (State.rd_of_hubSide hclaim rfl _).trans (State.rd_wr_same _ .SLOT_CTRL_STATE _ 2)
  · refine State.sent_of_kerbUpdate hx (State.sent_of_hubSide hclaim hx ?_)
    exact (u.verdictsApplied_tx).symm ▸ hmem
  · rw [hrd rfl (by decide), hrd rfl (by decide), hlatch]
    exact u.verdictsApplied_takes hl hz h
  · rw [hrd rfl (by decide), hlatch]
    exact u.verdictsApplied_keeps hl (hl z hz) h

end

/-! ### The late log -/

theorem krbLatelogPop_exec {s : State} {c : Fin 16} {e : LateEnt} {rest : List LateEnt}
    (h : s.admitRead (.fw c) .KRB_LATELOG 0 = .ok s) (hlog : s.kerb.lateLog = e :: rest) :
    exec (.krbLatelogPop (.fw c)) s = .next (((((((s.onKerb fun k => { k with lateLog := rest }).wr .KRB_LATELOG 0 e.slot).wr
      .KRB_LATELOG 1 e.gen).wr .KRB_LATELOG 2 e.win).wr .KRB_LATELOG 3 e.stamp).emit (.readData (.fw c) e.slot)) : State) := by
  change execKrbLatelogPop (.fw c) s = _
  simp only [execKrbLatelogPop, h, hlog, done]

theorem krbLatelogPop_takes {s : State} {c : Fin 16} {e : LateEnt} {rest : List LateEnt}
    (h : s.admitRead (.fw c) .KRB_LATELOG 0 = .ok s) (hlog : s.kerb.lateLog = e :: rest) :
    ∃ t, exec (.krbLatelogPop (.fw c)) s = .next t ∧ t.kerb = { s.kerb with lateLog := rest } ∧
      t.tx = .readData (.fw c) e.slot :: s.tx ∧ t.rd .KRB_LATELOG 0 = e.slot % 2 ^ 32 ∧ t.rd .KRB_LATELOG 1 = e.gen % 2 ^ 32 ∧
      t.rd .KRB_LATELOG 2 = e.win % 2 ^ 32 ∧ t.rd .KRB_LATELOG 3 = e.stamp % 2 ^ 32 := by
  have hother : ∀ (u : State) {i j : Nat} v, i < 4 → j < 4 → j ≠ i →
      (u.wr .KRB_LATELOG i v).rd .KRB_LATELOG j = u.rd .KRB_LATELOG j :=
    fun u i j v hi hj h => u.rd_wr_index _ v (by omega) (by omega) h
  refine ⟨_, krbLatelogPop_exec h hlog, rfl, rfl, ?_, ?_, ?_, ?_⟩ <;> rw [State.rd_emit]
  · rw [hother _ _ (by decide) (by decide) (by decide), hother _ _ (by decide) (by decide) (by decide),
      hother _ _ (by decide) (by decide) (by decide), State.rd_wr_same]
    rfl
  · rw [hother _ _ (by decide) (by decide) (by decide), hother _ _ (by decide) (by decide) (by decide), State.rd_wr_same]
    rfl
  · rw [hother _ _ (by decide) (by decide) (by decide), State.rd_wr_same]
    rfl
  · rw [State.rd_wr_same]
    rfl

/-- Settles O36: a slot by what arms it and by the action it fires with, a record by the outcome of its checks, a latch by whether
it takes a verdict or is too old. -/
theorem verdictsAndDeadlines : Obligations.VerdictsAndDeadlines := by
  refine ⟨fun s c d w h hc hact => ?_, fun s d => ?_, fun s core r hlen ha hd => ?_, fun s z hz => ?_, fun s c e rest h hlog =>
    krbLatelogPop_takes h hlog⟩
  · have hexec := slotArm_exec h hc hact
    refine ⟨fun h1 => ?_, fun h1 hb => ?_, fun h1 hb => ?_⟩
    · rw [hexec, if_pos h1]
    · obtain ⟨hstate, hfact, hset, hspur⟩ := s.rd_slotFields d.val w
      exact ⟨s.slotFields d.val w, by rw [hexec, if_neg h1, hb]; rfl, hstate, hfact, hset, hspur, rfl⟩
    · obtain ⟨hstate, hgen⟩ := s.rd_slotArmed d.val w
      exact ⟨s.slotArmed d.val w, by rw [hexec, if_neg h1, hb]; rfl, hstate, hgen, s.slotArmed_slot d.val w, rfl, rfl⟩
  · exact ⟨deadlineFire_idle s, deadlineFire_fires s⟩
  · obtain ⟨hfail, hforeign, hlate, hpass⟩ := verdictCommit_exec s (core := core) hlen (State.hubSteps_idle ha hd)
    refine ⟨hfail, hforeign, fun h6 => ?_, fun h0 => ?_⟩
    · obtain ⟨hlatches, hseen, hlog⟩ := State.verdictLate_leaves (r := r) (s.verdictTold core r) (s.armedSlot (verdictSlot r))
      refine ⟨_, hlate h6, ?_, fun z hz => ?_, fun h64 => ?_⟩
      · rw [State.kerbUpdate_latches, hlatches]
        rfl
      · rw [State.rd_kerbUpdate _ rfl, State.rd_kerbUpdate _ rfl]
        exact hseen z hz
      · rw [State.kerbUpdate_lateLog]
        exact hlog h64
    · obtain ⟨hslot, htx, hzones⟩ := State.verdictPassed_leaves (r := r) (s.verdictTold core r) (s.armedSlot (verdictSlot r))
      refine ⟨_, hpass h0, ?_, ?_, fun z hz => ?_⟩
      · rw [State.rd_kerbUpdate _ rfl]
        exact hslot
      · exact htx _ rfl (h0 ▸ List.mem_cons_self)
      · rw [State.rd_kerbUpdate _ rfl, State.rd_kerbUpdate _ rfl, State.kerbUpdate_latch]
        exact hzones z hz
  · exact ⟨fun h => by rw [latchAge_exec s hz, State.ageLatch, h]; rfl, latchAge_aged s hz⟩

end Sys2Proof.Machine
end
